-- ==== Sys2Proof/Word.lean ====
section
/-! DEFINITION. The plain words of the model: bytes, tallies, floating-point values as data, and little-endian
conversion. A floating-point value is kept as what it is (a NaN, a signed infinity, or sign, significand and
exponent), so that no NaN bit pattern is ever chosen (the manual names none). -/

namespace Sys2Proof

/-- One byte. -/
abbrev Byte := BitVec 8

/-- A tally: a 64-bit counter whose arithmetic wraps (R6). -/
abbrev Tally := BitVec 64

/-- A floating-point value: NaN, an infinity (`neg`), or `(-1)^neg * man * 2^exp`. -/
inductive Flt where
  | nan
  | inf (neg : Bool)
  | fin (neg : Bool) (man : Nat) (exp : Int)
  deriving DecidableEq, Repr, Inhabited

/-- Bytes read little-endian as a number (00_scope.md, "Numbers and units"). -/
def leNat : List Byte → Nat
  | [] => 0
  | b :: bs => b.toNat + 256 * leNat bs

/-- The `n` little-endian bytes of a number. -/
def leBytes : Nat → Nat → List Byte
  | 0, _ => []
  | n + 1, v => BitVec.ofNat 8 v :: leBytes n (v / 256)

/-- Bits `[lo + w - 1 : lo]` of a number. -/
def bitsOf (v lo w : Nat) : Nat := (v >>> lo) % 2 ^ w

/-- `n` elements from position `i` on. -/
def slice {α : Type} (l : List α) (i n : Nat) : List α := (l.drop i).take n

end Sys2Proof
end

