-- ==== Sys2Proof/Types.lean ====
section
/-! DEFINITION. The plain data that commands carry and the state stores: the records, entries, sections, frames and
plans that the manual lays out. Each structure names the table or rule it follows. -/

namespace Sys2Proof

/-- Admission colours (R93). -/
inductive Colour where | green | yellow | red
  deriving DecidableEq, Repr, Inhabited

/-- Completion status codes (Table 0.3, R8). -/
inductive Status where
  | ok | fewer | truncated | shed | dataError | versionRetired | noService | tenantReset
  deriving DecidableEq, Repr, Inhabited

/-- Phases of a turn boundary (Table 2.1). -/
inductive Phase where | p0 | p1 | p2 | p3 | p4 | p5 | p6
  deriving DecidableEq, Repr, Inhabited

/-- Queue types (Table 3.5, TYPE). -/
inductive QType where | query | ingest | result | event
  deriving DecidableEq, Repr, Inhabited

/-- The eight stage engines of a quarter (Table 15.1). -/
inductive Engine where | composer | router | scanner | selector | bazaar | ingest | compactor | adapter
  deriving DecidableEq, Repr, Inhabited

/-- Ingest operations (Table 3.8). -/
inductive IngOp where | insert | upsert | delete | nop
  deriving DecidableEq, Repr, Inhabited

/-- Metrics (R187). -/
inductive Metric where | ip | l2 | cosine | hamming
  deriving DecidableEq, Repr, Inhabited

/-- Rounding modes (R160), and the upward rounding of the first-level Aqnil scale (R168). -/
inductive Rnd where | even | away | up
  deriving DecidableEq, Repr, Inhabited

/-- The narrow and wide element formats of Table 5.1 and Table 7.1. -/
inductive Fmt where | int8 | e4m3 | e5m2 | bf16 | fp16 | aqnil4 | mxfp4 | mxint8
  deriving DecidableEq, Repr, Inhabited

/-- Modes of a bank group (R246); `planner` is given by the board and not stored. -/
inductive RowSrc where | host | planner
  deriving DecidableEq, Repr, Inhabited

/-- A bank of search memory: stack, pseudo-channel (bank group), bank (R239, R240). -/
structure BankId where
  stack : Nat
  group : Nat
  bank : Nat
  deriving DecidableEq, Repr, Inhabited

/-- What is found of a flash channel at a review (Table 16.5): PE_MEAN, PE_MAX, SPARE_PCT_MIN and the pattern of
LDPC_ITER_MEAN. -/
structure ChanHealth where
  chan : Nat
  peMean : Nat
  peMax : Nat
  spareMin : Nat
  ldpcIter : Nat
  deriving DecidableEq, Repr, Inhabited

/-- The operations of Table 10.3. -/
inductive RowOp where | nop | and | or | xor | not | pred | count | select | hclear | hdump
  deriving DecidableEq, Repr, Inhabited

/-- A row-logic command (Table 10.2), after the clamps that the table states. -/
structure RowCmd where
  op : RowOp
  rowA : Nat
  rowB : Nat
  rowD : Nat
  width : Nat
  filter : Bool
  vis : Bool
  half : Nat
  sq : Nat
  nvalid : Nat
  rslot : Nat
  theta : Nat
  deriving DecidableEq, Repr, Inhabited

/-- A predicate (Table 10.4, and the predicate fields of Table 3.7) with the pin turn for VIS. -/
structure Pred where
  must : BitVec 64
  mustNot : BitVec 64
  attrLo : Nat
  attrHi : Nat
  pin : Nat
  deriving DecidableEq, Repr, Inhabited

/-- One reservation of tiles: a tile and the stage engine it is lent to (R19). -/
structure Loan where
  tile : Nat
  engine : Engine
  deriving DecidableEq, Repr, Inhabited

/-- The board of one half for one turn (Table 2.2). Capacities not listed by the Planner are zero. -/
structure Board where
  loans : List Loan
  issue : List (Nat × Engine × Nat)       -- quarter, engine, operations
  windows : List (Nat × Nat)              -- stack, bank group in Planner row logic
  waySlots : List (Nat × Nat)             -- waystation, its flash reads kept for composition, before the candidates (R120, R272)
  portBytes : List (Nat × Nat)            -- port, caravan bytes
  hostSlots : Nat
  ingestCap : Nat
  bridgeBytes : Nat
  busBytes : List (Nat × Nat)             -- stack, bytes of its result bus (R262)
  ahead : List (Nat × Engine × Nat)       -- turns ahead, engine, operations that the board of that turn can still be given (R43)
  contexts : Nat                          -- new queries that the half may carry into t0 (R43)
  gathers : Nat                           -- row gathers (R119)
  energy : Nat                            -- estimated energy in watt-microseconds (R473)
  deriving DecidableEq, Repr, Inhabited

/-- A probe record (Table 9.2). -/
structure ProbeRec where
  qh : Nat
  home : Nat
  pin : Nat
  deadline : Nat
  colour : Colour
  round : Nat
  k : Nat
  c : Nat
  coll : Nat
  pred : Pred
  keys : List Nat
  sketch : List Bool
  luts : List (List Flt)
  vec : List Flt
  deriving DecidableEq, Repr, Inhabited

/-- An entry of a partial list (Table 12.2). -/
structure PEntry where
  id : BitVec 64
  key : Flt
  writeTurn : Nat
  origin : Nat
  deriving DecidableEq, Repr, Inhabited

/-- A partial list (Tables 12.1 and 12.2). -/
structure PartialList where
  qh : Nat
  home : Nat
  src : Nat
  round : Nat
  replica : Bool
  error : Bool
  pin : Nat
  entries : List PEntry
  retired : Nat                 -- probes of the unit answered under R210 (R237)
  deriving DecidableEq, Repr, Inhabited

/-- A prepared ingest entry as a holder receives it (R297, R299). -/
structure StageEntry where
  wid : Nat                     -- write number at the origin
  origin : Nat
  coll : Nat
  key : Nat
  id : BitVec 64
  tag : BitVec 64
  attr : Nat
  sketch : List Bool
  codes : List Nat
  full : List Byte
  deriving DecidableEq, Repr, Inhabited

/-- One commit or abort in a commit batch (R301, R302). -/
structure CommitRec where
  wid : Nat
  coll : Nat
  op : IngOp
  id : BitVec 64
  key : Nat
  abort : Bool
  seq : Nat := 0                -- place in the batch: the order in which the origin took the entries
  deriving DecidableEq, Repr, Inhabited

/-- One stamp (R305): it ends the entry named by list key, ID, WRITE_TURN and ORIGIN. -/
structure Stamp where
  key : Nat
  id : BitVec 64
  writeTurn : Nat
  origin : Nat
  delTurn : Nat
  deriving DecidableEq, Repr, Inhabited

/-- One record of a move log (R335): a staged append or an applied stamp. -/
inductive LogRec where
  | append (e : StageEntry)
  | stamp (s : Stamp)
  deriving DecidableEq, Repr, Inhabited

/-- A drift record (R312): centroid, count and the Aqnil-4 row as codes, block scales and row scale. -/
structure DriftRec where
  centroid : Nat
  n : Nat
  codes : List Int
  scales : List Nat
  s2 : Flt
  deriving DecidableEq, Repr, Inhabited

/-- Grants (R44, R298, R148). -/
inductive GrantKind where | shard | ingest | segment
  deriving DecidableEq, Repr, Inhabited

/-- One grant: units of work that `granter` allows `grantee` per turn. A shard grant counts probes, candidate reads and
partial-list bytes (R44); the others count staged entries or segment slots in `amount`. -/
structure Grant where
  kind : GrantKind
  granter : Nat
  grantee : Nat
  amount : Nat
  reads : Nat := 0
  bytes : Nat := 0
  deriving DecidableEq, Repr, Inhabited

/-- Holder roles (Tables 14.5 and 17.5). -/
inductive Role where | primary | replica | incoming | departing | stale | quarantined
  deriving DecidableEq, Repr, Inhabited

/-- A holder of a list with its role and pin bounds (Tables 14.5 and 17.5). -/
structure Holder where
  node : Nat
  role : Role
  firstPin : Nat
  lastPin : Nat
  deriving DecidableEq, Repr, Inhabited

/-- What a REPORT record reports (Table 17.4, TYPE 9). -/
inductive ReportKind where | drift | reshape | copyReady | rebuild | memberLoaded | salvage
  deriving DecidableEq, Repr, Inhabited

/-- Ledger records (Table 17.4). -/
inductive LedgerRec where
  | member (node : Nat) (joined : Bool) (tag : List Byte) (state : Nat)
  | list (key : Nat) (holders : List Holder)
  | shard (coll shard primary replica : Nat)
  | segment (slot seg primary replica : Nat) (settings : List Nat)   -- settings: the watch settings that the epoch carries (R178)
  | descriptor (addr value : Nat)
  | period (us switchTurn : Nat)
  | holders (nodes : List Nat) (leader term : Nat)
  | link (node port peer peerPort : Nat) (up : Bool)
  | report (kind : ReportKind) (key arg : Nat)
  | cache (slots : List Nat)
  | reshape (key other : Nat) (split : Bool) (rows : List (List Flt))   -- R315, R316
  deriving DecidableEq, Repr, Inhabited

/-- A request to the leader with the node that sends it (R382). -/
structure LedgerReq where
  node : Nat
  body : LedgerRec
  deriving DecidableEq, Repr, Inhabited

/-- A ledger epoch (R383). -/
structure Epoch where
  num : Nat
  effect : Nat
  leader : Nat
  recs : List LedgerReq
  grid : List Nat := []         -- TURN_PERIOD_US, the pending period and its switch turn, for the node that it admits (R25, R30)
  deriving DecidableEq, Repr, Inhabited

/-- An entry of a snapshot (R335): the parts that the list holds, and its base segment, none for a delta entry. -/
structure SnapEntry where
  id : BitVec 64
  tag : BitVec 64
  attr : Nat
  writeTurn : Nat
  origin : Nat
  delTurn : Nat
  sketch : List Bool
  codes : List Nat
  full : List Byte
  wid : Nat
  seq : Nat
  aborted : Bool
  seg : Option Nat
  deriving DecidableEq, Repr, Inhabited

/-- Body of a COPY section (R335, R146, R211, R491, R458). -/
inductive CopyBody where
  | listPart (key mib : Nat) (last hot : Bool) (entries : List SnapEntry)   -- the last part carries the snapshot
  | dirRecords (coll shard done : Nat) (recs : List (BitVec 64 × Nat × Nat × Nat))   -- done 0: of a rebuild
  -- centroids by number, with codes, scale, sketch and the boundary of their death (0 alive)
  | centroids (coll version : Nat) (rows : List (Nat × List Flt × Flt × List Bool × Nat)) (entries : List Nat) (edges : List (Nat × List Nat))
  | image (coll : Nat) (bytes : List Byte)
  | segment (slot seg first layers : Nat) (image : List Byte) (settings : List Nat)
  | ledger (recs : List LedgerRec)
  deriving DecidableEq, Repr, Inhabited

/-- The published statistics of a layer and its active set, as its holding node sends them (R178, Table 7.7). -/
structure LayerStats where
  turn : Nat                    -- EPOCH_TURN
  mse : Flt
  nmse : Flt
  sat : Nat                     -- CONV_SATURATED
  n : Nat                       -- CONV_ELEMENTS
  aux : Flt
  eightBit : Bool
  deriving DecidableEq, Repr, Inhabited

/-- Caravan sections (Table 17.3), a malformed Hexiaper section (R379), and an unlisted TYPE (R377). -/
inductive Sect where
  | probe (r : ProbeRec)
  | matchRep (qh pin round count : Nat)
  | partialList (p : PartialList)
  | cancel (qh pin : Nat)
  | activation (home qh pin slot seg layer : Nat) (rows : List (List Flt))
  | stage (e : StageEntry)
  | ack (wids : List Nat) (refused : List Nat) (short : List Nat)
  | commit (turn : Nat) (recs : List CommitRec)
  | stamp (turn shard coll : Nat) (stamps : List Stamp)
  | moveLog (key turn : Nat) (log : List LogRec)
  | drift (coll epoch : Nat) (recs : List DriftRec)
  | heat (heats : List (Nat × Nat))
  | grant (g : Grant)
  | ledgerReq (r : LedgerReq)
  | epoch (e : Epoch)
  | stats (slot layer : Nat) (p : LayerStats)
  | resend (ty turn : Nat)      -- TYPE 0x112 asks for the centroid set of collection `turn` (R449)
  | copy (b : CopyBody)
  | malformed (ty : Nat)
  | unlisted (ty : Nat)
  deriving DecidableEq, Repr, Inhabited

/-- Flit header fields that the link layer acts on (Table 17.1), and what the receiver's FEC and CRC-32C found: 0 whole,
1 whole after correction, 2 a CRC-32C that fails, 3 a codeword that is not correctable or has another BTYPE. -/
structure Flit where
  ty : Nat
  seq : Nat
  ack : Nat
  vl : Nat
  credVl : Nat
  credits : Nat
  time : Nat
  fec : Nat
  fptr : Nat := 0x3FF
  deriving DecidableEq, Repr, Inhabited

/-- A transport frame (Table 17.2); `good` is false where its CRC-32C fails, and `reply` is what a reply to a GET carries
(R390): the key, and the value if the lender holds one. -/
structure Frame where
  dst : Nat
  src : Nat
  part : Nat
  cls : Nat
  last : Bool
  len : Nat
  turn : Nat
  hops : Nat
  seq : Tally
  good : Bool
  reply : Option (Nat × Option (List Byte)) := none
  deriving DecidableEq, Repr, Inhabited

/-- A boundary mark (R378). -/
structure Mark where
  turn : Nat
  hops : Nat
  corr : Nat
  deriving DecidableEq, Repr, Inhabited

/-- A dictionary message header and data (Table 19.2). -/
structure DictMsg where
  ver : Nat
  cmd : Nat
  tag : Nat
  index : Nat
  sub : Nat
  txn : Bool
  resp : Bool
  len : Nat
  offset : Nat
  data : List Byte
  deriving DecidableEq, Repr, Inhabited

/-- A dictionary response: outcome code of Table 19.4 and data. -/
structure DictResp where
  cmd : Nat
  tag : Nat
  index : Nat
  sub : Nat
  code : Nat
  data : List Byte
  deriving DecidableEq, Repr, Inhabited

/-- A field-network frame (R415). -/
structure FnFrame where
  dst : Nat
  src : Nat
  ethertype : Nat
  vlan : Bool
  fcsOk : Bool
  msg : DictMsg
  deriving DecidableEq, Repr, Inhabited

/-- The outcome of a fetch from host memory (R85): the bytes, or a failed attempt. -/
inductive Fetch where
  | bytes (b : List Byte)
  | failed
  deriving DecidableEq, Repr, Inhabited

/-- The body of a SECURED message after authentication (R438): what the AES-GCM tag check gave. -/
inductive SecBody where
  | dict (m : DictMsg)
  | ideKm (stream keySet : Nat) (secure : Bool)
  | malformed
  deriving DecidableEq, Repr, Inhabited

/-- DOE data objects (R419, R437). -/
inductive DoeObj where
  | discovery (index : Nat)
  | dict (m : DictMsg)
  deriving DecidableEq, Repr, Inhabited

/-- The registers of configuration space that Table 3.1 gives: identification, class code and revision, the sizes of Device
Control, the AER status, the Resizable BAR control. -/
inductive CfgReg where | ids | classRev | devCtl | aer | rebar | ideAssoc (stream block word : Nat)
  deriving DecidableEq, Repr, Inhabited

/-- A configuration request (R59). -/
inductive CfgReq where
  | read (reg : CfgReg)
  | write (reg : CfgReg) (value : Nat)
  deriving DecidableEq, Repr, Inhabited

/-- RC registers (R3): the three of Table 3.3, and the DROPS fields of Table 15.2 of a Scratch Bank. -/
inductive RcReg where
  | doorbellDrops
  | bar2Drops
  | fetchErrors
  | bankDrops (bank : Nat)
  deriving DecidableEq, Repr, Inhabited

/-- What the patrol scrub found at one row or word (R452). -/
inductive PatrolHit where
  | corrected
  | hostRegion (addr : Nat)
  | listData (key : Nat)
  | directory (coll shard : Nat)
  | tableRow (table index : Nat)
  | weights (slot layer : Nat)
  | centroids (coll : Nat)
  | scratch (addr : Nat)
  deriving DecidableEq, Repr, Inhabited

/-- The counts of one clock monitor window (R465). -/
inductive ClockWindow where
  | xtal (pcie fab : Nat)         -- against 1,024 XTAL cycles
  | osc (xtal fab : Nat)          -- against 1,024 OSC cycles
  | pcieFab (pcie : Nat)          -- REFCLK_PCIE against REFCLK_FAB once XTAL has failed
  deriving DecidableEq, Repr, Inhabited

/-- Where copies may be dropped (R324). -/
inductive CopyKind where | mirror | entry | hot | replica
  deriving DecidableEq, Repr, Inhabited

end Sys2Proof
end

