-- ==== Sys2Proof/Syntax.lean ====
section
/-! DEFINITION. The commands of a node: one constructor per row of the opcode table, in the table's order. A command is
an access or an event; its operands are what reaches the node from outside it (a host access, a frame, a fetched image,
a measured value) or a choice that the manual leaves to the Planner. -/

namespace Sys2Proof

/-- The commands. Each constructor's comment gives the row and its rule. -/
inductive Instr where
  -- Turns, boards and deadlines
  | workCutoff                                                     -- WORK_CUTOFF R33
  | completionSnapshot                                             -- COMPLETION_SNAPSHOT R34
  | arrivalSnapshot                                                -- ARRIVAL_SNAPSHOT R34
  | timeoutEvaluation                                              -- TIMEOUT_EVALUATION R33
  | latch                                                          -- LATCH R33
  | turnNoIncrement                                                -- TURN_NO_INCREMENT R26
  | arrivalAllowanceEnd                                            -- ARRIVAL_ALLOWANCE_END R36
  | plannerBoardWrite (half : Nat) (board : Board)                 -- PLANNER_BOARD_WRITE R42
  | alignmentWithdrawal                                            -- ALIGNMENT_WITHDRAWAL R29
  | periodSwitch                                                   -- PERIOD_SWITCH R30
  | grantRefresh (grants : List Grant)                             -- GRANT_REFRESH R44
  | deadlineBoundary (qh : Nat)                                    -- DEADLINE_BOUNDARY R52
  | unitDeadlineDrop (unit : Nat)                                  -- UNIT_DEADLINE_DROP R54
  | caravanComplete (src turn frames counted : Nat) (sections : List Sect)   -- CARAVAN_COMPLETE R48
  -- Host interface and queues
  | pcieLinkUp (rate width : Nat)                                  -- PCIE_LINK_UP R58
  | pcieLinkDown                                                   -- PCIE_LINK_DOWN R466
  | configRequest (req : CfgReq)                                   -- CONFIG_REQUEST R59, R479
  | registerWrite (offset size value : Nat) (secure : Bool)        -- REGISTER_WRITE R60
  | rcRegisterRead (reg : RcReg)                                   -- RC_REGISTER_READ R3
  | bar2WindowBaseWrite (value : Nat)                              -- BAR2_WINDOW_BASE_WRITE R62
  | bar2Read (offset len : Nat) (uncorrectable secure busy : Bool) -- BAR2_READ R63; busy: an operation runs in the bank
  | bar2Write (offset : Nat) (data : List Byte) (secure busy : Bool)   -- BAR2_WRITE R63
  | queueEnable (q : Nat)                                          -- QUEUE_ENABLE R69
  | queueDisable (q : Nat)                                         -- QUEUE_DISABLE R69
  | queueEnableApply (q : Nat)                                     -- QUEUE_ENABLE_APPLY R69
  | queueDisableApply (q : Nat)                                    -- QUEUE_DISABLE_APPLY R69
  | doorbellWrite (q size : Nat) (value : Tally) (tick : Nat) (secure : Bool)   -- DOORBELL_WRITE R73
  | entryFetchComplete (q : Nat) (tally : Tally) (entry payload : Fetch)   -- ENTRY_FETCH_COMPLETE R85
  | entryAdmission                                                 -- ENTRY_ADMISSION R89
  | queueTallyPublish (q : Nat)                                    -- QUEUE_TALLY_PUBLISH R82
  | gateTakeover                                                   -- GATE_TAKEOVER R103
  -- Query Composer
  | compose (qh : Nat) (bad : List (Nat × Nat))                    -- COMPOSE R117
  | readAhead (q : Nat) (tally : Tally)                            -- READ_AHEAD R120
  | groupPromotionComplete (table group : Nat)                     -- GROUP_PROMOTION_COMPLETE R127
  | groupDescriptorSwitch (table group : Nat)                      -- GROUP_DESCRIPTOR_SWITCH R128
  | tableLoad (table : Nat)                                        -- TABLE_LOAD R132
  | tableBuildComplete (table : Nat) (image : Fetch)               -- TABLE_BUILD_COMPLETE R132
  | tableSwitch (table : Nat)                                      -- TABLE_SWITCH R132
  | tableVersionSwitch (table : Nat)                               -- TABLE_VERSION_SWITCH R132
  -- Model images and precision
  | imageLoad (slot : Nat)                                         -- IMAGE_LOAD R143
  | imageLoadComplete (slot : Nat) (image : Fetch) (peers : List (Nat × Nat))   -- IMAGE_LOAD_COMPLETE R143
  | segmentPlacementComplete (slot : Nat)                          -- SEGMENT_PLACEMENT_COMPLETE R146
  | encoderSegment (slot seg : Nat) (bad : Option Nat)   -- ENCODER_SEGMENT R147
  | layerReloadComplete (slot layer : Nat)                         -- LAYER_RELOAD_COMPLETE R154
  | unload (slot : Nat)                                            -- UNLOAD R152
  | slotFree (slot : Nat)                                          -- SLOT_FREE R152
  | precisionChange (slot layer : Nat)                             -- PRECISION_CHANGE R177
  | statEpochEnd                                                   -- STAT_EPOCH_END R174
  -- Collections and lists
  | imgLoad (coll : Nat)                                           -- IMG_LOAD R211
  | collectionImageLoadComplete (coll : Nat) (image : Fetch)       -- COLLECTION_IMAGE_LOAD_COMPLETE R211
  | run (coll : Nat)                                               -- RUN R183
  | collectionStop (coll : Nat)                                    -- COLLECTION_STOP R183
  | drop (coll : Nat)                                              -- DROP R183
  | stateFree                                                      -- STATE_FREE R208
  -- Search pipeline
  | coarseRoute (qh : Nat)                                         -- COARSE_ROUTE R218
  | sketchScan (unit : Nat) (uncorrectable : List Nat)             -- SKETCH_SCAN R261
  | widen (qh : Nat)                                               -- WIDEN R232
  | exactRerank (unit : Nat) (uncorrectable : Bool)                -- EXACT_RERANK R228
  | candidateRequest (way : Nat) (busy : Option Nat)                -- CANDIDATE_REQUEST R269
  | candidateReadComplete (way : Nat) (outcome : Nat)              -- CANDIDATE_READ_COMPLETE R270
  | rescore (coll : Nat) (bad : Option Nat)                        -- RESCORE R274
  | localSelect (unit : Nat)                                       -- LOCAL_SELECT R282
  | bazaarMerge (qh : Nat)                                         -- BAZAAR_MERGE R287
  -- Row logic
  | nop (src : RowSrc) (bank : BankId) (cmd : RowCmd)              -- NOP R250
  | and (src : RowSrc) (bank : BankId) (cmd : RowCmd)              -- AND R242
  | or (src : RowSrc) (bank : BankId) (cmd : RowCmd)               -- OR R242
  | xor (src : RowSrc) (bank : BankId) (cmd : RowCmd)              -- XOR R242
  | not (src : RowSrc) (bank : BankId) (cmd : RowCmd)              -- NOT R242
  | pred (src : RowSrc) (bank : BankId) (cmd : RowCmd)             -- PRED R250
  | count (src : RowSrc) (bank : BankId) (cmd : RowCmd) (badRow : Option Nat)    -- COUNT R245
  | select (src : RowSrc) (bank : BankId) (cmd : RowCmd) (badRow : Option Nat)   -- SELECT R245
  | hclear (src : RowSrc) (bank : BankId) (cmd : RowCmd)           -- HCLEAR R250
  | hdump (src : RowSrc) (bank : BankId) (cmd : RowCmd)            -- HDUMP R250
  | stackBandChange (stack temp : Nat)                             -- STACK_BAND_CHANGE R257
  -- Ingest, compaction, adaptation
  | insert (wid : Nat)                                             -- INSERT R295
  | upsert (wid : Nat)                                             -- UPSERT R295
  | delete (wid : Nat)                                             -- DELETE R295
  | ingestNop (wid : Nat)                                          -- INGEST_NOP R295
  | ingestCommit (wid : Nat)                                       -- INGEST_COMMIT R301
  | ackWaitExpiry (wid : Nat)                                      -- ACK_WAIT_EXPIRY R301
  | directoryOrdering (coll shard turn : Nat)                      -- DIRECTORY_ORDERING R304
  | directoryRebuildComplete (coll shard : Nat)                    -- DIRECTORY_REBUILD_COMPLETE R491
  | compactionStart (key : Nat)                                    -- COMPACTION_START R308
  | compactionComplete (key : Nat)                                 -- COMPACTION_COMPLETE R309
  | segmentSetSwitch (key : Nat)                                   -- SEGMENT_SET_SWITCH R310
  | adaptationEpochEnd (coll : Nat)                                -- ADAPTATION_EPOCH_END R312
  | reshapeBuildComplete (key : Nat)                               -- RESHAPE_BUILD_COMPLETE R315
  | centroidDriftApply (coll epoch : Nat)                          -- CENTROID_DRIFT_APPLY R313
  -- Placement
  | placementReview (heatPct : Nat) (members modules : List (Nat × Nat × Nat × Nat)) (eyes : List (Nat × Nat × Nat)) (lifePct : Nat)
      (health : List ChanHealth)                                   -- PLACEMENT_REVIEW R329
  | hotCopyComplete (key : Nat) (mirrorBad : Option Nat)                                    -- HOT_COPY_COMPLETE R329
  | copyDrop (coll : Nat)                                          -- COPY_DROP R324
  | rangeDrainComplete (range : Nat)                               -- RANGE_DRAIN_COMPLETE R326
  | copyStart (key : Nat)                                          -- COPY_START R335
  | copySnapshotTransfer (key : Nat) (mirrorBad : Option Nat)      -- COPY_SNAPSHOT_TRANSFER R335
  | logReplay (key : Nat)                                          -- LOG_REPLAY R335
  | copyAbort (key cause : Nat)                                    -- COPY_ABORT R337
  -- Scratch Banks
  | scratchRead (addr len code fault : Nat) (work : Option (Nat × Nat))   -- SCRATCH_READ R344
  | scratchWrite (addr : Nat) (data : List Byte) (code fault : Nat)   -- SCRATCH_WRITE R344
  | add32 (addr operand code fault : Nat) (work : Option (Nat × Nat))   -- ADD32 R345
  | add64 (addr operand code fault : Nat) (work : Option (Nat × Nat))   -- ADD64 R345
  | swap32 (addr operand code fault : Nat) (work : Option (Nat × Nat))   -- SWAP32 R345
  | swap64 (addr operand code fault : Nat) (work : Option (Nat × Nat))   -- SWAP64 R345
  | nextOwnerWrite (bank code : Nat)                               -- NEXT_OWNER_WRITE R342
  -- Flash
  | relocationCopyComplete (die lpn phys : Nat)                    -- RELOCATION_COPY_COMPLETE R356
  | programFailure (die block : Nat) (pages : List (Nat × Nat))    -- PROGRAM_FAILURE R362
  -- Wenmen fabric and ledger
  | linkUp (port peerNode peerPort peerPart delayPs modKind : Nat) -- LINK_UP R368
  | laneLockLoss (port : Nat)                                      -- LANE_LOCK_LOSS R368
  | dataFlit (port : Nat) (flit : Flit)                            -- DATA_FLIT R370
  | nakFlit (port : Nat) (flit : Flit)                             -- NAK_FLIT R370
  | idleFlit (port : Nat) (flit : Flit)                            -- IDLE_FLIT R369
  | pingFlit (port : Nat) (flit : Flit) (hold : Nat)               -- PING_FLIT R371
  | pongFlit (port : Nat) (flit : Flit) (arrival : Nat)            -- PONG_FLIT R371
  | discFlit (port peerNode peerPort peerPart now : Nat)               -- DISC_FLIT R381
  | replayTimeout (port : Nat)                                     -- REPLAY_TIMEOUT R370
  | pingTimer (now : Nat)                                          -- PING_TIMER R371
  | frameReceive (frame : Frame)                                   -- FRAME_RECEIVE R374
  | e2eAckTimer                                                    -- E2E_ACK_TIMER R374
  | transportAck (dst cls : Nat) (next : Tally) (resend : Bool)    -- TRANSPORT_ACK R374
  | boundaryMark (port : Nat) (mark : Mark) (hold : Nat) (offset : Int)   -- BOUNDARY_MARK R378
  | markLossWithdrawal                                             -- MARK_LOSS_WITHDRAWAL R378
  | ledgerEpochForm (withdrawn : List Nat)                         -- LEDGER_EPOCH_FORM R382
  | epochStore (leader : Nat) (epoch : Epoch)                      -- EPOCH_STORE R382
  | epochCommit (acks : List Nat)                                  -- EPOCH_COMMIT R382
  | epochApply                                                     -- EPOCH_APPLY R382
  | heartbeat (leader : Nat)                                       -- HEARTBEAT R386
  | leaderTimeout                                                  -- LEADER_TIMEOUT R386
  | vote (cands : List (Nat × Nat × Nat)) (votes : List Nat)       -- VOTE R386
  | found                                                          -- FOUND R387
  | join                                                           -- JOIN R387
  | memberRequest (node : Nat) (tag : List Byte) (state : Nat)     -- MEMBER_REQUEST R387
  | get (src : Nat) (key : Nat)                                    -- GET R390
  | put (src : Nat) (key : Nat) (value : List Byte)                -- PUT R389
  | del (src : Nat) (key : Nat)                                    -- DEL R389
  -- Barriers
  | arrive (slot tile : Nat)                                       -- ARRIVE R398
  | bslotArrive (slot : Nat)                                       -- BSLOT_ARRIVE R398
  | arriveMessage (src slot gen : Nat)                             -- ARRIVE_MESSAGE R399
  | releaseMessage (src slot gen : Nat)                            -- RELEASE_MESSAGE R399
  | abortMessage (src slot gen cause : Nat)                        -- ABORT_MESSAGE R401
  | barrierTimeout (slot : Nat)                                    -- BARRIER_TIMEOUT R401
  | clear (slot : Nat)                                             -- CLEAR R402
  -- Object dictionary
  | read (req : Nat) (msg : DictMsg)                               -- READ R407
  | write (req : Nat) (msg : DictMsg)                              -- WRITE R412
  | txnBegin (req : Nat) (msg : DictMsg)                           -- BEGIN R420
  | commit (req : Nat) (msg : DictMsg)                             -- COMMIT R420
  | rollback (req : Nat) (msg : DictMsg)                           -- ROLLBACK R420
  | segReadInit (req : Nat) (msg : DictMsg)                        -- SEG_READ_INIT R427
  | segRead (req : Nat) (msg : DictMsg)                            -- SEG_READ R427
  | segWriteInit (req : Nat) (msg : DictMsg)                       -- SEG_WRITE_INIT R427
  | segWrite (req : Nat) (msg : DictMsg)                           -- SEG_WRITE R427
  | segWriteEnd (req : Nat) (msg : DictMsg)                        -- SEG_WRITE_END R427
  | segAbort (req : Nat) (msg : DictMsg)                           -- SEG_ABORT R427
  | fnFrame (frame : FnFrame)                                      -- FN_FRAME R415
  | mbGo (secure : Bool)                                           -- MB_GO R418
  | doeRequest (obj : DoeObj)                                      -- DOE_REQUEST R419
  | doeAbort                                                       -- DOE_ABORT R419
  | txnApply                                                       -- TXN_APPLY R421
  | txnWatchdog (req : Nat)                                        -- TXN_WATCHDOG R424
  | segIdleTimeout (req : Nat)                                     -- SEG_IDLE_TIMEOUT R427
  -- Security and tenancy
  | bind (nonce : List Byte)                                       -- BIND R431
  | tenantSwitch                                                   -- TENANT_SWITCH R442
  | scrubStart                                                     -- SCRUB_START R442
  | scrubComplete (ms : Nat)                                       -- SCRUB_COMPLETE R442
  | scrubEndBoundary                                               -- SCRUB_END_BOUNDARY R442
  | diagEn (nonce : List Byte)                                     -- DIAG_EN R446
  | fwActivate                                                     -- FW_ACTIVATE R434
  | attRequest (req : Nat) (data : List Byte)                      -- ATT_REQUEST R437
  | getReport (data : List Byte) (coins : List Byte)               -- GET_REPORT R437
  | secured (seq : Nat) (tagOk : Bool) (body : SecBody)            -- SECURED R438
  | ideIntegrityFailure (stream : Nat)                             -- IDE_INTEGRITY_FAILURE R440
  -- Reliability
  | tileWatchdog (tile : Nat) (work : List Nat)                    -- TILE_WATCHDOG R453
  | stageEngineWatchdog (quarter : Nat) (engine : Engine) (work : List Nat)   -- STAGE_ENGINE_WATCHDOG R453
  | turnSequencerWatchdog (half late : Nat)                        -- TURN_SEQUENCER_WATCHDOG R453
  | plannerWatchdog                                                -- PLANNER_WATCHDOG R453
  | mcWatchdog (unservicedMs : Nat)                                -- MC_WATCHDOG R453
  | mcResetComplete                                                -- MC_RESET_COMPLETE R455
  | ledgerHolderWatchdog                                           -- LEDGER_HOLDER_WATCHDOG R453
  | salvageComplete (key : Nat) (unreadable : List Nat)            -- SALVAGE_COMPLETE R451
  | centroidReloadComplete (coll : Nat)                            -- CENTROID_RELOAD_COMPLETE R449
  | patrolRead (hit : PatrolHit)                                   -- PATROL_READ R452
  | sweepStart                                                     -- SWEEP_START R457
  | sweepStep (stack channel : Nat) (result : List Nat)            -- SWEEP_STEP R457
  | droopEvent (half : Nat)                                        -- DROOP_EVENT R456
  | memberLoadComplete                                             -- MEMBER_LOAD_COMPLETE R458
  -- Clocks, power, start-up
  | clockMonitorWindow (w : ClockWindow)                           -- CLOCK_MONITOR_WINDOW R465
  | fmcStart                                                       -- FMC_START R469
  | fmcGateEnd (count : Nat)                                       -- FMC_GATE_END R469
  | powerSample (rails : List Nat) (tj0 tj1 : Nat) (scratch : List Nat)   -- POWER_SAMPLE R474
  | thermalTrip                                                    -- THERMAL_TRIP R476
  | por (level : Bool)                                             -- POR R477
  | powerLoss                                                      -- POWER_LOSS R472
  | perstAssert                                                    -- PERST_ASSERT R478
  | perstRelease                                                   -- PERST_RELEASE R478
  | bootComplete (copyA copyB : Option Nat) (ms : Nat)     -- BOOT_COMPLETE R433
  | memoryTrainingComplete (failed : List Nat) (ms : Nat)          -- MEMORY_TRAINING_COMPLETE R479
  | repairFuseLoadComplete (fuses : List Nat) (badBanks badTiles : List Nat) (ms : Nat)   -- REPAIR_FUSE_LOAD_COMPLETE R349
  | flashTranslationMount (present trained differ : List Nat) (margins : List (Nat × Nat))
      (targets luns rawGb ms : Nat)                                -- FLASH_TRANSLATION_MOUNT R353
  | indexVersionsSwitch (ms : Nat)                                 -- INDEX_VERSIONS_SWITCH R479
  | ready (ms : Nat)                                               -- READY R479
  | retainedMediaDiscard                                           -- RETAINED_MEDIA_DISCARD R480
  | edgeRewriteComplete (coll centroid : Nat)                      -- EDGE_REWRITE_COMPLETE R207
  deriving DecidableEq, Repr

end Sys2Proof
end

