-- ==== Sys2Proof/Config.lean ====
section
/-! DEFINITION. What the manual leaves open: uninterpreted constants. None has a body, so no proof can rest on a value.
A statement about one holds for every value. Log entries 3, 4 and 5 name them. -/

namespace Sys2Proof.Config

/-- A free value, drawn with the state's counter (R269 DIST, R363, R281). -/
opaque freeNat : Nat → Nat

/-- The order among tied candidates (R226, R227, R281): the rank that draw `n` gives to candidate `i`. -/
opaque tieRank : Nat → Nat → Nat

/-- The 32-bit (or narrower) pattern of a NaN, by format width (no rule fixes one). -/
opaque nanBits : Nat → Nat

/-- SERIAL (R435, Table 19.8: unique per part). -/
opaque serial : BitVec 64

/-- The 256-bit unique secret in fuses (R435). -/
opaque secret : List Byte

/-- The public key of the ML-DSA-65 pair generated from a seed, and Quoholt's certificate of the identity key (R435). -/
opaque idPubkey : List Byte → List Byte
opaque idCert : List Byte

/-- The ML-DSA-65 check of a firmware image against the fused key digest (R433). -/
opaque fwSignatureOk : List Byte → Bool

/-- The ML-DSA-65 signature of the pair generated from a seed over a report (R435, R436). -/
opaque sign : List Byte → List Byte → List Byte

/-- ML-KEM-768 encapsulation under a key with the given coins: shared secret and ciphertext (R437). -/
opaque encapsulate : List Byte → List Byte → List Byte × List Byte

/-- FW_VERSION of a running image (Table 19.8 gives none). -/
opaque fwVersion : List Byte → Nat

/-- Output of an image operator whose order of operations or formula the manual does not state (Table 6.2: attention,
layer and RMS normalisation): operator code, parameter bytes and input rows. -/
opaque operatorOut : Nat → List Byte → List (List Flt) → List (List Flt)

/-- The FP32 sum of the products of a DENSE layer with eight- or 16-bit floating-point weights (R135: they accumulate in FP32, in an
order that the manual does not give). -/
opaque fp32Sum : List Flt → Flt

/-- The divergence of a layer that has no alternate weight set (R177: it is watched in the same way, and no rule says against
what). -/
opaque divergence : Nat → Flt

/-- The factor by which the integer sums of a DENSE layer with INT8 weights are scaled, from its weights and its activation
scale (R135 says that they are scaled in FP32, and names no factor). -/
opaque denseScale : List Byte → Flt → Flt

/-- Entry `i` of built-in activation table `t` other than ReLU (R140 names the function and the interval, not the entries). -/
opaque actEntry : Nat → Nat → Flt

/-- Blocks of a die, and spare blocks of a new die (R362: the part's own, and no table gives them). -/
opaque dieBlocks : Nat
opaque dieSpares : Nat

/-- The key of the cache entry that holds a block of an image's weights, by image DIGEST, layer and block (R390 names the three, and
not how they make 128 bits). -/
opaque blockKey : List Byte → Nat → Nat → Nat

/-- Physical pages of a flash block (R361: the part's own, and no table gives it). -/
opaque blockPages : Nat

/-- Search-memory address of the full-vector record of an entry of a list, by list key and entry number: the Planner's place for
a hot record or a delta record (Table 11.1, LOC; no table gives it). -/
opaque recordAt : Nat → Nat → Nat

/-- The Planner's place for a row group: its base address in search memory or on flash, by table, group and home (true T5); no
rule gives it (R111). -/
opaque groupAt : Nat → Nat → Bool → Nat

/-- The Planner's place for a host region of a size in GiB, in GiB (R65, Table 3.4: multiples of 1 GiB, no place given). -/
opaque hostRegionAt : Nat → Nat

end Sys2Proof.Config
end

