-- ==== Sys2Proof/Machine/Float.lean ====
section
/-! DEFINITION. Floating-point arithmetic as exact integer arithmetic with one rounding (R6, R158 to R160). -/

namespace Sys2Proof.Machine

/-- A binary format: significand bits, exponent of the least subnormal, exponent of the last place of the largest
finite value, and the largest significand there. -/
structure FpFmt where
  prec : Nat
  emin : Int
  emax : Int
  top : Nat
  deriving DecidableEq, Repr

/-- IEEE binary32, binary64, binary16, BF16 and the two OCP 8-bit formats (Table 7.1). -/
def fF32 : FpFmt := ⟨24, -149, 104, 2 ^ 24 - 1⟩
def fF64 : FpFmt := ⟨53, -1074, 971, 2 ^ 53 - 1⟩
def fF16 : FpFmt := ⟨11, -24, 5, 2 ^ 11 - 1⟩
def fBF16 : FpFmt := ⟨8, -133, 120, 2 ^ 8 - 1⟩
def fE4M3 : FpFmt := ⟨4, -9, 5, 14⟩
def fE5M2 : FpFmt := ⟨3, -16, 13, 7⟩

/-- Zero and one. -/
def f0 : Flt := .fin false 0 0
def f1 : Flt := .fin false (2 ^ 23) (-23)

/-- Whether rounding adds one: quotient, remainder and divisor (`rem < 2 ^ sh`). -/
def roundsUp (r : Rnd) (q rem sh : Nat) : Bool :=
  match r with
  | .up => decide (0 < rem)
  | .away => decide (2 ^ sh ≤ 2 * rem)
  | .even => decide (2 ^ sh < 2 * rem) || (decide (2 ^ sh = 2 * rem) && decide (q % 2 = 1))

/-- The value `(-1)^neg * man * 2^exp` rounded to a format; overflow gives an infinity. -/
def roundTo (f : FpFmt) (r : Rnd) (neg : Bool) (man : Nat) (exp : Int) : Flt :=
  if man = 0 then .fin neg 0 0 else
  let want : Int := exp + (man.log2 + 1 : Nat) - (f.prec : Nat)
  let e : Int := if want < f.emin then f.emin else want
  let qe : Nat × Int :=
    if e ≤ exp then (man <<< (exp - e).toNat, e)
    else
      let sh := (e - exp).toNat
      let q := man >>> sh
      let q' := if roundsUp r q (man % 2 ^ sh) sh then q + 1 else q
      if q' = 2 ^ f.prec then (2 ^ (f.prec - 1), e + 1) else (q', e)
  if qe.1 = 0 then .fin neg 0 0
  else if f.emax < qe.2 ∨ (qe.2 = f.emax ∧ f.top < qe.1) then .inf neg
  else .fin neg qe.1 qe.2

/-- Signed integer `i * 2^exp` rounded. -/
def roundInt (f : FpFmt) (i : Int) (exp : Int) : Flt := roundTo f .even (decide (i < 0)) i.natAbs exp

/-- The exact signed significand of a finite value at exponent `e` (not above its own). -/
def signedAt (neg : Bool) (man : Nat) (exp e : Int) : Int :=
  let m : Int := ((man <<< (exp - e).toNat : Nat) : Int)
  if neg then -m else m

/-- Sum in a format, ties to even (R6). -/
def faddIn (f : FpFmt) (x y : Flt) : Flt :=
  match x, y with
  | .nan, _ => .nan
  | _, .nan => .nan
  | .inf a, .inf b => if a = b then .inf a else .nan
  | .inf a, _ => .inf a
  | _, .inf b => .inf b
  | .fin a m e, .fin b n g =>
    if m = 0 ∧ n = 0 then .fin (a && b) 0 0
    else
      let lo := if e ≤ g then e else g
      let t := signedAt a m e lo + signedAt b n g lo
      if t = 0 then f0 else roundInt f t lo

/-- Negation. -/
def fneg : Flt → Flt
  | .nan => .nan
  | .inf a => .inf (!a)
  | .fin a m e => .fin (!a) m e

/-- Magnitude. -/
def fabs : Flt → Flt
  | .nan => .nan
  | .inf _ => .inf false
  | .fin _ m e => .fin false m e

/-- Product in a format. -/
def fmulIn (f : FpFmt) (x y : Flt) : Flt :=
  match x, y with
  | .nan, _ => .nan
  | _, .nan => .nan
  | .inf a, .inf b => .inf (a != b)
  | .inf a, .fin b n _ => if n = 0 then .nan else .inf (a != b)
  | .fin a m _, .inf b => if m = 0 then .nan else .inf (a != b)
  | .fin a m e, .fin b n g => roundTo f .even (a != b) (m * n) (e + g)

/-- Quotient in a format: enough quotient bits, with the remainder kept as a sticky last bit. -/
def fdivIn (f : FpFmt) (x y : Flt) : Flt :=
  match x, y with
  | .nan, _ => .nan
  | _, .nan => .nan
  | .inf _, .inf _ => .nan
  | .inf a, .fin b _ _ => .inf (a != b)
  | .fin a _ _, .inf b => .fin (a != b) 0 0
  | .fin a m e, .fin b n g =>
    if n = 0 then (if m = 0 then .nan else .inf (a != b))
    else
      let k := n.log2 + f.prec + 3
      let q := (m <<< k) / n
      let s := if (m <<< k) % n = 0 then 0 else 1
      roundTo f .even (a != b) (2 * q + s) (e - g - (k : Nat) - 1)

/-- Integer square root, one bit per step. -/
def isqrtGo (n : Nat) : Nat → Nat → Nat
  | 0, r => r
  | i + 1, r => isqrtGo n i (if (r + 2 ^ i) * (r + 2 ^ i) ≤ n then r + 2 ^ i else r)

/-- Integer square root. -/
def isqrt (n : Nat) : Nat := isqrtGo n (n.log2 / 2 + 1) 0

/-- Square root in a format. -/
def fsqrtIn (f : FpFmt) (x : Flt) : Flt :=
  match x with
  | .nan => .nan
  | .inf a => if a then .nan else .inf false
  | .fin a m e =>
    if m = 0 then .fin a 0 0
    else if a then .nan
    else
      let k := 2 * f.prec + 4 + (if e % 2 = 0 then 0 else 1)
      let n := m <<< k
      let r := isqrt n
      roundTo f .even false (2 * r + (if r * r = n then 0 else 1)) ((e - (k : Nat)) / 2 - 1)

/-- FP32 operations (R6). -/
def fadd : Flt → Flt → Flt := faddIn fF32
def fsub (x y : Flt) : Flt := fadd x (fneg y)
def fmul : Flt → Flt → Flt := fmulIn fF32
def fdiv : Flt → Flt → Flt := fdivIn fF32
def fsqrt : Flt → Flt := fsqrtIn fF32

/-- FP64 operations (R173, R311). -/
def dadd : Flt → Flt → Flt := faddIn fF64
def dmul : Flt → Flt → Flt := fmulIn fF64
def ddiv : Flt → Flt → Flt := fdivIn fF64

/-- A value rounded to FP32 or FP64. -/
def toFmt (f : FpFmt) (r : Rnd) : Flt → Flt
  | .nan => .nan
  | .inf a => .inf a
  | .fin a m e => roundTo f r a m e
def f32 : Flt → Flt := toFmt fF32 .even

/-- A natural number or an integer as FP32. -/
def fnat (n : Nat) : Flt := roundTo fF32 .even false n 0
def fint (i : Int) : Flt := roundInt fF32 i 0

/-- Numeric order; false where a NaN takes part (R280: minus zero equals plus zero). -/
def flt (x y : Flt) : Bool :=
  match x, y with
  | .nan, _ => false
  | _, .nan => false
  | .inf a, .inf b => a && !b
  | .inf a, .fin _ _ _ => a
  | .fin _ _ _, .inf b => !b
  | .fin a m e, .fin b n g =>
    let lo := if e ≤ g then e else g
    decide (signedAt a m e lo < signedAt b n g lo)

/-- Not above, for values that are not NaN. -/
def fle (x y : Flt) : Bool := !flt y x

/-- Whether a value is finite. -/
def isFin : Flt → Bool
  | .fin _ _ _ => true
  | _ => false

/-- The largest finite FP32 value, and its use in place of a NaN key (R218, R277, R280). -/
def fmax32 : Flt := .fin false (2 ^ 24 - 1) 104
def noNan : Flt → Flt
  | .nan => fmax32
  | x => x

/-- Rounding of a finite value to an integer in a mode (R168). NaN gives 0 (R159). -/
def toIntRnd (r : Rnd) : Flt → Int
  | .fin a m e =>
    let v : Nat :=
      if 0 ≤ e then m <<< e.toNat
      else
        let sh := (-e).toNat
        let q := m >>> sh
        if roundsUp r q (m % 2 ^ sh) sh then q + 1 else q
    if a then -(v : Int) else v
  | _ => 0

/-- Truncation toward zero (R6). -/
def toIntTrunc : Flt → Int
  | .fin a m e =>
    let v : Nat := if 0 ≤ e then m <<< e.toNat else m >>> (-e).toNat
    if a then -(v : Int) else v
  | _ => 0

/-- The value of an IEEE-style pattern with the given exponent and fraction widths. -/
def ieeeVal (eb mb bits : Nat) : Flt :=
  let man := bits % 2 ^ mb
  let ex := bits / 2 ^ mb % 2 ^ eb
  let neg := decide (bits / 2 ^ (mb + eb) % 2 = 1)
  let bias : Int := (2 ^ (eb - 1) - 1 : Nat)
  if ex = 2 ^ eb - 1 then (if man = 0 then .inf neg else .nan)
  else if ex = 0 then (if man = 0 then .fin neg 0 0 else .fin neg man (1 - bias - (mb : Nat)))
  else .fin neg (man + 2 ^ mb) ((ex : Nat) - bias - (mb : Nat))

/-- Decoding of stored patterns, widened exactly to FP32 (R158, R271). -/
def f32Val (bits : Nat) : Flt := ieeeVal 8 23 bits
def f16Val (bits : Nat) : Flt := f32 (ieeeVal 5 10 bits)
def bf16Val (bits : Nat) : Flt := f32 (ieeeVal 8 7 bits)
def e5m2Val (bits : Nat) : Flt := f32 (ieeeVal 5 2 bits)
def e4m3Val (bits : Nat) : Flt :=
  let b := bits % 256
  if b % 128 = 127 then .nan
  else
    let man := b % 8
    let ex := b / 8 % 16
    let neg := decide (128 ≤ b)
    if ex = 0 then (if man = 0 then .fin neg 0 0 else f32 (.fin neg man (-9)))
    else f32 (.fin neg (man + 8) ((ex : Nat) - 10))

/-- The pattern of a value that is canonical in the format (exponent and fraction widths); a NaN's is open. -/
def ieeeBits (eb mb : Nat) : Flt → Nat
  | .nan => Config.nanBits (1 + eb + mb) % 2 ^ (1 + eb + mb)
  | .inf a => (if a then 2 ^ (eb + mb) else 0) + (2 ^ eb - 1) * 2 ^ mb
  | .fin a m e =>
    let bias : Int := (2 ^ (eb - 1) - 1 : Nat)
    let s := if a then 2 ^ (eb + mb) else 0
    if m < 2 ^ mb then s + m
    else s + ((e + (mb : Nat) + bias).toNat) * 2 ^ mb + (m - 2 ^ mb)

def f32Bits (x : Flt) : Nat := ieeeBits 8 23 (f32 x)
def f16Bits (x : Flt) : Nat := ieeeBits 5 10 (toFmt fF16 .even x)
def bf16Bits (x : Flt) : Nat := ieeeBits 8 7 (toFmt fBF16 .even x)
def e5m2Bits (x : Flt) : Nat := ieeeBits 5 2 (toFmt fE5M2 .even x)
def e4m3Bits (x : Flt) : Nat := ieeeBits 4 3 (toFmt fE4M3 .even x)

/-- Conversion into a narrower floating format (R159): NaN gives zero, larger magnitudes saturate; with the
saturation flag. -/
def convFlt (f : FpFmt) (r : Rnd) (x : Flt) : Flt × Bool :=
  match x with
  | .nan => (f0, false)
  | .inf a => (.fin a f.top f.emax, true)
  | .fin a m e =>
    if flt (.fin false f.top f.emax) (.fin false m e) then (.fin a f.top f.emax, true)
    else (roundTo f r a m e, false)

/-- Conversion of `x / s` into INT8 (R167): the code and the saturation flag. -/
def convInt8 (r : Rnd) (q : Flt) : Int × Bool :=
  match q with
  | .nan => (0, false)
  | .inf a => (if a then -127 else 127, true)
  | .fin a m e =>
    if flt (fnat 127) (.fin false m e) then (if a then -127 else 127, true)
    else (toIntRnd r (.fin a m e), false)

/-- A ratio of naturals as FP32, for the decimal defaults of the tables. -/
def fratio (n d : Nat) : Flt := fdiv (fnat n) (fnat d)

end Sys2Proof.Machine
end

