-- ==== Sys2Proof/Machine/Objects.lean ====
section
/-! DEFINITION. The objects of the dictionary (R56, R88, R108 and the other object rules; R410, R412, R429): one row per
object or block of objects, from the tables of spec/. The address of an object is its index times 256 plus its subindex.
A row whose `blk` is set is a block with sixteen owners to an index: its subindex is 0x10 times the owner plus the field.
Clamps that depend on the state are `special` and stand in Machine/Clamp.lean. -/

namespace Sys2Proof.Machine

/-- Types of Table 19.5; `domain n` holds at most `n` bytes. -/
inductive ObjTy where
  | bool | u8 | u16 | u32 | u64 | i32 | f32 | str | domain (max : Nat)
  deriving DecidableEq, Repr

/-- Access codes of Table 19.6. -/
inductive ObjAcc where | ro | rw | wo | rwt | rws
  deriving DecidableEq, Repr

/-- The clamp that an object's Range gives (R5, R410). F32 ranges are ranges of bit patterns, all positive. -/
inductive Clamp where
  | any
  | range (lo hi : Nat)
  | pow2 (lo hi : Nat)
  | oneOf (l : List Nat)
  | mult (m : Nat)
  | near (m : Nat)
  | freq (lo hi : Nat)
  | special
  deriving DecidableEq, Repr

/-- One row of an object table. -/
structure ObjRow where
  ilo : Nat
  ihi : Nat
  slo : Nat
  shi : Nat
  blk : Bool
  ty : ObjTy
  acc : ObjAcc
  dflt : Nat
  clamp : Clamp
  deriving DecidableEq, Repr

/-- Objects of turns and boards (chapter 02). -/
def objs02 : List ObjRow := [
  ⟨0x2800, 0x2800, 0x01, 0x01, false, .u16, .rwt, 200, .range 64 1024⟩,  -- TURN_PERIOD_US
  ⟨0x2800, 0x2800, 0x02, 0x02, false, .u64, .ro, 0, .any⟩,  -- TURN_NO
  ⟨0x2800, 0x2800, 0x03, 0x03, false, .i32, .ro, 0, .any⟩,  -- ALIGN_OFFSET_NS
  ⟨0x2800, 0x2800, 0x04, 0x04, false, .u32, .ro, 1000, .any⟩,  -- ALIGN_LIMIT_NS
  ⟨0x2800, 0x2800, 0x05, 0x05, false, .u8, .rwt, 8, .range 6 40⟩,  -- DEADLINE_DEFAULT
  ⟨0x2800, 0x2800, 0x06, 0x06, false, .u16, .ro, 0, .any⟩,  -- PERIOD_PENDING
  ⟨0x2800, 0x2800, 0x07, 0x07, false, .u64, .ro, 0, .any⟩,  -- PERIOD_SWITCH_TURN
  ⟨0x2800, 0x2800, 0x08, 0x08, false, .u8, .rwt, 4, .range 0 16⟩,  -- LATE_RESERVE_64THS
  ⟨0x2800, 0x2800, 0x09, 0x09, false, .u16, .ro, 0, .any⟩,  -- TURN_MASTER
  ⟨0x2801, 0x2801, 0x01, 0x01, false, .u64, .ro, 0, .any⟩,  -- BOARD_REPEATS
  ⟨0x2801, 0x2801, 0x02, 0x02, false, .u64, .ro, 0, .any⟩,  -- SLIPPED_QUERIES
  ⟨0x2801, 0x2801, 0x03, 0x03, false, .u64, .ro, 0, .any⟩,  -- TRUNCATED_QUERIES
  ⟨0x2801, 0x2801, 0x04, 0x04, false, .u64, .ro, 0, .any⟩,  -- LATE_PARTIALS
  ⟨0x2801, 0x2801, 0x05, 0x05, false, .u64, .ro, 0, .any⟩,  -- LATE_CARAVANS
  ⟨0x2801, 0x2801, 0x06, 0x06, false, .u64, .ro, 0, .any⟩  -- GRANT_WAITS
  ]

/-- Objects of host interface (chapter 03). -/
def objs03 : List ObjRow := [
  ⟨0x3000, 0x3000, 0x01, 0x01, false, .u16, .rws, 0, .range 0 64⟩,  -- HOST_REGION_GIB
  ⟨0x3000, 0x3000, 0x02, 0x02, false, .u64, .ro, 0, .any⟩,  -- HOST_REGION_BASE
  ⟨0x3000, 0x3000, 0x03, 0x03, false, .u8, .rw, 3, .range 1 7⟩,  -- FETCH_RETRY_LIMIT
  ⟨0x3001, 0x3001, 0x01, 0x01, false, .u64, .ro, 0, .any⟩,  -- TALLY_CLAMPS
  ⟨0x3001, 0x3001, 0x02, 0x02, false, .u64, .ro, 0, .any⟩,  -- ENTRY_CLAMPS
  ⟨0x3001, 0x3001, 0x03, 0x03, false, .u64, .ro, 0, .any⟩,  -- RESULT_WAITS
  ⟨0x3001, 0x3001, 0x04, 0x04, false, .u64, .ro, 0, .any⟩,  -- CONTEXT_WAITS
  ⟨0x3001, 0x3001, 0x05, 0x05, false, .u64, .ro, 0, .any⟩,  -- FETCH_RETRIES
  ⟨0x3001, 0x3001, 0x06, 0x06, false, .u64, .ro, 0, .any⟩  -- EVENTS_LOST
  ]

/-- Objects of admission and gates (chapter 04). -/
def objs04 : List ObjRow := [
  ⟨0x3800, 0x3800, 0x01, 0x01, false, .u8, .rwt, 32, .range 0 64⟩,  -- YELLOW_SHARE
  ⟨0x3800, 0x3800, 0x02, 0x02, false, .u8, .rwt, 0, .range 0 128⟩,  -- GATE_ADMIN_COUNT
  ⟨0x3800, 0x3800, 0x03, 0x03, false, .u64, .rwt, 0, .range 0 281474976710655⟩,  -- GATE_TAKEOVER_TURN
  ⟨0x3800, 0x3800, 0x04, 0x04, false, .u8, .ro, 0, .any⟩,  -- GATE_OPER_COUNT
  ⟨0x3800, 0x3800, 0x05, 0x05, false, .u64, .ro, 0, .any⟩,  -- GATE_OPER_BASE
  ⟨0x3800, 0x3800, 0x06, 0x06, false, .bool, .ro, 0, .any⟩,  -- GATE_PENDING
  ⟨0x3800, 0x3800, 0x07, 0x07, false, .u16, .ro, 4095, .any⟩,  -- GATE_STATE
  ⟨0x3801, 0x3801, 0x01, 0x01, false, .u64, .ro, 0, .any⟩,  -- ADMIT_GREEN
  ⟨0x3801, 0x3801, 0x02, 0x02, false, .u64, .ro, 0, .any⟩,  -- ADMIT_YELLOW
  ⟨0x3801, 0x3801, 0x03, 0x03, false, .u64, .ro, 0, .any⟩,  -- ADMIT_SHED
  ⟨0x3801, 0x3801, 0x04, 0x04, false, .u64, .ro, 0, .any⟩,  -- GATE_HOLDS
  ⟨0x3801, 0x3801, 0x05, 0x05, false, .u64, .ro, 0, .any⟩,  -- PORT_DEFERS
  ⟨0x3801, 0x3801, 0x06, 0x06, false, .u64, .ro, 0, .any⟩,  -- NO_SERVICE_ANSWERS
  ⟨0x3802, 0x3802, 0x01, 0x80, false, .u64, .rwt, 0, .special⟩,  -- GATE_ADMIN
  ⟨0x3803, 0x3803, 0x01, 0x80, false, .u64, .ro, 0, .any⟩,  -- GATE_OPER
  ⟨0x3A00, 0x3F00, 0x01, 0x01, true, .bool, .rwt, 0, .any⟩,  -- EN
  ⟨0x3A00, 0x3F00, 0x02, 0x02, true, .u32, .rwt, 268435456, .range 0 268435456⟩,  -- CIR
  ⟨0x3A00, 0x3F00, 0x03, 0x03, true, .u32, .rwt, 268435456, .special⟩,  -- PIR
  ⟨0x3A00, 0x3F00, 0x04, 0x04, true, .u32, .rwt, 1048576, .range 1 1048576⟩,  -- CBS
  ⟨0x3A00, 0x3F00, 0x05, 0x05, true, .u32, .rwt, 1048576, .special⟩,  -- PBS
  ⟨0x3E00, 0x3EFF, 0x06, 0x06, true, .u8, .rwt, 0, .range 0 7⟩  -- CLASS
  ]

/-- Objects of Query Composer (chapter 05). -/
def objs05a : List ObjRow := [
  ⟨0x4C00, 0x4C00, 0x01, 0x01, false, .u16, .rwt, 80, .special⟩,  -- PREFETCH_LEAD_US
  ⟨0x4C00, 0x4C00, 0x02, 0x02, false, .u16, .rws, 64, .range 0 512⟩,  -- COMPOSE_T2_GIB
  ⟨0x4C00, 0x4C00, 0x03, 0x03, false, .u32, .ro, 262144, .any⟩,  -- COMPOSE_CAP
  ⟨0x4C00, 0x4C00, 0x04, 0x04, false, .u16, .rwt, 2048, .range 0 8192⟩,  -- COMPOSE_FLASH_CAP
  ⟨0x4C01, 0x4C01, 0x01, 0x01, false, .u64, .ro, 0, .any⟩,  -- GATHERS
  ⟨0x4C01, 0x4C01, 0x02, 0x02, false, .u64, .ro, 0, .any⟩,  -- STAGED_ROWS
  ⟨0x4C01, 0x4C01, 0x03, 0x03, false, .u64, .ro, 0, .any⟩,  -- RECORDS_IGNORED
  ⟨0x4C01, 0x4C01, 0x04, 0x04, false, .u64, .ro, 0, .any⟩,  -- STAGE_WASTED
  ⟨0x4C01, 0x4C01, 0x05, 0x05, false, .u64, .ro, 0, .any⟩,  -- ROWS_REPLACED
  ⟨0x4C02, 0x4C02, 0x01, 0x40, false, .u8, .rwt, 0, .special⟩,  -- CH_MODE
  ⟨0x4C03, 0x4C03, 0x01, 0x40, false, .u16, .rwt, 64, .range 8 1024⟩,  -- CH_WIDTH
  ⟨0x4C40, 0x4C7F, 0x01, 0x01, false, .bool, .rws, 0, .any⟩,  -- TBL_EN
  ⟨0x4C40, 0x4C7F, 0x02, 0x02, false, .u8, .rws, 4, .range 0 5⟩,  -- FORMAT
  ⟨0x4C40, 0x4C7F, 0x03, 0x03, false, .u16, .rws, 64, .special⟩,  -- WIDTH
  ⟨0x4C40, 0x4C7F, 0x04, 0x04, false, .u64, .rws, 1, .range 1 4294967296⟩,  -- ROWS
  ⟨0x4C40, 0x4C7F, 0x05, 0x05, false, .u16, .rws, 65535, .special⟩,  -- TABLE_COLLECTION
  ⟨0x4C40, 0x4C7F, 0x06, 0x06, false, .u8, .rws, 0, .range 0 1⟩,  -- SRC_LOC
  ⟨0x4C40, 0x4C7F, 0x07, 0x07, false, .u64, .rws, 0, .near 64⟩,  -- SRC_ADDR
  ⟨0x4C40, 0x4C7F, 0x08, 0x08, false, .bool, .rws, 0, .any⟩,  -- LOAD
  ⟨0x4C40, 0x4C7F, 0x09, 0x09, false, .u8, .ro, 0, .any⟩,  -- LOAD_STATE
  ⟨0x4C40, 0x4C7F, 0x0A, 0x0A, false, .bool, .rws, 0, .any⟩,  -- SWITCH
  ⟨0x4C40, 0x4C7F, 0x0B, 0x0B, false, .u32, .ro, 0, .any⟩,  -- VERSION
  ⟨0x4C40, 0x4C7F, 0x0C, 0x0C, false, .bool, .rwt, 0, .any⟩,  -- PIN_T2
  ⟨0x4C40, 0x4C7F, 0x0D, 0x0D, false, .u32, .ro, 0, .any⟩  -- GROUPS_T1
  ]

/-- Objects of Query Composer (chapter 05). Continued. -/
def objs05b : List ObjRow := [
  ⟨0x4C40, 0x4C7F, 0x0E, 0x0E, false, .u32, .ro, 0, .any⟩,  -- GROUPS_T2
  ⟨0x4C40, 0x4C7F, 0x0F, 0x0F, false, .u32, .ro, 0, .any⟩,  -- GROUPS_T5
  ⟨0x4E00, 0x4EFF, 0x01, 0x01, true, .u8, .rws, 0, .range 0 2⟩,  -- INPUT_MODE
  ⟨0x4E00, 0x4EFF, 0x02, 0x02, true, .u8, .rws, 4, .special⟩,  -- INPUT_FORMAT
  ⟨0x4E00, 0x4EFF, 0x03, 0x03, true, .u8, .rws, 0, .range 0 63⟩,  -- TOKEN_TABLE
  ⟨0x4E00, 0x4EFF, 0x04, 0x04, true, .u32, .rws, 4096, .range 8 32768⟩,  -- MAX_INPUT
  ⟨0x4E00, 0x4EFF, 0x05, 0x05, true, .u64, .rws, 0, .any⟩  -- CH_MASK
  ]

/-- Objects of model images (chapter 06). -/
def objs06 : List ObjRow := [
  ⟨0x4D00, 0x4D00, 0x01, 0x01, false, .u8, .rws, 4, .range 0 12⟩,  -- MODEL_QUOTA_GIB
  ⟨0x4D00, 0x4D00, 0x02, 0x02, false, .bool, .rwt, 1, .any⟩,  -- SPREAD_EN
  ⟨0x4D00, 0x4D00, 0x03, 0x03, false, .u16, .rwt, 64, .range 1 4096⟩,  -- ROWLOGIC_MIN_ROWS
  ⟨0x4D01, 0x4D01, 0x01, 0x01, false, .u64, .ro, 0, .any⟩,  -- DENSE_CYCLES
  ⟨0x4D01, 0x4D01, 0x02, 0x02, false, .u64, .ro, 0, .any⟩,  -- STACK_FALLBACKS
  ⟨0x4D01, 0x4D01, 0x03, 0x03, false, .u64, .ro, 0, .any⟩,  -- SMALL_TO_STACK
  ⟨0x4D01, 0x4D01, 0x04, 0x04, false, .u64, .ro, 0, .any⟩,  -- SEGMENT_SLIPS
  ⟨0x4D01, 0x4D01, 0x05, 0x05, false, .u64, .ro, 0, .any⟩,  -- WEIGHT_ERRORS
  ⟨0x4D10, 0x4D1F, 0x01, 0x01, false, .u8, .rws, 0, .range 0 1⟩,  -- SRC_LOC
  ⟨0x4D10, 0x4D1F, 0x02, 0x02, false, .u64, .rws, 0, .near 64⟩,  -- SRC_ADDR
  ⟨0x4D10, 0x4D1F, 0x03, 0x03, false, .bool, .rws, 0, .any⟩,  -- LOAD
  ⟨0x4D10, 0x4D1F, 0x04, 0x04, false, .u8, .ro, 0, .any⟩,  -- LOAD_STATE
  ⟨0x4D10, 0x4D1F, 0x05, 0x05, false, .u8, .ro, 0, .any⟩,  -- FAIL_CAUSE
  ⟨0x4D10, 0x4D1F, 0x06, 0x06, false, .bool, .rwt, 0, .any⟩,  -- UNLOAD
  ⟨0x4D10, 0x4D1F, 0x07, 0x07, false, .u8, .ro, 0, .any⟩,  -- ROLE
  ⟨0x4D10, 0x4D1F, 0x08, 0x08, false, .u16, .ro, 0, .any⟩,  -- LAYERS
  ⟨0x4D10, 0x4D1F, 0x09, 0x09, false, .u8, .ro, 0, .any⟩,  -- SEGMENTS
  ⟨0x4D10, 0x4D1F, 0x0A, 0x0A, false, .u32, .ro, 0, .any⟩,  -- HOLDERS
  ⟨0x4D10, 0x4D1F, 0x0B, 0x0B, false, .u64, .ro, 0, .any⟩,  -- BYTES_LOCAL
  ⟨0x4E00, 0x4EFF, 0x06, 0x06, true, .u8, .rwt, 255, .special⟩,  -- ENCODER_IMAGE
  ⟨0x4E00, 0x4EFF, 0x07, 0x07, true, .u8, .rwt, 255, .special⟩  -- RESCORER_IMAGE
  ]

/-- Objects of narrow arithmetic (chapter 07). -/
def objs07 : List ObjRow := [
  ⟨0x4800, 0x4800, 0x01, 0x01, false, .u16, .rwt, 64, .pow2 16 4096⟩,  -- STAT_EPOCH_TURNS
  ⟨0x4801, 0x4801, 0x01, 0x01, false, .u64, .ro, 0, .any⟩,  -- SATURATIONS
  ⟨0x4801, 0x4801, 0x02, 0x02, false, .u64, .ro, 0, .any⟩,  -- WATCH_UNSAMPLED
  ⟨0x4801, 0x4801, 0x03, 0x03, false, .u64, .ro, 0, .any⟩,  -- PROMOTIONS
  ⟨0x4801, 0x4801, 0x04, 0x04, false, .u64, .ro, 0, .any⟩,  -- DEMOTIONS
  ⟨0x4810, 0x4810, 0x01, 0x01, false, .u8, .rw, 0, .range 0 3⟩,  -- SEL_KIND
  ⟨0x4810, 0x4810, 0x02, 0x02, false, .u16, .rw, 0, .special⟩,  -- SEL_ID
  ⟨0x4810, 0x4810, 0x03, 0x03, false, .u64, .ro, 0, .any⟩,  -- EPOCH_TURN
  ⟨0x4810, 0x4810, 0x04, 0x04, false, .f32, .ro, 0, .any⟩,  -- CONV_MSE
  ⟨0x4810, 0x4810, 0x05, 0x05, false, .f32, .ro, 0, .any⟩,  -- CONV_NMSE
  ⟨0x4810, 0x4810, 0x06, 0x06, false, .u64, .ro, 0, .any⟩,  -- CONV_SATURATED
  ⟨0x4810, 0x4810, 0x07, 0x07, false, .u64, .ro, 0, .any⟩,  -- CONV_ELEMENTS
  ⟨0x4810, 0x4810, 0x08, 0x08, false, .f32, .ro, 0, .any⟩,  -- AUX_NMSE
  ⟨0x4810, 0x4810, 0x09, 0x09, false, .u8, .ro, 0, .any⟩,  -- PRECISION
  ⟨0x4810, 0x4810, 0x0A, 0x0A, false, .u16, .ro, 0, .any⟩,  -- WATCH_COUNT
  ⟨0x4820, 0x482F, 0x01, 0x01, false, .f32, .rwt, 998445679, .range 897581056 1065353216⟩,  -- MSE_THRESHOLD
  ⟨0x4820, 0x482F, 0x02, 0x02, false, .u8, .rwt, 0, .range 0 2⟩,  -- PRECISION_MODE
  ⟨0x4820, 0x482F, 0x03, 0x03, false, .u8, .rwt, 1, .range 0 16⟩,  -- SAMPLE_ROWS
  ⟨0x4820, 0x482F, 0x04, 0x04, false, .u8, .rwt, 4, .range 1 16⟩,  -- SCALE_N
  ⟨0x4820, 0x482F, 0x05, 0x05, false, .f32, .rwt, 1066401792, .range 1065353216 1082130432⟩,  -- HEADROOM
  ⟨0x4A00, 0x4AFF, 0x01, 0x01, true, .u8, .rws, 0, .range 0 1⟩,  -- ROUND_MODE
  ⟨0x4A00, 0x4AFF, 0x02, 0x02, true, .u8, .rwt, 4, .range 1 16⟩,  -- SCALE_N
  ⟨0x4A00, 0x4AFF, 0x03, 0x03, true, .f32, .rwt, 1066401792, .range 1065353216 1082130432⟩,  -- HEADROOM
  ⟨0x4A00, 0x4AFF, 0x04, 0x04, true, .u8, .rws, 0, .range 0 1⟩  -- SKETCH_LAYOUT
  ]

/-- Objects of collections (chapter 08). -/
def objs08a : List ObjRow := [
  ⟨0x4100, 0x41FF, 0x01, 0x01, true, .u8, .ro, 0, .any⟩,  -- STATE
  ⟨0x4100, 0x41FF, 0x02, 0x02, true, .bool, .rwt, 0, .any⟩,  -- RUN
  ⟨0x4100, 0x41FF, 0x03, 0x03, true, .u16, .rws, 128, .special⟩,  -- DIMS
  ⟨0x4100, 0x41FF, 0x04, 0x04, true, .u8, .rws, 0, .range 0 3⟩,  -- METRIC
  ⟨0x4100, 0x41FF, 0x05, 0x05, true, .u8, .rws, 4, .range 0 4⟩,  -- FULL_FORMAT
  ⟨0x4100, 0x41FF, 0x06, 0x06, true, .u8, .rws, 0, .range 0 2⟩,  -- CENTROID_FORMAT
  ⟨0x4100, 0x41FF, 0x07, 0x07, true, .u16, .rws, 256, .oneOf [128, 256, 512, 1024]⟩,  -- SKETCH_BITS
  ⟨0x4100, 0x41FF, 0x08, 0x08, true, .u16, .rws, 64, .special⟩,  -- SUBSPACES
  ⟨0x4100, 0x41FF, 0x09, 0x09, true, .u64, .rws, 0, .any⟩,  -- SKETCH_SEED
  ⟨0x4100, 0x41FF, 0x0A, 0x0A, true, .u16, .rwt, 32, .special⟩,  -- NPROBE_DEFAULT
  ⟨0x4100, 0x41FF, 0x0B, 0x0B, true, .u16, .rwt, 256, .range 1 1024⟩,  -- NPROBE_MAX
  ⟨0x4100, 0x41FF, 0x0C, 0x0C, true, .u8, .rwt, 0, .special⟩,  -- DEADLINE
  ⟨0x4100, 0x41FF, 0x0D, 0x0D, true, .u8, .rwt, 0, .range 0 2⟩,  -- ROUTE_MODE
  ⟨0x4100, 0x41FF, 0x0E, 0x0E, true, .u8, .rws, 0, .range 0 1⟩,  -- IMG_LOC
  ⟨0x4100, 0x41FF, 0x0F, 0x0F, true, .u64, .rws, 0, .near 64⟩,  -- IMG_ADDR
  ⟨0x4200, 0x42FF, 0x01, 0x01, true, .bool, .rws, 0, .any⟩,  -- IMG_LOAD
  ⟨0x4200, 0x42FF, 0x02, 0x02, true, .u8, .ro, 0, .any⟩,  -- IMG_STATE
  ⟨0x4200, 0x42FF, 0x03, 0x03, true, .u8, .ro, 0, .any⟩,  -- IMG_CAUSE
  ⟨0x4200, 0x42FF, 0x04, 0x04, true, .bool, .rws, 0, .any⟩,  -- DROP
  ⟨0x4200, 0x42FF, 0x05, 0x05, true, .u64, .ro, 0, .any⟩,  -- VERSION
  ⟨0x4200, 0x42FF, 0x06, 0x06, true, .u32, .ro, 0, .any⟩,  -- NCENT_LIVE
  ⟨0x4200, 0x42FF, 0x07, 0x07, true, .u64, .ro, 0, .any⟩,  -- VECTORS
  ⟨0x4000, 0x4000, 0x01, 0x01, false, .u16, .ro, 0, .any⟩,  -- RUNNING_COLLECTIONS
  ⟨0x4000, 0x4000, 0x02, 0x02, false, .u32, .ro, 0, .any⟩  -- DOMAIN_LISTS
  ]

/-- Objects of collections (chapter 08). Continued. -/
def objs08b : List ObjRow := [
  ⟨0x4001, 0x4001, 0x01, 0x01, false, .u64, .ro, 0, .any⟩,  -- FILTER_EMPTY
  ⟨0x4001, 0x4001, 0x02, 0x02, false, .u64, .ro, 0, .any⟩,  -- RETIRED_PROBES
  ⟨0x4001, 0x4001, 0x03, 0x03, false, .u64, .ro, 0, .any⟩  -- STATES_FREED
  ]

/-- Objects of search pipeline (chapter 09). -/
def objs09 : List ObjRow := [
  ⟨0x4300, 0x43FF, 0x01, 0x01, true, .u8, .rwt, 4, .range 1 64⟩,  -- C_FACTOR
  ⟨0x4300, 0x43FF, 0x02, 0x02, true, .u8, .rwt, 8, .range 1 64⟩,  -- SURVIVOR_FACTOR
  ⟨0x4300, 0x43FF, 0x03, 0x03, true, .u16, .rwt, 64, .range 16 1024⟩,  -- WALK_WIDTH
  ⟨0x4300, 0x43FF, 0x04, 0x04, true, .u16, .rwt, 256, .range 16 4096⟩,  -- WALK_EXPAND
  ⟨0x4001, 0x4001, 0x04, 0x04, false, .u64, .ro, 0, .any⟩,  -- WIDEN_ROUNDS
  ⟨0x4001, 0x4001, 0x05, 0x05, false, .u64, .ro, 0, .any⟩,  -- REPLICA_PROBES
  ⟨0x4001, 0x4001, 0x06, 0x06, false, .u64, .ro, 0, .any⟩,  -- UNHELD_PROBES
  ⟨0x4001, 0x4001, 0x07, 0x07, false, .u64, .ro, 0, .any⟩,  -- DEAD_EDGE_SKIPS
  ⟨0x4001, 0x4001, 0x08, 0x08, false, .u64, .ro, 0, .any⟩,  -- SURVIVOR_CAPPED
  ⟨0x4001, 0x4001, 0x09, 0x09, false, .u64, .ro, 0, .any⟩  -- STAGED_REREAD
  ]

/-- Objects of search memory (chapter 10). -/
def objs10 : List ObjRow := [
  ⟨0x6800, 0x6800, 0x01, 0x01, false, .u8, .ro, 4, .any⟩,  -- HOST_GROUPS_MAX
  ⟨0x6800, 0x6800, 0x02, 0x02, false, .u16, .rwt, 16384, .range 0 52000⟩,  -- HOST_GROUP_OPS
  ⟨0x6801, 0x6801, 0x01, 0x08, false, .u64, .rwt, 0, .special⟩,  -- HOST_GROUPS
  ⟨0x6802, 0x6802, 0x01, 0x08, false, .u8, .ro, 0, .any⟩,  -- STACK_TEMP_C
  ⟨0x6803, 0x6803, 0x01, 0x08, false, .u8, .ro, 0, .any⟩,  -- STACK_BAND
  ⟨0x6804, 0x6804, 0x01, 0x01, false, .u64, .ro, 0, .any⟩,  -- ROW_OPS
  ⟨0x6804, 0x6804, 0x02, 0x02, false, .u64, .ro, 0, .any⟩,  -- TAIL_ROWS
  ⟨0x6804, 0x6804, 0x03, 0x03, false, .u64, .ro, 0, .any⟩,  -- READS_HELD
  ⟨0x6804, 0x6804, 0x04, 0x04, false, .u64, .ro, 0, .any⟩,  -- HOST_CMDS
  ⟨0x6804, 0x6804, 0x05, 0x05, false, .u64, .ro, 0, .any⟩,  -- WINDOW_CUTS
  ⟨0x6804, 0x6804, 0x06, 0x06, false, .u64, .ro, 0, .any⟩,  -- REFRESH2_TURNS
  ⟨0x6804, 0x6804, 0x07, 0x07, false, .u64, .ro, 0, .any⟩  -- BUS_BYTES
  ]

/-- Objects of waystations (chapter 11). -/
def objs11 : List ObjRow := [
  ⟨0x6200, 0x6200, 0x01, 0x01, false, .u16, .ro, 208, .any⟩,  -- WAY_READ_CAP
  ⟨0x6200, 0x6200, 0x02, 0x02, false, .u8, .ro, 16, .any⟩,  -- DIE_READ_CAP
  ⟨0x6200, 0x6200, 0x03, 0x03, false, .u16, .ro, 4095, .any⟩,  -- HOT_READ_CAP
  ⟨0x6200, 0x6200, 0x04, 0x04, false, .u16, .rwt, 40, .special⟩,  -- RESCORE_US
  ⟨0x6200, 0x6200, 0x05, 0x05, false, .u8, .rwt, 2, .range 0 4⟩,  -- SOFT_RETRIES
  ⟨0x6201, 0x6201, 0x01, 0x01, false, .u64, .ro, 0, .any⟩,  -- CAND_READS
  ⟨0x6201, 0x6201, 0x02, 0x02, false, .u64, .ro, 0, .any⟩,  -- HOT_READS
  ⟨0x6201, 0x6201, 0x03, 0x03, false, .u64, .ro, 0, .any⟩,  -- DIE_SPILLS
  ⟨0x6201, 0x6201, 0x04, 0x04, false, .u64, .ro, 0, .any⟩,  -- SOFT_DECODES
  ⟨0x6201, 0x6201, 0x05, 0x05, false, .u64, .ro, 0, .any⟩,  -- UNCORRECTABLE
  ⟨0x6201, 0x6201, 0x06, 0x06, false, .u64, .ro, 0, .any⟩  -- RESCORED
  ]

/-- Objects of selection (chapter 12). -/
def objs12 : List ObjRow := [
  ⟨0x4400, 0x4400, 0x01, 0x01, false, .u8, .rwt, 4, .range 1 16⟩,  -- SELECT_TILES
  ⟨0x4400, 0x4400, 0x02, 0x02, false, .u8, .rwt, 4, .range 1 16⟩,  -- BAZAAR_TILES
  ⟨0x4400, 0x4400, 0x03, 0x03, false, .u16, .rws, 1024, .range 64 4096⟩,  -- BAZAAR_BUF_MIB
  ⟨0x4400, 0x4400, 0x04, 0x04, false, .u32, .ro, 399360, .any⟩,  -- STEPS_PER_TILE
  ⟨0x4401, 0x4401, 0x01, 0x01, false, .u64, .ro, 0, .any⟩,  -- PARTIALS_MERGED
  ⟨0x4401, 0x4401, 0x02, 0x02, false, .u64, .ro, 0, .any⟩,  -- DUPLICATES_DROPPED
  ⟨0x4401, 0x4401, 0x03, 0x03, false, .u64, .ro, 0, .any⟩,  -- MERGE_PIECES
  ⟨0x4401, 0x4401, 0x04, 0x04, false, .u64, .ro, 0, .any⟩,  -- SELECT_SLIPS
  ⟨0x4401, 0x4401, 0x05, 0x05, false, .u64, .ro, 0, .any⟩,  -- BAZAAR_SLIPS
  ⟨0x4401, 0x4401, 0x06, 0x06, false, .u64, .ro, 0, .any⟩  -- BUFFER_WAITS
  ]

/-- Objects of ingest (chapter 13). -/
def objs13a : List ObjRow := [
  ⟨0x4500, 0x45FF, 0x01, 0x01, true, .u32, .rwt, 262144, .range 4096 1048576⟩,  -- COMPACT_DELTA
  ⟨0x4500, 0x45FF, 0x02, 0x02, true, .u8, .rwt, 16, .range 1 63⟩,  -- COMPACT_DEAD
  ⟨0x4500, 0x45FF, 0x03, 0x03, true, .bool, .rwt, 0, .any⟩,  -- ADAPT_EN
  ⟨0x4500, 0x45FF, 0x04, 0x04, true, .u16, .rwt, 4096, .pow2 256 32768⟩,  -- ADAPT_EPOCH
  ⟨0x4500, 0x45FF, 0x05, 0x05, true, .f32, .rwt, 1048576000, .range 998244352 1065353216⟩,  -- ADAPT_RATE
  ⟨0x4500, 0x45FF, 0x06, 0x06, true, .u32, .rwt, 64, .range 1 1048576⟩,  -- ADAPT_MIN_COUNT
  ⟨0x4500, 0x45FF, 0x07, 0x07, true, .u32, .rwt, 1024, .special⟩,  -- LIST_MIN
  ⟨0x4500, 0x45FF, 0x08, 0x08, true, .u32, .rwt, 4194304, .range 4096 67108864⟩,  -- LIST_MAX
  ⟨0x4500, 0x45FF, 0x09, 0x09, true, .u16, .rwt, 64, .range 0 1024⟩,  -- RESHAPE_MAX
  ⟨0x4600, 0x4600, 0x01, 0x01, false, .u16, .ro, 256, .any⟩,  -- INGEST_CAP
  ⟨0x4600, 0x4600, 0x02, 0x02, false, .u16, .ro, 1024, .any⟩,  -- STAGE_CAP
  ⟨0x4600, 0x4600, 0x03, 0x03, false, .u8, .rwt, 2, .range 1 8⟩,  -- ACK_WAIT
  ⟨0x4600, 0x4600, 0x04, 0x04, false, .u32, .rwt, 4096, .range 0 65536⟩,  -- DELTA_GUARD
  ⟨0x4601, 0x4601, 0x01, 0x01, false, .u64, .ro, 0, .any⟩,  -- INGEST_COMMITS
  ⟨0x4601, 0x4601, 0x02, 0x02, false, .u64, .ro, 0, .any⟩,  -- INSERT_OVERWRITES
  ⟨0x4601, 0x4601, 0x03, 0x03, false, .u64, .ro, 0, .any⟩,  -- DELETE_MISSES
  ⟨0x4601, 0x4601, 0x04, 0x04, false, .u64, .ro, 0, .any⟩,  -- STAGE_REFUSALS
  ⟨0x4601, 0x4601, 0x05, 0x05, false, .u64, .ro, 0, .any⟩,  -- STALE_REPLICAS
  ⟨0x4601, 0x4601, 0x06, 0x06, false, .u64, .ro, 0, .any⟩,  -- RESTAGES
  ⟨0x4601, 0x4601, 0x07, 0x07, false, .u64, .ro, 0, .any⟩,  -- SCAN_GUARD_SLIPS
  ⟨0x4601, 0x4601, 0x08, 0x08, false, .u64, .ro, 0, .any⟩,  -- COMPACTIONS
  ⟨0x4601, 0x4601, 0x09, 0x09, false, .u64, .ro, 0, .any⟩,  -- SPLITS
  ⟨0x4601, 0x4601, 0x0A, 0x0A, false, .u64, .ro, 0, .any⟩,  -- MERGES
  ⟨0x4601, 0x4601, 0x0B, 0x0B, false, .u64, .ro, 0, .any⟩  -- DRIFT_SKIPS
  ]

/-- Objects of ingest (chapter 13). Continued. -/
def objs13b : List ObjRow := [
  ⟨0x4601, 0x4601, 0x0C, 0x0C, false, .u64, .ro, 0, .any⟩,  -- RESHAPE_DEFERRED
  ⟨0x4601, 0x4601, 0x0D, 0x0D, false, .u64, .ro, 0, .any⟩  -- NOID_DISCARDS
  ]

/-- Objects of placement (chapter 14). -/
def objs14a : List ObjRow := [
  ⟨0x5000, 0x5000, 0x01, 0x01, false, .u8, .rwt, 6, .range 1 12⟩,  -- HEAT_SHIFT
  ⟨0x5000, 0x5000, 0x02, 0x02, false, .u32, .rwt, 8192, .range 1 4294967295⟩,  -- HOT_ON
  ⟨0x5000, 0x5000, 0x03, 0x03, false, .u32, .rwt, 2048, .special⟩,  -- HOT_OFF
  ⟨0x5000, 0x5000, 0x04, 0x04, false, .u32, .rwt, 16384, .special⟩,  -- REPL_HEAT_1
  ⟨0x5000, 0x5000, 0x05, 0x05, false, .u32, .rwt, 65536, .special⟩,  -- REPL_HEAT_2
  ⟨0x5000, 0x5000, 0x06, 0x06, false, .u32, .rwt, 262144, .special⟩,  -- REPL_HEAT_3
  ⟨0x5000, 0x5000, 0x07, 0x07, false, .u32, .rwt, 4096, .range 1 4294967295⟩,  -- GROUP_T2_HEAT
  ⟨0x5000, 0x5000, 0x08, 0x08, false, .u32, .rwt, 65536, .range 1 4294967295⟩,  -- GROUP_T1_HEAT
  ⟨0x5000, 0x5000, 0x09, 0x09, false, .u32, .rwt, 16384, .range 1 4294967295⟩,  -- LAYER_T0_HEAT
  ⟨0x5000, 0x5000, 0x0A, 0x0A, false, .u16, .rwt, 8, .range 0 64⟩,  -- MOVE_CAP_MIB
  ⟨0x5000, 0x5000, 0x0B, 0x0B, false, .u8, .rwt, 4, .range 0 16⟩,  -- MOVES_MAX
  ⟨0x5000, 0x5000, 0x0C, 0x0C, false, .u16, .rwt, 64, .range 16 1024⟩,  -- MOVE_LOG_MIB
  ⟨0x5000, 0x5000, 0x0D, 0x0D, false, .u8, .rwt, 90, .range 50 99⟩,  -- BALANCE_HIGH_PCT
  ⟨0x5000, 0x5000, 0x0E, 0x0E, false, .u8, .rwt, 70, .special⟩,  -- BALANCE_LOW_PCT
  ⟨0x5000, 0x5000, 0x0F, 0x0F, false, .u16, .rwt, 150, .range 110 400⟩,  -- HEAT_SKEW_PCT
  ⟨0x5000, 0x5000, 0x10, 0x10, false, .u8, .rwt, 16, .range 4 64⟩,  -- T2_RESERVE_GIB
  ⟨0x5000, 0x5000, 0x11, 0x11, false, .u32, .ro, 9472, .any⟩,  -- T1_SERVICE_MIB
  ⟨0x5000, 0x5000, 0x12, 0x12, false, .u32, .ro, 720768, .any⟩,  -- T2_SERVICE_MIB
  ⟨0x5000, 0x5000, 0x13, 0x13, false, .u16, .ro, 0, .any⟩,  -- T4_REGISTERED_GIB
  ⟨0x5001, 0x5001, 0x01, 0x01, false, .u64, .ro, 0, .any⟩,  -- MOVES_DONE
  ⟨0x5001, 0x5001, 0x02, 0x02, false, .u64, .ro, 0, .any⟩,  -- MOVES_ABORTED
  ⟨0x5001, 0x5001, 0x03, 0x03, false, .u64, .ro, 0, .any⟩,  -- MOVE_BYTES
  ⟨0x5001, 0x5001, 0x04, 0x04, false, .u64, .ro, 0, .any⟩,  -- LOG_REPLAYED
  ⟨0x5001, 0x5001, 0x05, 0x05, false, .u64, .ro, 0, .any⟩  -- QUOTA_REFUSALS
  ]

/-- Objects of placement (chapter 14). Continued. -/
def objs14b : List ObjRow := [
  ⟨0x5001, 0x5001, 0x06, 0x06, false, .u64, .ro, 0, .any⟩,  -- COPIES_DROPPED
  ⟨0x5001, 0x5001, 0x07, 0x07, false, .u64, .ro, 0, .any⟩,  -- MIRROR_FALLBACKS
  ⟨0x5001, 0x5001, 0x08, 0x08, false, .u64, .ro, 0, .any⟩,  -- REBUILDS
  ⟨0x5010, 0x501F, 0x01, 0x01, false, .u64, .rwt, 0, .mult 1073741824⟩,  -- BASE
  ⟨0x5010, 0x501F, 0x02, 0x02, false, .u16, .rwt, 0, .range 0 4096⟩,  -- SIZE_GIB
  ⟨0x5010, 0x501F, 0x03, 0x03, false, .u8, .ro, 0, .any⟩,  -- STATE
  ⟨0x5010, 0x501F, 0x04, 0x04, false, .u16, .ro, 0, .any⟩,  -- USED_GIB
  ⟨0x5100, 0x51FF, 0x01, 0x01, true, .u32, .rwt, 256, .range 0 16384⟩,  -- T1_QUOTA_MIB
  ⟨0x5100, 0x51FF, 0x02, 0x02, true, .u16, .rwt, 32, .range 0 768⟩,  -- T2_QUOTA_GIB
  ⟨0x5100, 0x51FF, 0x03, 0x03, true, .u16, .rwt, 0, .range 0 4096⟩,  -- T4_QUOTA_GIB
  ⟨0x5100, 0x51FF, 0x04, 0x04, true, .u32, .rwt, 1000, .range 0 256000⟩,  -- T5_QUOTA_GB
  ⟨0x5100, 0x51FF, 0x05, 0x05, true, .u8, .rwt, 1, .range 0 3⟩,  -- REPLICAS_MIN
  ⟨0x5100, 0x51FF, 0x06, 0x06, true, .u8, .rwt, 3, .special⟩,  -- REPLICAS_MAX
  ⟨0x5100, 0x51FF, 0x07, 0x07, true, .bool, .rwt, 1, .any⟩,  -- HOT_EN
  ⟨0x5200, 0x52FF, 0x01, 0x01, true, .u32, .ro, 0, .any⟩,  -- T1_USED_MIB
  ⟨0x5200, 0x52FF, 0x02, 0x02, true, .u32, .ro, 0, .any⟩,  -- T2_USED_MIB
  ⟨0x5200, 0x52FF, 0x03, 0x03, true, .u32, .ro, 0, .any⟩,  -- T4_USED_MIB
  ⟨0x5200, 0x52FF, 0x04, 0x04, true, .u32, .ro, 0, .any⟩  -- T5_USED_GB
  ]

/-- Objects of Scratch Banks (chapter 15). -/
def objs15 : List ObjRow := [
  ⟨0x5800, 0x5800, 0x01, 0x01, false, .u16, .ro, 256, .any⟩,  -- BANKS_GOOD
  ⟨0x5800, 0x5800, 0x02, 0x02, false, .u16, .ro, 0, .any⟩,  -- FUSE_ENTRIES
  ⟨0x5800, 0x5800, 0x03, 0x03, false, .domain 16384, .ro, 0, .any⟩,  -- FUSE_MAP
  ⟨0x5800, 0x5800, 0x04, 0x04, false, .domain 2048, .rws, 0, .any⟩,  -- SOFT_REPAIR
  ⟨0x5800, 0x5800, 0x05, 0x05, false, .u16, .ro, 0, .any⟩,  -- SOFT_ENTRIES
  ⟨0x5801, 0x5801, 0x01, 0x01, false, .u64, .ro, 0, .any⟩,  -- NONOWNER_READS
  ⟨0x5801, 0x5801, 0x02, 0x02, false, .u64, .ro, 0, .any⟩,  -- NONOWNER_WRITES
  ⟨0x5801, 0x5801, 0x03, 0x03, false, .u64, .ro, 0, .any⟩,  -- ATOMICS
  ⟨0x5801, 0x5801, 0x04, 0x04, false, .u64, .ro, 0, .any⟩,  -- HANDOVERS
  ⟨0x5801, 0x5801, 0x05, 0x05, false, .u64, .ro, 0, .any⟩,  -- SCRATCH_CORRECTED
  ⟨0x5810, 0x581F, 0x01, 0x01, true, .u8, .ro, 0, .any⟩,  -- OWNER
  ⟨0x5810, 0x581F, 0x02, 0x02, true, .bool, .ro, 0, .any⟩,  -- RETIRED
  ⟨0x5810, 0x581F, 0x03, 0x03, true, .u64, .ro, 0, .any⟩  -- DROPS
  ]

/-- Objects of flash (chapter 16). -/
def objs16 : List ObjRow := [
  ⟨0x6000, 0x6000, 0x01, 0x01, false, .u32, .ro, 0, .any⟩,  -- CHANNELS_MOUNTED
  ⟨0x6000, 0x6000, 0x02, 0x02, false, .u16, .ro, 0, .any⟩,  -- DIES
  ⟨0x6000, 0x6000, 0x03, 0x03, false, .u32, .ro, 0, .any⟩,  -- RAW_GB
  ⟨0x6000, 0x6000, 0x04, 0x04, false, .u32, .ro, 0, .any⟩,  -- USER_GB
  ⟨0x6000, 0x6000, 0x05, 0x05, false, .u16, .rws, 512, .range 128 4096⟩,  -- SYSTEM_GB
  ⟨0x6000, 0x6000, 0x06, 0x06, false, .u8, .ro, 0, .any⟩,  -- FILL_PCT
  ⟨0x6000, 0x6000, 0x07, 0x07, false, .f32, .ro, 1092616192, .any⟩,  -- SLC_CACHE_PCT
  ⟨0x6000, 0x6000, 0x08, 0x08, false, .u8, .rwt, 98, .range 90 99⟩,  -- FILL_STOP_PCT
  ⟨0x6000, 0x6000, 0x09, 0x09, false, .u32, .rwt, 100000, .range 10000 1000000⟩,  -- READ_DISTURB_LIMIT
  ⟨0x6000, 0x6000, 0x0A, 0x0A, false, .u8, .ro, 0, .any⟩,  -- LIFE_USED_PCT
  ⟨0x6001, 0x6001, 0x01, 0x01, false, .u64, .ro, 0, .any⟩,  -- PAGES_PROGRAMMED
  ⟨0x6001, 0x6001, 0x02, 0x02, false, .u64, .ro, 0, .any⟩,  -- PAGES_RELOCATED
  ⟨0x6001, 0x6001, 0x03, 0x03, false, .u64, .ro, 0, .any⟩,  -- PAGES_DISCARDED
  ⟨0x6001, 0x6001, 0x04, 0x04, false, .u64, .ro, 0, .any⟩,  -- SUSPENDS
  ⟨0x6001, 0x6001, 0x05, 0x05, false, .u64, .ro, 0, .any⟩,  -- BLOCKS_RETIRED
  ⟨0x6001, 0x6001, 0x06, 0x06, false, .u64, .ro, 0, .any⟩,  -- READ_RETRIES
  ⟨0x6010, 0x602F, 0x01, 0x01, false, .bool, .ro, 0, .any⟩,  -- MOUNTED
  ⟨0x6010, 0x602F, 0x02, 0x02, false, .u32, .ro, 0, .any⟩,  -- PE_MEAN
  ⟨0x6010, 0x602F, 0x03, 0x03, false, .u32, .ro, 0, .any⟩,  -- PE_MAX
  ⟨0x6010, 0x602F, 0x04, 0x04, false, .u8, .ro, 100, .any⟩,  -- SPARE_PCT_MIN
  ⟨0x6010, 0x602F, 0x05, 0x05, false, .u8, .ro, 0, .any⟩,  -- DIES_READ_ONLY
  ⟨0x6010, 0x602F, 0x06, 0x06, false, .f32, .ro, 0, .any⟩,  -- LDPC_ITER_MEAN
  ⟨0x6010, 0x602F, 0x07, 0x07, false, .u16, .ro, 0, .any⟩  -- TRAIN_MARGIN_PS
  ]

/-- Objects of Wenmen (chapter 17). -/
def objs17a : List ObjRow := [
  ⟨0x7000, 0x7000, 0x01, 0x01, false, .u8, .rws, 0, .range 0 255⟩,  -- NODE_ID
  ⟨0x7000, 0x7000, 0x02, 0x02, false, .u8, .rws, 0, .range 0 15⟩,  -- PARTITION_ID
  ⟨0x7000, 0x7000, 0x03, 0x03, false, .bool, .rwt, 0, .any⟩,  -- FOUND
  ⟨0x7000, 0x7000, 0x04, 0x04, false, .bool, .rwt, 0, .any⟩,  -- JOIN
  ⟨0x7000, 0x7000, 0x05, 0x05, false, .u8, .rwt, 3, .oneOf [3, 5]⟩,  -- HOLDERS_TARGET
  ⟨0x7000, 0x7000, 0x06, 0x06, false, .u8, .rwt, 4, .range 2 16⟩,  -- LEADER_TIMEOUT
  ⟨0x7000, 0x7000, 0x07, 0x07, false, .u32, .rwt, 65536, .range 1024 1048576⟩,  -- EPOCH_MAX
  ⟨0x7000, 0x7000, 0x08, 0x08, false, .u16, .rwt, 65535, .any⟩,  -- PORT_EN
  ⟨0x7000, 0x7000, 0x09, 0x09, false, .u8, .rwt, 16, .range 0 32⟩,  -- TRANSIT_64THS
  ⟨0x7000, 0x7000, 0x0A, 0x0A, false, .u16, .rws, 0, .range 0 256⟩,  -- CACHE_LEND_GIB
  ⟨0x7000, 0x7000, 0x0B, 0x0B, false, .bool, .ro, 0, .any⟩,  -- MEMBER
  ⟨0x7000, 0x7000, 0x0C, 0x0C, false, .u64, .ro, 0, .any⟩,  -- EPOCH
  ⟨0x7000, 0x7000, 0x0D, 0x0D, false, .u8, .ro, 0, .any⟩,  -- LEADER
  ⟨0x7000, 0x7000, 0x0E, 0x0E, false, .u8, .ro, 0, .any⟩,  -- LEDGER_ROLE
  ⟨0x7000, 0x7000, 0x0F, 0x0F, false, .domain 32, .ro, 0, .any⟩,  -- MEMBERS
  ⟨0x7000, 0x7000, 0x10, 0x10, false, .u32, .ro, 8752800, .any⟩,  -- PORT_TURN_BYTES
  ⟨0x7001, 0x7001, 0x01, 0x01, false, .u64, .ro, 0, .any⟩,  -- FRAMES_WRONG_PART
  ⟨0x7001, 0x7001, 0x02, 0x02, false, .u64, .ro, 0, .any⟩,  -- E2E_RESENDS
  ⟨0x7001, 0x7001, 0x03, 0x03, false, .u64, .ro, 0, .any⟩,  -- EPOCH_RETRIES
  ⟨0x7001, 0x7001, 0x04, 0x04, false, .u64, .ro, 0, .any⟩,  -- HX_MALFORMED
  ⟨0x7001, 0x7001, 0x05, 0x05, false, .u64, .ro, 0, .any⟩,  -- OUT_OF_STEP_TURNS
  ⟨0x7001, 0x7001, 0x06, 0x06, false, .u64, .ro, 0, .any⟩,  -- CACHE_REMOTE_GETS
  ⟨0x7001, 0x7001, 0x07, 0x07, false, .u64, .ro, 0, .any⟩,  -- MEMO_HITS
  ⟨0x7100, 0x710F, 0x01, 0x01, false, .u8, .ro, 0, .any⟩  -- LINK_STATE
  ]

/-- Objects of Wenmen (chapter 17). Continued. -/
def objs17b : List ObjRow := [
  ⟨0x7100, 0x710F, 0x02, 0x02, false, .u8, .ro, 0, .any⟩,  -- PEER_NODE
  ⟨0x7100, 0x710F, 0x03, 0x03, false, .u8, .ro, 0, .any⟩,  -- PEER_PORT
  ⟨0x7100, 0x710F, 0x04, 0x04, false, .u8, .ro, 0, .any⟩,  -- PEER_PART
  ⟨0x7100, 0x710F, 0x05, 0x05, false, .u32, .ro, 0, .any⟩,  -- LINK_DELAY_PS
  ⟨0x7100, 0x710F, 0x06, 0x06, false, .u64, .ro, 0, .any⟩,  -- FEC_CORRECTED
  ⟨0x7100, 0x710F, 0x07, 0x07, false, .u64, .ro, 0, .any⟩,  -- FEC_UNCORRECTABLE
  ⟨0x7100, 0x710F, 0x08, 0x08, false, .u64, .ro, 0, .any⟩,  -- FLIT_RETRIES
  ⟨0x7100, 0x710F, 0x09, 0x09, false, .u8, .ro, 0, .any⟩,  -- MODULE
  ⟨0x7100, 0x710F, 0x0A, 0x0A, false, .u16, .ro, 0, .any⟩,  -- RX_POWER_MIN
  ⟨0x7100, 0x710F, 0x0B, 0x0B, false, .i32, .ro, 0, .any⟩,  -- MODULE_TEMP_C
  ⟨0x7100, 0x710F, 0x0C, 0x0C, false, .u32, .ro, 0, .any⟩,  -- MODULE_FLAGS
  ⟨0x7400, 0x74FF, 0x01, 0x01, true, .bool, .rwt, 0, .any⟩,  -- MEMO_EN
  ⟨0x7400, 0x74FF, 0x02, 0x02, true, .u16, .rwt, 64, .range 1 4096⟩  -- MEMO_MAX_AGE
  ]

/-- Objects of barriers (chapter 18). -/
def objs18 : List ObjRow := [
  ⟨0x7801, 0x7801, 0x01, 0x01, false, .u64, .ro, 0, .any⟩,  -- BARRIERS_RELEASED
  ⟨0x7801, 0x7801, 0x02, 0x02, false, .u64, .ro, 0, .any⟩,  -- BARRIERS_FAILED
  ⟨0x7801, 0x7801, 0x03, 0x03, false, .u64, .ro, 0, .any⟩,  -- STRAY_MESSAGES
  ⟨0x7801, 0x7801, 0x04, 0x04, false, .u64, .ro, 0, .any⟩,  -- MC_EXTRA_ARRIVALS
  ⟨0x7810, 0x784F, 0x01, 0x01, false, .bool, .rwt, 0, .any⟩,  -- ENABLE
  ⟨0x7810, 0x784F, 0x02, 0x02, false, .domain 32, .rws, 0, .any⟩,  -- NODE_MASK
  ⟨0x7810, 0x784F, 0x03, 0x03, false, .u64, .rws, 0, .any⟩,  -- TILE_MASK_LO
  ⟨0x7810, 0x784F, 0x04, 0x04, false, .u64, .rws, 0, .any⟩,  -- TILE_MASK_HI
  ⟨0x7810, 0x784F, 0x05, 0x05, false, .bool, .rws, 0, .any⟩,  -- MC_MEMBER
  ⟨0x7810, 0x784F, 0x06, 0x06, false, .u32, .rws, 100, .range 1 1000000⟩,  -- TIMEOUT_US
  ⟨0x7810, 0x784F, 0x07, 0x07, false, .bool, .rwt, 0, .any⟩,  -- CLEAR
  ⟨0x7810, 0x784F, 0x08, 0x08, false, .u8, .ro, 0, .any⟩  -- CAUSE
  ]

/-- Objects of identity and transactions (chapter 19). -/
def objs19a : List ObjRow := [
  ⟨0x1000, 0x1000, 0x01, 0x01, false, .str, .ro, 0, .any⟩,  -- VENDOR
  ⟨0x1000, 0x1000, 0x02, 0x02, false, .str, .ro, 0, .any⟩,  -- PRODUCT
  ⟨0x1000, 0x1000, 0x03, 0x03, false, .str, .ro, 0, .any⟩,  -- ORDER_CODE
  ⟨0x1000, 0x1000, 0x04, 0x04, false, .u8, .ro, 161, .any⟩,  -- STEPPING
  ⟨0x1000, 0x1000, 0x05, 0x05, false, .u64, .ro, 0, .any⟩,  -- SERIAL
  ⟨0x1000, 0x1000, 0x06, 0x06, false, .u32, .ro, 0, .any⟩,  -- FW_VERSION
  ⟨0x1000, 0x1000, 0x07, 0x07, false, .u16, .ro, 1, .any⟩,  -- DICT_VERSION
  ⟨0x1000, 0x1000, 0x08, 0x08, false, .bool, .ro, 0, .any⟩,  -- READY
  ⟨0x1000, 0x1000, 0x09, 0x09, false, .u64, .rw, 0, .special⟩,  -- MAC_ADDR
  ⟨0x1001, 0x1001, 0x01, 0x01, false, .bool, .rw, 0, .any⟩,  -- PLCA_EN
  ⟨0x1001, 0x1001, 0x02, 0x02, false, .u8, .rw, 1, .range 0 254⟩,  -- PLCA_ID
  ⟨0x1001, 0x1001, 0x03, 0x03, false, .u8, .rw, 8, .range 2 255⟩,  -- PLCA_COUNT
  ⟨0x1001, 0x1001, 0x04, 0x04, false, .u8, .rw, 32, .range 1 255⟩,  -- PLCA_TO_BITS
  ⟨0x1001, 0x1001, 0x05, 0x05, false, .u8, .rw, 0, .range 0 255⟩,  -- PLCA_BURST
  ⟨0x1001, 0x1001, 0x06, 0x06, false, .u64, .ro, 0, .any⟩,  -- FN_FRAMES_IN
  ⟨0x1001, 0x1001, 0x07, 0x07, false, .u64, .ro, 0, .any⟩,  -- FN_FRAMES_DROPPED
  ⟨0x1800, 0x1800, 0x01, 0x01, false, .u32, .ro, 65536, .any⟩,  -- TXN_WATCHDOG_TURNS
  ⟨0x1800, 0x1800, 0x02, 0x02, false, .u16, .ro, 4096, .any⟩,  -- TXN_MAX_WRITES
  ⟨0x1800, 0x1800, 0x03, 0x03, false, .u32, .ro, 262144, .any⟩,  -- TXN_MAX_BYTES
  ⟨0x1800, 0x1800, 0x04, 0x04, false, .u16, .rwt, 4096, .range 64 65535⟩,  -- SEG_IDLE_TURNS
  ⟨0x1801, 0x1801, 0x01, 0x01, false, .u64, .ro, 0, .any⟩,  -- COMMITS
  ⟨0x1801, 0x1801, 0x02, 0x02, false, .u64, .ro, 0, .any⟩,  -- ROLLBACKS
  ⟨0x1801, 0x1801, 0x03, 0x03, false, .u64, .ro, 0, .any⟩,  -- WATCHDOG_ROLLBACKS
  ⟨0x1801, 0x1801, 0x04, 0x04, false, .u64, .ro, 0, .any⟩  -- REJECTED_TXNS
  ]

/-- Objects of identity and transactions (chapter 19). Continued. -/
def objs19b : List ObjRow := [
  ⟨0x1801, 0x1801, 0x05, 0x05, false, .u64, .ro, 0, .any⟩,  -- REPEATS
  ⟨0x1801, 0x1801, 0x06, 0x06, false, .u64, .ro, 0, .any⟩,  -- SEG_CHECK_FAILS
  ⟨0x1810, 0x1813, 0x01, 0x01, false, .u8, .ro, 0, .any⟩,  -- TXN_STATE
  ⟨0x1810, 0x1813, 0x02, 0x02, false, .u64, .ro, 0, .any⟩,  -- TXN_BEGIN_TURN
  ⟨0x1810, 0x1813, 0x03, 0x03, false, .u16, .ro, 0, .any⟩,  -- TXN_WRITES
  ⟨0x1810, 0x1813, 0x04, 0x04, false, .u64, .ro, 0, .any⟩,  -- TXN_APPLY_TURN
  ⟨0x1810, 0x1813, 0x05, 0x05, false, .u32, .ro, 0, .any⟩,  -- REJECT_OBJECT
  ⟨0x1810, 0x1813, 0x06, 0x06, false, .u8, .ro, 0, .any⟩,  -- SEG_STATE
  ⟨0x1810, 0x1813, 0x07, 0x07, false, .u32, .ro, 0, .any⟩,  -- SEG_OBJECT
  ⟨0x1810, 0x1813, 0x08, 0x08, false, .u64, .ro, 0, .any⟩  -- SEG_BYTES
  ]

/-- Objects of security (chapter 20). -/
def objs20 : List ObjRow := [
  ⟨0x8000, 0x8000, 0x01, 0x01, false, .u8, .ro, 0, .any⟩,  -- TENANT_STATE
  ⟨0x8000, 0x8000, 0x02, 0x02, false, .domain 32, .rwt, 0, .any⟩,  -- TENANT_TAG
  ⟨0x8000, 0x8000, 0x03, 0x03, false, .bool, .rwt, 0, .any⟩,  -- BIND
  ⟨0x8000, 0x8000, 0x04, 0x04, false, .bool, .rwt, 0, .any⟩,  -- SWITCH
  ⟨0x8000, 0x8000, 0x05, 0x05, false, .bool, .rwt, 0, .any⟩,  -- DIAG_EN
  ⟨0x8000, 0x8000, 0x06, 0x06, false, .u16, .ro, 0, .any⟩,  -- SCRUB_MS
  ⟨0x8000, 0x8000, 0x07, 0x07, false, .bool, .rwt, 0, .any⟩,  -- IDE_REQUIRED
  ⟨0x8000, 0x8000, 0x08, 0x08, false, .domain 33554432, .wo, 0, .any⟩,  -- FW_IMAGE
  ⟨0x8000, 0x8000, 0x09, 0x09, false, .u8, .ro, 0, .any⟩,  -- FW_STAGED
  ⟨0x8000, 0x8000, 0x0A, 0x0A, false, .bool, .rwt, 0, .any⟩,  -- FW_ACTIVATE
  ⟨0x8000, 0x8000, 0x0B, 0x0B, false, .u32, .ro, 0, .any⟩,  -- FW_SVN
  ⟨0x8001, 0x8001, 0x01, 0x01, false, .domain 1952, .ro, 0, .any⟩,  -- ID_PUBKEY
  ⟨0x8001, 0x8001, 0x02, 0x02, false, .domain 16384, .ro, 0, .any⟩,  -- ID_CERT
  ⟨0x8001, 0x8001, 0x03, 0x03, false, .domain 40, .rw, 0, .any⟩,  -- ATT_REQUEST
  ⟨0x8001, 0x8001, 0x04, 0x04, false, .domain 3477, .ro, 0, .any⟩,  -- ATT_REPORT
  ⟨0x8002, 0x8002, 0x01, 0x01, false, .u64, .ro, 0, .any⟩,  -- SWITCHES
  ⟨0x8002, 0x8002, 0x02, 0x02, false, .u64, .ro, 0, .any⟩,  -- SESSION_FAILS
  ⟨0x8002, 0x8002, 0x03, 0x03, false, .u64, .ro, 0, .any⟩,  -- IDE_REFUSED
  ⟨0x8003, 0x8003, 0x01, 0x04, false, .u8, .ro, 0, .any⟩  -- IDE_STREAM
  ]

/-- Objects of reliability (chapter 21). -/
def objs21a : List ObjRow := [
  ⟨0x8800, 0x8800, 0x01, 0x01, false, .u8, .rwt, 4, .range 2 64⟩,  -- PLANNER_REPEAT_LIMIT
  ⟨0x8800, 0x8800, 0x02, 0x02, false, .u16, .rwt, 100, .range 20 1000⟩,  -- MC_WDT_MS
  ⟨0x8800, 0x8800, 0x03, 0x03, false, .u8, .rwt, 24, .range 1 168⟩,  -- PATROL_HOURS
  ⟨0x8800, 0x8800, 0x04, 0x04, false, .u16, .rwt, 60, .range 5 1440⟩,  -- SCRATCH_PATROL_MIN
  ⟨0x8800, 0x8800, 0x05, 0x05, false, .bool, .rwt, 1, .any⟩,  -- SALVAGE_EN
  ⟨0x8800, 0x8800, 0x06, 0x06, false, .u8, .ro, 128, .any⟩,  -- TILES_GOOD
  ⟨0x8800, 0x8800, 0x07, 0x07, false, .bool, .ro, 0, .any⟩,  -- SELFTEST_PASS
  ⟨0x8800, 0x8800, 0x08, 0x08, false, .domain 64, .ro, 0, .any⟩,  -- SELFTEST_RESULT
  ⟨0x8800, 0x8800, 0x09, 0x09, false, .u8, .ro, 0, .any⟩,  -- MEMBER_LOAD
  ⟨0x8800, 0x8800, 0x0A, 0x0A, false, .domain 2097152, .ro, 0, .any⟩,  -- ERROR_LOG
  ⟨0x8801, 0x8801, 0x01, 0x01, false, .u64, .ro, 0, .any⟩,  -- WDT_TRIPS
  ⟨0x8801, 0x8801, 0x02, 0x02, false, .u64, .ro, 0, .any⟩,  -- QUARANTINES
  ⟨0x8801, 0x8801, 0x03, 0x03, false, .u64, .ro, 0, .any⟩,  -- SALVAGES
  ⟨0x8801, 0x8801, 0x04, 0x04, false, .u64, .ro, 0, .any⟩,  -- PATROL_CORRECTED
  ⟨0x8801, 0x8801, 0x05, 0x05, false, .u64, .ro, 0, .any⟩,  -- PATROL_UNCORRECTABLE
  ⟨0x8810, 0x8810, 0x01, 0x01, false, .bool, .rwt, 0, .any⟩,  -- SWEEP_START
  ⟨0x8810, 0x8810, 0x02, 0x02, false, .u8, .rwt, 8, .range 0 8⟩,  -- SWEEP_STACK
  ⟨0x8810, 0x8810, 0x03, 0x03, false, .u8, .rwt, 2, .range 0 2⟩,  -- SWEEP_KIND
  ⟨0x8810, 0x8810, 0x04, 0x04, false, .u8, .rwt, 64, .range 1 255⟩,  -- SWEEP_STEPS_PER_TURN
  ⟨0x8810, 0x8810, 0x05, 0x05, false, .u8, .ro, 0, .any⟩,  -- SWEEP_STATE
  ⟨0x8810, 0x8810, 0x06, 0x06, false, .domain 4096, .ro, 0, .any⟩,  -- MARGIN_RESULT
  ⟨0x8810, 0x8810, 0x07, 0x07, false, .domain 256, .ro, 0, .any⟩,  -- EYE_MAP
  ⟨0x8810, 0x8810, 0x08, 0x08, false, .u64, .ro, 0, .any⟩,  -- DROOP_H0
  ⟨0x8810, 0x8810, 0x09, 0x09, false, .u64, .ro, 0, .any⟩  -- DROOP_H1
  ]

/-- Objects of reliability (chapter 21). Continued. -/
def objs21b : List ObjRow := [
  ⟨0x8810, 0x8810, 0x0A, 0x0A, false, .u16, .rwt, 0, .range 0 200⟩,  -- EYE_MIN_MV
  ⟨0x8810, 0x8810, 0x0B, 0x0B, false, .u8, .rwt, 0, .range 0 32⟩,  -- MARGIN_MIN
  ⟨0x8810, 0x8810, 0x0C, 0x0C, false, .u32, .rwt, 0, .range 0 4294967295⟩  -- DROOP_MAX
  ]

/-- Objects of clocks and power (chapter 22). -/
def objs22a : List ObjRow := [
  ⟨0x2000, 0x2000, 0x01, 0x01, false, .u16, .rws, 2700, .freq 1350 2700⟩,  -- ARITH_MHZ
  ⟨0x2000, 0x2000, 0x02, 0x02, false, .u16, .rws, 1350, .freq 675 1350⟩,  -- NOC_MHZ
  ⟨0x2000, 0x2000, 0x03, 0x03, false, .u16, .rws, 1600, .freq 800 1600⟩,  -- STACK_MHZ
  ⟨0x2000, 0x2000, 0x04, 0x04, false, .u16, .rws, 2400, .freq 400 2400⟩,  -- FLASH_MHZ
  ⟨0x2000, 0x2000, 0x05, 0x05, false, .u16, .rws, 1200, .freq 300 1200⟩,  -- WAY_MHZ
  ⟨0x2000, 0x2000, 0x06, 0x06, false, .u16, .rws, 500, .freq 250 500⟩,  -- MGMT_MHZ
  ⟨0x2000, 0x2000, 0x07, 0x07, false, .u8, .ro, 0, .any⟩,  -- SOURCES_FAILED
  ⟨0x2000, 0x2000, 0x08, 0x08, false, .u8, .ro, 0, .any⟩,  -- ON_FALLBACK
  ⟨0x2001, 0x2001, 0x01, 0x01, false, .u8, .rw, 0, .range 0 11⟩,  -- FMC_REF
  ⟨0x2001, 0x2001, 0x02, 0x02, false, .u8, .rw, 4, .range 0 11⟩,  -- FMC_TARGET
  ⟨0x2001, 0x2001, 0x03, 0x03, false, .u8, .rw, 20, .range 10 24⟩,  -- FMC_GATE_LOG2
  ⟨0x2001, 0x2001, 0x04, 0x04, false, .bool, .rw, 0, .any⟩,  -- FMC_START
  ⟨0x2001, 0x2001, 0x05, 0x05, false, .u8, .ro, 0, .any⟩,  -- FMC_STATE
  ⟨0x2001, 0x2001, 0x06, 0x06, false, .u64, .ro, 0, .any⟩,  -- FMC_COUNT
  ⟨0x2001, 0x2001, 0x07, 0x07, false, .f32, .ro, 0, .any⟩,  -- FMC_MHZ
  ⟨0x2002, 0x2002, 0x01, 0x01, false, .u64, .ro, 0, .any⟩,  -- CLOCK_LOSSES
  ⟨0x2400, 0x2400, 0x01, 0x01, false, .u16, .rwt, 950, .range 500 950⟩,  -- PKG_LIMIT_W
  ⟨0x2400, 0x2400, 0x02, 0x02, false, .u16, .ro, 0, .any⟩,  -- PKG_POWER_W
  ⟨0x2400, 0x2400, 0x03, 0x03, false, .u8, .rwt, 100, .range 85 100⟩,  -- TJ_THROTTLE_C
  ⟨0x2400, 0x2400, 0x04, 0x04, false, .u8, .ro, 0, .any⟩,  -- TJ_H0_C
  ⟨0x2400, 0x2400, 0x05, 0x05, false, .u8, .ro, 0, .any⟩,  -- TJ_H1_C
  ⟨0x2400, 0x2400, 0x06, 0x06, false, .u32, .ro, 0, .any⟩,  -- SCRATCH_TEMP_C
  ⟨0x2400, 0x2400, 0x07, 0x07, false, .u8, .ro, 0, .any⟩,  -- THROTTLE_STATE
  ⟨0x2401, 0x2401, 0x01, 0x01, false, .u64, .ro, 0, .any⟩  -- THROTTLE_TURNS
  ]

/-- Objects of clocks and power (chapter 22). Continued. -/
def objs22b : List ObjRow := [
  ⟨0x2410, 0x2410, 0x01, 0x0E, false, .u16, .ro, 0, .any⟩,  -- RAIL_POWER_W
  ⟨0x2480, 0x2480, 0x01, 0x01, false, .u8, .ro, 2, .any⟩,  -- BOOT_STAGE
  ⟨0x2480, 0x2480, 0x02, 0x02, false, .u8, .ro, 0, .any⟩,  -- LAST_RESET_CAUSE
  ⟨0x2480, 0x2480, 0x03, 0x03, false, .domain 24, .ro, 0, .any⟩  -- BOOT_MS
  ]

/-- The rows that can hold objects of an index, by the range of Table 19.10. -/
def objRowsAt (idx : Nat) : List ObjRow :=
  if idx < 0x2000 then objs19a ++ objs19b
  else if idx < 0x2800 then objs22a ++ objs22b
  else if idx < 0x3000 then objs02
  else if idx < 0x3800 then objs03
  else if idx < 0x4000 then objs04
  else if idx < 0x4800 then objs08a ++ objs08b ++ objs09 ++ objs12 ++ objs13a ++ objs13b
  else if idx < 0x4C00 then objs07
  else if idx < 0x5000 then objs05a ++ objs05b ++ objs06
  else if idx < 0x5800 then objs14a ++ objs14b
  else if idx < 0x6000 then objs15
  else if idx < 0x6200 then objs16
  else if idx < 0x6800 then objs11
  else if idx < 0x7000 then objs10
  else if idx < 0x7800 then objs17a ++ objs17b
  else if idx < 0x8000 then objs18
  else if idx < 0x8800 then objs20
  else objs21a ++ objs21b

/-- Whether a row holds the object at index `idx`, subindex `sub`. Index 0x3F01 holds meters 16 and 17 only (R109),
and subindex 0x00 of an index is never an owner's field (R411). -/
def ObjRow.holds (r : ObjRow) (idx sub : Nat) : Bool :=
  let f := if r.blk then sub % 16 else sub
  r.ilo ≤ idx && idx ≤ r.ihi && r.slo ≤ f && f ≤ r.shi

/-- The first row of `l` that holds an object. -/
def findRow (idx sub : Nat) : List ObjRow → Option ObjRow
  | [] => none
  | r :: rs => if r.holds idx sub then some r else findRow idx sub rs

/-- Index 0x3F01, with the two meters that R109 gives it. -/
def portMeterRow (sub : Nat) : Option ObjRow :=
  if sub < 0x20 then findRow 0x3F00 sub objs04 else none

/-- The row of an object, none where no object stands (R429). -/
def objRow (idx sub : Nat) : Option ObjRow :=
  if sub = 0 then none
  else if idx = 0x3F01 then portMeterRow sub
  else findRow idx sub (objRowsAt idx)

/-- The row of an object by its address. -/
def rowAt (addr : Nat) : Option ObjRow := objRow (addr / 256) (addr % 256)

/-- Size in bytes of a fixed-size type. -/
def ObjTy.size : ObjTy → Nat
  | .bool | .u8 => 1
  | .u16 => 2
  | .u32 | .i32 | .f32 => 4
  | .u64 => 8
  | .str => 255
  | .domain n => n

/-- Whether a type is DOMAIN. -/
def ObjTy.isDomain : ObjTy → Bool
  | .domain _ => true
  | _ => false

/-- The default of an object; 0 where none stands. MAC_ADDR's default is formed from SERIAL (Table 19.8). -/
def objDefault (addr : Nat) : Nat :=
  if addr = 0x100009 then 0x0251_4800_0000 + Config.serial.toNat % 2 ^ 24
  else ((rowAt addr).map ObjRow.dflt).getD 0

/-- The highest subindex among those of `rows` that lie at an index (R411); 0 where the index holds no object. -/
def highestSub (idx : Nat) : List ObjRow → Nat
  | [] => 0
  | r :: rs =>
    let h := highestSub idx rs
    if r.ilo ≤ idx ∧ idx ≤ r.ihi then max h (if r.blk then 0xF0 + r.shi else r.shi) else h

/-- Value of subindex 0x00 of an index, 0 where the index holds no object. -/
def subZero (idx : Nat) : Nat :=
  if idx = 0x3F01 then 0x15 else highestSub idx (objRowsAt idx)

end Sys2Proof.Machine
end

