-- ==== Sys2Proof/Machine/Names.lean ====
section
/-! DEFINITION. Addresses of the dictionary objects under the names of the object tables (R429): index times 256 plus
subindex. A name with a prefix (`coll_`, `table_`, `slot_`, `port_` ...) takes the number of the owner. -/

namespace Sys2Proof.Machine.Obj

abbrev TURN_PERIOD_US : Nat := 0x280001
abbrev TURN_NO : Nat := 0x280002
abbrev ALIGN_OFFSET_NS : Nat := 0x280003
abbrev ALIGN_LIMIT_NS : Nat := 0x280004
abbrev DEADLINE_DEFAULT : Nat := 0x280005
abbrev PERIOD_PENDING : Nat := 0x280006
abbrev PERIOD_SWITCH_TURN : Nat := 0x280007
abbrev LATE_RESERVE_64THS : Nat := 0x280008
abbrev TURN_MASTER : Nat := 0x280009
abbrev BOARD_REPEATS : Nat := 0x280101
abbrev SLIPPED_QUERIES : Nat := 0x280102
abbrev TRUNCATED_QUERIES : Nat := 0x280103
abbrev LATE_PARTIALS : Nat := 0x280104
abbrev LATE_CARAVANS : Nat := 0x280105
abbrev GRANT_WAITS : Nat := 0x280106
abbrev HOST_REGION_GIB : Nat := 0x300001
abbrev HOST_REGION_BASE : Nat := 0x300002
abbrev FETCH_RETRY_LIMIT : Nat := 0x300003
abbrev TALLY_CLAMPS : Nat := 0x300101
abbrev ENTRY_CLAMPS : Nat := 0x300102
abbrev RESULT_WAITS : Nat := 0x300103
abbrev CONTEXT_WAITS : Nat := 0x300104
abbrev FETCH_RETRIES : Nat := 0x300105
abbrev EVENTS_LOST : Nat := 0x300106
abbrev YELLOW_SHARE : Nat := 0x380001
abbrev GATE_ADMIN_COUNT : Nat := 0x380002
abbrev GATE_TAKEOVER_TURN : Nat := 0x380003
abbrev GATE_OPER_COUNT : Nat := 0x380004
abbrev GATE_OPER_BASE : Nat := 0x380005
abbrev GATE_PENDING : Nat := 0x380006
abbrev GATE_STATE : Nat := 0x380007
abbrev ADMIT_GREEN : Nat := 0x380101
abbrev ADMIT_YELLOW : Nat := 0x380102
abbrev ADMIT_SHED : Nat := 0x380103
abbrev GATE_HOLDS : Nat := 0x380104
abbrev PORT_DEFERS : Nat := 0x380105
abbrev NO_SERVICE_ANSWERS : Nat := 0x380106
abbrev GATE_ADMIN (i : Nat) : Nat := 0x380201 + i
abbrev GATE_OPER (i : Nat) : Nat := 0x380301 + i
abbrev PREFETCH_LEAD_US : Nat := 0x4C0001
abbrev COMPOSE_T2_GIB : Nat := 0x4C0002
abbrev COMPOSE_CAP : Nat := 0x4C0003
abbrev COMPOSE_FLASH_CAP : Nat := 0x4C0004
abbrev GATHERS : Nat := 0x4C0101
abbrev STAGED_ROWS : Nat := 0x4C0102
abbrev RECORDS_IGNORED : Nat := 0x4C0103
abbrev STAGE_WASTED : Nat := 0x4C0104
abbrev ROWS_REPLACED : Nat := 0x4C0105
abbrev CH_MODE (i : Nat) : Nat := 0x4C0201 + i
abbrev CH_WIDTH (i : Nat) : Nat := 0x4C0301 + i
abbrev table_TBL_EN (n : Nat) : Nat := (0x4C40 + n) * 256 + 0x01
abbrev table_FORMAT (n : Nat) : Nat := (0x4C40 + n) * 256 + 0x02
abbrev table_WIDTH (n : Nat) : Nat := (0x4C40 + n) * 256 + 0x03
abbrev table_ROWS (n : Nat) : Nat := (0x4C40 + n) * 256 + 0x04
abbrev table_TABLE_COLLECTION (n : Nat) : Nat := (0x4C40 + n) * 256 + 0x05
abbrev table_SRC_LOC (n : Nat) : Nat := (0x4C40 + n) * 256 + 0x06
abbrev table_SRC_ADDR (n : Nat) : Nat := (0x4C40 + n) * 256 + 0x07
abbrev table_LOAD (n : Nat) : Nat := (0x4C40 + n) * 256 + 0x08
abbrev table_LOAD_STATE (n : Nat) : Nat := (0x4C40 + n) * 256 + 0x09
abbrev table_SWITCH (n : Nat) : Nat := (0x4C40 + n) * 256 + 0x0A
abbrev table_VERSION (n : Nat) : Nat := (0x4C40 + n) * 256 + 0x0B
abbrev table_PIN_T2 (n : Nat) : Nat := (0x4C40 + n) * 256 + 0x0C
abbrev table_GROUPS_T1 (n : Nat) : Nat := (0x4C40 + n) * 256 + 0x0D
abbrev table_GROUPS_T2 (n : Nat) : Nat := (0x4C40 + n) * 256 + 0x0E
abbrev table_GROUPS_T5 (n : Nat) : Nat := (0x4C40 + n) * 256 + 0x0F
abbrev coll_INPUT_MODE (n : Nat) : Nat := (0x4E00 + n / 16) * 256 + 16 * (n % 16) + 1
abbrev coll_INPUT_FORMAT (n : Nat) : Nat := (0x4E00 + n / 16) * 256 + 16 * (n % 16) + 2
abbrev coll_TOKEN_TABLE (n : Nat) : Nat := (0x4E00 + n / 16) * 256 + 16 * (n % 16) + 3
abbrev coll_MAX_INPUT (n : Nat) : Nat := (0x4E00 + n / 16) * 256 + 16 * (n % 16) + 4
abbrev coll_CH_MASK (n : Nat) : Nat := (0x4E00 + n / 16) * 256 + 16 * (n % 16) + 5
abbrev MODEL_QUOTA_GIB : Nat := 0x4D0001
abbrev SPREAD_EN : Nat := 0x4D0002
abbrev ROWLOGIC_MIN_ROWS : Nat := 0x4D0003
abbrev DENSE_CYCLES : Nat := 0x4D0101
abbrev STACK_FALLBACKS : Nat := 0x4D0102
abbrev SMALL_TO_STACK : Nat := 0x4D0103
abbrev SEGMENT_SLIPS : Nat := 0x4D0104
abbrev WEIGHT_ERRORS : Nat := 0x4D0105
abbrev slot_SRC_LOC (n : Nat) : Nat := (0x4D10 + n) * 256 + 0x01
abbrev slot_SRC_ADDR (n : Nat) : Nat := (0x4D10 + n) * 256 + 0x02
abbrev slot_LOAD (n : Nat) : Nat := (0x4D10 + n) * 256 + 0x03
abbrev slot_LOAD_STATE (n : Nat) : Nat := (0x4D10 + n) * 256 + 0x04
abbrev slot_FAIL_CAUSE (n : Nat) : Nat := (0x4D10 + n) * 256 + 0x05
abbrev slot_UNLOAD (n : Nat) : Nat := (0x4D10 + n) * 256 + 0x06
abbrev slot_ROLE (n : Nat) : Nat := (0x4D10 + n) * 256 + 0x07
abbrev slot_LAYERS (n : Nat) : Nat := (0x4D10 + n) * 256 + 0x08
abbrev slot_SEGMENTS (n : Nat) : Nat := (0x4D10 + n) * 256 + 0x09
abbrev slot_HOLDERS (n : Nat) : Nat := (0x4D10 + n) * 256 + 0x0A
abbrev slot_BYTES_LOCAL (n : Nat) : Nat := (0x4D10 + n) * 256 + 0x0B
abbrev coll_ENCODER_IMAGE (n : Nat) : Nat := (0x4E00 + n / 16) * 256 + 16 * (n % 16) + 6
abbrev coll_RESCORER_IMAGE (n : Nat) : Nat := (0x4E00 + n / 16) * 256 + 16 * (n % 16) + 7
abbrev STAT_EPOCH_TURNS : Nat := 0x480001
abbrev SATURATIONS : Nat := 0x480101
abbrev WATCH_UNSAMPLED : Nat := 0x480102
abbrev PROMOTIONS : Nat := 0x480103
abbrev DEMOTIONS : Nat := 0x480104
abbrev sel_SEL_KIND : Nat := 0x481001
abbrev sel_SEL_ID : Nat := 0x481002
abbrev sel_EPOCH_TURN : Nat := 0x481003
abbrev sel_CONV_MSE : Nat := 0x481004
abbrev sel_CONV_NMSE : Nat := 0x481005
abbrev sel_CONV_SATURATED : Nat := 0x481006
abbrev sel_CONV_ELEMENTS : Nat := 0x481007
abbrev sel_AUX_NMSE : Nat := 0x481008
abbrev sel_PRECISION : Nat := 0x481009
abbrev sel_WATCH_COUNT : Nat := 0x48100A
abbrev slot_MSE_THRESHOLD (n : Nat) : Nat := (0x4820 + n) * 256 + 0x01
abbrev slot_PRECISION_MODE (n : Nat) : Nat := (0x4820 + n) * 256 + 0x02
abbrev slot_SAMPLE_ROWS (n : Nat) : Nat := (0x4820 + n) * 256 + 0x03
abbrev slot_SCALE_N (n : Nat) : Nat := (0x4820 + n) * 256 + 0x04
abbrev slot_HEADROOM (n : Nat) : Nat := (0x4820 + n) * 256 + 0x05
abbrev coll_ROUND_MODE (n : Nat) : Nat := (0x4A00 + n / 16) * 256 + 16 * (n % 16) + 1
abbrev coll_SCALE_N (n : Nat) : Nat := (0x4A00 + n / 16) * 256 + 16 * (n % 16) + 2
abbrev coll_HEADROOM (n : Nat) : Nat := (0x4A00 + n / 16) * 256 + 16 * (n % 16) + 3
abbrev coll_SKETCH_LAYOUT (n : Nat) : Nat := (0x4A00 + n / 16) * 256 + 16 * (n % 16) + 4
abbrev coll_STATE (n : Nat) : Nat := (0x4100 + n / 16) * 256 + 16 * (n % 16) + 1
abbrev coll_RUN (n : Nat) : Nat := (0x4100 + n / 16) * 256 + 16 * (n % 16) + 2
abbrev coll_DIMS (n : Nat) : Nat := (0x4100 + n / 16) * 256 + 16 * (n % 16) + 3
abbrev coll_METRIC (n : Nat) : Nat := (0x4100 + n / 16) * 256 + 16 * (n % 16) + 4
abbrev coll_FULL_FORMAT (n : Nat) : Nat := (0x4100 + n / 16) * 256 + 16 * (n % 16) + 5
abbrev coll_CENTROID_FORMAT (n : Nat) : Nat := (0x4100 + n / 16) * 256 + 16 * (n % 16) + 6
abbrev coll_SKETCH_BITS (n : Nat) : Nat := (0x4100 + n / 16) * 256 + 16 * (n % 16) + 7
abbrev coll_SUBSPACES (n : Nat) : Nat := (0x4100 + n / 16) * 256 + 16 * (n % 16) + 8
abbrev coll_SKETCH_SEED (n : Nat) : Nat := (0x4100 + n / 16) * 256 + 16 * (n % 16) + 9
abbrev coll_NPROBE_DEFAULT (n : Nat) : Nat := (0x4100 + n / 16) * 256 + 16 * (n % 16) + 10
abbrev coll_NPROBE_MAX (n : Nat) : Nat := (0x4100 + n / 16) * 256 + 16 * (n % 16) + 11
abbrev coll_DEADLINE (n : Nat) : Nat := (0x4100 + n / 16) * 256 + 16 * (n % 16) + 12
abbrev coll_ROUTE_MODE (n : Nat) : Nat := (0x4100 + n / 16) * 256 + 16 * (n % 16) + 13
abbrev coll_IMG_LOC (n : Nat) : Nat := (0x4100 + n / 16) * 256 + 16 * (n % 16) + 14
abbrev coll_IMG_ADDR (n : Nat) : Nat := (0x4100 + n / 16) * 256 + 16 * (n % 16) + 15
abbrev coll_IMG_LOAD (n : Nat) : Nat := (0x4200 + n / 16) * 256 + 16 * (n % 16) + 1
abbrev coll_IMG_STATE (n : Nat) : Nat := (0x4200 + n / 16) * 256 + 16 * (n % 16) + 2
abbrev coll_IMG_CAUSE (n : Nat) : Nat := (0x4200 + n / 16) * 256 + 16 * (n % 16) + 3
abbrev coll_DROP (n : Nat) : Nat := (0x4200 + n / 16) * 256 + 16 * (n % 16) + 4
abbrev coll_VERSION (n : Nat) : Nat := (0x4200 + n / 16) * 256 + 16 * (n % 16) + 5
abbrev coll_NCENT_LIVE (n : Nat) : Nat := (0x4200 + n / 16) * 256 + 16 * (n % 16) + 6
abbrev coll_VECTORS (n : Nat) : Nat := (0x4200 + n / 16) * 256 + 16 * (n % 16) + 7
abbrev RUNNING_COLLECTIONS : Nat := 0x400001
abbrev DOMAIN_LISTS : Nat := 0x400002
abbrev FILTER_EMPTY : Nat := 0x400101
abbrev RETIRED_PROBES : Nat := 0x400102
abbrev STATES_FREED : Nat := 0x400103
abbrev coll_C_FACTOR (n : Nat) : Nat := (0x4300 + n / 16) * 256 + 16 * (n % 16) + 1
abbrev coll_SURVIVOR_FACTOR (n : Nat) : Nat := (0x4300 + n / 16) * 256 + 16 * (n % 16) + 2
abbrev coll_WALK_WIDTH (n : Nat) : Nat := (0x4300 + n / 16) * 256 + 16 * (n % 16) + 3
abbrev coll_WALK_EXPAND (n : Nat) : Nat := (0x4300 + n / 16) * 256 + 16 * (n % 16) + 4
abbrev WIDEN_ROUNDS : Nat := 0x400104
abbrev REPLICA_PROBES : Nat := 0x400105
abbrev UNHELD_PROBES : Nat := 0x400106
abbrev DEAD_EDGE_SKIPS : Nat := 0x400107
abbrev SURVIVOR_CAPPED : Nat := 0x400108
abbrev STAGED_REREAD : Nat := 0x400109
abbrev HOST_GROUPS_MAX : Nat := 0x680001
abbrev HOST_GROUP_OPS : Nat := 0x680002
abbrev HOST_GROUPS (i : Nat) : Nat := 0x680101 + i
abbrev STACK_TEMP_C (i : Nat) : Nat := 0x680201 + i
abbrev STACK_BAND (i : Nat) : Nat := 0x680301 + i
abbrev ROW_OPS : Nat := 0x680401
abbrev TAIL_ROWS : Nat := 0x680402
abbrev READS_HELD : Nat := 0x680403
abbrev HOST_CMDS : Nat := 0x680404
abbrev WINDOW_CUTS : Nat := 0x680405
abbrev REFRESH2_TURNS : Nat := 0x680406
abbrev BUS_BYTES : Nat := 0x680407
abbrev WAY_READ_CAP : Nat := 0x620001
abbrev DIE_READ_CAP : Nat := 0x620002
abbrev HOT_READ_CAP : Nat := 0x620003
abbrev RESCORE_US : Nat := 0x620004
abbrev SOFT_RETRIES : Nat := 0x620005
abbrev CAND_READS : Nat := 0x620101
abbrev HOT_READS : Nat := 0x620102
abbrev DIE_SPILLS : Nat := 0x620103
abbrev SOFT_DECODES : Nat := 0x620104
abbrev UNCORRECTABLE : Nat := 0x620105
abbrev RESCORED : Nat := 0x620106
abbrev SELECT_TILES : Nat := 0x440001
abbrev BAZAAR_TILES : Nat := 0x440002
abbrev BAZAAR_BUF_MIB : Nat := 0x440003
abbrev STEPS_PER_TILE : Nat := 0x440004
abbrev PARTIALS_MERGED : Nat := 0x440101
abbrev DUPLICATES_DROPPED : Nat := 0x440102
abbrev MERGE_PIECES : Nat := 0x440103
abbrev SELECT_SLIPS : Nat := 0x440104
abbrev BAZAAR_SLIPS : Nat := 0x440105
abbrev BUFFER_WAITS : Nat := 0x440106
abbrev coll_COMPACT_DELTA (n : Nat) : Nat := (0x4500 + n / 16) * 256 + 16 * (n % 16) + 1
abbrev coll_COMPACT_DEAD (n : Nat) : Nat := (0x4500 + n / 16) * 256 + 16 * (n % 16) + 2
abbrev coll_ADAPT_EN (n : Nat) : Nat := (0x4500 + n / 16) * 256 + 16 * (n % 16) + 3
abbrev coll_ADAPT_EPOCH (n : Nat) : Nat := (0x4500 + n / 16) * 256 + 16 * (n % 16) + 4
abbrev coll_ADAPT_RATE (n : Nat) : Nat := (0x4500 + n / 16) * 256 + 16 * (n % 16) + 5
abbrev coll_ADAPT_MIN_COUNT (n : Nat) : Nat := (0x4500 + n / 16) * 256 + 16 * (n % 16) + 6
abbrev coll_LIST_MIN (n : Nat) : Nat := (0x4500 + n / 16) * 256 + 16 * (n % 16) + 7
abbrev coll_LIST_MAX (n : Nat) : Nat := (0x4500 + n / 16) * 256 + 16 * (n % 16) + 8
abbrev coll_RESHAPE_MAX (n : Nat) : Nat := (0x4500 + n / 16) * 256 + 16 * (n % 16) + 9
abbrev INGEST_CAP : Nat := 0x460001
abbrev STAGE_CAP : Nat := 0x460002
abbrev ACK_WAIT : Nat := 0x460003
abbrev DELTA_GUARD : Nat := 0x460004
abbrev INGEST_COMMITS : Nat := 0x460101
abbrev INSERT_OVERWRITES : Nat := 0x460102
abbrev DELETE_MISSES : Nat := 0x460103
abbrev STAGE_REFUSALS : Nat := 0x460104
abbrev STALE_REPLICAS : Nat := 0x460105
abbrev RESTAGES : Nat := 0x460106
abbrev SCAN_GUARD_SLIPS : Nat := 0x460107
abbrev COMPACTIONS : Nat := 0x460108
abbrev SPLITS : Nat := 0x460109
abbrev MERGES : Nat := 0x46010A
abbrev DRIFT_SKIPS : Nat := 0x46010B
abbrev RESHAPE_DEFERRED : Nat := 0x46010C
abbrev NOID_DISCARDS : Nat := 0x46010D
abbrev HEAT_SHIFT : Nat := 0x500001
abbrev HOT_ON : Nat := 0x500002
abbrev HOT_OFF : Nat := 0x500003
abbrev REPL_HEAT_1 : Nat := 0x500004
abbrev REPL_HEAT_2 : Nat := 0x500005
abbrev REPL_HEAT_3 : Nat := 0x500006
abbrev GROUP_T2_HEAT : Nat := 0x500007
abbrev GROUP_T1_HEAT : Nat := 0x500008
abbrev LAYER_T0_HEAT : Nat := 0x500009
abbrev MOVE_CAP_MIB : Nat := 0x50000A
abbrev MOVES_MAX : Nat := 0x50000B
abbrev MOVE_LOG_MIB : Nat := 0x50000C
abbrev BALANCE_HIGH_PCT : Nat := 0x50000D
abbrev BALANCE_LOW_PCT : Nat := 0x50000E
abbrev HEAT_SKEW_PCT : Nat := 0x50000F
abbrev T2_RESERVE_GIB : Nat := 0x500010
abbrev T1_SERVICE_MIB : Nat := 0x500011
abbrev T2_SERVICE_MIB : Nat := 0x500012
abbrev T4_REGISTERED_GIB : Nat := 0x500013
abbrev MOVES_DONE : Nat := 0x500101
abbrev MOVES_ABORTED : Nat := 0x500102
abbrev MOVE_BYTES : Nat := 0x500103
abbrev LOG_REPLAYED : Nat := 0x500104
abbrev QUOTA_REFUSALS : Nat := 0x500105
abbrev COPIES_DROPPED : Nat := 0x500106
abbrev MIRROR_FALLBACKS : Nat := 0x500107
abbrev REBUILDS : Nat := 0x500108
abbrev range_BASE (n : Nat) : Nat := (0x5010 + n) * 256 + 0x01
abbrev range_SIZE_GIB (n : Nat) : Nat := (0x5010 + n) * 256 + 0x02
abbrev range_STATE (n : Nat) : Nat := (0x5010 + n) * 256 + 0x03
abbrev range_USED_GIB (n : Nat) : Nat := (0x5010 + n) * 256 + 0x04
abbrev coll_T1_QUOTA_MIB (n : Nat) : Nat := (0x5100 + n / 16) * 256 + 16 * (n % 16) + 1
abbrev coll_T2_QUOTA_GIB (n : Nat) : Nat := (0x5100 + n / 16) * 256 + 16 * (n % 16) + 2
abbrev coll_T4_QUOTA_GIB (n : Nat) : Nat := (0x5100 + n / 16) * 256 + 16 * (n % 16) + 3
abbrev coll_T5_QUOTA_GB (n : Nat) : Nat := (0x5100 + n / 16) * 256 + 16 * (n % 16) + 4
abbrev coll_REPLICAS_MIN (n : Nat) : Nat := (0x5100 + n / 16) * 256 + 16 * (n % 16) + 5
abbrev coll_REPLICAS_MAX (n : Nat) : Nat := (0x5100 + n / 16) * 256 + 16 * (n % 16) + 6
abbrev coll_HOT_EN (n : Nat) : Nat := (0x5100 + n / 16) * 256 + 16 * (n % 16) + 7
abbrev coll_T1_USED_MIB (n : Nat) : Nat := (0x5200 + n / 16) * 256 + 16 * (n % 16) + 1
abbrev coll_T2_USED_MIB (n : Nat) : Nat := (0x5200 + n / 16) * 256 + 16 * (n % 16) + 2
abbrev coll_T4_USED_MIB (n : Nat) : Nat := (0x5200 + n / 16) * 256 + 16 * (n % 16) + 3
abbrev coll_T5_USED_GB (n : Nat) : Nat := (0x5200 + n / 16) * 256 + 16 * (n % 16) + 4
abbrev BANKS_GOOD : Nat := 0x580001
abbrev FUSE_ENTRIES : Nat := 0x580002
abbrev FUSE_MAP : Nat := 0x580003
abbrev SOFT_REPAIR : Nat := 0x580004
abbrev SOFT_ENTRIES : Nat := 0x580005
abbrev NONOWNER_READS : Nat := 0x580101
abbrev NONOWNER_WRITES : Nat := 0x580102
abbrev ATOMICS : Nat := 0x580103
abbrev HANDOVERS : Nat := 0x580104
abbrev SCRATCH_CORRECTED : Nat := 0x580105
abbrev bank_OWNER (n : Nat) : Nat := (0x5810 + n / 16) * 256 + 16 * (n % 16) + 1
abbrev bank_RETIRED (n : Nat) : Nat := (0x5810 + n / 16) * 256 + 16 * (n % 16) + 2
abbrev bank_DROPS (n : Nat) : Nat := (0x5810 + n / 16) * 256 + 16 * (n % 16) + 3
abbrev CHANNELS_MOUNTED : Nat := 0x600001
abbrev DIES : Nat := 0x600002
abbrev RAW_GB : Nat := 0x600003
abbrev USER_GB : Nat := 0x600004
abbrev SYSTEM_GB : Nat := 0x600005
abbrev FILL_PCT : Nat := 0x600006
abbrev SLC_CACHE_PCT : Nat := 0x600007
abbrev FILL_STOP_PCT : Nat := 0x600008
abbrev READ_DISTURB_LIMIT : Nat := 0x600009
abbrev LIFE_USED_PCT : Nat := 0x60000A
abbrev PAGES_PROGRAMMED : Nat := 0x600101
abbrev PAGES_RELOCATED : Nat := 0x600102
abbrev PAGES_DISCARDED : Nat := 0x600103
abbrev SUSPENDS : Nat := 0x600104
abbrev BLOCKS_RETIRED : Nat := 0x600105
abbrev READ_RETRIES : Nat := 0x600106
abbrev chan_MOUNTED (n : Nat) : Nat := (0x6010 + n) * 256 + 0x01
abbrev chan_PE_MEAN (n : Nat) : Nat := (0x6010 + n) * 256 + 0x02
abbrev chan_PE_MAX (n : Nat) : Nat := (0x6010 + n) * 256 + 0x03
abbrev chan_SPARE_PCT_MIN (n : Nat) : Nat := (0x6010 + n) * 256 + 0x04
abbrev chan_DIES_READ_ONLY (n : Nat) : Nat := (0x6010 + n) * 256 + 0x05
abbrev chan_LDPC_ITER_MEAN (n : Nat) : Nat := (0x6010 + n) * 256 + 0x06
abbrev chan_TRAIN_MARGIN_PS (n : Nat) : Nat := (0x6010 + n) * 256 + 0x07
abbrev NODE_ID : Nat := 0x700001
abbrev PARTITION_ID : Nat := 0x700002
abbrev FOUND : Nat := 0x700003
abbrev JOIN : Nat := 0x700004
abbrev HOLDERS_TARGET : Nat := 0x700005
abbrev LEADER_TIMEOUT : Nat := 0x700006
abbrev EPOCH_MAX : Nat := 0x700007
abbrev PORT_EN : Nat := 0x700008
abbrev TRANSIT_64THS : Nat := 0x700009
abbrev CACHE_LEND_GIB : Nat := 0x70000A
abbrev MEMBER : Nat := 0x70000B
abbrev EPOCH : Nat := 0x70000C
abbrev LEADER : Nat := 0x70000D
abbrev LEDGER_ROLE : Nat := 0x70000E
abbrev MEMBERS : Nat := 0x70000F
abbrev PORT_TURN_BYTES : Nat := 0x700010
abbrev FRAMES_WRONG_PART : Nat := 0x700101
abbrev E2E_RESENDS : Nat := 0x700102
abbrev EPOCH_RETRIES : Nat := 0x700103
abbrev HX_MALFORMED : Nat := 0x700104
abbrev OUT_OF_STEP_TURNS : Nat := 0x700105
abbrev CACHE_REMOTE_GETS : Nat := 0x700106
abbrev MEMO_HITS : Nat := 0x700107
abbrev port_LINK_STATE (n : Nat) : Nat := (0x7100 + n) * 256 + 0x01
abbrev port_PEER_NODE (n : Nat) : Nat := (0x7100 + n) * 256 + 0x02
abbrev port_PEER_PORT (n : Nat) : Nat := (0x7100 + n) * 256 + 0x03
abbrev port_PEER_PART (n : Nat) : Nat := (0x7100 + n) * 256 + 0x04
abbrev port_LINK_DELAY_PS (n : Nat) : Nat := (0x7100 + n) * 256 + 0x05
abbrev port_FEC_CORRECTED (n : Nat) : Nat := (0x7100 + n) * 256 + 0x06
abbrev port_FEC_UNCORRECTABLE (n : Nat) : Nat := (0x7100 + n) * 256 + 0x07
abbrev port_FLIT_RETRIES (n : Nat) : Nat := (0x7100 + n) * 256 + 0x08
abbrev port_MODULE (n : Nat) : Nat := (0x7100 + n) * 256 + 0x09
abbrev port_RX_POWER_MIN (n : Nat) : Nat := (0x7100 + n) * 256 + 0x0A
abbrev port_MODULE_TEMP_C (n : Nat) : Nat := (0x7100 + n) * 256 + 0x0B
abbrev port_MODULE_FLAGS (n : Nat) : Nat := (0x7100 + n) * 256 + 0x0C
abbrev coll_MEMO_EN (n : Nat) : Nat := (0x7400 + n / 16) * 256 + 16 * (n % 16) + 1
abbrev coll_MEMO_MAX_AGE (n : Nat) : Nat := (0x7400 + n / 16) * 256 + 16 * (n % 16) + 2
abbrev BARRIERS_RELEASED : Nat := 0x780101
abbrev BARRIERS_FAILED : Nat := 0x780102
abbrev STRAY_MESSAGES : Nat := 0x780103
abbrev MC_EXTRA_ARRIVALS : Nat := 0x780104
abbrev bslot_ENABLE (n : Nat) : Nat := (0x7810 + n) * 256 + 0x01
abbrev bslot_NODE_MASK (n : Nat) : Nat := (0x7810 + n) * 256 + 0x02
abbrev bslot_TILE_MASK_LO (n : Nat) : Nat := (0x7810 + n) * 256 + 0x03
abbrev bslot_TILE_MASK_HI (n : Nat) : Nat := (0x7810 + n) * 256 + 0x04
abbrev bslot_MC_MEMBER (n : Nat) : Nat := (0x7810 + n) * 256 + 0x05
abbrev bslot_TIMEOUT_US (n : Nat) : Nat := (0x7810 + n) * 256 + 0x06
abbrev bslot_CLEAR (n : Nat) : Nat := (0x7810 + n) * 256 + 0x07
abbrev bslot_CAUSE (n : Nat) : Nat := (0x7810 + n) * 256 + 0x08
abbrev VENDOR : Nat := 0x100001
abbrev PRODUCT : Nat := 0x100002
abbrev ORDER_CODE : Nat := 0x100003
abbrev STEPPING : Nat := 0x100004
abbrev SERIAL : Nat := 0x100005
abbrev FW_VERSION : Nat := 0x100006
abbrev DICT_VERSION : Nat := 0x100007
abbrev READY : Nat := 0x100008
abbrev MAC_ADDR : Nat := 0x100009
abbrev PLCA_EN : Nat := 0x100101
abbrev PLCA_ID : Nat := 0x100102
abbrev PLCA_COUNT : Nat := 0x100103
abbrev PLCA_TO_BITS : Nat := 0x100104
abbrev PLCA_BURST : Nat := 0x100105
abbrev FN_FRAMES_IN : Nat := 0x100106
abbrev FN_FRAMES_DROPPED : Nat := 0x100107
abbrev TXN_WATCHDOG_TURNS : Nat := 0x180001
abbrev TXN_MAX_WRITES : Nat := 0x180002
abbrev TXN_MAX_BYTES : Nat := 0x180003
abbrev SEG_IDLE_TURNS : Nat := 0x180004
abbrev COMMITS : Nat := 0x180101
abbrev ROLLBACKS : Nat := 0x180102
abbrev WATCHDOG_ROLLBACKS : Nat := 0x180103
abbrev REJECTED_TXNS : Nat := 0x180104
abbrev REPEATS : Nat := 0x180105
abbrev SEG_CHECK_FAILS : Nat := 0x180106
abbrev req_TXN_STATE (n : Nat) : Nat := (0x1810 + n) * 256 + 0x01
abbrev req_TXN_BEGIN_TURN (n : Nat) : Nat := (0x1810 + n) * 256 + 0x02
abbrev req_TXN_WRITES (n : Nat) : Nat := (0x1810 + n) * 256 + 0x03
abbrev req_TXN_APPLY_TURN (n : Nat) : Nat := (0x1810 + n) * 256 + 0x04
abbrev req_REJECT_OBJECT (n : Nat) : Nat := (0x1810 + n) * 256 + 0x05
abbrev req_SEG_STATE (n : Nat) : Nat := (0x1810 + n) * 256 + 0x06
abbrev req_SEG_OBJECT (n : Nat) : Nat := (0x1810 + n) * 256 + 0x07
abbrev req_SEG_BYTES (n : Nat) : Nat := (0x1810 + n) * 256 + 0x08
abbrev TENANT_STATE : Nat := 0x800001
abbrev TENANT_TAG : Nat := 0x800002
abbrev BIND : Nat := 0x800003
abbrev SWITCH : Nat := 0x800004
abbrev DIAG_EN : Nat := 0x800005
abbrev SCRUB_MS : Nat := 0x800006
abbrev IDE_REQUIRED : Nat := 0x800007
abbrev FW_IMAGE : Nat := 0x800008
abbrev FW_STAGED : Nat := 0x800009
abbrev FW_ACTIVATE : Nat := 0x80000A
abbrev FW_SVN : Nat := 0x80000B
abbrev ID_PUBKEY : Nat := 0x800101
abbrev ID_CERT : Nat := 0x800102
abbrev ATT_REQUEST : Nat := 0x800103
abbrev ATT_REPORT : Nat := 0x800104
abbrev SWITCHES : Nat := 0x800201
abbrev SESSION_FAILS : Nat := 0x800202
abbrev IDE_REFUSED : Nat := 0x800203
abbrev IDE_STREAM (i : Nat) : Nat := 0x800301 + i
abbrev PLANNER_REPEAT_LIMIT : Nat := 0x880001
abbrev MC_WDT_MS : Nat := 0x880002
abbrev PATROL_HOURS : Nat := 0x880003
abbrev SCRATCH_PATROL_MIN : Nat := 0x880004
abbrev SALVAGE_EN : Nat := 0x880005
abbrev TILES_GOOD : Nat := 0x880006
abbrev SELFTEST_PASS : Nat := 0x880007
abbrev SELFTEST_RESULT : Nat := 0x880008
abbrev MEMBER_LOAD : Nat := 0x880009
abbrev ERROR_LOG : Nat := 0x88000A
abbrev WDT_TRIPS : Nat := 0x880101
abbrev QUARANTINES : Nat := 0x880102
abbrev SALVAGES : Nat := 0x880103
abbrev PATROL_CORRECTED : Nat := 0x880104
abbrev PATROL_UNCORRECTABLE : Nat := 0x880105
abbrev SWEEP_START : Nat := 0x881001
abbrev SWEEP_STACK : Nat := 0x881002
abbrev SWEEP_KIND : Nat := 0x881003
abbrev SWEEP_STEPS_PER_TURN : Nat := 0x881004
abbrev SWEEP_STATE : Nat := 0x881005
abbrev MARGIN_RESULT : Nat := 0x881006
abbrev EYE_MAP : Nat := 0x881007
abbrev DROOP_H0 : Nat := 0x881008
abbrev DROOP_H1 : Nat := 0x881009
abbrev EYE_MIN_MV : Nat := 0x88100A
abbrev MARGIN_MIN : Nat := 0x88100B
abbrev DROOP_MAX : Nat := 0x88100C
abbrev ARITH_MHZ : Nat := 0x200001
abbrev NOC_MHZ : Nat := 0x200002
abbrev STACK_MHZ : Nat := 0x200003
abbrev FLASH_MHZ : Nat := 0x200004
abbrev WAY_MHZ : Nat := 0x200005
abbrev MGMT_MHZ : Nat := 0x200006
abbrev SOURCES_FAILED : Nat := 0x200007
abbrev ON_FALLBACK : Nat := 0x200008
abbrev FMC_REF : Nat := 0x200101
abbrev FMC_TARGET : Nat := 0x200102
abbrev FMC_GATE_LOG2 : Nat := 0x200103
abbrev FMC_START : Nat := 0x200104
abbrev FMC_STATE : Nat := 0x200105
abbrev FMC_COUNT : Nat := 0x200106
abbrev FMC_MHZ : Nat := 0x200107
abbrev CLOCK_LOSSES : Nat := 0x200201
abbrev PKG_LIMIT_W : Nat := 0x240001
abbrev PKG_POWER_W : Nat := 0x240002
abbrev TJ_THROTTLE_C : Nat := 0x240003
abbrev TJ_H0_C : Nat := 0x240004
abbrev TJ_H1_C : Nat := 0x240005
abbrev SCRATCH_TEMP_C : Nat := 0x240006
abbrev THROTTLE_STATE : Nat := 0x240007
abbrev THROTTLE_TURNS : Nat := 0x240101
abbrev RAIL_POWER_W (i : Nat) : Nat := 0x241001 + i
abbrev BOOT_STAGE : Nat := 0x248001
abbrev LAST_RESET_CAUSE : Nat := 0x248002
abbrev BOOT_MS : Nat := 0x248003

/-- Meter fields of R109, Table 4.7: `base` is 0x3A00 for subscribers, 0x3E00 for services, 0x3F00 for ports. -/
abbrev meter (base m f : Nat) : Nat := (base + m / 16) * 256 + 16 * (m % 16) + f

end Sys2Proof.Machine.Obj
end

