-- ==== Sys2Proof/Machine/State.lean ====
section
/-! DEFINITION. The state of one node as plain data, the faults and refusals, and the state after reset.

Registers that are dictionary objects have one home: `Dict.objs`, a sparse map from object address (index * 256 +
subindex) to value, over the defaults of `Sys2Proof.Machine.objDefault` (Machine/Objects.lean).
Everything else stands in the structures below, one per chapter. -/

namespace Sys2Proof.Machine

/-- Why a step stops with a fault. No command's meaning raises a fault except the one listed. -/
inductive Fault where
  /-- Raised by no command today: an access to search memory above 768 GiB - 1 through a path that the manual does not
  clamp would raise it. Safe: the model stops where the hardware has no memory. -/
  | noSuchAddress (addr : Nat)
  deriving DecidableEq, Repr

/-- Why a command is refused. -/
inductive Refusal where
  /-- A command without a meaning in this model. Safe. -/
  | notModelled (mnemonic : String)
  deriving DecidableEq, Repr

/-! ### Object Dictionary -/

/-- A segmented transfer (R427). -/
structure Seg where
  write : Bool
  addr : Nat
  size : Nat
  content : List Byte
  sent : Nat
  source : Nat
  txn : Bool
  deadline : Nat                -- boundary at which the idle timeout falls due
  deriving DecidableEq, Repr, Inhabited

/-- What one requester keeps (R405, R180, R409, Table 19.9). TXN_STATE and the other objects of Table 19.9 are
views of these fields. -/
structure Requester where
  isOpen : Bool
  source : Nat
  staged : List (Nat × List Byte)
  beginTurn : Nat
  state : Nat
  applyTurn : Nat
  reject : Nat
  seg : Option Seg
  last : Option (DictMsg × Nat × DictResp)
  selKind : Nat
  selId : Nat
  report : List Byte            -- ATT_REPORT, last report formed for this requester (Table 20.5)
  deriving DecidableEq, Repr, Inhabited

/-- A committed transaction that awaits its boundary (R421); `shown`: TXN_STATE shows its outcome (R425). -/
structure CommitJob where
  req : Nat
  writes : List (Nat × List Byte)
  due : Nat
  shown : Bool
  deriving DecidableEq, Repr, Inhabited

/-- The BAR0 mailbox (Table 19.7). The request area is held as the bytes written. -/
structure Mailbox where
  busy : Bool
  done : Bool
  ignored : Bool
  vector : Nat
  irqEn : Bool
  request : List (Nat × Nat)    -- offset in the area, byte; canonical (no zero byte)
  response : List Byte
  deriving DecidableEq, Repr, Inhabited

/-- What the objects read before a P4 (R35): the stored values and contents, the computed ones, and those kept in other places. -/
structure Shown where
  objs : List (Nat × Nat)
  doms : List (Nat × List Byte)
  views : List (Nat × Nat)      -- computed objects of one address
  sels : List (Nat × Nat)       -- SEL_KIND and SEL_ID of each requester
  gates : List Nat              -- GATE_OPER
  lives : List (Nat × Nat)      -- state of each collection
  members : List Nat
  soft : List Nat               -- SOFT_REPAIR
  freqs : List Nat
  deriving DecidableEq, Repr, Inhabited

/-- The dictionary. -/
structure Dict where
  objs : List (Nat × Nat)
  doms : List (Nat × List Byte)
  was : Option Shown            -- what the objects read before this P4, until P5 (R35)
  ctrPend : List (Nat × Nat)    -- true increments of R57 counters in the present turn (R445)
  reqs : List Requester
  commits : List CommitJob
  mb : Mailbox
  served : Bool                 -- the Management Controller answers (R455, R405)
  readyObj : Bool               -- READY, object 0x1000.08 and HI_STATUS
  deriving DecidableEq, Repr, Inhabited

/-! ### Host interface -/

/-- A queue: descriptor, doorbell and tallies (Tables 3.5 and 3.6). `enabled` is the effect of ENABLE. -/
structure Queue where
  enable : Bool
  enabled : Bool
  enableDue : Nat               -- boundary at which a waiting enable is first tested, 0 none
  disableDue : Nat              -- boundary at which a disable takes effect, 0 none
  ty : QType
  loc : Nat
  log2 : Nat
  resultQ : Nat
  msix : Nat
  base : Nat
  shadow : Nat
  param : Nat
  reserved : Nat                -- RESERVED_SLOTS
  inflight : Nat                -- requests in flight of a submission queue
  hostTally : Tally
  snapTally : Tally             -- host tally captured at P2 (R34)
  devTally : Tally              -- DEVICE_TALLY
  work : Tally                  -- producer or consumer tally inside the turn, published under R82 or R75
  lost : Nat
  told : Bool                   -- its tally has been published in this turn (R82)
  bells : List (Tally × Nat)    -- doorbells accepted in this turn: value and ticks after B(n) (R120), oldest first
  deriving DecidableEq, Repr, Inhabited

/-- A fetched, or failed, submission entry (R85). -/
structure Fetched where
  q : Nat
  tally : Tally
  entry : Option (List Byte)
  payload : Option (List Byte)
  attempts : Nat
  turn : Nat                    -- turn of the last attempt
  deriving DecidableEq, Repr, Inhabited

/-- A result to be written (Table 3.9). -/
structure Res where
  rq : Nat
  sq : Nat
  sqTally : Tally
  userTag : BitVec 64
  status : Status
  yellow : Bool
  widened : Bool
  replica : Bool
  count : Nat
  ids : List (BitVec 64)
  slots : Nat                   -- k: slots written for a query
  postTurn : Nat
  taken : Nat
  enc : Nat := 255              -- the encoder slot that the query holds until this is written (R151)
  deriving DecidableEq, Repr, Inhabited

/-- An event entry (Table 3.10). -/
structure Event where
  code : Nat
  turn : Nat
  detail : Nat
  deriving DecidableEq, Repr, Inhabited

/-- An event entry that waits to be written to an EVENT queue, with LOST and its producer tally (Table 3.10). -/
structure EvOut where
  q : Nat
  ev : Event
  lost : Nat
  tally : Tally
  deriving DecidableEq, Repr, Inhabited

/-- What leaves the node: host writes, completions, messages, sections and pins, newest last. -/
inductive Output where
  | cfgRetry
  | cfgOk
  | cfgData (v : Nat)
  | readData (data : List Byte)
  | completerAbort
  | unsupportedRequest
  | hostWrite (addr : Nat) (data : List Byte)
  | msix (vector : Nat)
  | dictResp (req dest : Nat) (r : DictResp)
  | caravan (dst turn : Nat) (sections : List Sect)
  | frameOut (port : Nat) (f : Frame)
  | flitOut (port : Nat) (f : Flit)
  | markOut (port : Nat) (m : Mark)
  | streamAck (dst cls : Nat) (next : Tally) (resend : Bool)
  | barrierMsg (dst kind slot gen cause : Nat)
  | epochOut (dst : Nat) (e : Epoch)
  | epochAck (leader epoch : Nat)
  | heartbeatOut (dst : Nat)
  | voteOut (dst term : Nat)
  | electOut (term epoch : Nat)
  | joinReq (port : Nat)
  | cacheReply (dst key : Nat) (value : Option (List Byte))
  | cacheGet (dst key : Nat)
  | cachePut (dst key : Nat) (value : List Byte)
  | flashRead (die lpn : Nat) (soft : Bool)
  | flashSuspend (die : Nat)
  | portIdle (port : Nat)
  | discOut (port node part : Nat)
  | thermTrip
  | scratchData (data : List Byte)
  | scratchError
  deriving DecidableEq, Repr

/-- A DOE session (R437, R438). -/
structure Session where
  keys : List Byte
  lastSeq : Option Nat
  mySeq : Nat
  deriving DecidableEq, Repr, Inhabited

/-- A response in the DOE mailbox: a dictionary message, a Discovery response, a report, a FAIL with its cause, or a SECURED
answer with its SEQ, empty where the manual does not give the answer (an IDE_KM message). -/
inductive DoeResp where
  | dict (r : DictResp)
  | discovery (data : List Byte)
  | report (data : List Byte)
  | fail (cause : Nat)
  | secured (seq : Nat) (r : Option DictResp)
  deriving DecidableEq, Repr

/-- A write toward the host that waits; `res` names the result that it is the last write of: submission queue, RESULT queue and the
encoder slot held (R69, R151). -/
structure KeptWrite where
  out : Output
  res : Option (Nat × Nat × Nat)
  deriving DecidableEq, Repr

/-- The Host Interface. Offsets of MSI-X bytes are within the BAR0 regions of Table 3.2. -/
structure HostIf where
  linkUp : Bool
  rate : Nat
  width : Nat
  degraded : Bool
  perstLow : Bool
  bar2Base : Nat
  bar2Size : Nat                -- SIZE_LOG, from the Resizable BAR control
  mps : Nat                     -- Max_Payload_Size and Max_Read_Request_Size as programmed: 128 B times 2 to this (Table 3.1)
  mrrs : Nat
  aer : Nat                     -- AER Uncorrectable Error Status (R64)
  doorbellDrops : Nat
  bar2Drops : Nat
  fetchErrors : Nat
  msixBytes : List (Nat × Nat)
  pba : List Nat
  queues : List (Nat × Queue)
  fetched : List Fetched
  results : List Res         -- posted, not yet written (R82)
  events : List EvOut           -- event entries not yet written (R86)
  kept : List KeptWrite         -- writes kept while the link is down or no stream covers them (R466, R440)
  tries : List (Nat × Nat)      -- failed attempts of image and table fetches in progress, by the object that started them (R85)
  ide : List Nat                -- IDE_STREAM states
  ideSet : List Nat             -- key set in use of each stream (R439)
  ideAssoc : List (Nat × Nat)   -- address association registers by 6 * stream + 3 * block + word; those at zero not listed (R439)
  session : Option Session
  doeResp : Option DoeResp      -- response that the host has not yet read
  deriving DecidableEq, Repr, Inhabited

/-! ### Turns and boards -/

/-- A watchdog trip, for the limits of R454: Table 1.6 level, unit, turn. -/
structure Trip where
  level : Nat
  unit : Nat
  turn : Nat
  deriving DecidableEq, Repr, Inhabited

/-- A change latched at P4 that becomes active at P5 (R35). -/
inductive Shadow where
  | owner (bank code : Nat)
  | pageMap (die lpn phys due : Nat)
  deriving DecidableEq, Repr, Inhabited

/-- Work of a stage that the boards of the turn hold, issued at P6 and not yet complete: the number of the query or unit, its
colour, and whether it slipped from an earlier turn (R41, R46). -/
structure Placed where
  engine : Engine
  id : Nat
  green : Bool
  late : Bool
  deriving DecidableEq, Repr, Inhabited

/-- Operations of a query carried into t0 in turn `made` that the board of `half` for turn `turn` holds (R43). -/
structure Promise where
  made : Nat
  turn : Nat
  half : Nat
  engine : Engine
  ops : Nat
  deriving DecidableEq, Repr, Inhabited

/-- A tile buffer (R13, R333): which half is in use, and the engines whose operands the halves hold; none where a half is free. -/
structure TileBuf where
  half : Nat
  active : Option Engine
  standby : Option Engine
  deriving DecidableEq, Repr, Inhabited

/-- The turn grid and the boards of both halves. -/
structure TurnSt where
  buffers : List (Nat × TileBuf)   -- tile buffers in use, by tile (R13, R333)
  no : Nat
  phase : Phase
  cur : List Board              -- board in force, half 0 and 1
  latched : List Board
  next : List (Option Board)    -- board written for the next turn
  repeats : Nat                 -- consecutive repeats (R453)
  repeated : List Bool          -- the latched board of the half is a repeat (R42)
  shadow : List Shadow
  tileIdle : List Nat           -- tiles kept slack for the next turn
  tileRetired : List Nat
  trips : List Trip
  seqMissed : List (Nat × Nat)  -- half and the turn that its sequencer misses (R453)
  due : List Nat                -- queries whose deadline boundary this is, lists missing (P3)
  alignBad : Nat                -- consecutive boundaries above the limit (R29)
  alignOff : Int                -- ALIGN_OFFSET_NS
  steer : Int                   -- correction of the last turn in ticks (R28)
  marksMissed : Nat
  markTurn : Nat                -- 1 + TURN_NO of the last mark that was the first of its boundary, 0 none (R378)
  markSeen : Bool
  withdraw : Option Nat         -- boundary at which a withdrawal falls due
  withdrawn : Bool              -- the node has withdrawn (R29)
  escalated : Bool
  admitted : Bool               -- the admission rounds of this turn have run
  yellowQ : Nat                 -- yellow queries taken this turn
  yellowI : Nat
  takenQ : List Nat             -- contexts used this turn, per half
  takenI : Nat
  gathersUsed : List Nat
  placed : List Placed          -- work of this turn that has been issued and has not completed (R33, R41)
  unmet : List (Engine × Nat)   -- consecutive P1 at which an engine's work of the turn had not completed (R453)
  plan : List Promise           -- what the boards of this and later turns hold for queries carried into t0 (R43)
  selSteps : Nat                -- Selector and Bazaar steps of this turn (R284, R291)
  bazSteps : Nat
  bridgeUsed : Nat              -- bytes over the die-to-die bridge in this turn (R17)
  fallbacks : List Nat          -- stacks whose thin work ran on tiles this turn (R156)
  cuts : List (Nat × Nat)       -- windows removed at the last P4: their thin work slips this turn (R259)
  busUsed : List (Nat × Nat)    -- result-bus bytes reserved by the work placed this turn, by stack (R262)
  portUsed : List (Nat × Nat)   -- caravan bytes of query work at the coming boundary, by port (R41)
  statStart : Nat               -- turn at which the statistics epoch began
  statPub : Nat                 -- turn at which the last published epoch began (R180)
  statEnd : Bool                -- a new STAT_EPOCH_TURNS ends the epoch at this boundary (R174)
  deriving DecidableEq, Repr, Inhabited

/-! ### Admission -/

/-- A pending or operational gate list. -/
structure Gates where
  oper : List Nat
  base : Nat
  pend : Option (List Nat × Nat)      -- entries, takeover turn
  deriving DecidableEq, Repr, Inhabited

/-- Buckets of an enabled meter (R93), keyed by meter (object address of EN). -/
structure Bucket where
  tc : Nat
  tp : Nat
  deriving DecidableEq, Repr, Inhabited

/-- Admission state. -/
structure Adm where
  buckets : List (Nat × Bucket)
  gates : Gates
  deriving DecidableEq, Repr, Inhabited

/-! ### Query Composer -/

/-- A row of a table: both slots and the version and error bits (R111). -/
structure Row where
  a : List Byte
  b : List Byte
  active : Bool                 -- false: slot A
  err : Bool
  flipDue : Nat                 -- boundary at which the version bit flips, 0 none
  wid : Nat                     -- the write that wrote the inactive slot for that flip (R126)
  deriving DecidableEq, Repr, Inhabited

/-- Where a row group lives (R111, R128). -/
structure RowGroup where
  t5 : Bool
  base : Nat                    -- base address of its descriptor
  t1 : Bool
  t1Next : Option Bool          -- a T1 read copy to be added or dropped at the next boundary
  moving : Option Bool          -- copy in progress, target T5
  copied : Bool                 -- copy complete, switch at the next boundary
  heat : Nat
  events : Nat
  lastRepl : Nat                -- last replacement, turn + 1 (0 none)
  cancel : Bool
  waiting : List Nat            -- writes that wait for the promotion
  deriving DecidableEq, Repr, Inhabited

/-- A built table version. -/
structure TableVer where
  fmt : Nat
  width : Nat
  rows : Nat
  data : List (Nat × Row)
  groups : List (Nat × RowGroup)
  deriving DecidableEq, Repr, Inhabited

/-- A table: active version, version in build or ready. -/
structure Table where
  active : Option TableVer
  built : Option TableVer
  buildGeo : Option (Nat × Nat × Nat)
  switchDue : Nat
  deriving DecidableEq, Repr, Inhabited

/-- A staged T5 row (R120). -/
structure Staged where
  q : Nat
  tally : Tally
  table : Nat
  index : Nat
  bytes : List Byte
  turn : Nat
  used : Bool                   -- its entry was taken in that turn
  deriving DecidableEq, Repr, Inhabited

/-- Composer state. -/
structure Comp where
  tables : List (Nat × Table)
  staged : List Staged
  ahead : List (Nat × Tally × Nat)      -- entries read ahead for a turn
  flashUsed : Nat
  wayUsed : List (Nat × Nat)            -- reads for composition of this turn, by waystation (R272)
  deriving DecidableEq, Repr, Inhabited

/-! ### Model images -/

/-- One layer of an image (Table 6.4) with its watch (R176) and heat. -/
structure Layer where
  op : Nat
  wfmt : Nat
  afmt : Nat
  alt : Bool
  bias : Bool
  inW : Nat
  outW : Nat
  param : Nat
  srcA : Nat
  srcB : Nat
  weights : List Byte
  wBytes : Nat
  altWeights : List Byte
  altBytes : Nat
  eightBit : Bool
  count : Nat
  pending : Bool
  ran : Bool                    -- the layer has been watched in this turn
  noted : Bool                  -- event 0x7022 posted in this statistics epoch
  bad : Bool                    -- reload in progress (R154)
  reloadDue : Nat
  heat : Nat
  events : Nat
  eSum : Flt
  eN : Nat
  pubPrec : Nat                 -- PRECISION and WATCH_COUNT as last published (R180)
  pubCount : Nat
  deriving DecidableEq, Repr, Inhabited

/-- A segment of a spread encoder (R146, R149). -/
structure SegMap where
  seg : Nat
  first : Nat
  layers : Nat
  primary : Nat
  replica : Nat
  unsent : List Nat             -- nodes to which the segment has not yet been copied (R146, R149)
  placed : Bool
  deriving DecidableEq, Repr, Inhabited

/-- A loaded image. -/
structure Image where
  ties : Rnd
  inWidth : Nat
  outWidth : Nat
  digest : List Byte
  layers : List Layer
  tables : List (List Flt × Flt × Flt × Bool)
  segs : List SegMap
  peers : List (Nat × Nat)      -- quota bytes that the Planner found free on the peers, less what it has placed there (R146)
  ranAt : Nat                   -- the last turn in which the image ran here, plus 1 (R166: one step in a turn)
  readyDue : Nat
  testDue : Bool                -- a write of UNLOAD = 1 awaits its test (R152)
  freeing : Bool
  deriving DecidableEq, Repr, Inhabited

/-- A remote segment that this node holds for a loading node (R146, R178): settings are MSE_THRESHOLD, PRECISION_MODE,
SAMPLE_ROWS, SCALE_N and HEADROOM of the loading node's slot. -/
structure RemoteSeg where
  home : Nat
  slot : Nat
  seg : Nat
  first : Nat
  count : Nat
  image : Image
  settings : List Nat
  deriving DecidableEq, Repr, Inhabited

/-- Activations received for the next segment of an encoder, or its output (R147). -/
structure Act where
  home : Nat
  qh : Nat
  pin : Nat
  slot : Nat
  seg : Nat
  layer : Nat                   -- layer whose output this is, 0xFFFF the image input
  rows : List (List Flt)
  turn : Nat
  deriving DecidableEq, Repr, Inhabited

/-! ### Conversion streams -/

/-- A conversion stream (R165): kind (Table 7.7) and id. -/
structure Strm where
  hist : List Flt
  next : Nat
  fill : Nat
  cur : Flt                     -- maximum of the step in progress
  limit : Option Flt            -- the limit with which the step in progress converts (R166)
  stepped : Bool
  n : Nat
  se : Flt                      -- sum of squared errors, FP64
  sx : Flt                      -- sum of squares, FP64
  sat : Nat
  pe : Flt                      -- product-quantisation error sum
  px : Flt
  pn : Nat
  pubTurn : Nat
  pubMse : Flt
  pubNmse : Flt
  pubSat : Nat
  pubN : Nat
  pubAux : Flt
  deriving DecidableEq, Repr, Inhabited

/-! ### Collections and lists -/

/-- A converted centroid (R198) with its life (R200). -/
structure Centroid where
  num : Nat
  codes : List Flt              -- element codes as values
  scale : Flt
  bits : List Bool              -- sketch, Hamming collections
  dead : Bool
  died : Nat := 0               -- boundary from which it is dead (R200)
  deriving DecidableEq, Repr, Inhabited

/-- One version of a collection's centroid set and graph, readable from `from` until superseded (R208, R209). -/
structure CentSet where
  start : Nat
  stop : Nat                    -- boundary at which it was superseded, 0 none
  version : Nat
  cents : List Centroid
  entries : List Nat
  edges : List (Nat × List Nat)
  deriving DecidableEq, Repr, Inhabited

/-- One entry of a list: index record, stamp, sketch, codes, full-vector record (Tables 8.2, R191, R194). -/
structure Entry where
  id : BitVec 64
  tag : BitVec 64
  attr : Nat
  writeTurn : Nat
  origin : Nat
  delTurn : Nat
  sketch : List Bool
  codes : List Nat
  full : List Byte
  wid : Nat
  seq : Nat                     -- its place in the commit batch of its turn (R305)
  aborted : Bool
  loc : Nat                     -- media record address, once in a base segment
  deriving DecidableEq, Repr, Inhabited

/-- A segment set: base segments as entry numbers, and DELTA_CUT (R201, R203). -/
structure SegSet where
  start : Nat
  stop : Nat
  bases : List (List Nat)
  cut : Nat
  hot : Bool
  locs : List Nat               -- media records that are freed with this set
  adopted : List Nat            -- delta of a merged list (R316)
  addrs : List (Nat × Nat) := []   -- media record address of each entry of a base segment (R265)
  deriving DecidableEq, Repr, Inhabited

/-- This node's copy of a list. Entry numbers index `entries`; `delta` holds entry numbers in append order. -/
structure ListCopy where
  key : Nat
  entries : List Entry
  delta : List Nat
  sets : List SegSet            -- newest first
  compacting : Option (Nat × Nat × List Nat)   -- start turn, new cut, bases taken
  built : Option (List (List Nat) × Nat × List (Nat × Nat))   -- finished bases, cut, new media records by entry
  switchDue : Nat
  hotBuild : Bool
  hotDue : Nat
  heat : Nat
  events : Nat
  bad : List Nat                -- entries that hold uncorrectable data
  quarantined : Bool            -- the quarantine of this copy was requested (R450)
  stack : Nat                   -- stack that holds the resident part (R332)
  deriving DecidableEq, Repr, Inhabited

/-- Native state of one collection; its registers are objects. -/
structure Coll where
  life : Nat                    -- 0 absent, 1 stopped, 2 running (R183)
  pend : Option Nat             -- change on its way: 0 stop, 1 run, 2 drop, 3 load
  cents : List CentSet          -- newest first
  books : List (List (List Flt))
  imageDigest : List Byte
  imageBytes : List Byte
  loads : List (Nat × List Byte)       -- checked images that await their ledger epoch, by loading node
  rewrites : List (Nat × Nat)   -- edge lists rewritten, by centroid, and the boundary at which each takes effect (R207)
  members : List Nat            -- members when STATE first read 1 (R384)
  dropDue : Nat                 -- boundary at which a dropped collection's storage is freed
  driftN : List (Nat × Nat)     -- per centroid, count of commits (R311)
  driftSum : List (Nat × List Flt)
  driftIn : List (Nat × Nat × List DriftRec)   -- epoch, member, records
  driftPend : Option (Nat × CentSet)
  centLoading : Bool            -- centroid reload in progress (R449)
  epochDone : Nat               -- the boundary at which the last adaptation epoch ended
  reshaped : Nat × Nat          -- reshapes started since an adaptation epoch boundary, and that boundary (R314)
  deriving DecidableEq, Repr, Inhabited

/-! ### Queries and shard units -/

/-- A query context on its home node (R80, R219). -/
structure Query where
  qh : Nat
  sq : Nat
  tally : Tally
  userTag : BitVec 64
  coll : Nat
  k : Nat
  d : Nat
  probesCfg : Nat               -- probe count after halving
  colour : Colour
  pred : Pred
  filter : Bool
  payload : List Byte
  t0 : Nat
  half : Nat
  m : Nat                       -- encoder segments
  encoder : Nat                 -- slot or 0xFF
  input : List (List Flt)       -- composed rows
  vec : Option (List Flt)
  sketch : List Bool
  route : List Nat
  probes : Nat
  round : Nat
  matched : Nat                 -- sum of match counts
  reports : Nat                 -- match reports counted of the latest round
  reportsDue : Nat
  waiting : List Nat            -- probes that wait for a grant (list keys)
  awaited : Nat
  lists : List PartialList
  widened : Bool
  unheld : Bool
  error : Bool
  retired : Bool
  timedOut : Bool
  memoKey : Nat
  memoHit : Option (List Byte)  -- the memo found in t0; empty while the lender's reply is awaited (R391)
  seg : Nat
  shards : List Nat             -- nodes to which probes were sent
  slip : Bool                   -- a stage has slipped
  ready : Nat                   -- the first turn that its t1 may take, by the boundary that counts its t0 (R34)
  routeTurn : Option Nat        -- the turn in which its first routing was placed
  rounds : List Nat             -- the turns in which its widening rounds were sent (R232)
  deriving DecidableEq, Repr, Inhabited

/-- A candidate of a unit (R267, R269). -/
structure Cand where
  ctag : Nat
  id : BitVec 64
  key : Nat                     -- list key
  entry : Nat                   -- entry number
  hot : Bool
  based : Bool                  -- the entry stands in a base segment of the pinned set (R265, R273)
  loc : Nat                     -- media record address, or search-memory address of a hot record (Table 11.1)
  dist : Flt
  done : Bool
  failed : Bool
  retries : Nat
  rescored : Bool
  deriving DecidableEq, Repr, Inhabited

/-- A unit of shard work (R216). -/
structure SUnit where
  num : Nat
  probe : ProbeRec
  arrived : Nat                 -- turn of its t2
  ready : Nat                   -- the first turn that its t4 may take
  paths : List (Nat × Bool)     -- lists of its scan, and whether the thin work of each runs on row logic (R155, R156)
  scanned : Bool
  replica : Bool
  served : List Nat             -- keys served
  retired : Nat
  matchCount : Nat
  cands : List Cand
  error : Bool
  ranked : Bool
  sent : Bool
  dropDue : Nat
  deriving DecidableEq, Repr, Inhabited

/-! ### Search-memory stacks and row logic -/

/-- The predicate and the histogram that a tail command sees of its group: those in force when its bank took it, and what its
own bank has loaded or cleared since (R252). `clears` counts the group's HCLEARs. -/
structure Seen where
  pred : Option Pred
  clears : Nat
  deriving DecidableEq, Repr, Inhabited

/-- A bank's queue and status (R249, Table 10.5); `seen` goes with the commands of `queue`, in order. -/
structure Bank where
  queue : List RowCmd
  seen : List Seen := []
  done : Tally
  drops : Nat
  rejects : Nat
  deriving DecidableEq, Repr, Inhabited

/-- A bank group in host mode (R246, R247). -/
structure HostGroup where
  used : Nat                    -- row activations of this turn (R260)
  leaving : Bool                -- leaves host mode at this boundary (R247)
  held : Bool                   -- over the power window in this turn (R259)
  deriving DecidableEq, Repr, Inhabited

/-- Search memory: bytes, banks, groups. -/
structure SMem where
  cells : List Host.Cell
  banks : List (BankId × Bank)
  groups : List ((Nat × Nat) × HostGroup)
  preds : List ((Nat × Nat) × Pred)                    -- the predicate loaded into a group, by stack and group (R252)
  hists : List ((Nat × Nat) × List (Nat × Nat))        -- a group's histogram: bin, count; canonical (R251)
  clears : List ((Nat × Nat) × Nat)                    -- HCLEARs that a group has run
  hostHeld : List (Nat × Nat)   -- groups in host mode that hold their commands in the coming turn, compared at P4 (R259)
  running : Bool                -- host commands run (P6 to P0)
  low : List ((BankId × Nat) × Nat)   -- low halves of command slots, by bank and slot
  deriving DecidableEq, Repr, Inhabited

/-! ### Waystations -/

/-- A candidate request (Table 11.1) in a waystation's queue, with the unit that it serves. -/
structure WayReq where
  unit : Nat
  id : BitVec 64 := 0
  qh : Nat := 0
  qslot : Nat := 0              -- query descriptor in the waystation's query table
  ctag : Nat
  hot : Bool
  soft : Bool
  loc : Nat
  started : Bool
  deriving DecidableEq, Repr, Inhabited

/-- A query descriptor of a waystation's query table (R268), with its slot and its unit. -/
structure QDesc where
  slot : Nat
  unit : Nat
  metric : Metric
  fmt : Nat                     -- FULL_FORMAT
  dims : Nat
  vec : List Flt
  deriving DecidableEq, Repr, Inhabited

/-- A waystation result record (Table 11.2), with the unit that it is for. -/
structure WayRes where
  unit : Nat
  id : BitVec 64
  dist : Flt
  ctag : Nat
  wst : Nat
  deriving DecidableEq, Repr, Inhabited

/-- Waystation state, and the per-die use of the turn. -/
structure WaySt where
  queues : List (Nat × List WayReq)
  coming : List (Nat × WayReq)         -- requests assigned between P1 and P4, written at P5 (R267)
  tables : List (Nat × List QDesc)     -- query tables (R264, R268)
  results : List (Nat × List WayRes)   -- result queues toward the tiles, by half (R264, R269)
  dieUse : List (Nat × Nat)
  flashUse : List (Nat × Nat)
  hotUse : List (Nat × Nat)
  suspends : List (Nat × Nat × Nat)   -- per die, its operation in progress and how often that was suspended (R273)
  deriving DecidableEq, Repr, Inhabited

/-! ### Ingest -/

/-- A write of this origin (R296 to R301). -/
structure Write where
  wid : Nat
  sq : Nat
  tally : Tally
  userTag : BitVec 64
  op : IngOp
  coll : Nat
  table : Option Nat
  id : BitVec 64
  noid : Bool
  taken : Nat
  colour : Colour
  prep : StageEntry
  resid : List Flt              -- v - c, for R311
  payload : List Byte
  holders : List Nat
  acked : List Nat
  sentTurn : Nat                -- turn in which it was last staged, 0 not yet
  ready : Bool                  -- processed by the Ingest Engine
  committed : Bool
  minTurn : Nat                 -- earliest commit turn
  refused : Option Status       -- answer of an entry that is not applied, held for the order of R83
  deriving DecidableEq, Repr, Inhabited

/-- A shard of an ID directory (R303): records ID, list key, ORIGIN, WRITE_TURN. -/
structure DirShard where
  coll : Nat
  shard : Nat
  primary : Bool
  recs : List (BitVec 64 × Nat × Nat × Nat)
  done : Nat                    -- commits ordered through this turn
  missing : List Nat            -- members whose records of a rebuild are awaited (R491)
  sent : List (Nat × List Stamp)      -- stamps of the last turns ordered, newest first
  deriving DecidableEq, Repr, Inhabited

/-- A split or merge in progress (R315, R316): of list `key` into itself and `other`, or into the survivor `other`. -/
structure Reshape where
  key : Nat
  other : Nat
  split : Bool
  rows : List (List Flt)        -- a and b of a split
  start : Nat
  built : Option (List Nat × List Nat × Nat × Nat)   -- entries kept by or merged from `key`, entries for `other`, cuts
  reports : List Nat            -- nodes that reported
  deriving DecidableEq, Repr, Inhabited

/-- Ingest state. -/
structure Ing where
  writes : List Write
  nextWid : Nat
  commitOut : List (Nat × CommitRec)  -- this turn's commit batch, by order of taking
  lostOut : Nat                 -- commits of the last turn, for 0x7032
  batches : List (Nat × Nat × List CommitRec)   -- member, turn, batch
  batchThrough : List (Nat × Nat)     -- per member, every batch counted through turn
  stampThrough : List ((Nat × Nat) × Nat)   -- per collection and shard
  short : List (Nat × Nat)      -- holder, list key short of delta space
  ackOut : List (Nat × Nat)     -- origin, wid acknowledged
  refuseOut : List (Nat × Nat)
  seen : List (Nat × Nat)       -- collection and turn of commits seen in commit batches (R391)
  shards : List DirShard
  rebuilds : List ((Nat × Nat) × Nat × Nat)   -- directory shards in rebuild: r, and the boundary at which it completes
  owed : List (Nat × Nat)       -- shards in rebuild to which this node still owes its records
  reshapes : List Reshape
  merged : List (Nat × Nat)     -- merged lists and their survivors
  derived : List (Nat × Nat)    -- lists to which entries of a list have gone by a split or a merge
  deriving DecidableEq, Repr, Inhabited

/-! ### Placement -/

/-- A copy in progress (Table 14.6). -/
structure CopyJob where
  key : Nat
  source : Nat
  target : Nat
  move : Bool                   -- the source departs at the end
  requested : Nat               -- boundary of the proposal's epoch
  start : Nat                   -- a, 0 not started
  total : Nat                   -- MiB of the snapshot
  copied : Nat
  log : List LogRec             -- records to forward (source)
  logIn : List LogRec           -- records counted (target)
  kept : List (Nat × Nat × List CommitRec)    -- commit batches kept (target)
  snap : List SnapEntry         -- snapshot of the source
  logged : Nat                  -- bytes logged since B(a)
  rebuild : Bool
  replayed : Nat
  ready : Bool
  logThrough : Nat              -- every log batch counted through this turn (target)
  w : Nat
  deriving DecidableEq, Repr, Inhabited

/-- A mirror (R327): the base segment is named by its entries. -/
structure Mirror where
  key : Nat
  base : List Nat
  range : Nat
  bytes : Nat
  deriving DecidableEq, Repr, Inhabited

/-- Placement state. -/
structure Place where
  jobs : List CopyJob
  mirrors : List Mirror
  ranges : List (Nat × Nat × Nat)     -- pending new BASE and SIZE of a draining range
  drained : List (Nat × Nat)          -- ranges whose last read has completed, and the boundary at which they change
  listHeat : List (Nat × Nat)         -- heats received for lists of which this node is primary
  moved : Nat                         -- MiB copied in this turn (R335)
  dropping : List Nat                 -- lists whose replica here this node has asked the ledger to drop (R324)
  fillPosted : Bool
  reservePosted : Bool
  deriving DecidableEq, Repr, Inhabited

/-! ### Scratch Banks and flash -/

/-- Bank control registers (Table 15.2). -/
structure ScrBank where
  owner : Nat
  next : Nat
  due : Nat                     -- boundary of the handover, 0 none
  retired : Bool
  wdrops : Nat
  rzeros : Nat
  lastReq : Nat
  deriving DecidableEq, Repr, Inhabited

/-- Scratch Banks: contents, control registers that differ from reset, uncorrectable words. -/
structure Scratch where
  cells : List Host.Cell
  banks : List (Nat × ScrBank)
  bad : List Nat                -- 8-byte words that are uncorrectable
  fuses : List Nat
  soft : List Nat
  steered : List (Nat × Nat × Nat × Nat)   -- bank, subarray, spare, column
  deriving DecidableEq, Repr, Inhabited

/-- A die (R354, R360, R362). -/
structure Die where
  num : Nat
  readOnly : Bool
  retired : List Nat            -- blocks
  next : Nat                    -- next logical page to write
  marked : List Nat             -- logical pages that wait for relocation (R361)
  reads : List (Nat × Nat)      -- reads per block since its last program (R361)
  deriving DecidableEq, Repr, Inhabited

/-- Flash media. -/
structure Flash where
  maps : List ((Nat × Nat) × Nat)     -- die and logical page to physical page
  dies : List Die
  discarded : List (Nat × Nat)
  held : List (Nat × Nat × Nat)       -- old physical pages by die, and the boundary before which they are not erased (R356)
  images : List (Nat × List Byte)     -- copies of the model images that the slots hold (R143)
  used : Nat                    -- user logical pages that hold data
  slc10 : Nat                   -- SLC cache in tenths of a percent
  stopped : Bool                -- fill stop in force (R359)
  deriving DecidableEq, Repr, Inhabited

/-! ### Wenmen -/

/-- Link layer of a Wenmen Port (R370); its status is the object 0x7100 + p. -/
structure Port where
  txSeq : Nat
  rxSeq : Nat
  replay : List (Nat × Nat × List Frame × Nat)   -- SEQ, VL, the frames that end in the flit, and FPTR, oldest first
  wait : List (Nat × Frame × Nat)            -- frames that wait for a credit, by VL, and how many of their bytes
  resends : Nat
  nakked : Bool
  credits : List Nat                         -- per VL
  deriving DecidableEq, Repr, Inhabited

/-- A transport stream (R374): peer, class, next SEQ and frames kept or held. -/
structure TStream where
  peer : Nat
  cls : Nat
  next : Tally
  held : List Tally
  out : List Frame              -- kept until acknowledged
  deriving DecidableEq, Repr, Inhabited

/-- Ledger process (R382 to R386). -/
structure Ledger where
  members : List Nat
  holders : List Nat
  leader : Nat
  term : Nat
  applied : Nat                 -- EPOCH
  reqs : List LedgerReq         -- requests received, oldest first (leader)
  forming : Option Epoch        -- formed, not committed
  epochs : List Epoch           -- committed epochs that await B(EFFECT_TURN)
  stored : List Epoch
  lists : List (Nat × List Holder)
  shards : List ((Nat × Nat) × (Nat × Nat))
  segs : List ((Nat × Nat) × (Nat × Nat))    -- home * 16 + slot and segment: primary, replica
  links : List (Nat × Nat × Nat × Nat)       -- node, port, peer, peer port
  cacheMap : List Nat
  reports : List (ReportKind × Nat × Nat × List Nat)   -- kind, key, arg, nodes that reported
  outReqs : List LedgerRec      -- requests for the next caravan to the leader
  forwarded : List LedgerRec    -- requests of the commits of this boundary that its caravan carries (R422)
  beats : Nat                   -- consecutive boundaries without a heartbeat
  beatSeen : Bool
  votedTerm : Nat
  standing : Nat                -- the term for which this node stands, 0 none
  electDue : Nat                -- boundary at which this node becomes leader, 0 none
  joinSent : Bool               -- the MEMBER request of a JOIN has left
  outOfStep : Bool
  noStore : Nat                 -- boundaries without a stored epoch (R453)
  absent : List (Nat × Nat)     -- at the leader: consecutive epochs that a holder has not acknowledged (R453)
  lend : List (Nat × Nat)
  deriving DecidableEq, Repr, Inhabited

/-- A pooled-cache entry lent by this node (R389), oldest read first. -/
structure CacheEnt where
  key : Nat
  value : List Byte
  deriving DecidableEq, Repr, Inhabited

/-- Wenmen fabric state. -/
structure Fabric where
  ports : List (Nat × Port)
  streams : List TStream
  inStreams : List TStream
  route : List (Nat × Nat × Nat)      -- destination, first port, alternate port (16 none)
  out : List (Nat × Sect)             -- sections of the caravans being built, by destination
  nextOut : List (Nat × Sect)         -- sections of work that completed between P0 and P2, for the next boundary (R37, R376)
  metered : List ((Nat × Nat) × Colour)   -- colour of each query (QH, PIN) whose work the caravan being counted has brought (R96)
  closed : List (Nat × Nat × List Sect)   -- destination, turn, sections closed at P2
  inbox : List (Nat × Nat × List Sect)    -- source, turn, complete caravans not yet counted
  consumed : List (Nat × Nat)         -- source, TURN of the last caravan consumed
  unconsumed : List (Nat × Nat)       -- member, caravans sent and not consumed
  grants : List Grant                 -- grants in force
  given : List (Nat × Nat)            -- this node's shares of STAGE_CAP, by member (R298)
  grantUsed : List Grant              -- what this turn has drawn on the grants
  cache : List CacheEnt
  kept : List (Nat × CacheEnt)        -- entries read from other lenders: the boundary that counts the reply, the entry
  gets : List (Nat × Nat)             -- requests outstanding: lender, key
  getWait : List (Nat × Nat)          -- requests that wait for a port's limit
  replies : List (Nat × Tally × Nat × Option (List Byte))  -- replies in frames held out of order: source, SEQ, key, value
  memberPorts : List Nat              -- ports at which a boundary mark came since the last boundary: their peers are members (R387)
  badFrames : Nat
  deriving DecidableEq, Repr, Inhabited

/-- A barrier slot (Table 18.4); settings are objects. -/
structure BSlot where
  gen : Nat
  state : Nat
  tiles : List Nat
  mc : Bool
  remote : List Nat
  timer : Bool
  failFlag : List Nat           -- members released with the failure flag (128: the Management Controller)
  clearDue : Nat
  deriving DecidableEq, Repr, Inhabited

/-! ### Security, reliability, clocks, non-volatile state -/

/-- The key vault and the system area: what survives a loss of power (R430, R364, R460). -/
structure NonVol where
  tenant : Nat                  -- TENANT_STATE as stored
  tag : List Byte
  nonce : List Byte
  scrubPending : Bool
  switches : Nat
  errorLog : List (Nat × Event) -- log tally, event
  logTally : Nat
  freqs : List Nat              -- stored frequencies of R463
  softRepair : List Nat
  fwA : List Byte
  fwB : List Byte
  activateB : Bool
  minSvn : Nat
  retained : List (Nat × List Byte × List Nat)   -- list key, digest and media records of retained media (R480)
  deriving DecidableEq, Repr, Inhabited

/-- Security Unit, volatile part. -/
structure Sec where
  flashKey : List Byte
  staged : Nat                  -- FW_STAGED
  fwRunning : List Byte
  fwSvn : Nat
  runsB : Bool                  -- copy B is the one that runs (R433)
  activate : Bool
  bindDue : Nat
  switchDue : Nat               -- s of R442, 0 none
  scrubbing : Bool
  scrubDone : Option Nat
  diagDue : Nat
  deriving DecidableEq, Repr, Inhabited

/-- Reliability state. -/
structure Ras where
  mcDown : Bool
  sweep : Option (Nat × Nat × Nat)    -- stacks (8 all), kind, pseudo-channels left
  sweepRes : List (Nat × List Nat)    -- margins of the pseudo-channels swept so far
  sweepUsed : List (Nat × Nat)
  sweepPts : List (Nat × Nat)   -- points done of each pseudo-channel that the sweep has begun
  droop : List Nat
  selfFail : List Nat           -- failed units as bit numbers of SELFTEST_RESULT
  load : Nat                    -- turn of admission, for R480
  deriving DecidableEq, Repr, Inhabited

/-- Clock monitor, throttle, counter and start-up. Sources are numbered as in R467. -/
structure Clk where
  freqs : List Nat              -- frequencies in force (R463)
  pairBad : List (Nat × Nat)    -- pair code, consecutive windows that disagreed
  pairGood : List (Nat × Nat)
  failed : List Nat
  fallback : Nat
  stretch : List Nat            -- eighths removed, per half
  clearFor : List Nat           -- 10 us steps since the condition cleared, per half
  samples : List Nat            -- package power, last ten samples, newest first
  railSum : List Nat            -- sums of the rail readings since the last publication (R445)
  powerN : Nat
  tj : List Nat                 -- latest hottest junction readings, per half
  scrTemp : List Nat            -- latest scratch-stack temperatures
  stackTemp : List (Nat × Nat)  -- latest stack temperatures
  episodes : List Nat           -- throttle episodes in progress: bits of THROTTLE_STATE
  throttled : Bool              -- a stretch in this turn
  fmcRun : Bool
  fmcSel : Nat × Nat × Nat      -- reference, target and G of the running measurement
  fmcBad : Bool
  tripped : Bool
  porLow : Bool
  powered : Bool
  bootStage : Nat
  bootFailed : Bool             -- neither firmware copy passed (R433)
  stepDone : Bool               -- the step in progress has completed (step 6: READY at the next boundary)
  readyDue : Nat
  resetCause : Nat
  bootMs : List Nat
  deriving DecidableEq, Repr, Inhabited

/-- The node. -/
structure State where
  dict : Dict
  host : HostIf
  turn : TurnSt
  adm : Adm
  comp : Comp
  images : List (Nat × Image)
  remotes : List RemoteSeg
  acts : List Act
  streams : List ((Nat × Nat) × Strm)
  remoteStats : List ((Nat × Nat) × LayerStats)   -- of remote layers, by slot and layer, for the next publication (R178)
  colls : List (Nat × Coll)
  lists : List ListCopy
  queries : List Query
  units : List SUnit
  nextUnit : Nat
  smem : SMem
  way : WaySt
  ing : Ing
  place : Place
  scratch : Scratch
  flash : Flash
  fab : Fabric
  ledger : Ledger
  bslots : List (Nat × BSlot)
  nv : NonVol
  sec : Sec
  ras : Ras
  clk : Clk
  out : List Output
  free : Nat                    -- the model's own: counts the free values drawn
  pending : List Instr          -- commands that wait, first in, first out
  deriving DecidableEq, Repr

/-! ### The state after reset

The instant is the rise of POR_N after a first power-up (R477, R479): start-up is in step 2, READY reads 0, every object
stands at its default, every queue, row, list, port and slot is absent from its map and so at its reset value, and the
node belongs to no partition. -/

/-- A board that reserves nothing. -/
def Board.empty : Board :=
  { loans := [], issue := [], windows := [], waySlots := [], portBytes := [], hostSlots := 0, ingestCap := 0,
    bridgeBytes := 0, busBytes := [], ahead := [], contexts := 0, gathers := 0, energy := 0 }

/-- A requester without transaction, transfer or stored response (Table 19.9, defaults). -/
def Requester.reset : Requester :=
  { isOpen := false, source := 0, staged := [], beginTurn := 0, state := 0, applyTurn := 0, reject := 0, seg := none,
    last := none, selKind := 0, selId := 0, report := [] }

/-- The mailbox at reset (Table 19.7). -/
def Mailbox.reset : Mailbox :=
  { busy := false, done := false, ignored := false, vector := 0, irqEn := false, request := [], response := [] }

/-- The dictionary at reset: every object at its default. -/
def Dict.reset : Dict :=
  { objs := [], doms := [], was := none, ctrPend := [], reqs := List.replicate 4 Requester.reset, commits := [],
    mb := Mailbox.reset, served := false, readyObj := false }

/-- The Host Interface at reset (Tables 3.3, 3.5 and 3.6). -/
def HostIf.reset : HostIf :=
  { linkUp := false, rate := 0, width := 0, degraded := false, perstLow := false, bar2Base := 0, bar2Size := 0, mps := 0, mrrs := 2, aer := 0,
    doorbellDrops := 0, bar2Drops := 0, fetchErrors := 0, msixBytes := [], pba := [], queues := [], fetched := [],
    results := [], events := [], kept := [], tries := [], ide := [0, 0, 0, 0], ideSet := [0, 0, 0, 0], ideAssoc := [],
    session := none, doeResp := none }

/-- The turn grid at reset: TURN_NO 0 (R26), no board written. -/
def TurnSt.reset : TurnSt :=
  { buffers := [], no := 0, phase := .p6, cur := [Board.empty, Board.empty], latched := [Board.empty, Board.empty],
    next := [none, none], repeats := 0, repeated := [false, false], shadow := [], tileIdle := [],
    tileRetired := [], trips := [], seqMissed := [],
    due := [], alignBad := 0, alignOff := 0, steer := 0, marksMissed := 0, markTurn := 0, markSeen := false, withdraw := none, withdrawn := false,
    escalated := false, admitted := false, yellowQ := 0, yellowI := 0, takenQ := [0, 0], takenI := 0, gathersUsed := [0, 0],
    placed := [], unmet := [], plan := [], selSteps := 0, bazSteps := 0, bridgeUsed := 0, fallbacks := [], cuts := [],
    busUsed := [], portUsed := [], statStart := 0, statPub := 0, statEnd := false }

/-- Admission at reset: every meter disabled, both gate lists empty (R94, R101). -/
def Adm.reset : Adm := { buckets := [], gates := { oper := [], base := 0, pend := none } }

/-- Search memory at reset: no bank group in host mode (log entry 1 for its contents). -/
def SMem.reset : SMem :=
  { cells := [], banks := [], groups := [], preds := [], hists := [], clears := [], hostHeld := [], running := false, low := [] }

/-- The waystations at reset: nothing queued. -/
def WaySt.reset : WaySt :=
  { queues := [], coming := [], tables := [], results := [], dieUse := [], flashUse := [], hotUse := [], suspends := [] }

/-- Ingest at reset. -/
def Ing.reset : Ing :=
  { writes := [], nextWid := 0, commitOut := [], lostOut := 0, batches := [], batchThrough := [], stampThrough := [],
    short := [], ackOut := [], refuseOut := [], seen := [], shards := [], rebuilds := [], owed := [], reshapes := [],
    merged := [], derived := [] }

/-- Placement at reset. -/
def Place.reset : Place :=
  { jobs := [], mirrors := [], ranges := [], drained := [], listHeat := [], moved := 0, dropping := [], fillPosted := false,
    reservePosted := false }

/-- Flash at reset: nothing mounted, an SLC cache of 10.0 % (Table 16.3). -/
def Flash.reset : Flash :=
  { maps := [], dies := [], discarded := [], held := [], images := [], used := 0, slc10 := 100, stopped := false }

/-- The fabric at reset: every port down. -/
def Fabric.reset : Fabric :=
  { ports := [], streams := [], inStreams := [], route := [], out := [], nextOut := [], metered := [], closed := [], inbox := [], consumed := [],
    unconsumed := [], grants := [], given := [], grantUsed := [], cache := [], kept := [], gets := [], getWait := [], replies := [],
    memberPorts := [], badFrames := 0 }

/-- The ledger process at reset: no partition. -/
def Ledger.reset : Ledger :=
  { members := [], holders := [], leader := 0, term := 0, applied := 0, reqs := [], forming := none,
    epochs := [], stored := [], lists := [], shards := [], segs := [], links := [], cacheMap := [],
    reports := [], outReqs := [], forwarded := [], beats := 0, beatSeen := false, votedTerm := 0, standing := 0,
    electDue := 0, joinSent := false, outOfStep := false, noStore := 0, absent := [],
    lend := [] }

/-- The vault and the system area of a new part (R430: first power-up is Clean; Table 22.2 frequencies). -/
def NonVol.reset : NonVol :=
  { tenant := 0, tag := List.replicate 32 0, nonce := [], scrubPending := false, switches := 0, errorLog := [],
    logTally := 0, freqs := [2700, 1350, 1600, 2400, 1200, 500], softRepair := [], fwA := [], fwB := [],
    activateB := false, minSvn := 0, retained := [] }

/-- The Security Unit at reset. -/
def Sec.reset : Sec :=
  { flashKey := [], staged := 0, fwRunning := [], fwSvn := 0, runsB := false, activate := false, bindDue := 0, switchDue := 0,
    scrubbing := false, scrubDone := none, diagDue := 0 }

/-- Reliability at reset. -/
def Ras.reset : Ras :=
  { mcDown := false, sweep := none, sweepRes := [], sweepUsed := [], sweepPts := [], droop := [],
    selfFail := [], load := 0 }

/-- Clocks and start-up at reset: POR_N has risen, step 2 runs (R479, BOOT_STAGE default 2). -/
def Clk.reset : Clk :=
  { freqs := [2700, 1350, 1600, 2400, 1200, 500], pairBad := [], pairGood := [], failed := [], fallback := 0,
    stretch := [0, 0], clearFor := [0, 0], samples := [],
    railSum := [], powerN := 0, tj := [0, 0], scrTemp := [0, 0, 0, 0], stackTemp := [], episodes := [], throttled := false,
    fmcRun := false, fmcSel := (0, 0, 0), fmcBad := false, tripped := false, porLow := false,
    powered := true, bootStage := 2, bootFailed := false, stepDone := false, readyDue := 0, resetCause := 0, bootMs := [] }

/-- The node right after reset. -/
def State.reset : State :=
  { dict := Dict.reset, host := HostIf.reset, turn := TurnSt.reset, adm := Adm.reset,
    comp := { tables := [], staged := [], ahead := [], flashUsed := 0, wayUsed := [] }, images := [], remotes := [], acts := [],
    streams := [], remoteStats := [], colls := [],
    lists := [], queries := [], units := [], nextUnit := 0, smem := SMem.reset,
    way := WaySt.reset, ing := Ing.reset,
    place := Place.reset, scratch := { cells := [], banks := [], bad := [], fuses := [], soft := [], steered := [] },
    flash := Flash.reset, fab := Fabric.reset, ledger := Ledger.reset, bslots := [], nv := NonVol.reset,
    sec := Sec.reset, ras := Ras.reset, clk := Clk.reset, out := [], free := 0, pending := [] }

end Sys2Proof.Machine
end

