-- ==== Sys2Proof/Machine/Ops.lean ====
section
/-! DEFINITION. The operations every family shares: sparse maps, bytes of memory in canonical form, dictionary objects,
counters, events, turn arithmetic, sections for other nodes, withdrawal. -/

namespace Sys2Proof.Machine

/-! ### Sparse maps -/

/-- The value that a key has in an association list. -/
def look {κ α : Type} [DecidableEq κ] : List (κ × α) → κ → Option α
  | [], _ => none
  | (k, v) :: l, q => if k = q then some v else look l q

/-- Set the value of a key, in place where it stands, else at the end. -/
def put {κ α : Type} [DecidableEq κ] : List (κ × α) → κ → α → List (κ × α)
  | [], q, x => [(q, x)]
  | (k, v) :: l, q, x => if k = q then (q, x) :: l else (k, v) :: put l q x

/-- Remove a key. -/
def del {κ α : Type} [DecidableEq κ] : List (κ × α) → κ → List (κ × α)
  | [], _ => []
  | (k, v) :: l, q => if k = q then del l q else (k, v) :: del l q

/-- The value of a key, `d` where the key is absent. -/
def lookD {κ α : Type} [DecidableEq κ] (l : List (κ × α)) (k : κ) (d : α) : α := (look l k).getD d

/-- Set a key of a map kept in rising order of key, in which no entry equals the default `d`. -/
def sput {α : Type} [DecidableEq α] (d : α) : List (Nat × α) → Nat → α → List (Nat × α)
  | [], q, x => if x = d then [] else [(q, x)]
  | (k, v) :: l, q, x =>
    if k < q then (k, v) :: sput d l q x
    else if k = q then (if x = d then l else (q, x) :: l)
    else if x = d then (k, v) :: l else (q, x) :: (k, v) :: l

/-- Whether the keys of a list rise strictly above `lo` and no value is `d`. -/
def canonFrom {α : Type} [DecidableEq α] (d : α) : Option Nat → List (Nat × α) → Bool
  | _, [] => true
  | lo, (k, v) :: l => (match lo with | none => true | some b => decide (b < k)) && decide (v ≠ d) && canonFrom d (some k) l

/-- Apply `f` at one position of a list. -/
def atIdx {α : Type} (f : α → α) : Nat → List α → List α
  | _, [] => []
  | 0, a :: l => f a :: l
  | n + 1, a :: l => a :: atIdx f n l

/-- Element `i` of a list of numbers, 0 beyond its end. -/
def nth (l : List Nat) (i : Nat) : Nat := l.getD i 0

/-- Update the first element that satisfies `p`. -/
def updFirst {α : Type} (p : α → Bool) (f : α → α) : List α → List α
  | [] => []
  | a :: l => if p a then f a :: l else a :: updFirst p f l

/-- Insert in an order given by `le`, after equal elements. -/
def insertBy {α : Type} (le : α → α → Bool) (x : α) : List α → List α
  | [] => [x]
  | a :: l => if le a x then a :: insertBy le x l else x :: a :: l

/-- Stable sort by `le`. -/
def sortBy {α : Type} (le : α → α → Bool) (l : List α) : List α := l.foldl (fun acc x => insertBy le x acc) []

/-- Drop repeats, keeping the first of each. -/
def nub {α : Type} [DecidableEq α] : List α → List α
  | [] => []
  | a :: l => a :: (nub l).filter (fun b => !decide (b = a))

/-! ### Bytes of memory

An unlisted byte of search memory or of a Scratch Bank reads as zero (log entry 1). -/

/-- One byte of a memory. -/
def byteAt (m : List Host.Cell) (a : Nat) : Byte := (look m a).getD 0

/-- Write one byte, keeping the canonical form. -/
def setByte (m : List Host.Cell) (a : Nat) (b : Byte) : List Host.Cell := sput 0 m a b

/-- `n` bytes from address `a` on. -/
def readBytes (m : List Host.Cell) (a : Nat) : Nat → List Byte
  | 0 => []
  | n + 1 => byteAt m a :: readBytes m (a + 1) n

/-- Write bytes from address `a` on. -/
def writeBytes (m : List Host.Cell) (a : Nat) : List Byte → List Host.Cell
  | [] => m
  | b :: bs => writeBytes (setByte m a b) (a + 1) bs

/-- The canonical form of a memory: addresses strictly rising, no listed byte zero. -/
def Memory.wf (m : List Host.Cell) : Bool := canonFrom (0 : Byte) none m

/-- Bytes of search memory, 768 GiB (Table 1.2). -/
def searchBytes : Nat := 768 * 2 ^ 30

/-! ### Dictionary objects -/

/-- The stored value of an object, its default where nothing was stored. -/
def getObj (s : State) (a : Nat) : Nat := (look s.dict.objs a).getD (objDefault a)

/-- Store the value of an object. -/
def setObj (s : State) (a v : Nat) : State :=
  { s with dict := { s.dict with objs := put s.dict.objs a v } }

/-- Contents of a DOMAIN object, empty where nothing was stored. -/
def getDom (s : State) (a : Nat) : List Byte := (look s.dict.doms a).getD []

/-- Store the contents of a DOMAIN object. -/
def setDom (s : State) (a : Nat) (b : List Byte) : State :=
  { s with dict := { s.dict with doms := put s.dict.doms a b } }

/-- Add to a counter that R57 governs: the count is folded into its object at P5 of the boundary (R445). -/
def bump (s : State) (a n : Nat) : State :=
  { s with dict := { s.dict with ctrPend := sput 0 s.dict.ctrPend a ((look s.dict.ctrPend a).getD 0 + n) } }

/-- Whether a BOOL object reads 1. -/
def isSet (s : State) (a : Nat) : Bool := getObj s a != 0

/-! ### Turns -/

/-- TURN_NO is a 48-bit count (R26). -/
def turnMod : Nat := 2 ^ 48

/-- TURN_NO of the boundary after `n`. -/
def nextTurn (n : Nat) : Nat := (n + 1) % turnMod

/-- TURN_NO of the first turn boundary whose P2 tick follows now (R34, R35). -/
def dueTurn (s : State) : Nat :=
  match s.turn.phase with
  | .p5 | .p6 | .p0 | .p1 => nextTurn s.turn.no
  | .p2 | .p3 | .p4 => nextTurn (nextTurn s.turn.no)

/-- The boundary in progress between P0 and P4, and the next one in the work window. -/
def boundary (s : State) : Nat := nextTurn s.turn.no

/-- The turn grid runs once step 2 of start-up has ended, until a trip or a loss of power (R479, R476). -/
def gridOn (s : State) : Bool := s.clk.powered && !s.clk.porLow && !s.clk.tripped && decide (2 < s.clk.bootStage)

/-- Turn period in microseconds (R25). -/
def periodUs (s : State) : Nat := getObj s Obj.TURN_PERIOD_US

/-- Work window in microseconds (R36). -/
def workWindowUs (s : State) : Nat := periodUs s - 5

/-- Record a change that P5 makes active (R35). -/
def shadowPush (s : State) (c : Shadow) : State :=
  { s with turn := { s.turn with shadow := s.turn.shadow ++ [c] } }

/-- READY, object 0x1000.08. -/
def isReady (s : State) : Bool := s.dict.readyObj

/-! ### Nodes, members, sections -/

/-- This node's number. -/
def selfNode (s : State) : Nat := getObj s Obj.NODE_ID

/-- MEMBER: the node is a member of a partition and has not withdrawn (Table 17.7). -/
def isMember (s : State) : Bool := s.ledger.members.contains (selfNode s) && !s.turn.withdrawn

/-- Whether this node is the leader and so the turn master (R382). -/
def isLeader (s : State) : Bool := isMember s && s.ledger.leader == selfNode s

/-- Put a section into the caravan to `dst` that departs at the next boundary (R375). -/
def send (s : State) (dst : Nat) (x : Sect) : State :=
  { s with fab := { s.fab with out := s.fab.out ++ [(dst, x)] } }

/-- Put a section that a stage has completed into a caravan: of this boundary where it completes before P0, after which stage
engines emit no caravan bytes, else of the next (R37, R376). After P2 the caravans of the boundary are closed, and `out` is the
next boundary's. -/
def sendStage (s : State) (dst : Nat) (x : Sect) : State :=
  if s.turn.phase = .p0 ∨ s.turn.phase = .p1 then { s with fab := { s.fab with nextOut := s.fab.nextOut ++ [(dst, x)] } } else send s dst x

/-- Whether a completion posted now is counted at the boundary in progress, or at the next where none is (R34). -/
def inTime (s : State) : Bool :=
  match s.turn.phase with
  | .p6 | .p0 | .p5 => true
  | .p1 | .p2 | .p3 | .p4 => false

/-- The turn that begins at the boundary at which a completion posted now is counted (R34). -/
def countedTurn (s : State) : Nat := if inTime s then s.turn.no + 1 else s.turn.no + 2

/-- Put one section into the caravan to each of `dsts`. -/
def sendAll (s : State) (dsts : List Nat) (x : Sect) : State := dsts.foldl (fun s d => send s d x) s

/-- A request for the leader, sent in the next outbound caravan to it (R382). -/
def ledgerRequest (s : State) (r : LedgerRec) : State :=
  { s with ledger := { s.ledger with outReqs := s.ledger.outReqs ++ [r] } }

/-- Append to what has left the node. -/
def emit (s : State) (o : Output) : State := { s with out := s.out ++ [o] }

/-- Whether the operational gate of a class is open in this turn (R100; GATE_STATE holds the mask in force). -/
def gateOpen (s : State) (cls : Nat) : Bool := bitsOf (getObj s Obj.GATE_STATE) cls 1 == 1

/-- Whether background work of a gate class may take a step: its gate is open, and no boundary has suspended it (R33, R105). -/
def slackOpen (s : State) (cls : Nat) : Bool := gateOpen s cls && decide (s.turn.phase = .p6)

/-- Draw the number of a fresh free value. -/
def drawFree (s : State) : State × Nat := ({ s with free := s.free + 1 }, s.free)

/-! ### Queues -/

/-- A queue at reset (Tables 3.5, 3.6). -/
def Queue.reset : Queue :=
  { enable := false, enabled := false, enableDue := 0, disableDue := 0, ty := .query, loc := 0,
    log2 := 6, resultQ := 0, msix := 0, base := 0, shadow := 0, param := 0, reserved := 0, inflight := 0, hostTally := 0,
    snapTally := 0, devTally := 0, work := 0, lost := 0, told := false, bells := [] }

/-- Queue `q`. -/
def getQ (s : State) (q : Nat) : Queue := (look s.host.queues q).getD Queue.reset

/-- Replace queue `q`. -/
def setQ (s : State) (q : Nat) (v : Queue) : State :=
  { s with host := { s.host with queues := put s.host.queues q v } }

/-- Slots of a queue's ring (R67). -/
def Queue.slots (q : Queue) : Nat := 2 ^ q.log2

/-- SLOT_IDS of a RESULT queue (Table 3.5). -/
def Queue.slotIds (q : Queue) : Nat := q.param + 1

/-- ACTIVE: requests in flight, or result slots reserved (Table 3.5). -/
def Queue.active (q : Queue) : Bool := q.reserved != 0 || q.inflight != 0

/-- Stride of a ring slot in bytes (R67). -/
def Queue.stride (q : Queue) : Nat :=
  match q.ty with
  | .query | .ingest => 64
  | .event => 32
  | .result => 32 + 8 * q.slotIds

/-- Bytes of a ring. -/
def Queue.ringBytes (q : Queue) (log2 : Nat) : Nat := 2 ^ log2 * q.stride

/-- Size of the host region in bytes (R65). -/
def regionBytes (s : State) : Nat := getObj s Obj.HOST_REGION_GIB * 2 ^ 30

/-- A submission queue. -/
def submits : QType → Bool
  | .query | .ingest => true
  | .result | .event => false

/-- Entries of a 64-bit tally difference. -/
def tallyDiff (a b : Tally) : Nat := (a - b).toNat

/-- A failed attempt to fetch an image or a table for the object `key`: counted, and the last of FETCH_RETRY_LIMIT or not (R85,
R132, R143, R211). -/
def loadAttempt (s : State) (key : Nat) : State × Bool :=
  let n := lookD s.host.tries key 0 + 1
  let s := bump s Obj.FETCH_RETRIES 1
  if getObj s Obj.FETCH_RETRY_LIMIT ≤ n then ({ s with host := { s.host with tries := del s.host.tries key } }, true)
  else ({ s with host := { s.host with tries := put s.host.tries key n } }, false)

/-- The fetch has brought its bytes: its attempts are forgotten. -/
def loadFetched (s : State) (key : Nat) : State := { s with host := { s.host with tries := del s.host.tries key } }

/-- Whether address association block `i` (two for each stream) holds the bytes from `a` on, in the places that the PCI Express base
specification gives base and limit (R439; log entry 83). -/
def assocHolds (s : State) (i a n : Nat) : Bool :=
  let w := fun j => lookD s.host.ideAssoc (3 * i + j) 0
  w 0 % 2 == 1 && decide (w 2 * 2 ^ 32 + bitsOf (w 0) 8 12 * 2 ^ 20 ≤ a)
    && decide (a + n ≤ w 1 * 2 ^ 32 + (bitsOf (w 0) 20 12 + 1) * 2 ^ 20)

/-- Whether the node may issue an access of `n` bytes at a bus address: with IDE_REQUIRED, only in a Secure stream whose address
association covers it (R440). -/
def ideCovers (s : State) (a n : Nat) : Bool :=
  !isSet s Obj.IDE_REQUIRED || (List.range 8).any fun i => s.host.ide.getD (i / 2) 0 == 2 && assocHolds s i a n

/-- Whether the fetch of an image or a table can have ended as `f` says: bytes of host memory come over the link, and the node
asks for them only where a stream covers them (R440, R466). -/
def sourceReach (s : State) (loc addr : Nat) (f : Fetch) : Bool :=
  loc == 1 || (match f with
    | .failed => ideCovers s addr 1
    | .bytes b => s.host.linkUp && ideCovers s addr b.length)

/-- What the fetch of an image has brought: from host memory what `f` says; from the host region the bytes that stand there,
nothing where they do not lie wholly inside it (R65, R67). -/
def sourceFetch (s : State) (loc addr : Nat) (f : Fetch) : Fetch :=
  match f with
  | .failed => .failed
  | .bytes b =>
    if loc ≠ 1 then .bytes b
    else if addr + b.length ≤ regionBytes s then .bytes (readBytes s.smem.cells (getObj s Obj.HOST_REGION_BASE + addr) b.length)
    else .failed

/-! ### Events -/

/-- The last `n` elements of a list. -/
def keepLast {α : Type} (n : Nat) (l : List α) : List α := (l.reverse.take n).reverse

/-- Add an event to ERROR_LOG, which keeps the last 65,536 (R460). -/
def logEvent (s : State) (e : Event) : State :=
  { s with nv := { s.nv with errorLog := keepLast 65536 (s.nv.errorLog ++ [(s.nv.logTally, e)])
                             logTally := (s.nv.logTally + 1) % 2 ^ 64 } }

/-- Whether an event of code `code` goes to an enabled EVENT queue: class 0 CLOCK_LOSS always (R86). -/
def Queue.takesEvent (q : Queue) (code : Nat) : Bool :=
  q.enabled && decide (q.ty = .event) && (code == 0x0001 || bitsOf q.param (code / 4096) 1 == 1)

/-- Offer an event to one queue: written to the ring later in the turn, or dropped and counted where the ring is full
(R86). -/
def offerEvent (e : Event) (s : State) (qn : Nat) : State :=
  let q := getQ s qn
  if !q.takesEvent e.code then s
  else if q.slots ≤ tallyDiff q.work q.hostTally then
    bump (setQ s qn { q with lost := min (q.lost + 1) (2 ^ 32 - 1) }) Obj.EVENTS_LOST 1
  else
    let s := setQ s qn { q with lost := 0, work := q.work + 1 }
    { s with host := { s.host with events := s.host.events ++ [{ q := qn, ev := e, lost := q.lost, tally := q.work }] } }

/-- Post an event (R86, R460): into ERROR_LOG and to every enabled EVENT queue whose mask selects its class. -/
def postEvent (s : State) (code detail : Nat) : State :=
  let e : Event := { code := code, turn := s.turn.no, detail := detail }
  (s.host.queues.map Prod.fst).foldl (offerEvent e) (logEvent s e)

/-! ### Queries and grants -/

/-- Query `qh` of this node. -/
def getQuery (s : State) (qh : Nat) : Option Query := s.queries.find? (·.qh == qh)

/-- Change query `qh`. -/
def onQuery (s : State) (qh : Nat) (f : Query → Query) : State :=
  { s with queries := updFirst (·.qh == qh) f s.queries }

/-- A stage of query `qh` has slipped: counted once per query, on its home node (R56). -/
def slipQuery (s : State) (qh : Nat) : State :=
  match getQuery s qh with
  | none => s
  | some q => if q.slip then s else bump (onQuery s qh fun q => { q with slip := true }) Obj.SLIPPED_QUERIES 1

/-- What is left in this turn of the grant that `holder` gave to `grantee` (R44). -/
def grantRoom (s : State) (k : GrantKind) (holder grantee : Nat) : Nat :=
  let mine := fun (g : Grant) => decide (g.kind = k) && g.granter == holder && g.grantee == grantee
  (s.fab.grants.filter mine).foldl (fun n g => n + g.amount) 0 - (s.fab.grantUsed.filter mine).foldl (fun n g => n + g.amount) 0

/-- What this node may still draw in this turn on the grant that `holder` gave it (R44). -/
def grantLeft (s : State) (k : GrantKind) (holder : Nat) : Nat := grantRoom s k holder (selfNode s)

/-- Whether the shard grant of `holder` still covers `reads` candidate reads and `bytes` of partial list in this turn (R44). -/
def grantCovers (s : State) (holder reads bytes : Nat) : Bool :=
  let mine := fun (g : Grant) => decide (g.kind = .shard) && g.granter == holder && g.grantee == selfNode s
  let sum := fun (f : Grant → Nat) (l : List Grant) => (l.filter mine).foldl (fun n g => n + f g) 0
  decide (sum (·.reads) s.fab.grantUsed + reads ≤ sum (·.reads) s.fab.grants)
    && decide (sum (·.bytes) s.fab.grantUsed + bytes ≤ sum (·.bytes) s.fab.grants)

/-- Draw on a grant. -/
def drawGrant (s : State) (g : Grant) : State := { s with fab := { s.fab with grantUsed := s.fab.grantUsed ++ [g] } }

/-- Draw `n` units of a grant that this node holds. -/
def useGrant (s : State) (k : GrantKind) (holder n : Nat) : State :=
  drawGrant s { kind := k, granter := holder, grantee := selfNode s, amount := n }

/-! ### Withdrawal -/

/-- The node withdraws from its partition (R29, R387): it takes part in no caravan and admits no query, and posts event
0x4006 for itself. A node that is no member has nothing to withdraw from. -/
def withdrawNow (s : State) : State :=
  let s := { s with turn := { s.turn with withdraw := none } }
  if !isMember s then s
  else
    let s := postEvent s 0x4006 (selfNode s)
    let lost := (s.ing.commitOut.filter fun p => !p.2.abort).length + s.ing.lostOut
    let s := if lost = 0 then s else postEvent s 0x7032 lost
    { s with turn := { s.turn with withdrawn := true },
             fab := { s.fab with out := [], nextOut := [], closed := [], grants := [] } }

/-- A withdrawal that takes effect at the first turn boundary after now. -/
def withdrawSoon (s : State) : State :=
  match s.turn.withdraw with
  | some _ => s
  | none => { s with turn := { s.turn with withdraw := some (dueTurn s) } }

end Sys2Proof.Machine
end

