-- ==== Sys2Proof/Machine/Narrow.lean ====
section
/-! DEFINITION. Narrow formats, quantisers and conversion streams (R158 to R176). -/

namespace Sys2Proof.Machine

/-! ### Element codes -/

/-- Two's complement value of a `w`-bit code. -/
def signExt (w bits : Nat) : Int := if bits % 2 ^ w < 2 ^ (w - 1) then (bits % 2 ^ w : Nat) else (bits % 2 ^ w : Nat) - (2 ^ w : Nat)

/-- The `w`-bit two's complement code of an integer. -/
def toCode (w : Nat) (i : Int) : Nat := (i % (2 ^ w : Nat)).toNat

/-- Bytes of one element of a row format (Table 5.1 formats 0 to 4). -/
def fmtBytes : Fmt → Nat
  | .int8 | .e4m3 | .e5m2 => 1
  | .bf16 | .fp16 => 2
  | .aqnil4 | .mxfp4 | .mxint8 => 0

/-- Formats by the codes of Table 5.1 and Table 5.6. -/
def fmtOf (n : Nat) : Fmt :=
  match n with
  | 0 => .int8
  | 1 => .e4m3
  | 2 => .e5m2
  | 3 => .bf16
  | 4 => .fp16
  | 5 => .aqnil4
  | 6 => .mxfp4
  | _ => .mxint8

/-- The value of a stored element of formats 0 to 4, before any scale (R158). -/
def elemVal (f : Fmt) (bits : Nat) : Flt :=
  match f with
  | .int8 => fint (signExt 8 bits)
  | .e4m3 => e4m3Val bits
  | .e5m2 => e5m2Val bits
  | .bf16 => bf16Val bits
  | .fp16 => f16Val bits
  | .aqnil4 | .mxfp4 | .mxint8 => f0

/-- Elements read from packed bytes of formats 0 to 4. -/
def elems (f : Fmt) : Nat → List Byte → List Flt
  | 0, _ => []
  | n + 1, b => elemVal f (leNat (b.take (fmtBytes f))) :: elems f n (b.drop (fmtBytes f))

/-- A block scale as R163 reads it: sign as 0, NaN as zero. -/
def blockScale (b : Nat) : Flt := if b % 128 = 127 then f0 else e4m3Val (b % 128)

/-- A row scale as R163 reads it. -/
def readRowScale (x : Flt) : Flt :=
  match x with
  | .nan => f0
  | .inf _ => fmax32
  | x => fabs x

/-- A stored row scale. -/
def rowScale (bits : Nat) : Flt := readRowScale (f32Val bits)

/-- Code of element `i` of an Aqnil-4 row (R161). -/
def aqnilCode (b : List Byte) (i : Nat) : Int := signExt 4 (((b.getD (i / 2) 0).toNat / 16 ^ (i % 2)) % 16)

/-- The values of an Aqnil-4 row of `w` elements, `w` a multiple of 32 (R161, R163). -/
def aqnilRow4 (w : Nat) (b : List Byte) : List Flt :=
  let s2 := rowScale (leNat (slice b (w / 2 + w / 32) 4))
  (List.range w).map fun i => fmul (fmul (fint (aqnilCode b i)) (blockScale (b.getD (w / 2 + i / 32) 0).toNat)) s2

/-- An E2M1 element (R172). -/
def e2m1Val (n : Nat) : Flt :=
  let neg := decide (n / 8 % 2 = 1)
  let ex := n / 2 % 4
  if ex = 0 then f32 (.fin neg (n % 2) (-1)) else f32 (.fin neg (2 + n % 2) ((ex : Int) - 2))

/-- Element times the block's power of two; a larger magnitude reads as the largest FP32 value and saturates (R172). -/
def mxScale (x : Flt) (scale : Nat) : Flt × Bool :=
  if scale = 255 then (f0, false)
  else match x with
    | .fin a m e =>
      match roundTo fF32 .even a m (e + (scale : Int) - 127) with
      | .inf _ => (if a then fneg fmax32 else fmax32, true)
      | y => (y, false)
    | y => (y, false)

/-- Microscaling blocks of 32 elements (R172): values and saturation flags of `n` blocks. -/
def mxBlocks (f : Fmt) : Nat → List Byte → List (Flt × Bool)
  | 0, _ => []
  | n + 1, b =>
    let sc := (b.getD 0 0).toNat
    let body := b.drop 1
    let len := if f = .mxfp4 then 16 else 32
    let xs := (List.range 32).map fun i =>
      if f = .mxfp4 then e2m1Val (((body.getD (i / 2) 0).toNat / 16 ^ (i % 2)) % 16)
      else fmulIn fF32 (fint (signExt 8 (body.getD i 0).toNat)) (f32 (.fin false 1 (-6)))
    xs.map (fun x => mxScale x sc) ++ mxBlocks f n (body.drop len)

/-- Bit `i` of a sketch in the native layout (R164). -/
def sketchBit (b : List Byte) (i : Nat) : Bool := (b.getD (i / 8) 0).toNat / 2 ^ (i % 8) % 2 = 1

/-- Sketch bits of a host payload in a SKETCH_LAYOUT (R164). -/
def sketchBits (layout n : Nat) (b : List Byte) : List Bool :=
  (List.range n).map fun i =>
    if layout = 0 then sketchBit b i
    else sketchBit b (64 * (i / 64) + (63 - i % 64))

/-- Bytes of a sketch in the native layout. -/
def sketchBytes (bits : List Bool) : List Byte :=
  (List.range (bits.length / 8)).map fun k =>
    BitVec.ofNat 8 (((slice bits (8 * k) 8).zipIdx).foldl (fun a p => if p.1 then a + 2 ^ p.2 else a) 0)

/-! ### Quantisers -/

/-- Rounding mode of a collection (Table 7.9). -/
def collRnd (s : State) (c : Nat) : Rnd := if getObj s (Obj.coll_ROUND_MODE c) = 1 then .away else .even

/-- The largest finite magnitude of a list, 0 for none (R166: over finite elements only). -/
def maxAbs (xs : List Flt) : Flt :=
  xs.foldl (fun m x => if isFin x && flt m (fabs x) then fabs x else m) f0

/-- The limit of a step (R166). -/
def limitOf (hist : List Flt) (headroom cur : Flt) : Flt :=
  let m := hist.foldl (fun m h => if flt m h then h else m) f0
  fmul (if m = f0 then cur else m) headroom

/-- The scale of a step (R167): 1.0 for BF16 and FP16, and where L is 0. -/
def scaleOf (f : Fmt) (l : Flt) : Flt :=
  match f with
  | .bf16 | .fp16 | .mxfp4 | .mxint8 => f1
  | .int8 => if l = f0 then f1 else fdiv l (fnat 127)
  | .e4m3 => if l = f0 then f1 else fdiv l (fnat 448)
  | .e5m2 => if l = f0 then f1 else fdiv l (fnat 57344)
  | .aqnil4 => if l = f0 then f1 else fdiv l (fnat 3136)

/-- One element converted with scale `sc` (R159, R167): stored pattern, value before the scale, saturation. -/
def convElem (f : Fmt) (r : Rnd) (sc x : Flt) : Nat × Flt × Bool :=
  match f with
  | .int8 => let c := convInt8 r (fdiv x sc); (toCode 8 c.1, fint c.1, c.2)
  | .e4m3 => let c := convFlt fE4M3 r (fdiv x sc); (e4m3Bits c.1, c.1, c.2)
  | .e5m2 => let c := convFlt fE5M2 r (fdiv x sc); (e5m2Bits c.1, c.1, c.2)
  | .bf16 => let c := convFlt fBF16 r x; (bf16Bits c.1, c.1, c.2)
  | .fp16 | .mxfp4 | .mxint8 | .aqnil4 => let c := convFlt fF16 r x; (f16Bits c.1, c.1, c.2)

/-- A converted vector: patterns, values before the scale, saturations, scale. -/
structure Conv where
  codes : List Nat
  vals : List Flt
  sats : Nat
  scale : Flt
  deriving DecidableEq, Repr, Inhabited

/-- Convert a vector with a limit (R159, R167); a limit of 0 converts every element to zero. -/
def convVec (f : Fmt) (r : Rnd) (l : Flt) (xs : List Flt) : Conv :=
  let sc := scaleOf f l
  let scaled := f = .int8 ∨ f = .e4m3 ∨ f = .e5m2
  let es := xs.map fun x => if scaled ∧ l = f0 then (0, f0, false) else convElem f r sc x
  { codes := es.map (·.1), vals := es.map (·.2.1), sats := (es.filter (·.2.2)).length, scale := sc }

/-- What the elements of a conversion decode to. -/
def Conv.decoded (c : Conv) : List Flt := c.vals.map fun v => fmul v c.scale

/-- The E4M3 pattern not below a positive value (R168); above 448 it is 0x7E and saturates. -/
def e4m3Up (x : Flt) : Nat × Bool :=
  let c := convFlt fE4M3 .up x
  (e4m3Bits c.1, c.2)

/-- One Aqnil block (R168): codes, block scale, saturations. -/
def aqnilBlock (r : Rnd) (qmax : Nat) (s2 : Flt) (xs : List Flt) : List Int × Nat × Nat :=
  let a := maxAbs xs
  if a = f0 then (xs.map fun _ => 0, 0, 0)
  else
    let u := e4m3Up (fdiv a (fmul (fnat qmax) s2))
    let d := fmul (e4m3Val u.1) s2
    let es := xs.map fun x =>
      match fdiv x d with
      | .nan => ((0 : Int), false)
      | .inf g => (if g then -(qmax : Int) else qmax, true)
      | q =>
        let i := toIntRnd r q
        if (qmax : Int) < i then ((qmax : Int), true) else if i < -(qmax : Int) then (-(qmax : Int), true) else (i, false)
    (es.map (·.1), u.1, (es.filter (·.2)).length + (if u.2 then 1 else 0))

/-- An Aqnil row in blocks of `bs` (R168). -/
def aqnilQuant (r : Rnd) (qmax bs : Nat) (s2 : Flt) : Nat → List Flt → List Int × List Nat × Nat
  | 0, _ => ([], [], 0)
  | n + 1, xs =>
    let b := aqnilBlock r qmax s2 (xs.take bs)
    let t := aqnilQuant r qmax bs s2 n (xs.drop bs)
    (b.1 ++ t.1, b.2.1 :: t.2.1, b.2.2 + t.2.2)

/-- The values of quantised data with its scales (R163). -/
def aqnilValue (bs : Nat) (codes : List Int) (scales : List Nat) (s2 : Flt) : List Flt :=
  codes.zipIdx.map fun p => fmul (fmul (fint p.1) (blockScale (nth scales (p.2 / bs)))) (readRowScale s2)

/-! ### Streams -/

/-- Stream kinds of Table 7.7. -/
def kIngest : Nat := 0
def kRouting : Nat := 1
def kDrift : Nat := 2
def kLayer : Nat := 3

/-- The number under which the layer streams of a remote segment stand, beside the slots 0 to 15 of this node (R178). -/
def remoteSlot (r : RemoteSeg) : Nat := 16 * (r.home + 1) + r.slot

/-- A stream without history or statistics (R179). -/
def Strm.reset : Strm :=
  { hist := [], next := 0, fill := 0, cur := f0, limit := none, stepped := false, n := 0, se := f0, sx := f0, sat := 0, pe := f0,
    px := f0, pn := 0, pubTurn := 0, pubMse := f0, pubNmse := f0, pubSat := 0, pubN := 0, pubAux := f0 }

/-- A stream by kind and id. -/
def getStrm (s : State) (k : Nat × Nat) : Strm := (look s.streams k).getD Strm.reset

/-- Replace a stream. -/
def setStrm (s : State) (k : Nat × Nat) (v : Strm) : State := { s with streams := put s.streams k v }

/-- SCALE_N and HEADROOM of a stream's owner (Tables 7.8, 7.9). -/
def strmSettings (s : State) (k : Nat × Nat) : Nat × Flt :=
  if k.1 = kLayer then
    let sl := k.2 / 1024
    if sl < 16 then (getObj s (Obj.slot_SCALE_N sl), f32Val (getObj s (Obj.slot_HEADROOM sl)))
    else
      let r := ((s.remotes.find? fun r => remoteSlot r == sl).map (·.settings)).getD []
      (r.getD 3 4, f32Val (r.getD 4 0x3F900000))
  else (getObj s (Obj.coll_SCALE_N k.2), f32Val (getObj s (Obj.coll_HEADROOM k.2)))

/-- The limit of the step in progress: one for the whole step, formed when its data `xs` first convert (R166). -/
def stepLimit (s : State) (k : Nat × Nat) (xs : List Flt) : Flt :=
  let t := getStrm s k
  t.limit.getD (limitOf (t.hist.take t.fill) (strmSettings s k).2 (maxAbs xs))

/-- Count saturations in a stream's statistics and in SATURATIONS (R169, R172). -/
def strmSat (s : State) (k : Nat × Nat) (sats : Nat) : State :=
  if sats = 0 then s
  else bump (setStrm s k { getStrm s k with sat := (getStrm s k).sat + sats }) Obj.SATURATIONS sats

/-- Whether conversions into a format have a derived scale, and so a history (R165). -/
def hasScale (f : Fmt) : Bool :=
  match f with
  | .int8 | .e4m3 | .e5m2 | .aqnil4 => true
  | .bf16 | .fp16 | .mxfp4 | .mxint8 => false

/-- The squared error and square of one element in FP64 (R173). -/
def errTerms (x xhat : Flt) : Flt × Flt :=
  let d := dadd x (fneg xhat)
  (dmul d d, dmul x x)

/-- Add elements converted into `f` to a stream's statistics, and to its step where the format has a scale (R165, R166, R169,
R173). -/
def strmAdd (s : State) (k : Nat × Nat) (f : Fmt) (limit : Flt) (xs xhat : List Flt) (sats : Nat) : State :=
  let t := getStrm s k
  let ps := (xs.zip xhat).filter fun p => isFin p.1
  let se := ps.foldl (fun a p => dadd a (errTerms p.1 p.2).1) t.se
  let sx := ps.foldl (fun a p => dadd a (errTerms p.1 p.2).2) t.sx
  let t := { t with n := t.n + ps.length, se := se, sx := sx }
  let t := if hasScale f then { t with cur := maxAbs (t.cur :: xs), limit := some limit, stepped := true } else t
  strmSat (setStrm s k t) k sats

/-- Convert a vector in a stream whose step has the data `batch` (R165 to R169, R173). -/
def strmConv (s : State) (k : Nat × Nat) (f : Fmt) (r : Rnd) (batch xs : List Flt) : State × Conv :=
  let l := stepLimit s k batch
  let c := convVec f r l xs
  (strmAdd s k f l xs c.decoded c.sats, c)

/-- The end of a step (R166): the step's maximum enters the history. -/
def strmEndStep (n : Nat) (t : Strm) : Strm :=
  if t.stepped then
    { t with hist := if t.next < t.hist.length then t.hist.set t.next t.cur else t.hist ++ [t.cur],
             next := (t.next + 1) % n, fill := min (t.fill + 1) n, cur := f0, limit := none, stepped := false }
  else t

/-- At a boundary the step of every stream that converted in the turn before it ends (R166, Table 7.4). -/
def endSteps (s : State) : State :=
  { s with streams := s.streams.map fun p => (p.1, strmEndStep (max 1 (strmSettings s p.1).1) p.2) }

/-- A new SCALE_N clears the histories of its owner's streams (R166). -/
def clearHists (s : State) (owned : Nat × Nat → Bool) : State :=
  { s with streams := s.streams.map fun p => (p.1, if owned p.1 then { p.2 with hist := [], next := 0, fill := 0 } else p.2) }

/-- Store a SCALE_N, of the slot or the collection whose streams `owned` tells. -/
def setScaleN (s : State) (a v : Nat) (owned : Nat × Nat → Bool) : State :=
  if getObj s a = v then s else clearHists (setObj s a v) owned

/-- A published F32 statistic: outside diagnostic mode its sign, exponent and top 3 mantissa bits (R174). -/
def coarseF32 (exact : Bool) (x : Flt) : Flt :=
  if exact then x else f32Val (f32Bits x / 2 ^ 20 * 2 ^ 20)

/-- The largest finite value in place of an infinity: every published statistic is finite (R173). -/
def finiteStat (x : Flt) : Flt :=
  match x with
  | .inf _ | .nan => fmax32
  | x => x

/-- A mean or a ratio under the rules of R173. -/
def statRatio (num den : Flt) (empty : Bool) : Flt :=
  if empty ∨ num = f0 then f0 else if den = f0 then f1 else finiteStat (f32 (ddiv num den))

/-- Publish and restart the statistics of a stream (R173, R174); `aux` is the mean divergence of a layer. -/
def strmPublish (exact : Bool) (turn : Nat) (aux : Option Flt) (t : Strm) : Strm :=
  { t with n := 0, se := f0, sx := f0, sat := 0, pe := f0, px := f0, pn := 0, pubTurn := turn,
           pubMse := coarseF32 exact (statRatio t.se (roundTo fF64 .even false t.n 0) (t.n == 0)),
           pubNmse := coarseF32 exact (statRatio t.se t.sx (t.n == 0)),
           pubSat := t.sat, pubN := t.n,
           pubAux := coarseF32 exact (match aux with | some a => a | none => statRatio t.pe t.px (t.pn == 0)) }

/-- The precision watch (R176): count and pending after a sample; the Bool says that a promotion of a layer without an
alternate set would have become pending. -/
def watchStep (l : Layer) (e thr : Flt) : Layer × Bool :=
  if l.pending then (l, false)
  else if !l.eightBit then
    let c := if flt thr e then l.count + 1 else 0
    if 16 ≤ c then (if l.alt then ({ l with count := c, pending := true }, false) else ({ l with count := 0 }, true))
    else ({ l with count := c }, false)
  else
    let c := if flt e (fdiv thr (fnat 2)) then l.count + 1 else 0
    if 256 ≤ c then ({ l with count := c, pending := true }, false) else ({ l with count := c }, false)

end Sys2Proof.Machine
end

