-- ==== Sys2Proof/Machine/Flags.lean ====
section
/-! DEFINITION. Status words, capacities that follow the settings, and the counts that a boundary folds into counters. -/

namespace Sys2Proof.Machine

/-! ### Capacities per turn (R119, R298, R376) -/

/-- A capacity of `n` per default work window of 195 us, at the present window, rounded down. -/
def perWindow (s : State) (n : Nat) : Nat := n * workWindowUs s / 195

/-- The frequency in force of domain `i` of Table 22.2, and its default (R463). -/
def domainMhz (s : State) (i : Nat) : Nat := s.clk.freqs.getD i 1
def domainDefault (i : Nat) : Nat := [2700, 1350, 1600, 2400, 1200, 500].getD i 1

/-- A capacity that counts cycles of domain `i`, scaled to its frequency and rounded down (R463). -/
def perDomain (s : State) (i n : Nat) : Nat := n * domainMhz s i / domainDefault i

/-- COMPOSE_CAP (R119), INGEST_CAP and STAGE_CAP (R317), PORT_TURN_BYTES (R376). -/
def composeCap (s : State) : Nat := perWindow s 262144
def ingestCap (s : State) : Nat := perWindow s 256
def stageCap (s : State) : Nat := perWindow s 1024
def portTurnBytes (s : State) : Nat := 58352 * periodUs s * (64 - getObj s Obj.TRANSIT_64THS) / 64

/-- Table 11.3 at the present work window: flash reads per waystation and per die, hot reads per waystation. -/
def wayReadCap (s : State) : Nat := workWindowUs s * 16 / 15
def dieReadCap (s : State) : Nat := workWindowUs s / 12
def hotReadCap (s : State) : Nat := workWindowUs s * 21

/-! ### Coarsened counters (R445, Table 20.6) -/

/-- Full scale of a counter. -/
def fullScale (s : State) (a : Nat) : Nat :=
  if a = Obj.THROTTLE_TURNS then 1
  else if a = Obj.BOARD_REPEATS then 2
  else if a = Obj.GATHERS then 2 * composeCap s
  else if a = Obj.STAGED_ROWS then getObj s Obj.COMPOSE_FLASH_CAP
  else if a = Obj.STACK_FALLBACKS then 8
  else if a = Obj.CAND_READS then 32 * wayReadCap s
  else if a = Obj.HOT_READS then 32 * hotReadCap s
  else if a = Obj.WINDOW_CUTS then 128
  else if a = Obj.REFRESH2_TURNS then 8
  else 2 ^ 20

/-- What a counter of full scale `fs` adds for a true increment `d` (R445). -/
def coarse (fs d : Nat) : Nat :=
  let q := max 1 ((fs + 63) / 64)
  q * ((d + q / 2) / q)

/-- Diagnostic mode (R446). -/
def diagMode (s : State) : Bool := s.nv.tenant == 3

/-- Fold the counts of the ending turn into their counters (R57, R445). -/
def foldCounters (s : State) : State :=
  let exact := diagMode s
  let s' := s.dict.ctrPend.foldl
    (fun t p => setObj t p.1 ((getObj t p.1 + (if exact then p.2 else coarse (fullScale s p.1) p.2)) % 2 ^ 64)) s
  { s' with dict := { s'.dict with ctrPend := [] } }

/-! ### Status words -/

/-- HI_STATUS (Table 3.3). -/
def hiStatus (s : State) : Nat :=
  (if s.dict.readyObj then 1 else 0) + 2 * (s.host.rate % 4) + 8 * (s.host.width % 32)
    + (if s.host.degraded then 256 else 0) + (if s.sec.scrubbing then 512 else 0)

/-- QCTL of a queue (Table 3.5). -/
def qtypeCode : QType → Nat
  | .query => 0
  | .ingest => 1
  | .result => 2
  | .event => 3

def qctlWord (q : Queue) : Nat :=
  (if q.enable then 1 else 0) + 2 * qtypeCode q.ty + 8 * q.loc + 16 * q.log2 + (if q.active then 512 else 0)

/-- MB_STATUS (Table 19.7). -/
def mbStatus (s : State) : Nat :=
  (if s.dict.mb.busy then 1 else 0) + (if s.dict.mb.done then 2 else 0) + (if s.dict.mb.ignored then 4 else 0)

/-- Status byte of Table 0.3. -/
def statusCode : Status → Nat
  | .ok => 0
  | .fewer => 1
  | .truncated => 2
  | .shed => 3
  | .dataError => 4
  | .versionRetired => 5
  | .noService => 6
  | .tenantReset => 7

/-- The place of a status in the order of R9, first first. -/
def statusRank : Status → Nat
  | .tenantReset => 0
  | .dataError => 1
  | .noService => 2
  | .versionRetired => 3
  | .shed => 4
  | .truncated => 5
  | .fewer => 6
  | .ok => 7

/-- The first of two statuses that applies (R9). -/
def statusFirst (a b : Status) : Status := if statusRank a ≤ statusRank b then a else b

end Sys2Proof.Machine
end

