-- ==== Sys2Proof/Machine/Operands.lean ====
section
/-! DEFINITION. The layouts of what reaches the node and what it writes: queue entries (Tables 3.7 and 3.8), result and
event entries (Tables 3.9 and 3.10), list keys (R197), gate entries (Table 4.5), dictionary messages (Table 19.2). -/

namespace Sys2Proof.Machine

/-- A QUERY entry (Table 3.7). -/
structure QueryEntry where
  userTag : BitVec 64
  coll : Nat
  deadline : Nat
  kM1 : Nat
  nprobe : Nat
  inl : Bool
  filter : Bool
  payloadLen : Nat
  payloadAddr : Nat
  pred : Pred
  deriving DecidableEq, Repr

/-- Read a QUERY entry; the payload fields of an entry with FILTER = 0 carry no predicate. -/
def parseQuery (b : List Byte) : QueryEntry :=
  let n := leNat (b.take 64)
  let lo := bitsOf n 448 32
  { userTag := BitVec.ofNat 64 n, coll := bitsOf n 64 12, deadline := bitsOf n 76 6, kM1 := bitsOf n 82 16,
    nprobe := bitsOf n 98 11, inl := bitsOf n 109 1 == 1, filter := bitsOf n 110 1 == 1,
    payloadLen := bitsOf n 112 16, payloadAddr := bitsOf n 128 64,
    pred := { must := BitVec.ofNat 64 (bitsOf n 320 64), mustNot := BitVec.ofNat 64 (bitsOf n 384 64), attrLo := lo,
              attrHi := max lo (bitsOf n 480 32), pin := 0 } }

/-- The inline payload bytes of a QUERY entry (R77): 24 with FILTER = 1, 48 with FILTER = 0. -/
def queryInline (b : List Byte) (filter : Bool) : List Byte := slice b 16 (if filter then 24 else 48)

/-- An INGEST entry (Table 3.8). -/
structure IngestEntry where
  userTag : BitVec 64
  coll : Nat
  op : IngOp
  inl : Bool
  payloadLen : Nat
  id : BitVec 64
  tag : BitVec 64
  attr : Nat
  payloadAddr : Nat
  deriving DecidableEq, Repr

/-- The operation codes of Table 3.8. -/
def ingOpOf (n : Nat) : IngOp :=
  match n % 4 with
  | 0 => .insert
  | 1 => .upsert
  | 2 => .delete
  | _ => .nop

/-- Read an INGEST entry. -/
def parseIngest (b : List Byte) : IngestEntry :=
  let n := leNat (b.take 64)
  { userTag := BitVec.ofNat 64 n, coll := bitsOf n 64 12, op := ingOpOf (bitsOf n 76 2), inl := bitsOf n 78 1 == 1,
    payloadLen := bitsOf n 112 16, id := BitVec.ofNat 64 (bitsOf n 128 64), tag := BitVec.ofNat 64 (bitsOf n 192 64),
    attr := bitsOf n 256 32, payloadAddr := bitsOf n 320 64 }

/-- The inline payload bytes of an INGEST entry (R77, Table 3.8). -/
def ingestInline (b : List Byte) : List Byte := slice b 40 24

/-- NO_ID (R7). -/
def noId : BitVec 64 := BitVec.allOnes 64

/-- The first 24 bytes of a result header (Table 3.9): everything but ENTRY_TALLY. -/
def resHeader (r : Res) : List Byte :=
  leBytes 8 r.userTag.toNat ++ leBytes 1 (statusCode r.status)
    ++ leBytes 1 ((if r.yellow then 1 else 0) + (if r.widened then 2 else 0) + (if r.replica then 4 else 0))
    ++ leBytes 2 r.sq ++ leBytes 4 r.count
    ++ leBytes 6 r.postTurn ++ leBytes 2 (min 65535 ((r.postTurn + turnMod - r.taken) % turnMod))

/-- The ID slots written: IDs in rank order, then NO_ID up to k (R10, R81). -/
def resSlots (r : Res) : List Byte :=
  let ids := r.ids.take r.slots
  (ids ++ List.replicate (r.slots - ids.length) noId).flatMap fun i => leBytes 8 i.toNat

/-- An event entry without ENTRY_TALLY (Table 3.10). -/
def eventHeader (e : Event) (lost : Nat) : List Byte :=
  leBytes 2 e.code ++ leBytes 2 0 ++ leBytes 4 lost ++ leBytes 6 e.turn ++ leBytes 2 0 ++ leBytes 8 e.detail

/-- List key of centroid `c` of collection `coll` (R197). -/
def listKey (coll c : Nat) : Nat := coll * 2 ^ 22 + c

/-- Collection and centroid of a list key. -/
def keyColl (k : Nat) : Nat := k / 2 ^ 22 % 4096
def keyCent (k : Nat) : Nat := k % 2 ^ 22

/-- A gate entry as stored (Table 4.5): reserved bits clear, DURATION 0 clamped to 1. -/
def gateEntry (v : Nat) : Nat := bitsOf v 0 12 + 2 ^ 16 * max 1 (bitsOf v 16 32)

/-- GATES and DURATION of a gate entry. An entry that was never written holds for one turn with every class closed, as its
DURATION 0 is clamped to 1 (Table 4.5, R102; DESIGN CHOICE, log entry 85). -/
def gateMask (e : Nat) : Nat := bitsOf e 0 12
def gateTurns (e : Nat) : Nat := max 1 (bitsOf e 16 32)

/-- A dictionary message from bytes (Table 19.2), cut to the carrier's largest and to the data present (R406). -/
def parseMsg (largest : Nat) (b : List Byte) : DictMsg :=
  let n := leNat (b.take 16)
  let len := min (min (bitsOf n 64 16) largest) (b.length - 16)
  { ver := bitsOf n 0 8, cmd := bitsOf n 8 8, tag := bitsOf n 16 16, index := bitsOf n 32 16, sub := bitsOf n 48 8,
    txn := bitsOf n 56 1 == 1, resp := bitsOf n 57 1 == 1, len := len, offset := bitsOf n 96 32 / 4 * 4,
    data := slice b 16 len }

/-- The bytes of a response: header with RESP set, then its data (R406, R407). -/
def respBytes (r : DictResp) : List Byte :=
  leBytes 1 1 ++ leBytes 1 r.cmd ++ leBytes 2 r.tag ++ leBytes 2 r.index ++ leBytes 1 r.sub ++ leBytes 1 2
    ++ leBytes 2 r.data.length ++ leBytes 2 r.code ++ leBytes 4 0 ++ r.data

/-- The largest message data of each requester (Table 19.1). -/
def largestData (req : Nat) : Nat := [1024, 16384, 4096, 16384].getD req 0

/-- Response codes (Table 19.4). -/
def codeOk : Nat := 0
def codeNoObject : Nat := 1
def codeReadOnly : Nat := 2
def codeNotInTxn : Nat := 3
def codeNotStopped : Nat := 4
def codeTxnNone : Nat := 5
def codeTxnBusy : Nat := 6
def codeTxnFull : Nat := 7
def codeSegState : Nat := 8
def codeSegGap : Nat := 9
def codeSegCheck : Nat := 10
def codeNotReady : Nat := 11
def codeDenied : Nat := 12
def codeBadMessage : Nat := 13

end Sys2Proof.Machine
end

