-- ==== Sys2Proof/Machine/Clamp.lean ====
section
/-! DEFINITION. Clamps of written object values (R5, R410 and the Range and Effect columns of the object tables). The
clamps that depend on other settings read them through `view`, which is the requester's view in a transaction and the
values in force otherwise (R420, R421). -/

namespace Sys2Proof.Machine

/-- Clamp into a range. -/
def clampRange (lo hi v : Nat) : Nat := min hi (max lo v)

/-- The nearer of two legal values below and above; a tie gives the larger (R410). -/
def nearer (a b v : Nat) : Nat := if v ≤ a then a else if b ≤ v then b else if b - v ≤ v - a then b else a

/-- The nearest member of a rising list, a tie to the larger. -/
def clampOneOf : List Nat → Nat → Nat
  | [], v => v
  | [a], _ => a
  | a :: b :: l, v => if v ≤ b then nearer a b v else clampOneOf (b :: l) v

/-- The largest power of two not above `v`, between `lo` and `hi` (both powers of two). -/
def clampPow2 (lo hi v : Nat) : Nat := if v ≤ lo then lo else min hi (2 ^ v.log2)

/-- The nearest multiple of `m` between two multiples, a tie up. -/
def clampMult (m lo hi v : Nat) : Nat := clampRange lo hi ((v + m / 2) / m * m)

/-- WIDTH against a FORMAT (R110). -/
def clampWidth (fmt v : Nat) : Nat := if fmt = 5 then clampMult 32 32 1024 v else clampMult 8 8 1024 v

/-- SUBSPACES: the largest power of two not above `v` that divides DIMS, from 8 to 512 (R193). -/
def clampSubspaces (dims : Nat) : Nat → Nat → Nat
  | 0, _ => 8
  | n + 1, v =>
    let p := 8 * 2 ^ n
    if p ≤ v ∧ dims % p = 0 then p else clampSubspaces dims n v

/-- At most `n` set bits of `v`: the lowest `n` are kept (log entry 12). -/
def keepBits : Nat → Nat → Nat → Nat
  | 0, _, _ => 0
  | fuel + 1, n, v =>
    if n = 0 then 0
    else if v % 2 = 1 then 1 + 2 * keepBits fuel (n - 1) (v / 2)
    else 2 * keepBits fuel n (v / 2)

/-- Owner of a block field from its address: sixteen to an index, from index `base` on. -/
def ownerOf (base addr : Nat) : Nat := (addr / 256 - base) * 16 + addr % 256 / 16

/-- Clamps that depend on other settings, by index and field. `w` is the work window. A CIR raised above PIR, or a CBS above PBS,
leaves PIR and PBS as they are (DESIGN CHOICE, log entry 52). -/
def clampSpecial (view : Nat → Nat) (w a v : Nat) : Nat :=
  let idx := a / 256
  let sub := a % 256
  let f := sub % 16
  let base := a - f
  if a = Obj.MAC_ADDR then v % 2 ^ 40 + bitsOf v 41 7 * 2 ^ 41
  else if a = Obj.PREFETCH_LEAD_US then clampRange 10 (min 1000 w) v
  else if a = Obj.RESCORE_US then clampRange 10 (w / 2) v
  else if a = Obj.HOT_OFF then min (view Obj.HOT_ON) v
  else if a = Obj.REPL_HEAT_1 then clampRange 1 (view Obj.REPL_HEAT_2) v
  else if a = Obj.REPL_HEAT_2 then clampRange (view Obj.REPL_HEAT_1) (view Obj.REPL_HEAT_3) v
  else if a = Obj.REPL_HEAT_3 then clampRange (view Obj.REPL_HEAT_2) (2 ^ 32 - 1) v
  else if a = Obj.BALANCE_LOW_PCT then clampRange 10 (view Obj.BALANCE_HIGH_PCT - 10) v
  else if idx = 0x3802 then gateEntry v
  else if 0x3A00 ≤ idx ∧ idx ≤ 0x3F01 then
    (if f = 3 then clampRange (view (base + 2)) (2 ^ 28) v
     else if f = 5 then clampRange (view (base + 4)) (2 ^ 20) v else v)
  else if idx = 0x4C02 then (if sub ≤ 60 then 0 else min 2 v)
  else if 0x4C40 ≤ idx ∧ idx ≤ 0x4C7F then
    (if sub = 3 then clampWidth (view (a - 1)) v else if sub = 5 then (if v ≤ 4095 then v else nearer 4095 0xFFFF v) else v)
  else if 0x4E00 ≤ idx ∧ idx ≤ 0x4EFF then
    (if f = 2 then (if v = 5 then 4 else min 7 v)
     else if f = 6 ∨ f = 7 then (if v ≤ 15 then v else nearer 15 255 v) else v)
  else if a = Obj.sel_SEL_ID then (if view Obj.sel_SEL_KIND = 3 then min 16383 v else min 4095 v)
  else if 0x4100 ≤ idx ∧ idx ≤ 0x41FF then
    (if f = 3 then clampMult 32 32 4096 v
     else if f = 8 then clampSubspaces (view (base + 3)) 7 v
     else if f = 10 then clampRange 1 (view (base + 11)) v
     else if f = 12 then (if v ≤ 2 then 0 else clampRange 6 40 v) else v)
  else if 0x4500 ≤ idx ∧ idx ≤ 0x45FF then (if f = 7 then min (view (base + 8) / 4) v else v)
  else if 0x5100 ≤ idx ∧ idx ≤ 0x51FF then (if f = 6 then clampRange (view (base + 5)) 3 v else v)
  else if idx = 0x6801 then keepBits 64 4 v
  else v

/-- An F32 pattern clamped to a range of positive patterns: NaN to the default, negative values to the lower bound
(Table 19.5). -/
def clampF32 (dflt lo hi v : Nat) : Nat :=
  if v % 2 ^ 31 > 0x7F800000 then dflt else if 2 ^ 31 ≤ v then lo else clampRange lo hi v

/-- A written value cut to its type and clamped to its range (R5, R410). -/
def clampObj (view : Nat → Nat) (w a v : Nat) : Nat :=
  match rowAt a with
  | none => v
  | some r =>
    let v := v % 2 ^ (8 * r.ty.size)
    if r.ty = .bool then (if v = 0 then 0 else 1)
    else match r.clamp with
      | .any => v
      | .range lo hi => if r.ty = .f32 then clampF32 r.dflt lo hi v else clampRange lo hi v
      | .pow2 lo hi => clampPow2 lo hi v
      | .oneOf l => clampOneOf l v
      | .mult m => v / m * m
      | .near m => clampMult m 0 (2 ^ (8 * r.ty.size) - m) v
      | .freq lo hi => clampMult 25 lo hi v
      | .special => clampSpecial view w a v

/-- A value clamped against the values in force. -/
def clampNow (s : State) (a v : Nat) : Nat := clampObj (getObj s) (workWindowUs s) a v

end Sys2Proof.Machine
end

