-- ==== Sys2Proof/Machine/Sha.lean ====
section
/-! DEFINITION. SHAKE256, which the manual names for digests, keys, memo keys and sketch signs (R141, R192, R391, R433,
R435 to R437, R441), and CRC-32C (R427). -/

namespace Sys2Proof.Machine

/-- Rotation amounts of the rho step, by lane x + 5y. -/
def keccakRot : List Nat :=
  [0, 1, 62, 28, 27, 36, 44, 6, 55, 20, 3, 10, 43, 25, 39, 41, 45, 15, 21, 8, 18, 2, 61, 56, 14]

/-- Round constants of the iota step. -/
def keccakRc : List Nat :=
  [0x1, 0x8082, 0x800000000000808A, 0x8000000080008000, 0x808B, 0x80000001, 0x8000000080008081, 0x8000000000008009,
   0x8A, 0x88, 0x80008009, 0x8000000A, 0x8000808B, 0x800000000000008B, 0x8000000000008089, 0x8000000000008003,
   0x8000000000008002, 0x8000000000000080, 0x800A, 0x800000008000000A, 0x8000000080008081, 0x8000000000008080,
   0x80000001, 0x8000000080008008]

/-- Rotate a 64-bit number left. -/
def rotl64 (x r : Nat) : Nat := (x <<< r ||| x >>> (64 - r)) % 2 ^ 64

/-- Complement of a 64-bit number. -/
def not64 (x : Nat) : Nat := 2 ^ 64 - 1 - x

/-- One round of Keccak-f[1600] on 25 lanes. -/
def keccakRound (a : List Nat) (rc : Nat) : List Nat :=
  let g := fun i => a.getD i 0
  let c := (List.range 5).map fun x => g x ^^^ g (x + 5) ^^^ g (x + 10) ^^^ g (x + 15) ^^^ g (x + 20)
  let d := (List.range 5).map fun x => c.getD ((x + 4) % 5) 0 ^^^ rotl64 (c.getD ((x + 1) % 5) 0) 1
  let t := (List.range 25).map fun i => g i ^^^ d.getD (i % 5) 0
  let b := (List.range 25).map fun j =>
    let i := (j % 5 + 3 * (j / 5)) % 5 + 5 * (j % 5)
    rotl64 (t.getD i 0) (keccakRot.getD i 0)
  let e := (List.range 25).map fun j =>
    let y := j / 5
    let at' := fun x => b.getD (x % 5 + 5 * y) 0
    at' j ^^^ (not64 (at' (j + 1 - 5 * y)) &&& at' (j + 2 - 5 * y))
  match e with
  | [] => []
  | h :: r => (h ^^^ rc) :: r

/-- Keccak-f[1600]. -/
def keccakF (a : List Nat) : List Nat := keccakRc.foldl keccakRound a

/-- Split bytes into little-endian 64-bit lanes. -/
def lanes : Nat → List Byte → List Nat
  | 0, _ => []
  | n + 1, b => leNat (b.take 8) :: lanes n (b.drop 8)

/-- Absorb `n` blocks of the rate, 136 bytes. -/
def absorb : Nat → List Nat → List Byte → List Nat
  | 0, st, _ => st
  | n + 1, st, b =>
    let l := lanes 17 (b.take 136)
    absorb n (keccakF (st.zipWith (· ^^^ ·) (l ++ List.replicate 8 0))) (b.drop 136)

/-- Squeeze `n` blocks. -/
def squeeze : Nat → List Nat → List Byte
  | 0, _ => []
  | n + 1, st => (st.take 17).flatMap (leBytes 8) ++ squeeze n (keccakF st)

/-- The first `n` bytes of SHAKE256 over `msg`. -/
def shake256 (msg : List Byte) (n : Nat) : List Byte :=
  let z := 135 - msg.length % 136
  let padded := if z = 0 then msg ++ [0x9F#8] else msg ++ [0x1F#8] ++ List.replicate (z - 1) 0#8 ++ [0x80#8]
  (squeeze ((n + 135) / 136) (absorb (padded.length / 136) (List.replicate 25 0) padded)).take n

/-- A 32-byte digest. -/
def digest (msg : List Byte) : List Byte := shake256 msg 32

/-- The bytes of an ASCII label. -/
def ascii (s : String) : List Byte := s.toList.map fun c => BitVec.ofNat 8 c.toNat

/-- One bit of CRC-32C, reflected. -/
def crcBit (c : Nat) : Nat := if c % 2 = 1 then (c / 2) ^^^ 0x82F63B78 else c / 2

/-- One byte of CRC-32C. -/
def crcByte (c : Nat) (b : Byte) : Nat :=
  let x := c ^^^ b.toNat
  crcBit (crcBit (crcBit (crcBit (crcBit (crcBit (crcBit (crcBit x)))))))

/-- CRC-32C of a byte string. -/
def crc32c (b : List Byte) : Nat := (b.foldl crcByte 0xFFFFFFFF) ^^^ 0xFFFFFFFF

end Sys2Proof.Machine
end

