-- ==== Sys2Proof/Machine/Index.lean ====
section
/-! DEFINITION. The index model (chapter 08): collections, centroid sets, lists and their states, visibility, sketches,
codes, records, distances; and the preparation of vectors (R112, R192 to R194, R297). -/

namespace Sys2Proof.Machine

/-! ### Collections -/

/-- Collection state at reset: absent. -/
def Coll.reset : Coll :=
  { life := 0, pend := none, cents := [], books := [], imageDigest := [], imageBytes := [], loads := [], rewrites := [],
    members := [], dropDue := 0, driftN := [], driftSum := [], driftIn := [], driftPend := none, centLoading := false,
    epochDone := 0, reshaped := (0, 0) }

/-- Collection `c`. -/
def getColl (s : State) (c : Nat) : Coll := (look s.colls c).getD Coll.reset

/-- Replace collection `c`. -/
def setColl (s : State) (c : Nat) (v : Coll) : State := { s with colls := put s.colls c v }

/-- STATE of a collection (R183): 3 while a change is on its way. -/
def collState (s : State) (c : Nat) : Nat :=
  let v := getColl s c
  if v.pend.isSome then 3 else v.life

/-- Whether a collection is running in this turn (R184). -/
def collRuns (s : State) (c : Nat) : Bool := (getColl s c).life == 2

/-- Running collections of the partition (Table 8.8). -/
def runningCount (s : State) : Nat := (s.colls.filter (fun p => p.2.life == 2)).length

/-- A Hamming collection (R187). -/
def isHamming (s : State) (c : Nat) : Bool := getObj s (Obj.coll_METRIC c) == 3

/-- The metric of a collection. -/
def metricOf (s : State) (c : Nat) : Metric :=
  match getObj s (Obj.coll_METRIC c) with
  | 0 => .ip
  | 1 => .l2
  | 2 => .cosine
  | _ => .hamming

/-- Sketch bits of a collection. -/
def sketchBitsOf (s : State) (c : Nat) : Nat := getObj s (Obj.coll_SKETCH_BITS c)

/-- Dimensions of a collection's vectors; a Hamming collection reads back SKETCH_BITS (R187). -/
def dimsOf (s : State) (c : Nat) : Nat := if isHamming s c then sketchBitsOf s c else getObj s (Obj.coll_DIMS c)

/-- Subspaces of a collection. -/
def subspacesOf (s : State) (c : Nat) : Nat := getObj s (Obj.coll_SUBSPACES c)

/-- The table that INGEST entries of a collection number replace rows of, on this node (R123). -/
def boundTable (s : State) (c : Nat) : Option Nat :=
  (List.range 64).find? fun t => getObj s (Obj.table_TABLE_COLLECTION t) == c

/-! ### Vectors -/

/-- FP32 sum in ascending order from zero. -/
def fsum (xs : List Flt) : Flt := xs.foldl fadd f0

/-- Whether a value is a zero. -/
def isZero : Flt → Bool
  | .fin _ m _ => m == 0
  | _ => false

/-- Division by the L2 norm (R189). -/
def normalise (xs : List Flt) : List Flt :=
  let n := fsqrt (fsum (xs.map fun x => fmul x x))
  if isZero n then xs.map fun _ => f0 else xs.map fun x => fdiv x n

/-- Cut or zero-extend to `n` elements. -/
def fitTo (n : Nat) (xs : List Flt) : List Flt := xs.take n ++ List.replicate (n - xs.length) f0

/-- A vector payload as it stands after the cut (R112, R172), with its Microscaling saturations. -/
def readVector (f : Fmt) (b : List Byte) : List Flt × Nat :=
  match f with
  | .int8 =>
    if b.length ≤ 4 then ([], 0)
    else
      let sc := f32Val (leNat (b.drop (b.length - 4)))
      ((elems .int8 (b.length - 4) b).map fun x => fmul x sc, 0)
  | .mxfp4 => let r := mxBlocks .mxfp4 (b.length / 17) b; (r.map (·.1), (r.filter (·.2)).length)
  | .mxint8 => let r := mxBlocks .mxint8 (b.length / 33) b; (r.map (·.1), (r.filter (·.2)).length)
  | .aqnil4 => ([], 0)
  | .e4m3 | .e5m2 | .bf16 | .fp16 => (elems f (b.length / fmtBytes f) b, 0)

/-- The sketch of a vector (R192). -/
def sketchOf (seed bits : Nat) (v : List Flt) : List Bool :=
  let n := v.length
  let out := shake256 (leBytes 8 seed) ((bits * n + 7) / 8)
  (List.range bits).map fun i =>
    flt f0 (fsum (v.zipIdx.map fun p => if sketchBit out (i * n + p.2) then fneg p.1 else p.1))

/-- The sketch of a vector of collection `c`. -/
def collSketch (s : State) (c : Nat) (v : List Flt) : List Bool :=
  sketchOf (getObj s (Obj.coll_SKETCH_SEED c)) (sketchBitsOf s c) v

/-- Bits set in the XOR of two sketches. -/
def hammingDist (a b : List Bool) : Nat := ((a.zip b).filter fun p => p.1 != p.2).length

/-- Squared L2 in FP32, ascending (R193). -/
def sqDist (a b : List Flt) : Flt := fsum ((a.zip b).map fun p => let d := fsub p.1 p.2; fmul d d)

/-- Index of the first least value, by FP32 order. -/
def argMin (ds : List Flt) : Nat :=
  (ds.zipIdx.foldl (fun (acc : Option (Flt × Nat)) p =>
    match acc with
    | none => some p
    | some b => if flt p.1 b.1 then some p else some b) none).elim 0 (·.2)

/-- Subcodes of a vector (R193): the nearest subcentroid of each subspace, a tie to the lower index. -/
def subcodes : List (List (List Flt)) → Nat → List Flt → List Nat
  | [], _, _ => []
  | bk :: bks, w, v => argMin (bk.map fun y => sqDist (v.take w) y) :: subcodes bks w (v.drop w)

/-- The concatenation of the chosen subcentroids. -/
def reconstruct (books : List (List (List Flt))) (codes : List Nat) : List Flt :=
  (books.zip codes).flatMap fun p => p.1.getD p.2 []

/-- Sum in the order of R270: partials of blocks of 32, in ascending order. -/
def blockSum : Nat → List Flt → Flt → Flt
  | 0, _, t => t
  | n + 1, xs, t => blockSum n (xs.drop 32) (fadd t (fsum (xs.take 32)))

/-- The distance of Table 8.1 in the order of R270 for the three vector metrics. -/
def exactDist (m : Metric) (q x : List Flt) : Flt :=
  let terms := (q.zip x).map fun p =>
    match m with
    | .l2 => let t := fsub p.1 p.2; fmul t t
    | .ip | .cosine | .hamming => fmul p.1 p.2
  let t := blockSum ((terms.length + 31) / 32) terms f0
  match m with
  | .l2 => t
  | .ip | .cosine | .hamming => fneg t

/-- A look-up table entry (R171). -/
def lutEntry (m : Metric) (r : Rnd) (q y : List Flt) : Flt :=
  let t := match m with
    | .l2 => sqDist q y
    | .ip | .cosine | .hamming => fneg (fsum ((q.zip y).map fun p => fmul p.1 p.2))
  (convFlt fF16 r t).1

/-- The look-up tables of a query vector (R171). -/
def lutsOf (m : Metric) (r : Rnd) : List (List (List Flt)) → Nat → List Flt → List (List Flt)
  | [], _, _ => []
  | bk :: bks, w, q => (bk.map fun y => lutEntry m r (q.take w) y) :: lutsOf m r bks w (q.drop w)

/-- The approximate distance of a stored vector (R171). -/
def lutDist (luts : List (List Flt)) (codes : List Nat) : Flt :=
  fsum ((luts.zip codes).map fun p => p.1.getD p.2 f0)

/-! ### Full-vector records (R194, R271) -/

/-- Size of a record. -/
def recordBytes (s : State) (c : Nat) : Nat :=
  let f := fmtOf (getObj s (Obj.coll_FULL_FORMAT c))
  if fmtBytes f = 1 then dimsOf s c + 32 else 2 * dimsOf s c

/-- A record from a conversion. -/
def recordOf (f : Fmt) (cv : Conv) : List Byte :=
  cv.codes.flatMap (leBytes (fmtBytes f))
    ++ (if fmtBytes f = 1 then leBytes 4 (f32Bits cv.scale) ++ List.replicate 28 0 else [])

/-- The elements of a record, decoded (R271). -/
def decodeRecord (f : Fmt) (dims : Nat) (b : List Byte) : List Flt :=
  let xs := elems f dims b
  if fmtBytes f = 1 then
    let sc := f32Val (leNat (slice b dims 4))
    xs.map fun x => fmul x sc
  else xs

/-! ### Centroids -/

/-- A centroid row converted under R198: its own magnitude is the limit. -/
def convCentroid (s : State) (c num : Nat) (row : List Flt) : Centroid :=
  let f := fmtOf (getObj s (Obj.coll_CENTROID_FORMAT c))
  let cv := convVec f (collRnd s c) (maxAbs row) row
  { num := num, codes := cv.vals, scale := cv.scale, bits := [], dead := false }

/-- A centroid row decoded with its stored scale. -/
def Centroid.row (c : Centroid) : List Flt := c.codes.map fun v => fmul v c.scale

/-- The centroid set that a pin turn reads (R208). -/
def centSetAt (v : Coll) (pin : Nat) : Option CentSet :=
  v.cents.find? fun cs => decide (cs.start ≤ pin) && (cs.stop == 0 || decide (pin < cs.stop))

/-- The live centroids of a set, in ascending number. -/
def CentSet.live (cs : CentSet) : List Centroid := sortBy (fun a b => decide (a.num ≤ b.num)) (cs.cents.filter (!·.dead))

/-- Centroid `n` of a set. -/
def CentSet.cent (cs : CentSet) (n : Nat) : Option Centroid := cs.cents.find? (·.num == n)

/-- The distance of a query or prepared vector from a centroid, in the order of R270, NaN replaced (R218). -/
def centDist (m : Metric) (v : List Flt) (sk : List Bool) (c : Centroid) : Flt :=
  match m with
  | .hamming => fnat (hammingDist sk c.bits)
  | .ip | .l2 | .cosine => noNan (exactDist m v c.row)

/-- Centroids ranked by distance, equal distances by lower number (R218). -/
def rankCents (m : Metric) (v : List Flt) (sk : List Bool) (cs : List Centroid) : List (Flt × Nat) :=
  sortBy (fun a b => flt a.1 b.1 || (!flt b.1 a.1 && decide (a.2 ≤ b.2))) (cs.map fun c => (centDist m v sk c, c.num))

/-- Live centroids of the set in force (Table 8.7). -/
def liveCount (s : State) (c : Nat) : Nat :=
  if (getColl s c).life = 0 then 0 else ((centSetAt (getColl s c) s.turn.no).map (·.live.length)).getD 0

/-! ### Lists -/

/-- The turn number that no pin turn reaches: a staged or unended entry (R191, R300). -/
def never : Nat := 2 ^ 48 - 1

/-- A list without entries. -/
def ListCopy.reset (key : Nat) : ListCopy :=
  { key := key, entries := [], delta := [], sets := [{ start := 0, stop := 0, bases := [], cut := 0, hot := false, locs := [], adopted := [] }],
    compacting := none, built := none, switchDue := 0, hotBuild := false, hotDue := 0, heat := 0, events := 0, bad := [],
    quarantined := false, stack := 0 }

/-- This node's copy of a list. -/
def getList (s : State) (key : Nat) : Option ListCopy := s.lists.find? (·.key == key)

/-- Replace this node's copy of a list. -/
def setList (s : State) (l : ListCopy) : State :=
  if s.lists.any (·.key == l.key) then { s with lists := updFirst (·.key == l.key) (fun _ => l) s.lists }
  else { s with lists := s.lists ++ [l] }

/-- Visibility at a pin turn (R199). -/
def Entry.visible (e : Entry) (pin : Nat) : Bool := decide (e.writeTurn < pin) && decide (pin ≤ e.delTurn) && !e.aborted

/-- The predicate of R195. -/
def predMatch (p : Pred) (tag : BitVec 64) (attr : Nat) : Bool :=
  decide (tag &&& p.must = p.must) && decide (tag &&& p.mustNot = 0) && decide (p.attrLo ≤ attr) && decide (attr ≤ p.attrHi)

/-- The all-pass predicate of FILTER = 0 (Table 9.2). -/
def Pred.all (pin : Nat) : Pred := { must := 0, mustNot := 0, attrLo := 0, attrHi := 2 ^ 32 - 1, pin := pin }

/-- The segment set that a pin turn reads (R208). -/
def ListCopy.setAt (l : ListCopy) (pin : Nat) : Option SegSet :=
  l.sets.find? fun g => decide (g.start ≤ pin) && (g.stop == 0 || decide (pin < g.stop))

/-- Entry numbers read through a segment set (R203, R316). -/
def ListCopy.reads (l : ListCopy) (g : SegSet) : List Nat := g.bases.flatten ++ l.delta.drop g.cut ++ g.adopted

/-- The newest segment set. -/
def ListCopy.newest (l : ListCopy) : SegSet := l.sets.headD { start := 0, stop := 0, bases := [], cut := 0, hot := false, locs := [], adopted := [] }

/-- Lowest DELTA_CUT of any retained state, from which delta capacity counts (R310). -/
def ListCopy.lowCut (l : ListCopy) : Nat := l.sets.foldl (fun m g => min m g.cut) l.delta.length

/-- Delta entries that take capacity (R204, R310). -/
def ListCopy.deltaUsed (l : ListCopy) : Nat := l.delta.length - l.lowCut

/-- Visible entries of a list at a pin turn, as entry numbers in read order. -/
def ListCopy.visibleAt (l : ListCopy) (pin : Nat) : List Nat :=
  match l.setAt pin with
  | none => []
  | some g => (l.reads g).filter fun i => ((l.entries[i]?).map (·.visible pin)).getD false

/-- Holders of a list: those the ledger names, else the collection's initial placement (R384). -/
def holdersOf (s : State) (key : Nat) : List Holder :=
  match look s.ledger.lists key with
  | some h => h
  | none =>
    let ms := (getColl s (keyColl key)).members
    let r := getObj s (Obj.coll_REPLICAS_MIN (keyColl key))
    (List.range (min ms.length (r + 1))).map fun i =>
      { node := nth ms ((keyCent key + i) % ms.length), role := if i = 0 then .primary else .replica, firstPin := 0,
        lastPin := never }

/-- Holders of a list as this node's last request names them, where one waits to leave: a further request of the turn builds on
it. -/
def holdersNext (s : State) (key : Nat) : List Holder :=
  let own := fun (r : LedgerRec) => match r with | .list k hs => if k = key then some hs else none | _ => none
  (s.ledger.outReqs.reverse.findSome? own).getD (holdersOf s key)

/-- The nodes that stage writes of a list: every holder with a serving or incoming role (Table 14.5 names who stages). -/
def primaryOf (hs : List Holder) : Option Nat := (hs.find? (fun h => h.role = .primary)).map (·.node)

/-- Primary and replica of a directory shard: those the ledger names, else members in ascending order from the shard's
number on, as for lists (R303 names none). -/
def shardHolders (s : State) (c sh : Nat) : Nat × Nat :=
  match look s.ledger.shards (c, sh) with
  | some p => p
  | none =>
    let ms := (getColl s c).members
    let n := max 1 ms.length
    (ms.getD (sh % n) 255, if ms.length ≤ 1 then 255 else ms.getD ((sh + 1) % n) 255)

/-! ### Preparation of a vector (R297) -/

/-- A prepared vector: FP32 vector, sketch, subcodes, centroid, saturations met in reading it. -/
structure Prepared where
  vec : List Flt
  sketch : List Bool
  codes : List Nat
  cent : Nat
  resid : List Flt
  mxSats : Nat
  deriving DecidableEq, Repr, Inhabited

/-- Steps 1 to 3 and 5 of R297 against the centroid set active at B(n); none where the collection has no live centroid. -/
def prepareVec (s : State) (c : Nat) (payload : List Byte) : Option Prepared :=
  let v := getColl s c
  match centSetAt v s.turn.no with
  | none => none
  | some cs =>
    if isHamming s c then
      let sk := sketchBits (getObj s (Obj.coll_SKETCH_LAYOUT c)) (sketchBitsOf s c) payload
      match rankCents .hamming [] sk cs.live with
      | [] => none
      | b :: _ => some { vec := [], sketch := sk, codes := [], cent := b.2, resid := [], mxSats := 0 }
    else
      let rd := readVector (fmtOf (getObj s (Obj.coll_INPUT_FORMAT c))) payload
      let x := fitTo (dimsOf s c) rd.1
      let x := if metricOf s c = .cosine then normalise x else x
      match rankCents (metricOf s c) x [] cs.live with
      | [] => none
      | b :: _ =>
        let row := ((cs.cent b.2).map Centroid.row).getD []
        some { vec := x, sketch := collSketch s c x,
               codes := subcodes v.books (dimsOf s c / max 1 (subspacesOf s c)) x, cent := b.2,
               resid := (x.zip row).map fun p => faddIn fF64 p.1 (fneg p.2), mxSats := rd.2 }

end Sys2Proof.Machine
end

