-- ==== Sys2Proof/Machine/Wenmen.lean ====
section
/-! DEFINITION. Wenmen ports, link layer, routes, transport and boundary marks (R367 to R374, R378, R381). Frames are
shown leaving the node one by one, and each takes the flits that its bytes fill. -/

namespace Sys2Proof.Machine

/-! ### Ports -/

/-- LINK_STATE values (Table 17.8). -/
def linkOff : Nat := 0
def linkTraining : Nat := 1
def linkIsUp : Nat := 2
def linkFenced : Nat := 3
def linkDown : Nat := 4

/-- Receive buffers per VL (R370). -/
def vlBuffers : List Nat := [64, 768, 192]

/-- A port's link layer at bring-up. -/
def Port.reset : Port := { txSeq := 0, rxSeq := 0, replay := [], wait := [], resends := 0, nakked := false, credits := vlBuffers }

/-- Link layer of port `p`. -/
def getPort (s : State) (p : Nat) : Port := (look s.fab.ports p).getD Port.reset

/-- Replace the link layer of a port. -/
def setPort (s : State) (p : Nat) (v : Port) : State := { s with fab := { s.fab with ports := put s.fab.ports p v } }

/-- LINK_STATE of a port. -/
def linkState (s : State) (p : Nat) : Nat := getObj s (Obj.port_LINK_STATE p)

/-- A port that carries frames: up, with a one-way delay of at most 100 ns (R368). -/
def carries (s : State) (p : Nat) : Bool := linkState s p == linkIsUp && decide (getObj s (Obj.port_LINK_DELAY_PS p) ≤ 100000)

/-- Ports that carry frames, in ascending order. -/
def upPorts (s : State) : List Nat := (List.range 16).filter (carries s)

/-- VL of a frame class: control and marks 0, caravans 1, cache 2 (Table 17.1); transport control goes with the control
frames. -/
def vlOf (cls : Nat) : Nat := if cls = 0 then 1 else if cls = 3 then 2 else 0

/-- Bytes of a frame: header, payload and CRC (R374). -/
def frameBytes (f : Frame) : Nat := 24 + f.len + 4

/-- What a flit takes of the frames that wait on its VL, back to back, in `room` bytes of payload that are left: the frames that end in
it, what goes on waiting, and the offset of the first frame start, 0x3FF for none (R369). -/
def fillFlit (vl : Nat) : Nat → List (Nat × Frame × Nat) → List Frame × List (Nat × Frame × Nat) × Nat
  | _, [] => ([], [], 0x3FF)
  | room, (v, f, n) :: w =>
    if v ≠ vl then
      let r := fillFlit vl room w
      (r.1, (v, f, n) :: r.2.1, r.2.2)
    else
      let start := fun (later : Nat) => if n = frameBytes f ∧ 0 < room then 620 - room else later
      if n ≤ room then
        let r := fillFlit vl (room - n) w
        (f :: r.1, r.2.1, start r.2.2)
      else ([], (v, f, n - room) :: w, start 0x3FF)

/-- The VL of the next flit: VL0 before VL1 before VL2, where a frame waits and a credit allows it (R370). -/
def nextWaiting (credits : List Nat) (w : List (Nat × Frame × Nat)) : Option Nat :=
  [0, 1, 2].find? fun vl => decide (nth credits vl ≠ 0) && w.any fun x => x.1 == vl

/-- At most this many flits carry what waits. -/
def flitsOf (w : List (Nat × Frame × Nat)) : Nat := w.foldl (fun n x => n + x.2.2 / 620 + 1) 0

/-- Send what waits, against credits, while the replay buffer of 1,024 flits has room and the link carries frames (R370, R368). -/
def drain (s : State) (p : Nat) : Nat → State
  | 0 => s
  | n + 1 =>
    let v := getPort s p
    match nextWaiting v.credits v.wait with
    | none => s
    | some vl =>
      if 1024 ≤ v.replay.length ∨ carries s p = false then s
      else
        let r := fillFlit vl 620 v.wait
        let out : Flit := { ty := 1, seq := v.txSeq, ack := v.rxSeq, vl := vl, credVl := 0, credits := 0, time := 0, fec := 0, fptr := r.2.2 }
        let s := setPort s p { v with txSeq := (v.txSeq + 1) % 4096, replay := v.replay ++ [(v.txSeq, vl, r.1, r.2.2)],
                                      wait := r.2.1, credits := atIdx (· - 1) vl v.credits }
        drain (emit s (.flitOut p out)) p n

/-- Put a frame on a port. -/
def putFrame (s : State) (p : Nat) (f : Frame) : State :=
  let v := getPort s p
  let s := emit (setPort s p { v with wait := v.wait ++ [(vlOf f.cls, f, frameBytes f)] }) (.frameOut p f)
  drain s p (flitsOf (getPort s p).wait)

/-! ### Routes (R372, R373) -/

/-- Neighbours of a node in a link map, with the node's port, the peer. -/
def neighbours (links : List (Nat × Nat × Nat × Nat)) (n : Nat) : List (Nat × Nat) :=
  sortBy (fun a b => decide (a.1 ≤ b.1))
    (nub (links.filterMap fun l =>
      if l.1 = n then some (l.2.1, l.2.2.1) else if l.2.2.1 = n then some (l.2.2.2, l.1) else none))

/-- Links on a shortest route of at most `fuel` links. -/
def hopsTo (links : List (Nat × Nat × Nat × Nat)) (d : Nat) : Nat → Nat → Option Nat
  | 0, n => if n = d then some 0 else none
  | fuel + 1, n =>
    if n = d then some 0
    else
      ((neighbours links n).filterMap fun x => hopsTo links d fuel x.2).foldl
        (fun m h => match m with | none => some (h + 1) | some k => some (min k (h + 1))) none

/-- A link map without the link at port `p` of node `n`. -/
def linksWithout (links : List (Nat × Nat × Nat × Nat)) (n p : Nat) : List (Nat × Nat × Nat × Nat) :=
  links.filter fun l => !((l.1 == n && l.2.1 == p) || (l.2.2.1 == n && l.2.2.2 == p))

/-- The port of the shortest route from `n` to `d`, the lower port on a tie. -/
def firstPort (links : List (Nat × Nat × Nat × Nat)) (n d : Nat) : Option Nat :=
  let cand := (neighbours links n).filterMap fun x => (hopsTo links d 2 x.2).map fun h => (h, x.1)
  (cand.foldl (fun (m : Option (Nat × Nat)) x => match m with | none => some x | some y => if x.1 < y.1 then some x else some y) none).map (·.2)

/-- The port at which a route from node `n` reaches node `d`, over at most `fuel` links. -/
def lastPort (links : List (Nat × Nat × Nat × Nat)) (d : Nat) : Nat → Nat → Option Nat
  | 0, _ => none
  | fuel + 1, n =>
    match firstPort links n d with
    | none => none
    | some p =>
      match links.find? fun l => (l.1 == n && l.2.1 == p) || (l.2.2.1 == n && l.2.2.2 == p) with
      | none => none
      | some l =>
        let far := if l.1 = n ∧ l.2.1 = p then l.2.2 else (l.1, l.2.1)
        if far.1 = d then some far.2 else lastPort links d fuel far.1

/-- The port at which what `src` sends arrives: every member computes the same routes (R372). -/
def arrivalPort (s : State) (src : Nat) : Nat := (lastPort s.ledger.links (selfNode s) 3 src).getD 0

/-- The route table: destination, first port, and first port of the best route that avoids that link, 16 for none. -/
def routeTable (s : State) : List (Nat × Nat × Nat) :=
  let me := selfNode s
  (s.ledger.members.filter (· != me)).filterMap fun d =>
    (firstPort s.ledger.links me d).map fun p => (d, p, (firstPort (linksWithout s.ledger.links me p) me d).getD 16)

/-- Members that no route of at most three links joins to this node. -/
def unreached (s : State) : List Nat :=
  s.ledger.members.filter fun d => (hopsTo s.ledger.links d 3 (selfNode s)).isNone

/-- The port that a frame to `d` takes now: the route's, or the alternate while that link carries nothing (R373). -/
def portTo (s : State) (d : Nat) : Option Nat :=
  match s.fab.route.find? fun r => r.1 == d with
  | none => none
  | some (_, p, q) => if carries s p then some p else if carries s q then some q else none

/-- Frames of a stream that may be on their way at once (Table 18.1). -/
def streamWindow : Nat := 4096

/-- Put a frame of this node on the port that its route takes now. -/
def routeFrame (s : State) (f : Frame) : State :=
  match portTo s f.dst with
  | none => s
  | some p => putFrame s p f

/-- Send a frame of this node: the stream's next SEQ, kept until acknowledged (R374). With 4,096 frames of the stream on their way it
waits among those kept (R394). -/
def sendFrame (s : State) (f : Frame) : State :=
  let pos := fun (t : TStream) => t.peer == f.dst && t.cls == f.cls
  let st := (s.fab.streams.find? pos).getD { peer := f.dst, cls := f.cls, next := 0, held := [], out := [] }
  let f := { f with seq := st.next }
  let st := { st with next := st.next + 1, out := st.out ++ [f] }
  let s := { s with fab := { s.fab with streams := s.fab.streams.filter (fun t => !pos t) ++ [st] } }
  if streamWindow < st.out.length then s else routeFrame s f

/-! ### Links going up and down -/

/-- Request a link map change of the ledger (Table 17.4, LINK). -/
def linkRecord (s : State) (p : Nat) (up : Bool) : State :=
  if isMember s then
    ledgerRequest s (.link (selfNode s) p (getObj s (Obj.port_PEER_NODE p)) (getObj s (Obj.port_PEER_PORT p)) up)
  else s

/-- A port begins to train: discovery shows the peer this node's number and partition, and the port (R381). -/
def startTraining (s : State) (p : Nat) : State :=
  emit (setObj s (Obj.port_LINK_STATE p) linkTraining) (.discOut p (selfNode s) (getObj s Obj.PARTITION_ID))

/-- LINK_STATE of a port that is not up becomes `state`. -/
def toState (s : State) (p state : Nat) : State := if state = linkTraining then startTraining s p else setObj s (Obj.port_LINK_STATE p) state

/-- A port goes down and `state` is what LINK_STATE then reads: event 0x4001, the frames that the link had not
acknowledged go on the alternate route at once (R368, R373). -/
def portDown (s : State) (p state : Nat) : State :=
  let was := linkState s p
  let v := getPort s p
  let frames := v.replay.flatMap (·.2.2.1) ++ v.wait.map (·.2.1)
  let s := setPort s p Port.reset
  let s := toState { s with fab := { s.fab with memberPorts := s.fab.memberPorts.filter (· != p) } } p state
  if was ≠ linkIsUp then s
  else
    let s := linkRecord (postEvent s 0x4001 p) p false
    frames.foldl routeFrame s

/-- Fence a port: its link goes down, its transmitters go idle, and event 0x4003 names the peer (R381). -/
def fencePort (s : State) (p peer part : Nat) : State :=
  let s := portDown s p linkFenced
  emit (postEvent s 0x4003 (p + 16 * peer + 2 ^ 12 * part)) (.portIdle p)

/-- What discovery exchanges (R381): the peer's node, port and partition. -/
def discover (s : State) (p peer peerPort part : Nat) : State :=
  let s := setObj (setObj (setObj s (Obj.port_PEER_NODE p) peer) (Obj.port_PEER_PORT p) peerPort) (Obj.port_PEER_PART p) part
  if part ≠ getObj s Obj.PARTITION_ID ∨ peer = selfNode s then fencePort s p peer part else s

/-- Whether a port may train: enabled, not fenced, the node not shut off by an escalation (R454). -/
def mayTrain (s : State) (p : Nat) : Bool :=
  bitsOf (getObj s Obj.PORT_EN) p 1 == 1 && linkState s p != linkFenced && !s.turn.escalated && gridOn s
    && !s.clk.failed.contains 3

/-- A delay above 100 ns: event 0x4009 (R368). -/
def delayEvent (s : State) (p delay : Nat) : State :=
  if 100000 < delay then postEvent s 0x4009 (p + 2 ^ 32 * delay) else s

/-- Whole frames that wait at a link that carries none any more go on the alternate route (R368, R373). -/
def moveWaiting (s : State) (p : Nat) : State :=
  if carries s p then s
  else
    let v := getPort s p
    let whole := fun (x : Nat × Frame × Nat) => x.2.2 == frameBytes x.2.1
    ((v.wait.filter whole).map (·.2.1)).foldl routeFrame
      (setPort s p { v with wait := v.wait.filter fun x => !whole x })

/-- PING on a port, TIME in units of 50 ps (R371). -/
def ping (now : Nat) (s : State) (p : Nat) : State :=
  emit s (.flitOut p { ty := 3, seq := 0, ack := (getPort s p).rxSeq, vl := 0, credVl := 0, credits := 0, time := now % 2 ^ 64, fec := 0 })

/-- LINK_UP: bring-up has ended (R368). `modKind` is MODULE of Table 17.8; 3 stands for a module without an application
of four host lanes at 128 Gbit/s, which leaves the port down (R388). -/
def execLinkUp (port peerNode peerPort peerPart delayPs modKind : Nat) (s : State) : Host.Outcome State Fault Refusal :=
  .next (
    if !mayTrain s port then s
    else if 3 ≤ modKind then postEvent (setObj s (Obj.port_LINK_STATE port) linkDown) 0x4008 port
    else
      let s := discover (setObj s (Obj.port_MODULE port) modKind) port peerNode peerPort peerPart
      if linkState s port = linkFenced then s
      else
        let s := setObj (setPort s port Port.reset) (Obj.port_LINK_DELAY_PS port) delayPs
        let s := delayEvent (setObj s (Obj.port_LINK_STATE port) linkIsUp) port delayPs
        linkRecord s port true)

/-- LANE_LOCK_LOSS: the port goes down and retrains (R368). -/
def execLaneLockLoss (port : Nat) (s : State) : Host.Outcome State Fault Refusal :=
  .next (
    if linkState s port = linkIsUp ∨ linkState s port = linkTraining then portDown s port linkTraining else s)

/-- A write of PORT_EN as applied: a set bit starts training, a cleared one disables the port and ends its fence. -/
def applyPortEn (s : State) (v : Nat) : State :=
  let s := setObj s Obj.PORT_EN v
  (List.range 16).foldl (fun s p =>
    let st := linkState s p
    if bitsOf v p 1 = 0 then (if st = linkOff then s else portDown s p linkOff)
    else if st = linkOff ∧ mayTrain s p = true then startTraining s p
    else s) s

/-! ### Flits (R369 to R371) -/

/-- Resend every unacknowledged flit; after 64 resends without progress the link goes down (R370). -/
def resendFlits (s : State) (p : Nat) : State :=
  let v := getPort s p
  if v.replay = [] then s
  else if 64 ≤ v.resends then portDown s p linkTraining
  else
    let s := bump (setPort s p { v with resends := v.resends + 1 }) (Obj.port_FLIT_RETRIES p) v.replay.length
    v.replay.foldl (fun s r =>
      emit s (.flitOut p { ty := 1, seq := r.1, ack := v.rxSeq, vl := r.2.1, credVl := 0, credits := 0, time := 0, fec := 0,
                              fptr := r.2.2.2 })) s

/-- What every whole flit carries: ACK releases flits of the replay buffer, CREDITS free receive buffers (Table 17.1). -/
def flitHeader (s : State) (p : Nat) (f : Flit) : State :=
  let v := getPort s p
  let v := if v.replay.any (fun r => (r.1 + 1) % 4096 == f.ack)
    then { v with replay := (v.replay.dropWhile (fun r => (r.1 + 1) % 4096 != f.ack)).drop 1, resends := 0 } else v
  let v := { v with credits := atIdx (fun c => min (nth vlBuffers f.credVl) (c + f.credits)) f.credVl v.credits }
  let s := setPort s p v
  drain s p (flitsOf v.wait)

/-- NAK with the SEQ that the receiver expects. -/
def sendNak (s : State) (p : Nat) : State :=
  let v := getPort s p
  if v.nakked then s
  else
    emit (setPort s p { v with nakked := true })
      (.flitOut p { ty := 2, seq := 0, ack := v.rxSeq, vl := 0, credVl := 0, credits := 0, time := 0, fec := 0 })

/-- The checks before a flit of any type is taken: the link's state, the FEC, the CRC-32C and the type (R367, R369,
R370). -/
def takeFlit (s : State) (p : Nat) (f : Flit) (k : State → State) : State :=
  if linkState s p ≠ linkIsUp ∧ linkState s p ≠ linkTraining then s
  else
    let s := if f.fec = 1 then bump s (Obj.port_FEC_CORRECTED p) 1 else s
    if f.fec = 3 then sendNak (bump s (Obj.port_FEC_UNCORRECTABLE p) 1) p
    else if f.fec = 2 then sendNak s p
    else if 5 < f.ty then bump s (Obj.port_FLIT_RETRIES p) 1
    else k s

/-- DATA_FLIT: the SEQ expected is taken and its buffer's credit returned; any other is discarded, with a NAK (R370). -/
def execDataFlit (port : Nat) (flit : Flit) (s : State) : Host.Outcome State Fault Refusal :=
  .next (takeFlit s port flit fun s =>
    if linkState s port ≠ linkIsUp then s
    else
      let s := flitHeader s port flit
      let v := getPort s port
      if flit.seq ≠ v.rxSeq then sendNak s port
      else
        let v := { v with rxSeq := (v.rxSeq + 1) % 4096, nakked := false }
        emit (setPort s port v)
          (.flitOut port { ty := 0, seq := 0, ack := v.rxSeq, vl := 0, credVl := flit.vl, credits := 1, time := 0, fec := 0 }))

/-- NAK_FLIT: resend from ACK onward (R370). -/
def execNakFlit (port : Nat) (flit : Flit) (s : State) : Host.Outcome State Fault Refusal :=
  .next (takeFlit s port flit fun s => resendFlits (flitHeader s port flit) port)

/-- IDLE_FLIT: acknowledgement and credits (R369). -/
def execIdleFlit (port : Nat) (flit : Flit) (s : State) : Host.Outcome State Fault Refusal :=
  .next (takeFlit s port flit fun s => flitHeader s port flit)

/-- PING_FLIT: answered with PONG that carries TIME plus the hold time, in units of 50 ps (R371). -/
def execPingFlit (port : Nat) (flit : Flit) (hold : Nat) (s : State) : Host.Outcome State Fault Refusal :=
  .next (takeFlit s port flit fun s =>
    let s := flitHeader s port flit
    emit s (.flitOut port { ty := 4, seq := 0, ack := (getPort s port).rxSeq, vl := 0, credVl := 0, credits := 0,
                            time := (flit.time + hold) % 2 ^ 64, fec := 0 }))

/-- PONG_FLIT: half of the arrival time minus TIME, both in units of 50 ps, is the one-way delay (R371). -/
def execPongFlit (port : Nat) (flit : Flit) (arrival : Nat) (s : State) : Host.Outcome State Fault Refusal :=
  .next (takeFlit s port flit fun s =>
    let s := flitHeader s port flit
    let d := min (2 ^ 32 - 1) ((arrival - flit.time) * 25)
    moveWaiting (delayEvent (setObj s (Obj.port_LINK_DELAY_PS port) d) port d) port)

/-- DISC_FLIT: the peer is noted, and a foreign partition or this node's own number fences the port (R381). In bring-up the delay
is measured next, with a PING that carries the node's local time `now` (R368, R371). -/
def execDiscFlit (port peerNode peerPort peerPart now : Nat) (s : State) : Host.Outcome State Fault Refusal :=
  .next (
    let t := discover s port peerNode peerPort peerPart
    if linkState s port = linkTraining then (if linkState t port = linkFenced then t else ping now t port)
    else if linkState s port = linkIsUp then t
    else s)

/-- REPLAY_TIMEOUT: the oldest unacknowledged flit is 2.0 us old (R370). -/
def execReplayTimeout (port : Nat) (s : State) : Host.Outcome State Fault Refusal :=
  .next (if linkState s port = linkIsUp then resendFlits s port else s)

/-- PING_TIMER: every 64 turns, a PING on each up port with the node's local time (R371). -/
def execPingTimer (now : Nat) (s : State) : Host.Outcome State Fault Refusal :=
  .next (
    if s.turn.no % 64 = 0 then ((List.range 16).filter fun p => linkState s p == linkIsUp).foldl (ping now) s else s)

/-! ### Frames (R372 to R374, R381) -/

/-- Whether the port toward a lender has fewer than 4,096 requests outstanding (R390). -/
def mayAsk (s : State) (lender : Nat) : Bool :=
  match portTo s lender with
  | none => false
  | some p => decide ((s.fab.gets.filter fun g => s.ledger.members.contains g.1 && portTo s g.1 == some p).length < 4096)

/-- Ask a lender for an entry, or wait while the port's requests stand at the limit (R390). -/
def askLender (s : State) (lender key : Nat) : State :=
  if mayAsk s lender then
    bump (emit { s with fab := { s.fab with gets := s.fab.gets ++ [(lender, key)] } } (.cacheGet lender key)) Obj.CACHE_REMOTE_GETS 1
  else { s with fab := { s.fab with getWait := s.fab.getWait ++ [(lender, key)] } }

/-- A reply has come: its request is done, an entry it carries is kept, to be counted at the boundary whose P2 tick follows,
and requests that waited may go (R390). -/
def takeReply (s : State) (src key : Nat) (value : Option (List Byte)) : State :=
  let kept := match value with
    | some v => if s.fab.kept.any (·.2.key == key) then s.fab.kept else s.fab.kept ++ [(dueTurn s, { key := key, value := v })]
    | none => s.fab.kept
  let wait := s.fab.getWait
  wait.foldl (fun s g => askLender s g.1 g.2)
    { s with fab := { s.fab with kept := kept, gets := s.fab.gets.erase (src, key), getWait := [] } }

/-- The SEQ values that have become next, delivered out of those held. -/
def deliver : Nat → Tally → List Tally → Tally × List Tally
  | 0, n, held => (n, held)
  | fuel + 1, n, held => if held.contains n then deliver fuel (n + 1) (held.filter (· != n)) else (n, held)

/-- A whole frame for this node enters its stream: delivered in SEQ order, held while up to 256 are out of order,
discarded where its SEQ has been delivered or is held (R374). Replies that the frames delivered carry are taken (R390). -/
def frameIn (s : State) (f : Frame) : State :=
  let pos := fun (t : TStream) => t.peer == f.src && t.cls == f.cls
  let st := (s.fab.inStreams.find? pos).getD { peer := f.src, cls := f.cls, next := 0, held := [], out := [] }
  let now :=
    if f.seq = st.next then
      let d := deliver st.held.length (st.next + 1) st.held
      { st with next := d.1, held := d.2 }
    else if 2 ^ 63 ≤ (f.seq - st.next).toNat ∨ st.held.contains f.seq = true ∨ 256 ≤ st.held.length then st
    else { st with held := st.held ++ [f.seq] }
  let carried := match f.reply with
    | some r => if now = st ∨ f.cls ≠ 3 then [] else [(f.src, f.seq, r)]
    | none => []
  let stay := fun (r : Nat × Tally × Nat × Option (List Byte)) => !(r.1 == f.src && f.cls == 3) || now.held.contains r.2.1
  let all := s.fab.replies ++ carried
  (all.filter fun r => !stay r).foldl (fun s r => takeReply s r.1 r.2.2.1 r.2.2.2)
    { s with fab := { s.fab with inStreams := s.fab.inStreams.filter (fun t => !pos t) ++ [now], replies := all.filter stay } }

/-- FRAME_RECEIVE (R372, R374, R381). -/
def execFrameReceive (frame : Frame) (s : State) : Host.Outcome State Fault Refusal :=
  .next (
    if frame.part ≠ getObj s Obj.PARTITION_ID then bump s Obj.FRAMES_WRONG_PART 1
    else if !s.ledger.members.contains frame.dst then s
    else if frame.dst = selfNode s then
      if frame.good then frameIn s frame
      else
        let next := ((s.fab.inStreams.find? fun t => t.peer == frame.src && t.cls == frame.cls).map (·.next)).getD 0
        emit s (.streamAck frame.src frame.cls next true)
    else if 3 ≤ frame.hops then { s with fab := { s.fab with badFrames := s.fab.badFrames + 1 } }
    else if s.turn.escalated then s
    else
      match portTo s frame.dst with
      | none => s
      | some p => putFrame s p { frame with hops := frame.hops + 1 })

/-- E2E_ACK_TIMER: a cumulative acknowledgement of each stream in a CLASS 4 frame (R374). -/
def execE2eAckTimer (s : State) : Host.Outcome State Fault Refusal :=
  .next (s.fab.inStreams.foldl (fun s t => emit s (.streamAck t.peer t.cls t.next false)) s)

/-- TRANSPORT_ACK: frames below `next` are released, and a caravan whose END frame is among them counts as consumed
(R395), and frames that waited for the window go (R394); with `resend` those that had gone go again (R374). -/
def execTransportAck (dst cls : Nat) (next : Tally) (resend : Bool) (s : State) : Host.Outcome State Fault Refusal :=
  .next (
    match s.fab.streams.find? fun t => t.peer == dst && t.cls == cls with
    | none => s
    | some t =>
      let old := fun (f : Frame) => decide (0 < (next - f.seq).toNat) && decide ((next - f.seq).toNat < 2 ^ 63)
      let gone := (t.out.filter fun f => old f && f.last && decide (f.cls = 0)).length
      let kept := t.out.filter fun f => !old f
      let st := s.fab.streams.map fun (x : TStream) => if x.peer == dst && x.cls == cls then { x with out := kept } else x
      let un := put s.fab.unconsumed dst (lookD s.fab.unconsumed dst 0 - gone)
      let s := { s with fab := { s.fab with streams := st, unconsumed := un } }
      let sent := min streamWindow t.out.length - (t.out.length - kept.length)
      let s := ((kept.take streamWindow).drop sent).foldl routeFrame s
      if resend then (kept.take sent).foldl routeFrame (bump s Obj.E2E_RESENDS sent) else s)

/-! ### Boundary marks (R378, R28, R29) -/

/-- BOUNDARY_MARK: the first mark of a boundary steers the time base by at most 40 ticks and goes on to the other up
ports; a mark also shows a node that waits to join that the port's peer is a member (R387). `hold` is the member's hold time in units of 50 ps, `offset`
the local P5 tick minus the estimate, in ns. -/
def execBoundaryMark (port : Nat) (mark : Mark) (hold : Nat) (offset : Int) (s : State) : Host.Outcome State Fault Refusal :=
  .next (
    if carries s port = false ∨ 3 < mark.hops then s
    else
    let s := { s with fab := { s.fab with memberPorts := nub (s.fab.memberPorts ++ [port]) } }
    if !isMember s ∨ isLeader s = true ∨ mark.turn < s.turn.markTurn then s
    else
      let ticks := offset * 5 / 4
      let steer := if 40 < ticks then -40 else if ticks < -40 then 40 else -ticks
      let bad := if 1000 < offset.natAbs then s.turn.alignBad + 1 else 0
      let s := { s with turn := { s.turn with markTurn := mark.turn + 1, markSeen := true, alignOff := offset, alignBad := bad, steer := steer } }
      let corr := mark.corr + getObj s (Obj.port_LINK_DELAY_PS port) / 50 + hold
      ((upPorts s).filter (· != port)).foldl (fun s p =>
        emit s (.markOut p { turn := mark.turn, hops := mark.hops + 1, corr := corr })) s)

/-- MARK_LOSS_WITHDRAWAL: a member that counts no mark at 64 consecutive boundaries withdraws (R378). -/
def execMarkLossWithdrawal (s : State) : Host.Outcome State Fault Refusal :=
  .next (if 64 ≤ s.turn.marksMissed ∧ isLeader s = false then withdrawNow s else s)

/-- ALIGNMENT_WITHDRAWAL: more than 1.0 us off at 4 consecutive boundaries (R29). -/
def execAlignmentWithdrawal (s : State) : Host.Outcome State Fault Refusal :=
  .next (if 4 ≤ s.turn.alignBad then withdrawNow s else s)

/-- At the P5 tick the turn master sends a mark on every up port (R378); a member counts whether one came. A boundary without a
mark measures no offset, so that the boundaries beyond 1.0 us are no longer consecutive (R29). -/
def marksAtP5 (s : State) : State :=
  let s := { s with fab := { s.fab with memberPorts := [] } }
  if isLeader s then (upPorts s).foldl (fun s p => emit s (.markOut p { turn := s.turn.no, hops := 0, corr := 0 })) s
  else if isMember s then
    { s with turn := { s.turn with marksMissed := if s.turn.markSeen then 0 else s.turn.marksMissed + 1,
                                   alignBad := if s.turn.markSeen then s.turn.alignBad else 0, markSeen := false } }
  else s

end Sys2Proof.Machine
end

