-- ==== Sys2Proof/Machine/Cache.lean ====
section
/-! DEFINITION. The pooled cache (R389, R390) and the memos kept in it (R391). -/

namespace Sys2Proof.Machine

/-- The lender of the slot of a key: the slot is the key's byte 0. -/
def lenderOf (s : State) (key : Nat) : Option Nat := s.ledger.cacheMap[key % 256]?

/-- Bytes of the lent space that entries take. -/
def cacheBytes (es : List CacheEnt) : Nat := es.foldl (fun n e => n + 16 + e.value.length) 0

/-- The entry of a key that this node lends. -/
def cacheFind (s : State) (key : Nat) : Option (List Byte) := (s.fab.cache.find? (·.key == key)).map (·.value)

/-- Read an entry: it becomes the most recently read. -/
def cacheTouch (s : State) (key : Nat) : State :=
  let hit := s.fab.cache.filter (·.key == key)
  { s with fab := { s.fab with cache := s.fab.cache.filter (·.key != key) ++ hit } }

/-- Evict the least recently read entries until `n` bytes fit in `cap`. -/
def evict (cap n : Nat) : List CacheEnt → List CacheEnt
  | [] => []
  | e :: es => if cacheBytes (e :: es) + n ≤ cap then e :: es else evict cap n es

/-- Store a new entry; one that exists, or that is no legal entry, is dropped (R389). -/
def cachePut (s : State) (key : Nat) (value : List Byte) : State :=
  let cap := getObj s Obj.CACHE_LEND_GIB * 2 ^ 30
  let n := 16 + value.length
  if value.length < 64 ∨ 65536 < value.length ∨ (cacheFind s key).isSome ∨ cap < n then s
  else { s with fab := { s.fab with cache := evict cap n s.fab.cache ++ [{ key := key, value := value }] } }

/-- What a node lends has shrunk: entries beyond it are evicted (R389). -/
def trimCache (s : State) : State :=
  { s with fab := { s.fab with cache := evict (getObj s Obj.CACHE_LEND_GIB * 2 ^ 30) 0 s.fab.cache } }

/-- GET: the slot's lender answers with the entry's value, or with none (R390). -/
def execGet (src key : Nat) (s : State) : Host.Outcome State Fault Refusal :=
  .next (
    if lenderOf s key = some (selfNode s) then emit (cacheTouch s key) (.cacheReply src key (cacheFind s key))
    else emit s (.cacheReply src key none))

/-- PUT: a new entry is stored by the slot's lender (R389). -/
def execPut (_src key : Nat) (value : List Byte) (s : State) : Host.Outcome State Fault Refusal :=
  .next (if lenderOf s key = some (selfNode s) then cachePut s key value else s)

/-- DEL: the entry is removed (R389). -/
def execDel (_src key : Nat) (s : State) : Host.Outcome State Fault Refusal :=
  .next { s with fab := { s.fab with cache := s.fab.cache.filter (·.key != key) } }

/-! ### Memos (R391) -/

/-- The bytes of a predicate, as an entry carries them (Table 3.7). -/
def predBytes (p : Pred) : List Byte := leBytes 8 p.must.toNat ++ leBytes 8 p.mustNot.toNat ++ leBytes 4 p.attrLo ++ leBytes 4 p.attrHi

/-- The key of a memo: the first 128 bits of SHAKE256 over the fields that R391 lists. -/
def memoKeyOf (coll k probes d : Nat) (filter : Bool) (p : Pred) (payload : List Byte) : Nat :=
  leNat ((shake256 (leBytes 2 coll ++ leBytes 4 k ++ leBytes 2 probes ++ leBytes 1 d ++ leBytes 1 (if filter then 1 else 0)
    ++ (if filter then predBytes p else []) ++ payload) 16).take 16)

/-- The value of a memo, padded to the least size of an entry. -/
def memoBytes (pin version : Nat) (st : Nat) (widened replica : Bool) (ids : List (BitVec 64)) : List Byte :=
  let b := leBytes 6 pin ++ leBytes 8 version ++ leBytes 1 st
    ++ leBytes 1 ((if widened then 1 else 0) + (if replica then 2 else 0)) ++ leBytes 4 ids.length
    ++ ids.flatMap fun i => leBytes 8 i.toNat
  b ++ List.replicate (64 - b.length) 0

/-- What a memo says. -/
structure MemoVal where
  pin : Nat
  version : Nat
  fewer : Bool
  widened : Bool
  replica : Bool
  ids : List (BitVec 64)
  deriving DecidableEq, Repr

/-- Read a memo. -/
def parseMemo (b : List Byte) : MemoVal :=
  { pin := leNat (slice b 0 6), version := leNat (slice b 6 8), fewer := leNat (slice b 14 1) == 1,
    widened := leNat (slice b 15 1) % 2 == 1, replica := leNat (slice b 15 1) / 2 % 2 == 1,
    ids := (List.range (leNat (slice b 16 4))).map fun i => BitVec.ofNat 64 (leNat (slice b (20 + 8 * i) 8)) }

/-- An entry that this node keeps, once the reply that brought it has been counted. -/
def keptFind (s : State) (key : Nat) : Option (List Byte) :=
  (s.fab.kept.find? fun e => e.2.key == key && decide (e.1 ≤ s.turn.no)).map (·.2.value)

/-- Look a memo up in t0: in this node's own lent space, among the entries it keeps, or by a GET to the slot's lender, with an
empty value until the reply comes. -/
def memoLookup (s : State) (key : Nat) : State × Option (List Byte) :=
  match lenderOf s key with
  | none => (s, none)
  | some n =>
    if n = selfNode s then (cacheTouch s key, cacheFind s key)
    else
      match keptFind s key with
      | some v => (s, some v)
      | none => (askLender s n key, some [])

/-- The memo of a query in t1: the one found in t0, or the one that the lender's reply brought in time (R391). -/
def memoOf (s : State) (q : Query) : Option (List Byte) := if q.memoHit = some [] then keptFind s q.memoKey else q.memoHit

/-- Store a memo with the slot's lender. -/
def memoPut (s : State) (key : Nat) (value : List Byte) : State :=
  match lenderOf s key with
  | none => s
  | some n => if n = selfNode s then cachePut s key value else emit s (.cachePut n key value)

end Sys2Proof.Machine
end

