-- ==== Sys2Proof/Machine/Flash.lean ====
section
/-! DEFINITION. Flash media (chapter 16): dies and media record addresses, pages written and discarded, relocation,
program failures. -/

namespace Sys2Proof.Machine

/-! ### Dies and addresses (R354, R355) -/

/-- The mounted channels in ascending order. -/
def mountedChans (s : State) : List Nat := (List.range 32).filter fun n => bitsOf (getObj s Obj.CHANNELS_MOUNTED) n 1 == 1

/-- Channel and DIE field of die number `d`, numbered densely over mounted channels. -/
def dieAddr (s : State) (d : Nat) : Nat × Nat :=
  let m := mountedChans s
  (nth m (d % max 1 m.length), d / max 1 m.length)

/-- Die number of a channel and DIE field, none where the channel is not mounted. -/
def dieNum (s : State) (chan die : Nat) : Option Nat :=
  let m := mountedChans s
  (m.findIdx? (· == chan)).map fun i => die * m.length + i

/-- A media record address (Table 16.2). -/
def mediaAddr (s : State) (d lpn off : Nat) : Nat :=
  let a := dieAddr s d
  off % 2 ^ 14 + a.1 * 2 ^ 16 + a.2 % 64 * 2 ^ 21 + lpn * 2 ^ 27

/-- Channel, DIE and logical page of a media record address. -/
def addrChan (a : Nat) : Nat := bitsOf a 16 5
def addrDie (a : Nat) : Nat := bitsOf a 21 6
def addrLpn (a : Nat) : Nat := bitsOf a 27 37

/-- The page that a media record address names, as die number and logical page. -/
def addrPage (s : State) (a : Nat) : Option (Nat × Nat) := (dieNum s (addrChan a) (addrDie a)).map fun d => (d, addrLpn a)

/-- Change die `d`. -/
def onDie (s : State) (d : Nat) (f : Die → Die) : State :=
  { s with flash := { s.flash with dies := updFirst (·.num == d) f s.flash.dies } }

/-- Dies that take new pages (R362). -/
def openDies (s : State) : List Die := s.flash.dies.filter fun d => !d.readOnly

/-! ### Pages (R356, R357, R363) -/

/-- The block of a physical page (R361). -/
def pageBlock (p : Nat) : Nat := p / max 1 Config.blockPages

/-- A program of a physical page: its block's count of reads starts again (R361), and later new pages take other numbers. -/
def Die.program (p : Nat) (x : Die) : Die := { x with next := max x.next (p + 1), reads := del x.reads (pageBlock p) }

/-- Logical pages of die `d` that lie in a block. -/
def blockPagesOf (s : State) (d b : Nat) : List Nat :=
  (s.flash.maps.filter fun m => m.1.1 == d && pageBlock m.2 == b).map (·.1.2)

/-- A block waits for relocation, which takes place in slack (R361). -/
def markBlock (s : State) (d b : Nat) : State := onDie s d fun x => { x with marked := nub (x.marked ++ blockPagesOf s d b) }

/-- A read of a physical page counts on its block, which is marked once the count exceeds READ_DISTURB_LIMIT (R361). -/
def countRead (s : State) (d p : Nat) : State :=
  let b := pageBlock p
  let n := (((s.flash.dies.find? (·.num == d)).map fun x => lookD x.reads b 0).getD 0) + 1
  let s := onDie s d fun x => { x with reads := put x.reads b n }
  if getObj s Obj.READ_DISTURB_LIMIT < n then markBlock s d b else s

/-- Whether a physical page may be programmed: nothing is mapped or about to be mapped to it, and no read can still meet it (R356). -/
def pageFree (s : State) (d p : Nat) : Bool :=
  !(s.flash.maps.any fun m => m.1.1 == d && m.2 == p) && !(s.flash.held.any fun h => h.1 == d && h.2.1 == p)
    && !(s.turn.shadow.any fun c => match c with | .pageMap d' _ p' _ => d' == d && p' == p | _ => false)

/-- A logical page gets a new physical page at boundary `n`; the old one is not erased before the boundary after that (R356). A
page that has been discarded meanwhile keeps none. -/
def remap (s : State) (d lpn p n : Nat) : State :=
  match look s.flash.maps (d, lpn) with
  | none => s
  | some old => { s with flash := { s.flash with maps := put s.flash.maps (d, lpn) p, held := s.flash.held ++ [(d, old, n + 1)] } }

/-- Whole pages that row groups or table builds write to T5 or give back: they count, and they fill the media (R357, R358). -/
def countPages (s : State) (written freed : Nat) : State :=
  bump (bump { s with flash := { s.flash with used := s.flash.used + written - freed } } Obj.PAGES_PROGRAMMED written)
    Obj.PAGES_DISCARDED freed

/-- Write one new logical page of die `d`; answers its number. Its first physical page has the same number. -/
def writePage (s : State) (d : Nat) : State × Nat :=
  let lpn := ((s.flash.dies.find? (·.num == d)).map (·.next)).getD 0
  let s := onDie s d (Die.program lpn)
  let s := { s with flash := { s.flash with maps := put s.flash.maps (d, lpn) lpn, used := s.flash.used + 1,
                                            discarded := s.flash.discarded.filter (· != (d, lpn)) } }
  (bump s Obj.PAGES_PROGRAMMED 1, lpn)

/-- Place `n` records of `size` bytes: record i on open die i mod D, each within a page (R266, R309). `cur` holds the page
and the next byte of each die. Answers the addresses. -/
def placeRecords (size : Nat) (ds : List Nat) : Nat → Nat → List (Nat × Nat × Nat) → State → State × List Nat
  | 0, _, _, s => (s, [])
  | n + 1, i, cur, s =>
    let d := nth ds (i % max 1 ds.length)
    let (s, lpn, off) :=
      match look cur d with
      | some (lpn, off) => if off + size ≤ 16384 then (s, lpn, off) else let w := writePage s d; (w.1, w.2, 0)
      | none => let w := writePage s d; (w.1, w.2, 0)
    let r := placeRecords size ds n (i + 1) (put cur d (lpn, off + size)) s
    (r.1, mediaAddr s d lpn off :: r.2)

/-- Discard the pages of records that are freed (R363). -/
def discardPages (s : State) (locs : List Nat) : State :=
  let ps := (nub (locs.filterMap (addrPage s))).filter fun p => (look s.flash.maps p).isSome
  let s := { s with flash := { s.flash with maps := ps.foldl (fun m p => del m p) s.flash.maps,
                                            used := s.flash.used - ps.length,
                                            discarded := s.flash.discarded ++ ps } }
  bump s Obj.PAGES_DISCARDED ps.length

/-! ### Fill (R358, R359) -/

/-- FILL_PCT: user pages that hold data, as a percentage of user capacity. -/
def fillPct (s : State) : Nat :=
  let user := getObj s Obj.USER_GB * 10 ^ 9 / 16384
  if user = 0 then 0 else min 100 (s.flash.used * 100 / user)

/-- SLC cache in tenths of a percent (R358). -/
def slcTenths (f : Nat) : Nat := if f < 95 then 100 - f else 5

/-- The part of boundary `n`: the SLC cache is resized and the fill stop tested (R358, R359), and old pages may be erased (R356). -/
def flashAtBoundary (s : State) (n : Nat) : State :=
  let f := fillPct s
  let stop := getObj s Obj.FILL_STOP_PCT
  let hit := decide (stop ≤ f)
  let was := s.flash.stopped
  let now := hit || (was && decide (stop < f + 2))
  let s := setObj s Obj.FILL_PCT f
  let s := setObj s Obj.SLC_CACHE_PCT (f32Bits (fratio (slcTenths f) 10))
  let s := { s with flash := { s.flash with slc10 := slcTenths f, stopped := now, held := s.flash.held.filter fun h => decide (n < h.2.2) } }
  if hit && !s.place.fillPosted then
    let s := postEvent s 0x7044 0
    { s with place := { s.place with fillPosted := true } }
  else s

/-! ### Commands -/

/-- RELOCATION_COPY_COMPLETE: a page copied within its die to a free physical page; the shadow mapping becomes active at the next P5
(R356). -/
def execRelocationCopyComplete (die lpn phys : Nat) (s : State) : Host.Outcome State Fault Refusal :=
  .next (
    if (look s.flash.maps (die, lpn)).isNone || !pageFree s die phys then s
    else
      let s := onDie s die fun x => Die.program phys { x with marked := x.marked.filter (· != lpn) }
      bump (shadowPush s (.pageMap die lpn phys (dueTurn s))) Obj.PAGES_RELOCATED 1)

/-- Whether a die has too few spare blocks left (R362). -/
def sparesShort (retired : Nat) : Bool := decide (100 * (Config.dieSpares - retired) < 2 * Config.dieBlocks)

/-- One page of a failed block is programmed elsewhere on its die (R362). -/
def reprogram (die block : Nat) (s : State) (p : Nat × Nat) : State :=
  if (look s.flash.maps (die, p.1)).isNone || !pageFree s die p.2 || pageBlock p.2 == block then s
  else onDie { s with flash := { s.flash with maps := put s.flash.maps (die, p.1) p.2 } } die (Die.program p.2)

/-- PROGRAM_FAILURE: block `block` of die `die` is retired and its pages are reprogrammed elsewhere on the die; the die
becomes read-only when its spares run short (R362). `pages` gives each affected page and its new physical page, which is free and
lies in another block. -/
def execProgramFailure (die block : Nat) (pages : List (Nat × Nat)) (s : State) : Host.Outcome State Fault Refusal :=
  .next (
    match s.flash.dies.find? (·.num == die) with
    | none => s
    | some d =>
      if d.retired.contains block then s
      else
        let short := sparesShort (d.retired.length + 1)
        let s := pages.foldl (reprogram die block) s
        let s := onDie s die fun x => { x with retired := x.retired ++ [block], readOnly := x.readOnly || short }
        let s := bump s Obj.BLOCKS_RETIRED 1
        if short && !d.readOnly then
          let ch := (dieAddr s die).1
          postEvent (setObj s (Obj.chan_DIES_READ_ONLY ch) (getObj s (Obj.chan_DIES_READ_ONLY ch) + 1)) 0x3019 die
        else s)

end Sys2Proof.Machine
end

