-- ==== Sys2Proof/Machine/Barriers.lean ====
section
/-! DEFINITION. Barrier slots (R397 to R404). Member 128 stands for the Management Controller. -/

namespace Sys2Proof.Machine

/-- STATE of a slot (Table 18.4). -/
def bsIdle : Nat := 0
def bsGathering : Nat := 1
def bsFailed : Nat := 2
def bsDisabled : Nat := 3

/-- A slot at reset: disabled, generation 0. -/
def BSlot.reset : BSlot :=
  { gen := 0, state := bsDisabled, tiles := [], mc := false, remote := [], timer := false, failFlag := [], clearDue := 0 }

/-- Slot `n`. -/
def getBslot (s : State) (n : Nat) : BSlot := (look s.bslots n).getD BSlot.reset

/-- Replace slot `n`. -/
def setBslot (s : State) (n : Nat) (v : BSlot) : State := { s with bslots := put s.bslots n v }

/-- Nodes whose bit is set in a 32-byte mask. -/
def maskNodes (b : List Byte) : List Nat := (List.range 256).filter fun i => (b.getD (i / 8) 0).toNat / 2 ^ (i % 8) % 2 == 1

/-- The 32-byte mask of a set of nodes. -/
def nodeMask (ns : List Nat) : List Byte :=
  (List.range 32).map fun j => BitVec.ofNat 8 ((List.range 8).foldl (fun v k => if ns.contains (8 * j + k) then v + 2 ^ k else v) 0)

/-- NODE_MASK as stored: the node's own bit set, bits of nodes that are not members cleared (R397). -/
def clampMask (s : State) (b : List Byte) : List Byte :=
  nodeMask ((maskNodes b).filter (fun n => isMember s && s.ledger.members.contains n) ++ [selfNode s])

/-- The nodes of a slot in ascending order; only this one by default. -/
def slotNodes (s : State) (n : Nat) : List Nat :=
  match look s.dict.doms (Obj.bslot_NODE_MASK n) with
  | none => [selfNode s]
  | some b => maskNodes b

/-- The other nodes of a slot, and its root (R399). -/
def slotOthers (s : State) (n : Nat) : List Nat := (slotNodes s n).filter (· != selfNode s)
def slotRoot (s : State) (n : Nat) : Nat := (slotNodes s n).headD (selfNode s)

/-- Tiles of a slot's tile mask. -/
def slotTiles (s : State) (n : Nat) : List Nat :=
  (List.range 128).filter fun t =>
    bitsOf (if t < 64 then getObj s (Obj.bslot_TILE_MASK_LO n) else getObj s (Obj.bslot_TILE_MASK_HI n)) (t % 64) 1 == 1

/-- ARRIVED (Table 18.4). -/
def BSlot.arrived (b : BSlot) : Nat := b.tiles.length + (if b.mc then 1 else 0)

/-- BSLOT_STATUS of a slot (Table 18.4). -/
def bslotStatus (b : BSlot) : Nat := b.gen + 2 ^ 32 * b.state + 2 ^ 34 * b.arrived

/-- Whether every local member has arrived in the present generation (R399). -/
def locallyComplete (s : State) (n : Nat) : Bool :=
  let b := getBslot s n
  (slotTiles s n).all (fun t => b.tiles.contains t) && (b.mc || !isSet s (Obj.bslot_MC_MEMBER n))

/-- Kinds of barrier messages (Table 18.2). -/
def kArrive : Nat := 1
def kRelease : Nat := 2
def kAbort : Nat := 3

/-- Send a barrier message to each of some nodes. -/
def barrierSend (s : State) (dsts : List Nat) (kind n gen cause : Nat) : State :=
  dsts.foldl (fun s d => emit s (.barrierMsg d kind n gen cause)) s

/-- A generation begins: a node that is not the root and has no member of its own is locally complete at once, and tells the root
(R399). -/
def beginGen (s : State) (n : Nat) : State :=
  if locallyComplete s n = true ∧ slotRoot s n ≠ selfNode s then barrierSend s [slotRoot s n] kArrive n (getBslot s n).gen 0 else s

/-- Release of a slot: waiting members resume, GEN increments modulo 2^32, the slot is idle (R399). -/
def releaseSlot (s : State) (n : Nat) : State :=
  let b := getBslot s n
  beginGen (bump (setBslot s n { b with gen := (b.gen + 1) % 2 ^ 32, state := bsIdle, tiles := [], mc := false, remote := [], timer := false })
    Obj.BARRIERS_RELEASED 1) n

/-- Test the completion of a slot in progress: the root releases with every ARRIVE in, and tells the others (R399). -/
def testSlot (s : State) (n : Nat) : State :=
  let b := getBslot s n
  if b.state = bsGathering ∧ locallyComplete s n = true ∧ slotRoot s n = selfNode s
      ∧ (slotOthers s n).all (fun d => b.remote.contains d) = true then
    releaseSlot (barrierSend s (slotOthers s n) kRelease n b.gen 0) n
  else s

/-- A local member has arrived: the timer runs, and a node that is not the root tells the root once it is complete. -/
def afterArrival (s : State) (n : Nat) (b : BSlot) : State :=
  let s := setBslot s n { b with state := bsGathering, timer := true }
  if locallyComplete s n = true ∧ slotRoot s n ≠ selfNode s then barrierSend s [slotRoot s n] kArrive n b.gen 0
  else testSlot s n

/-- ARRIVE of a tile (R398, R402): at a failed slot the member resumes at once with its failure flag set. -/
def execArrive (slot tile : Nat) (s : State) : Host.Outcome State Fault Refusal :=
  .next (
    let b := getBslot s slot
    if !(slotTiles s slot).contains tile then s
    else if b.state = bsFailed then setBslot s slot { b with failFlag := nub (b.failFlag ++ [tile]) }
    else if b.state = bsDisabled ∨ b.tiles.contains tile = true then s
    else afterArrival s slot { b with tiles := b.tiles ++ [tile], failFlag := b.failFlag.filter (· != tile) })

/-- BSLOT_ARRIVE, the arrival of the Management Controller (R398). -/
def execBslotArrive (slot : Nat) (s : State) : Host.Outcome State Fault Refusal :=
  .next (
    let b := getBslot s slot
    if !isSet s (Obj.bslot_MC_MEMBER slot) then s
    else if b.state = bsFailed then setBslot s slot { b with failFlag := nub (b.failFlag ++ [128]) }
    else if b.state = bsDisabled then s
    else if b.mc then bump s Obj.MC_EXTRA_ARRIVALS 1
    else afterArrival s slot { b with mc := true, failFlag := b.failFlag.filter (· != 128) })

/-- Whether a message is discarded as stray (R400). -/
def strayMsg (s : State) (src n gen : Nat) : Bool :=
  let b := getBslot s n
  b.gen != gen || b.state == bsDisabled || !(slotNodes s n).contains src

/-- ARRIVE_MESSAGE at the root (R399). -/
def execArriveMessage (src slot gen : Nat) (s : State) : Host.Outcome State Fault Refusal :=
  .next (
    let b := getBslot s slot
    if strayMsg s src slot gen then bump s Obj.STRAY_MESSAGES 1
    else if b.state = bsFailed ∨ slotRoot s slot ≠ selfNode s then s
    else testSlot (setBslot s slot { b with state := bsGathering, remote := nub (b.remote ++ [src]) }) slot)

/-- RELEASE_MESSAGE at a node that is not the root (R399). -/
def execReleaseMessage (src slot gen : Nat) (s : State) : Host.Outcome State Fault Refusal :=
  .next (
    if strayMsg s src slot gen then bump s Obj.STRAY_MESSAGES 1
    else if (getBslot s slot).state = bsFailed ∨ slotRoot s slot = selfNode s then s
    else releaseSlot s slot)

/-- A slot fails with a cause (R401): waiting members resume with their failure flag, event 0x2041. -/
def failSlot (s : State) (n cause : Nat) (tell : Bool) : State :=
  let b := getBslot s n
  let out := nub (b.failFlag ++ b.tiles ++ (if b.mc then [128] else []))
  let s := setBslot s n { b with state := bsFailed, tiles := [], mc := false, remote := [], timer := false, failFlag := out }
  let s := bump (setObj s (Obj.bslot_CAUSE n) cause) Obj.BARRIERS_FAILED 1
  let dsts := if slotRoot s n = selfNode s then slotOthers s n else [slotRoot s n]
  let s := if tell then barrierSend s dsts kAbort n b.gen cause else s
  postEvent s 0x2041 (n + 2 ^ 6 * b.gen + 2 ^ 38 * cause)

/-- ABORT_MESSAGE: the node fails the slot with the cause that it carries, and sends no ABORT (R401). -/
def execAbortMessage (src slot gen cause : Nat) (s : State) : Host.Outcome State Fault Refusal :=
  .next (
    if strayMsg s src slot gen then bump s Obj.STRAY_MESSAGES 1
    else if (getBslot s slot).state = bsFailed then s
    else failSlot s slot (min 2 (cause % 4)) false)

/-- BARRIER_TIMEOUT: the timer expires before release (R401). -/
def execBarrierTimeout (slot : Nat) (s : State) : Host.Outcome State Fault Refusal :=
  .next (
    let b := getBslot s slot
    if b.state = bsGathering ∧ b.timer = true then failSlot s slot 1 true else s)

/-- A withdrawn node fails every enabled slot whose node mask names it, with cause 2 (R401). -/
def barrierLost (s : State) (d : Nat) : State :=
  (s.bslots.map (·.1)).foldl (fun s n =>
    let b := getBslot s n
    if (slotNodes s n).contains d && (b.state == bsIdle || b.state == bsGathering) then failSlot s n 2 true else s) s

/-- CLEAR = 1 with the boundary at which it acts. -/
def doClear (s : State) (n due : Nat) : State :=
  let b := getBslot s n
  if b.state = bsFailed then setBslot s n { b with clearDue := due } else s

/-- CLEAR: a failed slot returns to idle at the first turn boundary after the write (R402). -/
def execClear (slot : Nat) (s : State) : Host.Outcome State Fault Refusal := .next (doClear s slot (dueTurn s))

/-- A failed slot returns to idle, with GEN incremented (R402). -/
def clearSlot (s : State) (n : Nat) : State :=
  let b := getBslot s n
  if b.state = bsFailed then
    beginGen (setBslot s n { b with clearDue := 0, state := bsIdle, gen := (b.gen + 1) % 2 ^ 32, failFlag := [] }) n
  else setBslot s n { b with clearDue := 0 }

/-- Cleared slots that return to idle at boundary `n` (R402). -/
def clearsAtBoundary (s : State) (n : Nat) : State :=
  (s.bslots.map (·.1)).foldl (fun s k =>
    let b := getBslot s k
    if b.clearDue ≠ 0 ∧ b.clearDue ≤ n then clearSlot s k else s) s

/-- ENABLE as applied (R397, R404): an enabled slot is idle, a disabled one holds nobody. -/
def applyBslotEnable (s : State) (n v : Nat) : State :=
  let b := getBslot s n
  let s := setObj s (Obj.bslot_ENABLE n) v
  if v = 1 then (if b.state = bsDisabled then beginGen (setBslot s n { b with state := bsIdle }) n else s)
  else setBslot s n { BSlot.reset with gen := b.gen }

/-- Tiles that wait at a barrier: the Planner lends none of them (R398). -/
def waitingTiles (s : State) : List Nat := s.bslots.flatMap fun p => p.2.tiles

end Sys2Proof.Machine
end

