-- ==== Sys2Proof/Machine/Boards.lean ====
section
/-! DEFINITION. What the boards in force give the stages of the query path (R19, R41 to R47): tiles and operations, the work
placed on them, the late reserve, and what later boards hold for the queries carried into t0. -/

namespace Sys2Proof.Machine

/-! ### Capacity -/

/-- The board of a half in force. -/
def boardOf (s : State) (h : Nat) : Board := s.turn.cur.getD h Board.empty

/-- Add to a use count. -/
def addUse (l : List (Nat × Nat)) (k n : Nat) : List (Nat × Nat) := put l k (lookD l k 0 + n)

/-- Flash reads per waystation and per die, and hot reads per waystation, in `w` µs of a turn (Table 11.3). -/
def readCaps (w : Nat) : Nat × Nat × Nat := (w * 16 / 15, w / 12, w * 21)

/-- Slots that the board in force reserves for composition on a waystation (R120, R272). -/
def composeNow (s : State) (w : Nat) : Nat := lookD (boardOf s (w / 16)).waySlots w 0

/-- Tiles that a board lends to an engine, and operations that it reserves for it (Table 2.2). -/
def lentBy (b : Board) (e : Engine) : Nat := (b.loans.filter fun l => decide (l.engine = e)).length
def issueBy (b : Board) (e : Engine) : Nat := (b.issue.filter fun x => decide (x.2.1 = e)).foldl (fun n x => n + x.2.2) 0

/-- Tiles lent to an engine by the boards in force. -/
def tilesLent (s : State) (e : Engine) : Nat := s.turn.cur.foldl (fun n b => n + lentBy b e) 0

/-- STEPS_PER_TILE at the present work window and ARITH frequency (R284, R463). -/
def stepsPerTile (s : State) : Nat := perDomain s 0 (workWindowUs s * 2048)

/-- Operations that a board gives an engine: the steps of the tiles lent to the Selector or the Bazaar (R284), for the others
what the board reserves, and for the Composer and the Router nothing without a tile (R19). -/
def boardOps (s : State) (b : Board) (e : Engine) : Nat :=
  match e with
  | .selector | .bazaar => lentBy b e * stepsPerTile s
  | .composer | .router => if lentBy b e = 0 then 0 else issueBy b e
  | .scanner | .ingest | .compactor | .adapter => issueBy b e

/-- Whether the Turn Sequencer of a half misses this turn: the half issues no query-path work (R453). -/
def halfStalled (s : State) (half : Nat) : Bool := s.turn.seqMissed.contains (half, s.turn.no)

/-- Operations of an engine on a half in this turn: none where its Turn Sequencer misses the turn (R453). -/
def engineCap (s : State) (e : Engine) (h : Nat) : Nat := if halfStalled s h then 0 else boardOps s (boardOf s h) e

/-- Steps of the Selector and of the Bazaar in a turn. -/
def selectCap (s : State) : Nat := engineCap s .selector 0 + engineCap s .selector 1
def bazaarCap (s : State) : Nat := engineCap s .bazaar 0 + engineCap s .bazaar 1

/-- What of a capacity slipped work may take: the late reserve (R46). -/
def lateShare (s : State) (cap : Nat) : Nat := cap * getObj s Obj.LATE_RESERVE_64THS / 64

/-- Whether the Query Composer works on a half now: its Turn Sequencer runs, and a tile is lent to it (R19, R147, R453). -/
def composes (s : State) (h : Nat) : Bool :=
  decide (s.turn.phase ≠ .p5) && !halfStalled s h && decide (0 < lentBy (boardOf s h) .composer)

/-! ### Slack tiles -/

/-- Tiles that no board lends: those that wait at a barrier, that a watchdog keeps slack or has retired, and that failed. -/
def tilesHeld (s : State) : List Nat := waitingTiles s ++ s.turn.tileIdle ++ s.turn.tileRetired ++ s.ras.selfFail

/-- Whether a board lends a tile. -/
def lends (bs : List Board) (t : Nat) : Bool := bs.any fun b => b.loans.any (·.tile == t)

/-- Lend `n` slack tiles of the node to an engine, the lowest first, each by the board of its half. -/
def lendSlack (held : List Nat) (e : Engine) (n : Nat) (bs : List Board) : List Board :=
  (((List.range 128).filter fun t => !lends bs t && !held.contains t).take n).foldl
    (fun bs t => atIdx (fun b => { b with loans := b.loans ++ [⟨t, e⟩] }) (t / 64) bs) bs

/-- Raise the tiles lent to an engine to `n`, as far as slack tiles go (R284, R291). -/
def lendAtLeast (held : List Nat) (e : Engine) (n : Nat) (bs : List Board) : List Board :=
  lendSlack held e (n - bs.foldl (fun m b => m + lentBy b e) 0) bs

/-! ### Placing the work of a turn (R41, R46) -/

/-- Work that asks for a place: its operations on each half. -/
structure Work where
  engine : Engine
  id : Nat
  pin : Nat
  green : Bool
  late : Bool
  ops : List Nat
  deriving DecidableEq, Repr

/-- Order of service: admission TURN_NO, green before yellow (R46, R291). -/
def workLe (a b : Work) : Bool := decide (a.pin < b.pin) || (a.pin == b.pin && (a.green || !b.green))

/-- Place work in order where its operations fit what is left; answers what is placed and what is left. -/
def placeIn : List Nat → List Work → List Work × List Nat
  | room, [] => ([], room)
  | room, w :: ws =>
    if (room.zip w.ops).all fun p => decide (p.2 ≤ p.1) then
      let r := placeIn ((room.zip w.ops).map fun p => p.1 - p.2) ws
      (w :: r.1, r.2)
    else placeIn room ws

/-- Place the work of one engine on the capacities `cap` of the halves: slipped work first, within the late reserve, then the
work of the turn within what is left (R46). -/
def placeAll (s : State) (cap : List Nat) (ws : List Work) : List Work :=
  let ws := sortBy workLe ws
  let late := placeIn (cap.map (lateShare s)) (ws.filter (·.late))
  let used := (cap.map (lateShare s)).zip late.2 |>.map fun p => p.1 - p.2
  late.1 ++ (placeIn ((cap.zip used).map fun p => p.1 - p.2) (ws.filter fun w => !w.late)).1

/-- Record placed work. -/
def addPlaced (s : State) (ws : List Work) : State :=
  { s with turn := { s.turn with placed := s.turn.placed ++ ws.map fun w => ⟨w.engine, w.id, w.green, w.late⟩ } }

/-- Whether the work issued at P6 may complete now: in the work window, or in flight after P0 (R33, R37). -/
def issuing (s : State) : Bool := decide (s.turn.phase ≠ .p5)

/-- Whether no green work of a stage is still to be issued in this turn (R98). -/
def greensDone (s : State) (e : Engine) : Bool := !(s.turn.placed.any fun p => decide (p.engine = e) && p.green)

/-- Whether an engine has issued the work on `id` in this turn: it has its place, and yellow work comes after green (R41, R98). -/
def mayIssue (s : State) (e : Engine) (id : Nat) : Bool :=
  issuing s && (s.turn.placed.any fun p => decide (p.engine = e) && p.id == id && (p.green || greensDone s e))

/-- The work of an engine on `id` has completed. -/
def unplace (s : State) (e : Engine) (id : Nat) : State :=
  { s with turn := { s.turn with placed := s.turn.placed.filter fun p => !(decide (p.engine = e) && p.id == id) } }

/-! ### The bridge (R17) -/

/-- Whether `n` bytes more may cross the bridge in this turn: both halves account for them (R17). -/
def bridgeFits (s : State) (n : Nat) : Bool := s.turn.cur.all fun b => decide (s.turn.bridgeUsed + n ≤ b.bridgeBytes)

/-- Take bytes across the bridge for work of a half: the Host Interface is attached to H0 (Table 1.3). -/
def crossBridge (s : State) (half n : Nat) : State :=
  if half = 0 then s else { s with turn := { s.turn with bridgeUsed := s.turn.bridgeUsed + n } }

/-! ### What later boards hold (R43) -/

/-- Operations that the boards hold for an engine of a half in turn `t`. -/
def promised (s : State) (t h : Nat) (e : Engine) : Nat :=
  (s.turn.plan.filter fun p => p.turn == t && p.half == h && decide (p.engine = e)).foldl (fun n p => n + p.ops) 0

/-- Operations that the board of a half `k` turns from now can still be given to the queries of this turn (R43). -/
def aheadLeft (s : State) (h k : Nat) (e : Engine) : Nat :=
  (if k = 0 then engineCap s e h
   else ((boardOf s h).ahead.filter fun x => x.1 == k && decide (x.2.1 = e)).foldl (fun n x => n + x.2.2) 0)
    - (s.turn.plan.filter fun p => p.made == s.turn.no && p.turn == (s.turn.no + k) % turnMod && p.half == h && decide (p.engine = e)).foldl
        (fun n p => n + p.ops) 0

/-- Hold operations on a later board. -/
def holdAhead (s : State) (h k : Nat) (e : Engine) (n : Nat) : State :=
  { s with turn := { s.turn with plan := s.turn.plan ++ [⟨s.turn.no, (s.turn.no + k) % turnMod, h, e, n⟩] } }

/-- A board raised to what was promised for its turn: the operations, and a tile where the engine needs one (R43, R215). -/
def coverPlan (s : State) (held : List Nat) (t h : Nat) (bs : List Board) : List Board :=
  [Engine.composer, .router, .bazaar].foldl (fun bs e =>
    let n := promised s t h e
    let b := bs.getD h Board.empty
    if n ≤ boardOps s b e then bs
    else match e with
      | .bazaar => lendAtLeast held e (lentBy b e + (n - boardOps s b e + stepsPerTile s - 1) / max 1 (stepsPerTile s)) bs
      | _ =>
        let bs := if lentBy b e = 0 then lendSlack (held ++ (List.range 128).filter fun t => t / 64 != h) e 1 bs else bs
        atIdx (fun b => { b with issue := b.issue ++ [(4 * h, e, n - issueBy b e)] }) h bs) bs

end Sys2Proof.Machine
end

