-- ==== Sys2Proof/Machine/Models.lean ====
section
/-! DEFINITION. Model images (chapter 06): checking an image, running its layers, and the commands of its slots. -/

namespace Sys2Proof.Machine

/-! ### Hexiaper (R379) -/

/-- Bytes of one unit XORed with the bytes whose mask bit is set; none where the body ends early. -/
def hxDelta : Nat → Nat → List Byte → List Byte → Option (List Byte × List Byte)
  | 0, _, _, b => some ([], b)
  | n + 1, mask, prev, b =>
    let p := prev.headD 0
    if mask % 2 = 1 then
      match b with
      | [] => none
      | x :: b' => (hxDelta n (mask / 2) prev.tail b').map fun r => ((p ^^^ x) :: r.1, r.2)
    else (hxDelta n (mask / 2) prev.tail b).map fun r => (p :: r.1, r.2)

/-- Up to 16 units of a group: `left` raw bytes remain; answers the bytes and the rest of the body. -/
def hxUnits : Nat → Nat → Nat → List Byte → List Byte → Option (List Byte × List Byte)
  | 0, _, _, _, b => some ([], b)
  | n + 1, ctl, left, prev, b =>
    if left = 0 then some ([], b)
    else
      let unit : Option (List Byte × List Byte) :=
        match ctl % 4 with
        | 0 => some (List.replicate 16 0, b)
        | 1 => some (prev, b)
        | 2 => if b.length < 2 then none else hxDelta 16 (leNat (b.take 2)) prev (b.drop 2)
        | _ => if b.length < min 16 left then none else some (b.take (min 16 left), b.drop (min 16 left))
      match unit with
      | none => none
      | some (u, b') => (hxUnits n (ctl / 4) (left - min 16 left) u b').map fun r => (u.take (min 16 left) ++ r.1, r.2)

/-- The groups of a coded body, which must end with its last unit. -/
def hxGroups : Nat → Nat → List Byte → List Byte → Option (List Byte)
  | 0, left, _, b => if left = 0 ∧ b = [] then some [] else none
  | n + 1, left, prev, b =>
    if left = 0 then (if b = [] then some [] else none)
    else if b.length < 4 then none
    else match hxUnits 16 (leNat (b.take 4)) left prev (b.drop 4) with
      | none => none
      | some (u, b') =>
        let prev' := u.drop (u.length - 16)
        (hxGroups n (left - min 256 left) prev' b').map fun r => u ++ r

/-- The blocks of a Hexiaper stream of `raw` bytes; none where a block is malformed. -/
def hxDecode : Nat → Nat → List Byte → Option (List Byte)
  | 0, raw, _ => if raw = 0 then some [] else none
  | n + 1, raw, b =>
    if raw = 0 then some []
    else if b.length < 8 then none
    else
      let h := leNat (b.take 8)
      let r := bitsOf h 0 16 + 1
      let c := bitsOf h 16 16 + 1
      let body := slice b 8 c
      let block : Option (List Byte) :=
        if body.length < c ∨ raw < r then none
        else match bitsOf h 32 2 with
          | 0 => if c = r then some body else none
          | 1 => hxGroups 257 r (List.replicate 16 0) body
          | _ => none
      match block with
      | none => none
      | some x => (hxDecode n (raw - r) (b.drop (8 + c))).map fun y => x ++ y

/-! ### Checking an image (R139 to R142, R144) -/

/-- Activation formats by code (Table 6.4). -/
def afmtOf (n : Nat) : Fmt :=
  match n with
  | 3 => .int8
  | 4 => .e4m3
  | 5 => .e5m2
  | 6 => .bf16
  | _ => .fp16

/-- Operand pairs of Table 6.1. -/
def pairOk (w a : Nat) : Bool :=
  if w = 1 ∨ w = 2 then 3 ≤ a && a ≤ 5
  else if w = 3 then a == 3
  else if w = 4 ∨ w = 5 then a == 4 || a == 5
  else if w = 6 ∨ w = 7 then a == 6 || a == 7
  else false

/-- Bytes of one weight row of `n` elements in a weight format (R161, R162). -/
def weightRow (w n : Nat) : Nat :=
  match w with
  | 1 => let p := (n + 63) / 64 * 64; p / 4 + p / 64 + 4
  | 2 => let p := (n + 31) / 32 * 32; p / 2 + p / 32 + 4
  | 3 | 4 | 5 => n
  | 6 | 7 => 2 * n
  | _ => 0

/-- The stored size of a layer's weights in a format (R379). -/
def storedSize (op w i o : Nat) (bias : Bool) : Nat :=
  match op with
  | 1 => o * weightRow w i + (if bias then 4 * o else 0)
  | 3 => 4 * i * weightRow w i
  | 4 => 8 * i
  | 5 => 4 * i
  | _ => 0

/-- A layer table entry (Table 6.4) at offset `off`, with the blocks of the image. -/
def parseLayer (img : List Byte) (off : Nat) : Layer :=
  let n := leNat (slice img off 64)
  let wo := bitsOf n 128 64
  let wb := bitsOf n 192 64
  let ao := bitsOf n 256 64
  let ab := bitsOf n 320 64
  { op := bitsOf n 0 8, wfmt := bitsOf n 8 4, afmt := bitsOf n 12 4, alt := bitsOf n 16 1 == 1, bias := bitsOf n 17 1 == 1,
    inW := bitsOf n 32 16, outW := bitsOf n 48 16, param := bitsOf n 64 32, srcA := bitsOf n 96 16, srcB := bitsOf n 112 16,
    weights := slice img wo wb, wBytes := wb, altWeights := slice img ao ab, altBytes := ab, eightBit := false, count := 0,
    pending := false, ran := false, noted := false, bad := false, reloadDue := 0, heat := 0, events := 0, eSum := f0,
    eN := 0, pubPrec := 0, pubCount := 0 }

/-- Whether a layer obeys Tables 6.2 and 6.4: `width` gives the width of a source, and `tabs` says of each custom table that its
interval is proper. Ranges of Table 6.4 count as limits (log entry 77). -/
def layerOk (role i bytes : Nat) (width : Nat → Nat) (tabs : List Bool) (entry : Nat) (l : Layer) : Bool :=
  let src := fun x => x == 0xFFFF || decide (x < i)
  let inside := fun o n => decide (o + n ≤ bytes)
  let common := decide (1 ≤ l.inW ∧ l.inW ≤ 16384 ∧ 1 ≤ l.outW ∧ l.outW ≤ 16384 ∧ l.wfmt ≤ 7 ∧ 3 ≤ l.afmt ∧ l.afmt ≤ 7)
    && src l.srcA && (l.op != 7 || src l.srcB)
    && inside (bitsOf entry 128 64) l.wBytes && inside (bitsOf entry 256 64) l.altBytes
    && (!l.alt || l.wfmt == 1 || l.wfmt == 2)
  let hd := l.param % 64
  common && (match l.op with
    | 1 => pairOk l.wfmt l.afmt
    | 2 => i == 0 && l.wfmt == 0
    | 3 => decide (1 ≤ hd ∧ hd ≤ 32 ∧ l.inW = l.outW ∧ l.inW % hd = 0 ∧ 32 ≤ l.inW / hd ∧ l.inW / hd ≤ 256
             ∧ (l.inW / hd) % 32 = 0) && pairOk l.wfmt l.afmt
    | 4 | 5 => true
    | 6 => decide (l.param ≤ 4) || (decide (16 ≤ l.param ∧ l.param ≤ 31) && tabs.getD (l.param - 16) false)
    | 7 => width l.srcA == width l.srcB
    | 8 => decide (l.param ≤ 2)
    | 9 | 10 => role == 1
    | _ => false)

/-- A custom activation table (R140). -/
def parseTable (img : List Byte) (off : Nat) : List Flt × Flt × Flt × Bool :=
  ((List.range 256).map fun i => f32Val (leNat (slice img (off + 4 * i) 4)), f32Val (leNat (slice img (off + 1024) 4)),
   f32Val (leNat (slice img (off + 1028) 4)), leNat (slice img (off + 1032) 4) == 1)

/-- Whether a custom table has hi above lo. -/
def tableOk (t : List Flt × Flt × Flt × Bool) : Bool := flt t.2.1 t.2.2.1

/-- Width of a source: of the image input, or the output of a layer. -/
def sourceWidth (inWidth : Nat) (ls : List Layer) (src : Nat) : Nat :=
  if src = 0xFFFF then inWidth else ((ls[src]?).map (·.outW)).getD 0

/-- Check an image (R141 to R144): the image and its ROLE, or the cause. A layer table or custom tables outside IMAGE_BYTES give
cause 4 (log entry 77). -/
def parseImage (b : List Byte) : Except Nat (Nat × Image) :=
  let h := leNat (b.take 256)
  let role := bitsOf h 40 8
  let nl := bitsOf h 64 16
  let nt := bitsOf h 80 16
  let bytes := bitsOf h 128 64
  let lt := bitsOf h 192 64
  let co := bitsOf h 256 64
  if ¬(bitsOf h 0 32 = 0x54484D49 ∧ bitsOf h 32 8 = 1 ∧ role ≤ 1 ∧ 1 ≤ nl ∧ nl ≤ 1024 ∧ nt ≤ 16 ∧ 1 ≤ bitsOf h 96 16
      ∧ bitsOf h 96 16 ≤ 16384 ∧ 1 ≤ bitsOf h 112 16 ∧ bitsOf h 112 16 ≤ 16384 ∧ 256 ≤ bytes ∧ bytes ≤ 2 ^ 32
      ∧ lt % 64 = 0 ∧ co % 16 = 0 ∧ bitsOf h 49 15 = 0 ∧ bitsOf h 576 1472 = 0) then .error 3
  else if b.length < bytes then .error 1
  else
    let img := b.take bytes
    if digest (img.take 40 ++ List.replicate 32 0 ++ img.drop 72) ≠ slice img 40 32 then .error 2
    else if bytes < lt + 64 * nl ∨ (0 < nt ∧ bytes < co + 1040 * nt) then .error 4
    else
      let tabs := (List.range nt).map fun i => parseTable img (co + 1040 * i)
      let oks := tabs.map tableOk
      let ls := (List.range nl).map fun i => parseLayer img (lt + 64 * i)
      let entry := fun i => leNat (slice img (lt + 64 * i) 64)
      if oks.all id && (ls.zipIdx.all fun p => layerOk role p.2 bytes (sourceWidth (bitsOf h 96 16) ls) oks (entry p.2) p.1) then
        .ok (role, { ties := if bitsOf h 48 1 = 1 then .away else .even, inWidth := bitsOf h 96 16,
                     outWidth := bitsOf h 112 16, digest := slice img 40 32, layers := ls, tables := tabs, segs := [],
                     peers := [], ranAt := 0, readyDue := 0, testDue := false, freeing := false })
      else .error 4

/-! ### Running layers -/

/-- The activations of a batch: for each item its rows. -/
abbrev Batch := List (List (List Flt))

/-- The interpolation of R140 over `e`. -/
def activate (e : Nat → Flt) (lo hi : Flt) (clamp : Bool) (x : Flt) : Flt :=
  let pos := fdiv (fmul (fsub x lo) (fnat 255)) (fsub hi lo)
  if clamp && fle pos f0 && pos != .nan then e 0
  else if clamp && fle (fnat 255) pos && pos != .nan then e 255
  else
    let i : Nat := if flt pos f0 then 0 else if fle (fnat 254) pos && pos != .nan then 254 else (toIntTrunc pos).toNat
    fadd (e i) (fmul (fsub pos (fnat i)) (fsub (e (i + 1)) (e i)))

/-- Entry `i` of a built-in table: ReLU at the 256 points of [-1, 1], each rounded to FP32; the others are free (R140). -/
def builtinEntry (t i : Nat) : Flt :=
  if t = 2 then (if i ≤ 127 then f0 else fdiv (fnat (2 * i - 255)) (fnat 255)) else Config.actEntry t i

/-- The activation table that a PARAM selects (R140). -/
def activateBy (img : Image) (param : Nat) (x : Flt) : Flt :=
  let r := fun (n : Nat) => fnat n
  if 16 ≤ param then
    let t := img.tables.getD (param - 16) ([], f0, f1, false)
    activate (fun i => t.1.getD i f0) t.2.1 t.2.2.1 t.2.2.2 x
  else
    let w := match param with | 0 => 8 | 1 => 16 | 2 => 1 | 3 => 4 | _ => 8
    activate (builtinEntry param) (fneg (r w)) (r w) (decide (3 ≤ param)) x

/-- One output of a DENSE layer with Aqnil weights (R170). `codes` are the activation's element codes as values. -/
def denseOut (aq4 : Bool) (w : List Byte) (n : Nat) (intAct : Bool) (codes : List Flt) (sAct : Flt) : Flt :=
  let bs := if aq4 then 32 else 64
  let p := (n + bs - 1) / bs * bs
  let cb := if aq4 then p / 2 else p / 4
  let code := fun i =>
    if aq4 then aqnilCode w i else signExt 2 (((w.getD (i / 4) 0).toNat / 4 ^ (i % 4)) % 4)
  let s2 := rowScale (leNat (slice w (cb + p / bs) 4))
  let acc := (List.range (p / bs)).foldl (fun acc b =>
    let idx := (List.range bs).map fun k => bs * b + k
    let inner :=
      if intAct then fint (idx.foldl (fun t i => t + code i * toIntTrunc (codes.getD i f0)) 0)
      else fsum (idx.map fun i => fmul (fint (code i)) (codes.getD i f0))
    fadd acc (fmul inner (blockScale (w.getD (cb + b) 0).toNat))) f0
  fmul (fmul acc s2) sAct

/-- One output of a DENSE layer with INT8 weights: exact integer products and sums, then one scale in FP32 (R135). -/
def intDense (w : List Byte) (codes : List Flt) (scale : Flt) : Flt :=
  fmul (fint ((w.zip codes).foldl (fun t p => t + signExt 8 p.1.toNat * toIntTrunc p.2) 0)) scale

/-- Matrix cycles of a DENSE layer (R136) by weight format. -/
def denseCycles (i o b w : Nat) : Nat :=
  let win := if w = 1 ∨ w = 2 then 128 else 64
  let ld := if w = 1 ∨ w = 2 then 128 else 64
  let c := if w = 6 ∨ w = 7 then 4 else 1
  (i + win - 1) / win * ((o + 63) / 64) * max (c * b) ld

/-- Largest of a column of values. -/
def maxOf (xs : List Flt) : Flt :=
  match xs with
  | [] => f0
  | x :: r => r.foldl (fun m y => if flt m y then y else m) x

/-- POOL over the rows of one item (Table 6.2). -/
def poolRows (param n : Nat) (rows : List (List Flt)) : List (List Flt) :=
  match param with
  | 0 => [(List.range n).map fun j => fdiv (fsum (rows.map fun r => r.getD j f0)) (fnat (max 1 rows.length))]
  | 1 => [(List.range n).map fun j => maxOf (rows.map fun r => r.getD j f0)]
  | _ => [rows.headD (List.replicate n f0)]

/-- A weight set of a layer with its format, decompressed where it is shorter than its stored size (R379); none where a Hexiaper
block is malformed. -/
def weightSet (l : Layer) (eight : Bool) : Option (Nat × List Byte) :=
  let w := if eight then (if l.afmt = 3 then 3 else l.afmt) else l.wfmt
  let raw := storedSize l.op w l.inW l.outW l.bias
  let b := if eight then l.altWeights else l.weights
  if b.length < raw then (hxDecode (b.length / 8 + 1) raw b).map fun x => (w, x) else some (w, b)

/-- The weight set that is active. -/
def activeWeights (l : Layer) : Option (Nat × List Byte) := weightSet l l.eightBit

/-- Element format of a plain weight format. -/
def wfmtOf (w : Nat) : Fmt :=
  match w with
  | 4 => .e4m3
  | 5 => .e5m2
  | 6 => .bf16
  | _ => .fp16

/-- Output `j` of a DENSE layer for one activation row, before the bias, by weight format (R135, R170). -/
def denseRow (l : Layer) (w : Nat) (bytes : List Byte) (c : Conv) (j : Nat) : Flt :=
  let row := slice bytes (weightRow w l.inW * j) (weightRow w l.inW)
  if w = 1 ∨ w = 2 then denseOut (w == 2) row l.inW (l.afmt == 3) c.vals c.scale
  else if w = 3 then intDense row c.vals (Config.denseScale bytes c.scale)
  else fmul (Config.fp32Sum (((elems (wfmtOf w) l.inW row).zip c.vals).map fun p => fmul p.1 p.2)) c.scale

/-- The output rows of an item on a weight set: DENSE with its bias, and the operators whose sums Table 6.2 leaves open. -/
def weightedRows (l : Layer) (wb : Nat × List Byte) (rows : List Conv) : List (List Flt) :=
  if l.op = 1 then
    rows.map fun c => (List.range l.outW).map fun j =>
      let y := denseRow l wb.1 wb.2 c j
      if l.bias then fadd y (f32Val (leNat (slice wb.2 (weightRow wb.1 l.inW * l.outW + 4 * j) 4))) else y
  else (Config.operatorOut l.op (leBytes 4 l.param ++ wb.2) (rows.map Conv.decoded)).map (fitTo l.outW)

/-- The divergence of sampled outputs of the Aqnil set from those of the eight-bit set (R175). -/
def divergenceOf (narrow alt : List Flt) : Flt :=
  let num := (narrow.zip alt).foldl (fun a p => dadd a (errTerms p.2 p.1).1) f0
  let den := alt.foldl (fun a y => dadd a (dmul y y)) f0
  if isZero num && isZero den then f0 else if isZero den then f1 else f32 (ddiv num den)

/-- The first `n` rows of a batch. -/
def firstRows {α : Type} : Nat → List (List α) → List (List α)
  | _, [] => []
  | n, r :: rs => r.take n :: firstRows (n - r.length) rs

/-- The divergence of a turn in which a watched layer has run on `cs`, from its first `n` rows; the Bool says that it draws a free
value, for a layer without an alternate set (R175, R177). -/
def sampleLayer (l : Layer) (n free : Nat) (cs : List (List Conv)) : Option (Flt × Bool) :=
  if n = 0 ∨ ¬(l.wfmt = 1 ∨ l.wfmt = 2) then none
  else if !l.alt then some (Config.divergence free, true)
  else match weightSet l false, weightSet l true with
    | some a, some b =>
      let out := fun wb => ((firstRows n cs).flatMap (weightedRows l wb)).flatten
      some (divergenceOf (out a) (out b), false)
    | _, _ => none

/-- Convert the inputs of a layer into its AFMT in the layer's stream (R137, R165): one scale for the batch. -/
def layerConv (s : State) (key : Nat × Nat) (f : Fmt) (r : Rnd) (b : Batch) : State × List (List Conv) :=
  let all := b.flatten.flatten
  let l := stepLimit s key all
  let cs := b.map fun rows => rows.map fun x => convVec f r l x
  let flat := cs.flatten
  let s := strmAdd s key f l all (flat.flatMap Conv.decoded) (flat.foldl (fun n c => n + c.sats) 0)
  (s, cs)

/-- Run one layer. `lut` answers LUT_DIST and DOT of a batch item, and `sample` is how many rows of a watched layer are sampled.
Answers the output and the divergence, or none where its weights are malformed. -/
def runLayer (s : State) (slot li sample : Nat) (img : Image) (l : Layer) (lut : Nat → Bool → List Flt → Flt) (a b : Batch) :
    Option (State × Batch × Option Flt) :=
  let fit := fun (x : Batch) => x.map fun rows => rows.map (fitTo l.inW)
  let key := (kLayer, 1024 * slot + li)
  if l.op = 2 then some (s, a.map fun rows => rows.map (fitTo l.outW), none)
  else
    let two := if l.op = 7 then fit a ++ fit b else fit a
    let r := layerConv s key (afmtOf l.afmt) img.ties two
    let s := r.1
    let cs := r.2.take a.length
    let dec := cs.map fun rows => rows.map Conv.decoded
    let decB := (r.2.drop a.length).map fun rows => rows.map Conv.decoded
    match l.op with
    | 6 => some (s, dec.map fun rw => rw.map fun x => (fitTo l.outW x).map (activateBy img l.param), none)
    | 7 => some (s, (dec.zip decB).map fun p => (p.1.zip p.2).map fun q => fitTo l.outW ((q.1.zip q.2).map fun e => fadd e.1 e.2), none)
    | 8 => some (s, dec.map fun rw => poolRows l.param l.outW rw, none)
    | 9 => some (s, dec.zipIdx.map fun p => p.1.map fun x => [lut p.2 false x], none)
    | 10 => some (s, dec.zipIdx.map fun p => p.1.map fun x => [lut p.2 true x], none)
    | _ =>
      match activeWeights l with
      | none => none
      | some wb =>
        let rows := dec.foldl (fun n x => n + x.length) 0
        let s := if l.op = 1 then bump s Obj.DENSE_CYCLES (denseCycles l.inW l.outW rows wb.1) else s
        let out := cs.map (weightedRows l wb)
        match sampleLayer l sample s.free cs with
        | none => some (s, out, none)
        | some (e, drawn) => some (if drawn then (drawFree s).1 else s, out, some e)

/-- Outputs of earlier layers: layer number (0xFFFF the image input) and batch. -/
abbrev Outs := List (Nat × Batch)

/-- What running layers gives: the state, the outputs, and the divergence of each layer that was sampled. -/
structure Ran where
  s : State
  outs : Outs
  sampled : List (Nat × Flt)

/-- Run layers in table order from `li`; answers what they give, or the layer whose weights are bad. -/
def runLayers (slot : Nat) (img : Image) (lut : Nat → Bool → List Flt → Flt) (badAt : Option Nat) (sample : Nat) :
    List Layer → Nat → State → Outs → Except Nat Ran
  | [], _, s, o => .ok { s := s, outs := o, sampled := [] }
  | l :: ls, li, s, o =>
    if l.bad ∨ badAt = some li then .error li
    else match runLayer s slot li sample img l lut ((look o l.srcA).getD []) ((look o l.srcB).getD []) with
      | none => .error li
      | some (s, out, e) =>
        match runLayers slot img lut badAt sample ls (li + 1) s (put o li out) with
        | .error n => .error n
        | .ok r => .ok { r with sampled := (match e with | none => r.sampled | some x => (li, x) :: r.sampled) }

/-! ### Slots -/

/-- The image of a slot. -/
def getImg (s : State) (n : Nat) : Option Image := look s.images n

/-- Replace the image of a slot. -/
def setImg (s : State) (n : Nat) (v : Image) : State := { s with images := put s.images n v }

/-- LOAD_STATE of a slot. -/
def slotState (s : State) (n : Nat) : Nat := getObj s (Obj.slot_LOAD_STATE n)

/-- Quota bytes of a list of layers (R145). -/
def layersBytes (ls : List Layer) : Nat := ls.foldl (fun t l => t + l.wBytes + l.altBytes) 0

/-- Quota used on the node by every image and remote segment (R145). -/
def quotaUsed (s : State) : Nat :=
  (s.images.foldl (fun t p => t + getObj s (Obj.slot_BYTES_LOCAL p.1)) 0)
    + s.remotes.foldl (fun t r => t + layersBytes (slice r.image.layers r.first r.count) + 65536) 0

/-- The model quota in bytes. -/
def modelQuota (s : State) : Nat := getObj s Obj.MODEL_QUOTA_GIB * 2 ^ 30

/-- As many whole layers as `room` bytes allow. -/
def takeLayers : Nat → List Layer → List Layer
  | _, [] => []
  | room, l :: ls => if l.wBytes + l.altBytes ≤ room then l :: takeLayers (room - (l.wBytes + l.altBytes)) ls else []

/-- Cut the layers from `first` on over peers with room, none where they do not fit (R146). -/
def cutSegments : List (Nat × Nat) → Nat → Nat → List Layer → Option (List SegMap)
  | _, _, _, [] => some []
  | [], _, _, _ :: _ => none
  | (node, room) :: ps, seg, first, ls =>
    let t := (takeLayers (room - 65536) ls).length
    if t = 0 then cutSegments ps seg first ls
    else (cutSegments ps (seg + 1) (first + t) (ls.drop t)).map fun r =>
      { seg := seg, first := first, layers := t, primary := node, replica := 255, unsent := [node], placed := false } :: r

/-- The segments of an image: segment 0 with the loading node's own layers, the others over its peers (R146). -/
def cutImage (me room : Nat) (peers : List (Nat × Nat)) (ls : List Layer) : Option (List SegMap) :=
  let t := (takeLayers (room - 65536) ls).length
  if t = 0 then none
  else (cutSegments peers 1 t (ls.drop t)).map fun r =>
    { seg := 0, first := 0, layers := t, primary := me, replica := 255, unsent := [], placed := false } :: r

/-- Quota bytes of a segment on a node (R145). -/
def segBytes (ls : List Layer) (g : SegMap) : Nat := layersBytes (slice ls g.first g.layers) + 65536

/-- Take room on a peer. -/
def takeRoom (rooms : List (Nat × Nat)) (node n : Nat) : List (Nat × Nat) :=
  rooms.map fun p => if p.1 = node then (p.1, p.2 - n) else p

/-- Give each remote segment without one a replica: the first peer with room beside its primary (R149); answers the room that is
left. -/
def withReplicas (me : Nat) (ls : List Layer) : List (Nat × Nat) → List SegMap → List SegMap × List (Nat × Nat)
  | rooms, [] => ([], rooms)
  | rooms, g :: gs =>
    match if g.seg = 0 ∨ g.replica ≠ 255 then none
          else rooms.find? fun p => p.1 != g.primary && p.1 != me && decide (segBytes ls g ≤ p.2) with
    | none => let r := withReplicas me ls rooms gs; (g :: r.1, r.2)
    | some p =>
      let r := withReplicas me ls (takeRoom rooms p.1 (segBytes ls g)) gs
      ({ g with replica := p.1, unsent := g.unsent ++ [p.1], placed := false } :: r.1, r.2)

/-- In a partition of three or more nodes each remote segment of an image has two holders (R149). -/
def replicate (s : State) (img : Image) : Image :=
  if s.ledger.members.length < 3 then img
  else
    let r := withReplicas (selfNode s) img.layers (img.peers.filter fun p => s.ledger.members.contains p.1) img.segs
    { img with segs := r.1, peers := r.2 }

/-- A failed load (R144). -/
def slotFail (s : State) (n cause : Nat) : State :=
  let s := { s with images := del s.images n }
  let s := setObj (setObj s (Obj.slot_LOAD_STATE n) 3) (Obj.slot_FAIL_CAUSE n) cause
  let s := setObj (setObj s (Obj.slot_LOAD n) 0) (Obj.slot_BYTES_LOCAL n) 0
  postEvent s 0x3013 (n + 16 * cause)

/-- A write of 1 to LOAD (R143): starts a load while LOAD_STATE reads 0 or 3, and otherwise reads back 0. -/
def doImageLoad (s : State) (n : Nat) : State :=
  if slotState s n = 0 ∨ slotState s n = 3 then
    setObj (setObj (setObj s (Obj.slot_LOAD n) 1) (Obj.slot_LOAD_STATE n) 1) (Obj.slot_FAIL_CAUSE n) 0
  else setObj s (Obj.slot_LOAD n) 0

/-- IMAGE_LOAD: a write of LOAD = 1 to an image slot (R143). -/
def execImageLoad (slot : Nat) (s : State) : Host.Outcome State Fault Refusal := .next (doImageLoad s slot)

/-- Layers under PRECISION_MODE: 1 holds each on its Aqnil set, 2 on its eight-bit set where it has one (R177). -/
def modeLayers (mode : Nat) (ls : List Layer) : List Layer :=
  ls.map fun l => { l with count := 0, pending := false,
                           eightBit := if mode = 1 then false else if mode = 2 ∧ l.alt then true else l.eightBit }

/-- The cache entries of a layer's weights: blocks of 64 KiB, the last filled up to the least size of an entry (R389, R390; DESIGN
CHOICE, log entry 90: no rule gives the size of a block). -/
def weightBlocks (img : Image) (li : Nat) : List (Nat × List Byte) :=
  match img.layers[li]? with
  | none => []
  | some l =>
    let b := l.weights ++ l.altWeights
    (List.range ((b.length + 65535) / 65536)).map fun i =>
      let v := slice b (65536 * i) 65536
      (Config.blockKey img.digest li i, v ++ List.replicate (64 - v.length) 0)

/-- The weight blocks of a loaded image go into the partition's cache (R390). -/
def shareImage (s : State) (img : Image) : State :=
  if s.ledger.cacheMap = [] then s
  else ((List.range img.layers.length).flatMap (weightBlocks img)).foldl (fun s e => memoPut s e.1 e.2) s

/-- A reload or the placement of a segment reads a layer's blocks in the cache before the flash copy (R390). -/
def readBlocks (img : Image) (s : State) (li : Nat) : State :=
  if s.ledger.cacheMap = [] then s
  else (weightBlocks img li).foldl (fun s e => (memoLookup s e.1).1) s

/-- A copy of the image is kept in the node's own flash (R143). -/
def keepImage (s : State) (n : Nat) (b : List Byte) : State :=
  { s with flash := { s.flash with images := put s.flash.images n b } }

/-- Place an image that has passed its checks: whole, or cut into segments (R143 to R146). -/
def placeImage (s : State) (n role : Nat) (img : Image) (b : List Byte) (peers : List (Nat × Nat)) : State :=
  let room := modelQuota s - quotaUsed s
  let s := setObj (setObj s (Obj.slot_ROLE n) role) (Obj.slot_LAYERS n) img.layers.length
  let img := { img with layers := modeLayers (getObj s (Obj.slot_PRECISION_MODE n)) img.layers }
  if img.layers.any (fun l => decide (modelQuota s < l.wBytes + l.altBytes)) then slotFail s n 5
  else if layersBytes img.layers + 65536 ≤ room then
    let s := shareImage (keepImage (setImg s n { img with readyDue := dueTurn s }) n b) img
    setObj (setObj s (Obj.slot_SEGMENTS n) 1) (Obj.slot_BYTES_LOCAL n) (layersBytes img.layers + 65536)
  else if role = 1 ∨ getObj s Obj.SPREAD_EN = 0 then slotFail s n 6
  else
    match cutImage (selfNode s) room peers img.layers with
    | none => slotFail s n 6
    | some segs =>
      if 8 < segs.length then slotFail s n 6
      else
        let rooms := segs.foldl (fun r g => takeRoom r g.primary (segBytes img.layers g)) peers
        let img := replicate s { img with segs := segs, peers := rooms }
        let s := shareImage (keepImage (setImg s n img) n b) img
        let mine := (segs.headD default).layers
        let s := setObj (setObj s (Obj.slot_SEGMENTS n) segs.length) (Obj.slot_BYTES_LOCAL n)
          (layersBytes (img.layers.take mine) + 65536)
        setObj s (Obj.slot_LOAD_STATE n) 4

/-- The image is fetched, under the retry rule of R85, and checked, and its weights are placed or its segments cut (R143). -/
def doImageLoadComplete (s : State) (n : Nat) (f : Fetch) (peers : List (Nat × Nat)) : State :=
  if slotState s n ≠ 1 ∨ (getImg s n).isSome ∨ sourceReach s (getObj s (Obj.slot_SRC_LOC n)) (getObj s (Obj.slot_SRC_ADDR n)) f = false then s
  else match sourceFetch s (getObj s (Obj.slot_SRC_LOC n)) (getObj s (Obj.slot_SRC_ADDR n)) f with
    | .failed =>
      let r := loadAttempt s (Obj.slot_LOAD n)
      if r.2 then slotFail r.1 n 1 else r.1
    | .bytes b =>
      let s := loadFetched s (Obj.slot_LOAD n)
      match parseImage b with
      | .error c => slotFail s n c
      | .ok (role, img) => placeImage s n role img b peers

/-- IMAGE_LOAD_COMPLETE: the fetch of the image has ended; `peers` are the nodes that the Planner chooses, with the
quota bytes free on each. -/
def execImageLoadComplete (slot : Nat) (image : Fetch) (peers : List (Nat × Nat)) (s : State) :
    Host.Outcome State Fault Refusal := .next (doImageLoadComplete s slot image peers)

/-- The watch settings of a slot, as its segments' nodes hold them (R178). -/
def watchSettings (s : State) (n : Nat) : List Nat :=
  [getObj s (Obj.slot_MSE_THRESHOLD n), getObj s (Obj.slot_PRECISION_MODE n), getObj s (Obj.slot_SAMPLE_ROWS n),
   getObj s (Obj.slot_SCALE_N n), getObj s (Obj.slot_HEADROOM n)]

/-- Copy the segments of a slot that are not yet on their nodes (R146). -/
def sendSegment (s : State) (p : Nat × Image) : State :=
  let b := (look s.flash.images p.1).getD []
  let away := (p.2.segs.filter fun g => !g.unsent.isEmpty).flatMap fun g => (List.range g.layers).map (g.first + ·)
  let s := away.foldl (readBlocks p.2) s
  let s := p.2.segs.foldl (fun s g => sendAll s g.unsent (.copy (.segment p.1 g.seg g.first g.layers b (watchSettings s p.1)))) s
  setImg s p.1 { p.2 with segs := p.2.segs.map fun g => { g with unsent := [] } }

/-- In slack under gate class 10 the segments that wait are copied to their nodes (R146, R149). -/
def sendSegments (s : State) : State :=
  if gateOpen s 10 then (s.images.filter fun p => p.2.segs.any fun g => !g.unsent.isEmpty).foldl sendSegment s else s

/-- SEGMENT_PLACEMENT_COMPLETE: every segment has been copied, and the placement is proposed to the ledger, with the slot's watch
settings (R146, R149, R178). -/
def execSegmentPlacementComplete (slot : Nat) (s : State) : Host.Outcome State Fault Refusal :=
  .next (
    match getImg s slot with
    | none => s
    | some img =>
      if img.segs.any fun g => !g.unsent.isEmpty then s
      else (img.segs.filter fun g => !g.placed).foldl (fun s g =>
        ledgerRequest s (.segment slot g.seg g.primary g.replica (watchSettings s slot))) s)

/-- Number of nodes that hold segments of an encoder slot, 1 without an encoder (chapter 09, m). -/
def encoderNodes (s : State) (slot : Nat) : Nat :=
  if slot = 255 then 1 else max 1 (getObj s (Obj.slot_SEGMENTS slot))

/-- A layer met bad weights: its reload starts (R154). -/
def Layer.fail (l : Layer) : Layer := { l with bad := true, reloadDue := 0 }

/-- Bad weights in a layer of a slot of this node (R154). -/
def weightError (s : State) (slot li : Nat) : State :=
  let s := bump (postEvent s 0x3014 (slot + 16 * li)) Obj.WEIGHT_ERRORS 1
  match getImg s slot with
  | none => s
  | some img => setImg (readBlocks img s li) slot { img with layers := atIdx Layer.fail li img.layers }

/-- Change one remote segment. -/
def onRemote (s : State) (r : RemoteSeg) (f : Image → Image) : State :=
  let hit := fun (x : RemoteSeg) => x.home == r.home && x.slot == r.slot && x.seg == r.seg
  let g := fun (x : RemoteSeg) => { x with image := f x.image }
  { s with remotes := updFirst hit g s.remotes }

/-- Bad weights in a layer of a remote segment (R154). -/
def remoteWeightError (s : State) (r : RemoteSeg) (li : Nat) : State :=
  onRemote (readBlocks r.image (bump (postEvent s 0x3014 (r.slot + 16 * li)) Obj.WEIGHT_ERRORS 1) li) r fun img =>
    { img with layers := atIdx Layer.fail li img.layers }

/-- Whether a query's path reaches a layer that is being reloaded (R154). -/
def slotBad (s : State) (slot : Nat) : Bool := ((getImg s slot).map fun i => i.layers.any (·.bad)).getD false

/-- Whether a layer is watched: PRECISION_MODE 0 and Aqnil weights (R175, R177). -/
def watched (mode : Nat) (l : Layer) : Bool := mode == 0 && (l.wfmt == 1 || l.wfmt == 2)

/-- The watch of one layer after a turn in which it ran with divergence `e`, none where it was not sampled (R175, R176). The
flags say that event 0x7022 is posted, and that the layer-turn is unsampled. -/
def watchOne (mode thr : Nat) (l : Layer) (e : Option Flt) : Layer × Bool × Bool :=
  if !watched mode l then (l, false, false)
  else match e with
    | some x =>
      let r := watchStep l x (f32Val thr)
      ({ r.1 with eSum := dadd l.eSum x, eN := l.eN + 1, noted := l.noted || r.2, ran := true }, r.2 && !l.noted, false)
    | none => ({ l with ran := true }, false, true)

/-- Whether a half in which tiles run an image leaves a tile slack for its sampled rows (R175). -/
def slackTile (s : State) (e : Engine) : Bool :=
  [0, 1].any fun h => decide (0 < lentBy (boardOf s h) e)
    && (List.range 64).any fun t => !lends s.turn.cur (64 * h + t) && !(tilesHeld s).contains (64 * h + t)

/-- Rows of each watched layer that a turn samples: none without a slack tile, and none where the mode holds the layers. -/
def sampleRows (s : State) (e : Engine) (mode rows : Nat) : Nat := if mode = 0 ∧ slackTile s e = true then rows else 0

/-- Events and counts of one watched layer. -/
def noteWatch (s : State) (slot li : Nat) (post unsampled : Bool) : State :=
  let s := if post then postEvent s 0x7022 (slot + 16 * li) else s
  if unsampled then bump s Obj.WATCH_UNSAMPLED 1 else s

/-- The watch of a layer of a slot of this node. -/
def watchLayer (slot : Nat) (s : State) (li : Nat) (e : Option Flt) : State :=
  match (getImg s slot).bind fun img => (img.layers[li]?).map fun l => (img, l) with
  | none => s
  | some (img, l) =>
    let r := watchOne (getObj s (Obj.slot_PRECISION_MODE slot)) (getObj s (Obj.slot_MSE_THRESHOLD slot)) l e
    noteWatch (setImg s slot { img with layers := atIdx (fun _ => r.1) li img.layers }) slot li r.2.1 r.2.2

/-- The watch of a layer of a remote segment, with the settings of its loading node (R178). -/
def watchRemote (r : RemoteSeg) (s : State) (li : Nat) (e : Option Flt) : State :=
  match (s.remotes.find? fun x => x.home == r.home && x.slot == r.slot && x.seg == r.seg).bind fun x => x.image.layers[li]? with
  | none => s
  | some l =>
    let w := watchOne (r.settings.getD 1 0) (r.settings.getD 0 0) l e
    noteWatch (onRemote s r fun img => { img with layers := atIdx (fun _ => w.1) li img.layers }) r.slot li w.2.1 w.2.2

/-- The layers of an image that its loading node runs itself: its segment 0, or all (R146). -/
def homeLayers (img : Image) : List Layer :=
  match img.segs with
  | [] => img.layers
  | g :: _ => img.layers.take g.layers

/-- Watched layers that did not run in the turn that ends are unsampled, and the next turn's watch begins (R175). -/
def countIdle (s : State) : State :=
  let idle := fun (mode : Nat) (ls : List Layer) => (ls.filter fun l => watched mode l && !l.ran).length
  let own := fun (p : Nat × Image) =>
    if slotState s p.1 ≠ 2 then 0
    else
      idle (getObj s (Obj.slot_PRECISION_MODE p.1)) (homeLayers p.2)
  let n := (s.images.foldl (fun n p => n + own p) 0)
    + s.remotes.foldl (fun n r => n + idle (r.settings.getD 1 0) (slice r.image.layers r.first r.count)) 0
  let rest := fun (i : Image) => { i with layers := i.layers.map fun l => { l with ran := false } }
  bump { s with images := s.images.map fun p => (p.1, rest p.2),
                remotes := s.remotes.map fun r => { r with image := rest r.image } } Obj.WATCH_UNSAMPLED n

/-- End queries of a batch with an error that is answered at once (R154): they are marked, and BAZAAR_MERGE answers. -/
def markError (s : State) (qhs : List Nat) : State :=
  { s with queries := s.queries.map fun q => if qhs.contains q.qh then { q with error := true } else q }

/-- The rows that an encoder's last layer leaves, as the query vector: its first row, cut or extended to the
collection's dimensions (R139). -/
def encoderVec (dims : Nat) (rows : List (List Flt)) : List Flt := fitTo dims (rows.headD [])

/-- Layers before `stop`, and the image input, whose outputs a layer from `stop` on reads (R147). -/
def stillRead (ls : List Layer) (stop : Nat) : List Nat :=
  let early := fun (n : Nat) => if n < stop ∨ n = 0xFFFF then [n] else []
  nub ((ls.drop stop).flatMap fun l => early l.srcA ++ (if l.op = 7 then early l.srcB else []))

/-- Those of a batch for which the segment grant of `dst` to the loading node `home` has room for the next segment; each of the
others slips one turn (R148). `qh` gives the query context of an element on this node, none on a segment's node. -/
def withSegGrant {α : Type} (s : State) (dst home : Nat) (qh : α → Option Nat) (qs : List α) : State × List α :=
  qs.foldl (fun (acc : State × List α) q =>
    if 0 < grantRoom acc.1 .segment dst home then
      (drawGrant acc.1 { kind := .segment, granter := dst, grantee := home, amount := 1 }, acc.2 ++ [q])
    else
      let s := bump acc.1 Obj.SEGMENT_SLIPS 1
      (match qh q with | none => s | some n => slipQuery s n, acc.2)) (s, [])

/-- The queries of a slot that wait for its segment 0: those whose t0 this is, or whose stage has slipped. -/
def segmentReady (s : State) (slot : Nat) : List Query :=
  s.queries.filter fun q => q.encoder == slot && decide (q.t0 ≤ s.turn.no) && q.input != [] && q.seg == 0 && q.vec.isNone && !q.error

/-- Output `li` of item `i` of a batch. -/
def outRows (o : Outs) (li i : Nat) : List (List Flt) := ((look o li).getD []).getD i []

/-- The whole encoder has run on this node: its outputs are the query vectors (R139). -/
def takeVectors (s : State) (qs : List Query) (last : Batch) : State :=
  let turn := countedTurn s
  { s with queries := s.queries.map fun q =>
      match (qs.zip last).find? (fun p => p.1.qh == q.qh) with
      | none => q
      | some p => { q with vec := some (encoderVec (dimsOf s q.coll) p.2), seg := 1, ready := turn } }

/-- The activations that later segments still read go to the next segment's node (R147). -/
def sendActs (s : State) (dst slot seg stop home : Nat) (ls : List Layer) (o : Outs) (qs : List (Nat × Nat)) : State :=
  qs.zipIdx.foldl (fun s p =>
    (stillRead ls stop).foldl (fun s li => sendStage s dst (.activation home p.1.1 p.1.2 slot seg li (outRows o li p.2))) s) s

/-- Run the segment that the home node holds, once in a turn, on the tiles lent to the Query Composer in the queries' halves: a
query whose half has none slips (R147, R156). -/
def runHomeSegment (s : State) (slot : Nat) (img : Image) (bad : Option Nat) : State :=
  if img.ranAt = s.turn.no + 1 ∨ slotBad s slot = true then s
  else
    let all := segmentReady s slot
    let s := (all.filter fun q => !composes s q.half).foldl (fun s q => slipQuery s q.qh) s
    let ready := all.filter fun q => composes s q.half
    let count := (homeLayers img).length
    let dst := (img.segs.getD 1 default).primary
    let g := if count = img.layers.length then (s, ready) else withSegGrant s dst (selfNode s) (fun q => some q.qh) ready
    let s := g.1
    let qs := g.2
    if qs = [] then s
    else
      let sample := sampleRows s .composer (getObj s (Obj.slot_PRECISION_MODE slot)) (getObj s (Obj.slot_SAMPLE_ROWS slot))
      match runLayers slot img (fun _ _ _ => f0) bad sample (homeLayers img) 0 s [(0xFFFF, qs.map (·.input))] with
      | .error li => markError (weightError s slot li) (qs.map (·.qh))
      | .ok r =>
        let s := (List.range count).foldl (fun s li => watchLayer slot s li (look r.sampled li)) r.s
        let s := match getImg s slot with | none => s | some i => setImg s slot { i with ranAt := s.turn.no + 1 }
        if count = img.layers.length then takeVectors s qs ((look r.outs (count - 1)).getD [])
        else
          let s := sendActs s dst slot 1 count (selfNode s) img.layers r.outs (qs.map fun q => (q.qh, q.t0))
          { s with queries := s.queries.map fun q => if qs.any (·.qh == q.qh) then { q with seg := 1 } else q }

/-- An error partial list, by which a segment's node ends a query of its batch at the home node (R154, R231). -/
def segmentError (s : State) (home qh pin : Nat) : State :=
  sendStage s home (.partialList { qh := qh, home := home, src := selfNode s, round := 0, replica := false, error := true, pin := pin,
                                   entries := [], retired := 0 })

/-- Whether a layer of a remote segment is being reloaded (R154). -/
def remoteBad (r : RemoteSeg) : Bool := (slice r.image.layers r.first r.count).any (·.bad)

/-- Run a segment held for another node on the activations that arrived for it, once in a turn, on tiles lent to the Query Composer;
queries without a grant for the next segment, or before a layer that is being reloaded, wait (R147, R148, R154). -/
def runRemoteSegment (s : State) (r : RemoteSeg) (bad : Option Nat) : State :=
  let ours := fun (a : Act) => a.home == r.home && a.slot == r.slot && a.seg == r.seg
  let all := nub ((s.acts.filter ours).map fun a => (a.qh, a.pin))
  let stop := r.first + r.count
  let dst := ((look s.ledger.segs (r.home * 16 + r.slot, r.seg + 1)).getD (r.home, 255)).1
  if all = [] ∨ (s.turn.phase = .p5 ∨ tilesLent s .composer = 0) ∨ r.image.ranAt = s.turn.no + 1 ∨ remoteBad r = true then s
  else
    let g := if r.image.layers.length ≤ stop then (s, all) else withSegGrant s dst r.home (fun _ => none) all
    let s := g.1
    let keys := g.2
    if keys = [] then s
    else
      let mine := s.acts.filter fun a => ours a && keys.contains (a.qh, a.pin)
      let outs : Outs := (nub (mine.map (·.layer))).map fun li =>
        (li, keys.map fun k => ((mine.find? fun a => (a.qh, a.pin) == k && a.layer == li).map (·.rows)).getD [])
      let rest := s.acts.filter fun a => !(ours a && keys.contains (a.qh, a.pin))
      let s' := { s with acts := rest }
      let sample := sampleRows s .composer (r.settings.getD 1 0) (r.settings.getD 2 0)
      match runLayers (remoteSlot r) r.image (fun _ _ _ => f0) bad sample (slice r.image.layers r.first r.count) r.first s' outs with
      | .error li => keys.foldl (fun s k => segmentError s r.home k.1 k.2) (remoteWeightError s' r li)
      | .ok x =>
        let s := (List.range r.count).foldl (fun s i => watchRemote r s (r.first + i) (look x.sampled (r.first + i))) x.s
        let s := onRemote s r fun i => { i with ranAt := s.turn.no + 1 }
        if r.image.layers.length ≤ stop then
          keys.zipIdx.foldl (fun s p =>
            sendStage s r.home (.activation r.home p.1.1 p.1.2 r.slot 255 0xFFFE (outRows x.outs (stop - 1) p.2))) s
        else sendActs s dst r.slot (r.seg + 1) stop r.home r.image.layers x.outs keys

/-- ENCODER_SEGMENT: segment `seg` of slot `slot` runs in its turn (R147); `bad` is a layer whose weights are uncorrectable. -/
def execEncoderSegment (slot seg : Nat) (bad : Option Nat) (s : State) : Host.Outcome State Fault Refusal :=
  .next (
    if seg = 0 then
      match getImg s slot with
      | none => s
      | some img => if slotState s slot = 2 then runHomeSegment s slot img bad else s
    else (s.remotes.filter fun r => r.slot == slot && r.seg == seg).foldl (fun s r => runRemoteSegment s r bad) s)

/-- A layer whose reload has completed: it takes effect at boundary `due`. -/
def Layer.reloaded (due : Nat) (l : Layer) : Layer := if l.bad then { l with reloadDue := due } else l

/-- LAYER_RELOAD_COMPLETE: the reloaded layer takes effect at the first turn boundary after this (R154). -/
def execLayerReloadComplete (slot layer : Nat) (s : State) : Host.Outcome State Fault Refusal :=
  .next (
    let fix := fun (i : Image) => { i with layers := atIdx (Layer.reloaded (dueTurn s)) layer i.layers }
    let s := match getImg s slot with | none => s | some img => setImg s slot (fix img)
    { s with remotes := s.remotes.map fun r => if r.slot = slot then { r with image := fix r.image } else r })

/-- The boundary's part: reloaded layers and loaded images that fall due (R143, R154). -/
def modelsAtBoundary (s : State) (n : Nat) : State :=
  let back := fun (i : Image) => { i with layers := i.layers.map fun l =>
    if l.bad && l.reloadDue != 0 && decide (l.reloadDue ≤ n) then { l with bad := false, reloadDue := 0 } else l }
  let s := countIdle { s with remotes := s.remotes.map fun r => { r with image := back r.image } }
  s.images.foldl (fun s p =>
    let img := back p.2
    let s := setImg s p.1 img
    if slotState s p.1 = 1 ∧ img.readyDue ≠ 0 ∧ img.readyDue ≤ n then
      setObj (setObj (setImg s p.1 { img with readyDue := 0 }) (Obj.slot_LOAD_STATE p.1) 2) (Obj.slot_LOAD p.1) 0
    else s) s

/-- Whether a service names a slot. -/
def slotNamed (s : State) (n : Nat) : Bool :=
  (List.range 4096).any fun c =>
    getObj s (Obj.coll_ENCODER_IMAGE c) == n || getObj s (Obj.coll_RESCORER_IMAGE c) == n

/-- The storage of a slot is freed, and its fields of Table 6.7 read 0 (R152). -/
def freeSlot (s : State) (slot : Nat) : State :=
  let s := { s with images := del s.images slot, flash := { s.flash with images := del s.flash.images slot } }
  [Obj.slot_LOAD, Obj.slot_LOAD_STATE, Obj.slot_UNLOAD, Obj.slot_ROLE, Obj.slot_LAYERS, Obj.slot_SEGMENTS, Obj.slot_BYTES_LOCAL].foldl
    (fun s f => setObj s (f slot) 0) s

/-- A write of 1 to UNLOAD takes effect: a slot that holds an image awaits its test, one that holds none is free at once, and an
empty one reads back 0 (R152). -/
def writeUnload (s : State) (n : Nat) : State :=
  match getImg s n with
  | some img => setObj (setImg s n { img with testDue := true }) (Obj.slot_UNLOAD n) 1
  | none => if slotState s n = 0 then setObj s (Obj.slot_UNLOAD n) 0 else freeSlot s n

/-- The test of UNLOAD, after every service field applied at the boundary (R152). -/
def testUnload (s : State) (n : Nat) : State :=
  match getImg s n with
  | none => s
  | some img =>
    if !img.testDue then s
    else if slotNamed s n then setObj (setImg s n { img with testDue := false }) (Obj.slot_UNLOAD n) 0
    else setImg s n { img with testDue := false, freeing := true }

/-- The tests that the boundary's writes of UNLOAD await. -/
def testUnloads (s : State) : State := (s.images.map (·.1)).foldl testUnload s

/-- UNLOAD: a write of UNLOAD = 1 is tested (R152). -/
def execUnload (slot : Nat) (s : State) : Host.Outcome State Fault Refusal := .next (testUnload (writeUnload s slot) slot)

/-- Whether a slot admits no new user any more (R152). -/
def slotFreeing (s : State) (n : Nat) : Bool := ((getImg s n).map (·.freeing)).getD false

/-- Queries that hold a slot: those open, and those whose result entry has not been written (R151). -/
def slotHolders (s : State) (n : Nat) : Nat :=
  (s.queries.filter fun q => q.encoder == n).length + (s.host.results.filter fun r => r.enc == n).length
    + (s.host.kept.filter fun k => (k.res.map (·.2.2)) == some n).length

/-- SLOT_FREE: at a boundary after the last query that holds the slot has been written, its storage is freed (R152). -/
def execSlotFree (slot : Nat) (s : State) : Host.Outcome State Fault Refusal :=
  .next (
    match getImg s slot with
    | none => s
    | some img =>
      if img.freeing && slotHolders s slot == 0 && decide (s.turn.phase = .p4) then
        freeSlot (img.segs.foldl (fun s g => if g.seg = 0 then s else ledgerRequest s (.segment slot g.seg 255 255 [])) s) slot
      else s)

/-- Statistics epoch length in turns. -/
def statEpoch (s : State) : Nat := max 1 (getObj s Obj.STAT_EPOCH_TURNS)

/-- The other weight set of a layer becomes active (R177). -/
def Layer.swap (l : Layer) : Layer := { l with eightBit := !l.eightBit, pending := false, count := 0 }

/-- Event and count of a change of a layer that ran on its eight-bit set before, or did not (R177). -/
def notePrecision (s : State) (slot layer : Nat) (was : Bool) : State :=
  if was then bump (postEvent s 0x7021 (slot + 16 * layer)) Obj.DEMOTIONS 1
  else bump (postEvent s 0x7020 (slot + 16 * layer)) Obj.PROMOTIONS 1

/-- PRECISION_CHANGE: at a boundary whose TURN_NO is a multiple of STAT_EPOCH_TURNS a pending change takes effect, in a slot of
this node or in the segments of that slot that it holds for others (R177, R178). -/
def execPrecisionChange (slot layer : Nat) (s : State) : Host.Outcome State Fault Refusal :=
  .next (
    if s.turn.phase ≠ .p4 ∨ boundary s % statEpoch s ≠ 0 then s
    else
      let s := match (getImg s slot).bind fun img => (img.layers[layer]?).map fun l => (img, l) with
        | none => s
        | some (img, l) =>
          if l.pending then notePrecision (setImg s slot { img with layers := atIdx Layer.swap layer img.layers }) slot layer l.eightBit
          else s
      (s.remotes.filter fun r => r.slot == slot).foldl (fun s r =>
        match r.image.layers[layer]? with
        | none => s
        | some l =>
          if l.pending then
            notePrecision (onRemote s r fun i => { i with layers := atIdx Layer.swap layer i.layers }) slot layer l.eightBit
          else s) s)

/-- A write of PRECISION_MODE as applied (R177): counts return to zero, and a held slot moves to its set. -/
def applyPrecisionMode (s : State) (n mode : Nat) : State :=
  match getImg s n with
  | none => s
  | some img => setImg s n { img with layers := modeLayers mode img.layers }

/-- Mean of the divergences of a layer's sampled turns. -/
def layerAux (l : Layer) : Flt := if l.eN = 0 then f0 else f32 (ddiv l.eSum (roundTo fF64 .even false l.eN 0))

/-- The divergence to publish with a stream, for layer streams. -/
def auxOf (s : State) (k : Nat × Nat) : Option Flt :=
  if k.1 = kLayer then
    let img := if k.2 / 1024 < 16 then getImg s (k.2 / 1024)
      else (s.remotes.find? fun r => remoteSlot r == k.2 / 1024).map (·.image)
    some ((img.bind fun i => (i.layers[k.2 % 1024]?).map layerAux).getD f0)
  else if k.1 = kIngest then none else some f0

/-- PRECISION of a layer (Table 7.7). -/
def layerPrec (l : Layer) : Nat := if l.pending then (if l.eightBit then 3 else 2) else if l.eightBit then 1 else 0

/-- The statistics of a layer that another node holds, which came in the epoch that ends (R178). -/
def takeRemote (s : State) (x : (Nat × Nat) × LayerStats) : State :=
  let k := (kLayer, 1024 * x.1.1 + x.1.2)
  let p := x.2
  let s := setStrm s k { getStrm s k with pubTurn := p.turn, pubMse := p.mse, pubNmse := p.nmse, pubSat := p.sat, pubN := p.n,
                                          pubAux := p.aux }
  match getImg s x.1.1 with
  | none => s
  | some img =>
    setImg s x.1.1 { img with layers := atIdx (fun l => { l with eightBit := p.eightBit, pubPrec := if p.eightBit then 1 else 0 })
                                          x.1.2 img.layers }

/-- A layer whose statistics have been published: its watch as it stands is what reads, and its sums restart (R174, R180). -/
def Layer.publish (l : Layer) : Layer :=
  { l with noted := false, eSum := f0, eN := 0, pubPrec := layerPrec l, pubCount := l.count }

/-- Publish every stream's statistics and restart them (R173, R174). -/
def publishStats (s : State) : State :=
  let exact := diagMode s
  let st := s.streams.map fun p => (p.1, strmPublish exact s.turn.statStart (auxOf s p.1) p.2)
  let all := fun (i : Image) => { i with layers := i.layers.map Layer.publish }
  let im := s.images.map fun p => (p.1, all p.2)
  let rm := s.remotes.map fun r => { r with image := all r.image }
  let s := { s with streams := st, images := im, remotes := rm }
  let s := s.remoteStats.foldl takeRemote s
  { s with remoteStats := [], turn := { s.turn with statPub := s.turn.statStart, statStart := s.turn.no, statEnd := false } }

/-- Statistics of the layers of remote segments, for their loading nodes (R178). -/
def sendRemoteStats (s : State) : State :=
  s.remotes.foldl (fun s r =>
    (List.range r.count).foldl (fun s i =>
      let t := getStrm s (kLayer, 1024 * remoteSlot r + r.first + i)
      let e := ((r.image.layers[r.first + i]?).map (·.eightBit)).getD false
      send s r.home (.stats r.slot (r.first + i) { turn := s.turn.statPub, mse := t.pubMse, nmse := t.pubNmse, sat := t.pubSat,
                                                   n := t.pubN, aux := t.pubAux, eightBit := e })) s) s

/-- Whether layer `li` of a slot runs on another node, which publishes its statistics (R178). -/
def layerAway (s : State) (slot li : Nat) : Bool := ((getImg s slot).map fun i => decide ((homeLayers i).length ≤ li)).getD false

/-- Droop counts of the epoch into DROOP_H0 and DROOP_H1, with event 0x1010 above DROOP_MAX (R456). -/
def publishDroop (s : State) : State :=
  let m := getObj s Obj.DROOP_MAX
  let one := fun (s : State) (h : Nat) =>
    let n := (s.ras.droop.filter (· == h)).length
    let s := setObj s (if h = 0 then Obj.DROOP_H0 else Obj.DROOP_H1) n
    if m ≠ 0 ∧ m < n then postEvent s 0x1010 h else s
  let s := one (one s 0) 1
  { s with ras := { s.ras with droop := [] } }

/-- STAT_EPOCH_END: at P5 of a boundary with TURN_NO a multiple of STAT_EPOCH_TURNS, or at which a new length took effect,
the epoch's statistics are published and restart (R174). -/
def execStatEpochEnd (s : State) : Host.Outcome State Fault Refusal :=
  .next (
    if s.turn.phase = .p5 ∧ (s.turn.no % statEpoch s = 0 ∨ s.turn.statEnd = true) then publishDroop (sendRemoteStats (publishStats s))
    else s)

end Sys2Proof.Machine
end

