-- ==== Sys2Proof/Machine/Composer.lean ====
section
/-! DEFINITION. The Query Composer (chapter 05): embedding tables and their rows, gathers and pooling, read-ahead, row
replacement, movement of row groups, whole-table builds and switches. -/

namespace Sys2Proof.Machine

/-! ### Tables (R110, R111) -/

/-- A table without a built version. -/
def Table.reset : Table := { active := none, built := none, buildGeo := none, switchDue := 0 }

/-- Table `t`. -/
def getTable (s : State) (t : Nat) : Table := (look s.comp.tables t).getD Table.reset

/-- Replace table `t`. -/
def setTable (s : State) (t : Nat) (v : Table) : State := { s with comp := { s.comp with tables := put s.comp.tables t v } }

/-- Stored row size and slot size of a geometry (Table 5.1). -/
def rowStored (fmt w : Nat) : Nat :=
  match fmt with
  | 0 => w + 4
  | 1 | 2 => w
  | 3 | 4 => 2 * w
  | _ => w / 2 + w / 32 + 4

def slotBytes (fmt w : Nat) : Nat := (rowStored fmt w + 63) / 64 * 64

/-- A stored row as FP32 values. -/
def rowVals (fmt w : Nat) (b : List Byte) : List Flt :=
  match fmt with
  | 0 => let sc := f32Val (leNat (slice b w 4)); (elems .int8 w b).map fun x => fmul x sc
  | 5 => aqnilRow4 w b
  | n => elems (fmtOf n) w b

/-- A row whose slots hold `b`. -/
def Row.of (b : List Byte) : Row := { a := b, b := b, active := false, err := false, flipDue := 0, wid := 0 }

/-- The bytes of a row's active slot. -/
def Row.bytes (r : Row) : List Byte := if r.active then r.b else r.a

/-- Write `wid` writes a row's inactive slot; its version bit flips at boundary `due` (R125). Of several writes for one flip the
last in the order of R84 stays, whatever the order in which they are written (R126). -/
def Row.stage (r : Row) (b : List Byte) (due wid : Nat) : Row :=
  if r.flipDue = due ∧ wid < r.wid then r
  else if r.active then { r with a := b, flipDue := due, wid := wid } else { r with b := b, flipDue := due, wid := wid }

/-- A group at home in T2 or T5, without copies. -/
def RowGroup.of (t5 : Bool) (base : Nat) : RowGroup :=
  { t5 := t5, base := base, t1 := false, t1Next := none, moving := none, copied := false, heat := 0, events := 0, lastRepl := 0,
    cancel := false, waiting := [] }

/-- Row `i` and group `g` of a version; rows in neither map hold zeros. -/
def TableVer.row (v : TableVer) (i : Nat) : Row := (look v.data i).getD (Row.of (List.replicate (slotBytes v.fmt v.width) 0))
def TableVer.group (v : TableVer) (g : Nat) : RowGroup := (look v.groups g).getD (RowGroup.of false 0)

/-- Replace a row or a group of a version. -/
def TableVer.setRow (v : TableVer) (i : Nat) (r : Row) : TableVer := { v with data := put v.data i r }
def TableVer.setGroup (v : TableVer) (g : Nat) (x : RowGroup) : TableVer := { v with groups := put v.groups g x }

/-- The version that gathers and replacements of table `t` meet, none where the table is not enabled or not built. -/
def tableOn (s : State) (t : Nat) : Option TableVer :=
  if isSet s (Obj.table_TBL_EN t) then (getTable s t).active else none

/-- Change the active version of a table. -/
def onActive (s : State) (t : Nat) (f : TableVer → TableVer) : State :=
  let tb := getTable s t
  setTable s t { tb with active := tb.active.map f }

/-- Change one group of the active version of a table. -/
def onGroup (s : State) (t g : Nat) (f : RowGroup → RowGroup) : State := onActive s t fun v => v.setGroup g (f (v.group g))

/-- Bytes of T2 that a version takes: a descriptor for each group, and two slots for each row of a group at home in T2. -/
def TableVer.t2Bytes (v : TableVer) : Nat :=
  v.groups.foldl (fun n p => n + 64 + (if p.2.t5 then 0 else 512 * slotBytes v.fmt v.width)) 0

/-- Flash pages that the rows of a version take: one slot for each row of a group at home in T5 (R111). -/
def TableVer.groupPages (v : TableVer) : Nat := (256 * slotBytes v.fmt v.width + 16383) / 16384
def TableVer.t5Pages (v : TableVer) : Nat := (v.groups.filter fun p => p.2.t5).length * v.groupPages

/-- Flash pages that the versions of a table take. -/
def Table.t5Pages (t : Table) : Nat := (t.active.map TableVer.t5Pages).getD 0 + (t.built.map TableVer.t5Pages).getD 0

/-- Replace table `t`: the pages that its versions no longer take are discarded, and those that they take anew are programmed (R357,
R363). -/
def movePages (s : State) (t : Nat) (v : Table) : State :=
  let old := (getTable s t).t5Pages
  countPages (setTable s t v) (v.t5Pages - old) (old - v.t5Pages)

/-- T2 storage that tables use (R111). -/
def composeT2Used (s : State) : Nat :=
  s.comp.tables.foldl (fun n p => n + (p.2.active.map TableVer.t2Bytes).getD 0 + (p.2.built.map TableVer.t2Bytes).getD 0) 0

/-- Whether one more group of a version fits COMPOSE_T2_GIB. -/
def groupFits (s : State) (used : Nat) (v : TableVer) : Bool :=
  decide (used + 64 + 512 * slotBytes v.fmt v.width ≤ getObj s Obj.COMPOSE_T2_GIB * 2 ^ 30)

/-! ### Lookups (R113 to R115) -/

/-- A lookup: channel, table, index and the FP16 pattern of its weight. -/
structure Lookup where
  channel : Nat
  table : Nat
  index : Nat
  weight : Nat
  deriving DecidableEq, Repr

/-- The whole records of a payload (Table 5.2). -/
def parseRecords (b : List Byte) : List Lookup :=
  (List.range (b.length / 8)).map fun i =>
    let n := leNat (slice b (8 * i) 8)
    { channel := bitsOf n 38 6, table := bitsOf n 32 6, index := bitsOf n 0 32, weight := bitsOf n 48 16 }

/-- The token IDs of a payload, as lookups of one table (R115). -/
def parseTokens (table : Nat) (b : List Byte) : List Lookup :=
  let b := b.take 512
  (List.range (b.length / 4)).map fun i => { channel := 0, table := table, index := leNat (slice b (4 * i) 4), weight := 0x3C00 }

/-- The lookups that a payload of collection `c` makes; records outside CH_MASK make none (R114). -/
def lookupsOf (s : State) (c : Nat) (payload : List Byte) : List Lookup :=
  match getObj s (Obj.coll_INPUT_MODE c) with
  | 1 => parseTokens (getObj s (Obj.coll_TOKEN_TABLE c)) payload
  | 2 => (parseRecords payload).filter fun r => bitsOf (getObj s (Obj.coll_CH_MASK c)) r.channel 1 == 1
  | _ => []

/-- The row that a lookup reads, by version and clamped index; none for a zero row (R113, R114). -/
def rowOf (s : State) (r : Lookup) : Option (TableVer × Nat) :=
  (tableOn s r.table).map fun v => (v, min r.index (v.rows - 1))

/-- The weight of a record (Table 5.2). -/
def weightOf (bits : Nat) : Flt :=
  match f16Val bits with
  | .nan => f0
  | .inf neg => .fin neg 65504 0
  | x => x

/-- Gathers from T1 and T2 that a lookup counts against the compose capacity (R119). -/
def lookupCost (s : State) (r : Lookup) : Nat :=
  match rowOf s r with
  | none => 0
  | some (v, i) => if (v.group (i / 256)).t5 then 0 else (slotBytes v.fmt v.width + 511) / 512

/-- Gathers of a list of lookups. -/
def gatherCost (s : State) (rs : List Lookup) : Nat := rs.foldl (fun n r => n + lookupCost s r) 0

/-- The T5 rows that lookups need (R120). -/
def t5Rows (s : State) (rs : List Lookup) : List (Nat × Nat) :=
  nub (rs.filterMap fun r => (rowOf s r).bind fun p => if (p.1.group (p.2 / 256)).t5 then some (r.table, p.2) else none)

/-- Whether every T5 row of an entry was staged for turn `t` (R121). -/
def rowsStaged (s : State) (rows : List (Nat × Nat)) (q : Nat) (tally : Tally) (t : Nat) : Bool :=
  rows.all fun r => s.comp.staged.any fun x => x.q == q && x.tally == tally && x.table == r.1 && x.index == r.2 && x.turn == t

/-! ### Pooling (R116 to R118) -/

/-- The row that a lookup gathers, cut or extended to `w` elements. -/
def gatherRow (s : State) (w : Nat) (r : Lookup) : List Flt :=
  match rowOf s r with
  | none => List.replicate w f0
  | some (v, i) => fitTo w (rowVals v.fmt v.width (v.row i).bytes)

/-- The result of one channel (R117). -/
def poolChannel (s : State) (ch : Nat) (rs : List Lookup) : List Flt :=
  let w := getObj s (Obj.CH_WIDTH ch)
  let mode := getObj s (Obj.CH_MODE ch)
  let mine := rs.filter (·.channel == ch)
  let acc := mine.foldl (fun acc r =>
    let wt := if mode = 0 then weightOf r.weight else f1
    (acc.zip (gatherRow s w r)).map fun p => fadd p.1 (fmul wt p.2)) (List.replicate w f0)
  if mode = 2 ∧ mine ≠ [] then acc.map fun x => fdiv x (fnat mine.length) else acc

/-- The concatenation of the channels of CH_MASK in ascending number (R118). -/
def concatChannels (s : State) (c : Nat) (rs : List Lookup) : List Flt :=
  ((List.range 64).filter fun ch => bitsOf (getObj s (Obj.coll_CH_MASK c)) ch 1 == 1).flatMap fun ch => poolChannel s ch rs

/-- The mean of token rows, computed as in R117 (R115). -/
def meanRows (w : Nat) (rows : List (List Flt)) : List Flt :=
  let acc := rows.foldl (fun acc r => (acc.zip (fitTo w r)).map fun p => fadd p.1 (fmul f1 p.2)) (List.replicate w f0)
  if rows = [] then acc else acc.map fun x => fdiv x (fnat rows.length)

/-- Account for the gathers of a query: heat, counters and uncorrectable rows (R114, R131). Answers whether the query
met an error. `bad` are the rows that are uncorrectable in this gather. -/
def gatherRows (s : State) (bad : List (Nat × Nat)) (rs : List Lookup) : State × Bool :=
  rs.foldl (fun (acc : State × Bool) r =>
    match rowOf acc.1 r with
    | none => acc
    | some (v, i) =>
      let s := bump (onGroup acc.1 r.table (i / 256) fun g => { g with events := g.events + 1 }) Obj.GATHERS 1
      if (v.row i).err then (s, true)
      else if bad.contains (r.table, i) then
        (postEvent (onActive s r.table fun v => v.setRow i { v.row i with err := true }) 0x3011 (r.table + 64 * i), true)
      else (s, acc.2)) (s, false)

/-- Records ignored or contributing a zero row (R114, R132). -/
def ignoredRecords (s : State) (c : Nat) (payload : List Byte) : Nat :=
  if getObj s (Obj.coll_INPUT_MODE c) ≠ 2 then 0
  else ((parseRecords payload).filter fun r =>
    bitsOf (getObj s (Obj.coll_CH_MASK c)) r.channel 1 == 0 || (tableOn s r.table).isNone).length

/-- What the Composer hands on: the rows for the encoder, or the query vector, and the sketch of a Hamming query. -/
structure Composed where
  rows : List (List Flt)
  vec : Option (List Flt)
  sketch : List Bool
  sats : Nat
  deriving DecidableEq, Repr

/-- Compose a payload of collection `c` for encoder slot `enc` (255 none). -/
def composeOf (s : State) (c enc : Nat) (payload : List Byte) : Composed :=
  let dims := dimsOf s c
  let rs := lookupsOf s c payload
  match getObj s (Obj.coll_INPUT_MODE c) with
  | 1 =>
    let w := ((tableOn s (getObj s (Obj.coll_TOKEN_TABLE c))).map (·.width)).getD 0
    let rows := rs.map (gatherRow s w)
    if rs = [] then { rows := [], vec := some (List.replicate dims f0), sketch := [], sats := 0 }
    else if enc = 255 then { rows := [], vec := some (fitTo dims (meanRows w rows)), sketch := [], sats := 0 }
    else { rows := rows, vec := none, sketch := [], sats := 0 }
  | 2 =>
    let x := concatChannels s c rs
    if enc = 255 then { rows := [], vec := some (fitTo dims x), sketch := [], sats := 0 }
    else { rows := [fitTo ((getImg s enc).map (·.inWidth) |>.getD dims) x], vec := none, sketch := [], sats := 0 }
  | _ =>
    if isHamming s c ∧ enc = 255 then
      { rows := [], vec := some [], sketch := sketchBits (getObj s (Obj.coll_SKETCH_LAYOUT c)) (sketchBitsOf s c) payload,
        sats := 0 }
    else
      let r := readVector (fmtOf (getObj s (Obj.coll_INPUT_FORMAT c))) payload
      let x := fitTo dims r.1
      if enc = 255 then { rows := [], vec := some x, sketch := [], sats := r.2 }
      else { rows := [x], vec := none, sketch := [], sats := r.2 }

/-- Compose query `qh` in its t0, on a tile of its half lent to the Query Composer; without one it slips (R19, R46). -/
def doCompose (s : State) (qh : Nat) (bad : List (Nat × Nat)) : State :=
  match getQuery s qh with
  | none => s
  | some q =>
    if s.turn.no < q.t0 ∨ q.vec.isSome ∨ q.input ≠ [] ∨ q.error = true then s
    else if composes s q.half = false then slipQuery s qh
    else
      let g := gatherRows (bump s Obj.RECORDS_IGNORED (ignoredRecords s q.coll q.payload)) bad (lookupsOf s q.coll q.payload)
      if g.2 then onQuery g.1 qh fun q => { q with error := true }
      else
        let x := composeOf s q.coll q.encoder q.payload
        let m := if isSet s (Obj.coll_MEMO_EN q.coll) then memoLookup g.1 q.memoKey else (g.1, none)
        let key := if q.encoder = 255 then (kRouting, q.coll) else (kLayer, 1024 * q.encoder)
        onQuery (strmSat m.1 key x.sats) qh fun q =>
          { q with input := x.rows, vec := x.vec, sketch := x.sketch, memoHit := m.2, ready := countedTurn s }

/-- COMPOSE: the gathers and pooling of query `qh` in t0 (R117); `bad` lists the rows that are uncorrectable. -/
def execCompose (qh : Nat) (bad : List (Nat × Nat)) (s : State) : Host.Outcome State Fault Refusal :=
  .next (doCompose s qh bad)

/-! ### Read-ahead (R120) -/

/-- The cut payload of a fetched QUERY entry (R77). -/
def queryPayload (s : State) (e : QueryEntry) (entry : List Byte) (payload : Option (List Byte)) : List Byte :=
  if e.inl then (queryInline entry e.filter).take e.payloadLen
  else (payload.getD []).take (min e.payloadLen (getObj s (Obj.coll_MAX_INPUT e.coll)))

/-- A group begins to move: promotion to T2 (`t5` false) or demotion to T5. A promotion that a replacement or R121 demands starts
whatever room COMPOSE_T2_GIB has left (DESIGN CHOICE, log entry 86: no rule says that it waits for room). -/
def startGroupMove (s : State) (t g : Nat) (t5 : Bool) : State :=
  onGroup s t g fun x => if x.t5 == t5 || x.moving.isSome then x else { x with moving := some t5, copied := false, cancel := false }

/-- The groups of rows that no turn's staging can hold move to T2 (R121). -/
def promoteRows (s : State) (rows : List (Nat × Nat)) : State :=
  (nub (rows.map fun r => (r.1, r.2 / 256))).foldl (fun s g => startGroupMove s g.1 g.2 false) s

/-- Ticks of 0.8 ns in a microsecond. -/
def ticksPerUs : Nat := 1250

/-- Ticks after B(n) of the doorbell of this turn that covers an entry, 0 where an earlier turn's did. -/
def doorbellTick (q : Queue) (tally : Tally) : Nat :=
  ((q.bells.find? fun b => decide (tallyDiff tally q.devTally < tallyDiff b.1 q.devTally)).map (·.2)).getD 0

/-- The waystation and the die on which a T5 row lies. The slots of a group lie on the die of its base address, in successive pages
(DESIGN CHOICE, log entry 86: R111 gives a group one base address). -/
def rowDie (s : State) (t i : Nat) : Nat × Nat :=
  let a := ((tableOn s t).map fun v => (v.group (i / 256)).base).getD 0
  (addrChan a, (dieNum s (addrChan a) (addrDie a)).getD 4096)

/-- The read of one T5 row counts on the block of its page (R361). -/
def stageRead (s : State) (r : Nat × Nat) : State :=
  match tableOn s r.1 with
  | none => s
  | some v =>
    let lpn := addrLpn (v.group (r.2 / 256)).base + r.2 % 256 * slotBytes v.fmt v.width / 16384
    let d := (rowDie s r.1 r.2).2
    countRead s d (lookD s.flash.maps (d, lpn) lpn)

/-- Reserve the read of one row; none where the reads that the board reserves for composition on its waystation are used up, or the
cap of its die is (R120, R272). -/
def holdRead (s : State) (use : Option (List (Nat × Nat) × List (Nat × Nat))) (r : Nat × Nat) :
    Option (List (Nat × Nat) × List (Nat × Nat)) :=
  use.bind fun u =>
    let p := rowDie s r.1 r.2
    if lookD u.1 p.1 0 < composeNow s p.1 ∧ lookD u.2 p.2 0 < (readCaps (workWindowUs s)).2.1 then
      some (addUse u.1 p.1 1, addUse u.2 p.2 1)
    else none

/-- Reserve the reads of an entry's rows, all or none. -/
def holdReads (s : State) (rows : List (Nat × Nat)) : Option (List (Nat × Nat) × List (Nat × Nat)) :=
  rows.foldl (holdRead s) (some (s.comp.wayUsed, s.way.dieUse))

/-- Read ahead one entry: the T5 rows it needs are staged for the next turn, while COMPOSE_FLASH_CAP and the waystations' slots
allow; where they exceed the first by themselves their groups are promoted instead (R121). -/
def doReadAhead (s : State) (q : Nat) (tally : Tally) : State :=
  match s.host.fetched.find? (fun f => f.q == q && f.tally == tally) with
  | none => s
  | some f =>
    match f.entry with
    | none => s
    | some b =>
      let cutoff := (periodUs s - 4 - getObj s Obj.PREFETCH_LEAD_US) * ticksPerUs
      let qu := getQ s q
      if qu.ty ≠ .query ∨ cutoff < doorbellTick qu tally then s
      else
        let e := parseQuery b
        let all := t5Rows s (lookupsOf s e.coll (queryPayload s e b f.payload))
        let t := nextTurn s.turn.no
        let rows := all.filter fun r => !(s.comp.staged.any fun x =>
          x.q == q && x.tally == tally && x.table == r.1 && x.index == r.2 && x.turn == t)
        if getObj s Obj.COMPOSE_FLASH_CAP < all.length then promoteRows s all
        else if rows = [] ∨ getObj s Obj.COMPOSE_FLASH_CAP < s.comp.flashUsed + rows.length then s
        else match holdReads s rows with
        | none => s
        | some use =>
          let mk : Nat × Nat → Staged := fun r =>
            { q := q, tally := tally, table := r.1, index := r.2,
              bytes := ((tableOn s r.1).map fun v => (v.row r.2).bytes).getD [], turn := t, used := false }
          let new := rows.map mk
          let s := rows.foldl stageRead s
          bump { s with way := { s.way with dieUse := use.2 },
                        comp := { s.comp with staged := s.comp.staged ++ new, ahead := s.comp.ahead ++ [(q, tally, t)],
                                              flashUsed := s.comp.flashUsed + rows.length,
                                              wayUsed := use.1 } } Obj.STAGED_ROWS rows.length

/-- READ_AHEAD: one entry is read ahead for the next turn (R120). -/
def execReadAhead (q : Nat) (tally : Tally) (s : State) : Host.Outcome State Fault Refusal := .next (doReadAhead s q tally)

/-- At B(n) staged rows of turn n - 1, and staged rows whose row was flipped or whose group moved at B(n), are discarded
(R120, R224). Rows of entries that were held or shed are counted in STAGE_WASTED. -/
def discardStaged (s : State) (n : Nat) (changed : Nat → Nat → Bool) : State :=
  let wasted := (s.comp.staged.filter fun x => decide (x.turn < n) && !x.used).length
  let reread := (s.comp.staged.filter fun x => !decide (x.turn < n) && changed x.table x.index).length
  let s := bump s Obj.STAGED_REREAD reread
  bump { s with comp := { s.comp with staged := s.comp.staged.filter fun x => !decide (x.turn < n) && !changed x.table x.index,
                                      ahead := s.comp.ahead.filter fun x => !decide (x.2.2 < n), flashUsed := 0, wayUsed := [] } }
    Obj.STAGE_WASTED wasted

/-! ### Row replacement (R123 to R127) -/

/-- The entry at tally `tally` of queue `q` is taken as a query: its staged rows serve it. -/
def useStaged (s : State) (q : Nat) (tally : Tally) : State :=
  { s with comp := { s.comp with staged := s.comp.staged.map fun x =>
      if x.q == q && x.tally == tally && x.turn == s.turn.no then { x with used := true } else x } }

/-- Write a replacement row in turn `turn.no`: every copy of the row's inactive slot (R125, R126, R129). -/
def replaceRow (s : State) (t i wid : Nat) (b : List Byte) : State :=
  onActive s t fun v =>
    let g := v.group (i / 256)
    (v.setRow i ((v.row i).stage b (nextTurn s.turn.no) wid)).setGroup (i / 256) { g with lastRepl := s.turn.no + 1 }

/-- The row that a payload gives, in the stored row format, extended under R77 to the slot. -/
def rowPayload (v : TableVer) (b : List Byte) : List Byte :=
  let n := slotBytes v.fmt v.width
  let b := b.take (rowStored v.fmt v.width)
  b ++ List.replicate (n - b.length) 0

/-- The flips that fall due at B(n), and the new count of ROWS_REPLACED (R125, R131). -/
def flipRows (s : State) (n : Nat) : State :=
  s.comp.tables.foldl (fun s p =>
    match p.2.active with
    | none => s
    | some v =>
      let due := v.data.filter fun r => r.2.flipDue != 0 && decide (r.2.flipDue ≤ n)
      let data := v.data.map fun r =>
        if r.2.flipDue ≠ 0 ∧ r.2.flipDue ≤ n then (r.1, { r.2 with active := !r.2.active, err := false, flipDue := 0 }) else r
      bump (setTable s p.1 { getTable s p.1 with active := some { v with data := data } }) Obj.ROWS_REPLACED due.length) s

/-! ### Movement of row groups (R127 to R130) -/

/-- Whether a row of group `g` carries an error bit. -/
def groupErr (v : TableVer) (g : Nat) : Bool := v.data.any fun r => r.1 / 256 == g && r.2.err

/-- The descriptor switch of one group (R128, R130): a demotion that was cancelled leaves the group in T2. A T1 read copy is added
or dropped here too, and a group at home in T5 has none (R111). -/
def RowGroup.switch (t g : Nat) (x : RowGroup) : RowGroup :=
  let x := { x with t1 := x.t1Next.getD x.t1, t1Next := none }
  match x.moving with
  | none => x
  | some t5 =>
    if x.cancel then { x with moving := none, copied := false, cancel := false }
    else if x.copied then
      { x with t5 := t5, base := Config.groupAt t g t5, t1 := x.t1 && !t5, moving := none, copied := false }
    else x

/-- The switch of one group, with the flash pages that it gives back or has taken. -/
def switchGroup (s : State) (t g : Nat) : State :=
  let tb := getTable s t
  movePages s t { tb with active := tb.active.map fun v => v.setGroup g ((v.group g).switch t g) }

/-- GROUP_DESCRIPTOR_SWITCH: at the first boundary after a copy completes, after the flips counted at the same boundary
(R128, R40). -/
def execGroupDescriptorSwitch (table group : Nat) (s : State) : Host.Outcome State Fault Refusal :=
  .next (if s.turn.phase = .p4 then switchGroup s table group else s)

/-! ### Whole tables (R132) -/

/-- LOAD = 1 as applied. A built version whose SWITCH was still due is discarded with its switch, and SWITCH goes on reading what
was written (DESIGN CHOICE, log entry 86: R132 does not say what it reads then). -/
def doTableLoad (s : State) (t : Nat) : State :=
  let st := getObj s (Obj.table_LOAD_STATE t)
  if st = 1 then setObj s (Obj.table_LOAD t) 0
  else
    let tb := getTable s t
    let geo := (getObj s (Obj.table_FORMAT t), getObj s (Obj.table_WIDTH t), getObj s (Obj.table_ROWS t))
    let s := movePages s t { tb with built := none, switchDue := 0, buildGeo := some geo }
    setObj (setObj s (Obj.table_LOAD_STATE t) 1) (Obj.table_LOAD t) 1

/-- TABLE_LOAD: a write of LOAD = 1 takes effect (R132). -/
def execTableLoad (table : Nat) (s : State) : Host.Outcome State Fault Refusal := .next (doTableLoad s table)

/-- Give each group its home: T2 until COMPOSE_T2_GIB is full, then T5. -/
def placeGroups (s : State) (t : Nat) (v : TableVer) : Nat → Nat → Nat → List (Nat × RowGroup)
  | 0, _, _ => []
  | n + 1, g, used =>
    let fits := groupFits s used v
    (g, RowGroup.of (!fits) (Config.groupAt t g (!fits)))
      :: placeGroups s t v n (g + 1) (used + 64 + (if fits then 512 * slotBytes v.fmt v.width else 0))

/-- A version built from an image of its rows in slots. -/
def buildVersion (s : State) (t fmt w rows : Nat) (b : List Byte) : TableVer :=
  let n := slotBytes fmt w
  let v : TableVer := { fmt := fmt, width := w, rows := rows,
                        data := (List.range rows).map fun i => (i, Row.of (slice b (n * i) n)), groups := [] }
  { v with groups := placeGroups s t v ((rows + 255) / 256) 0 (composeT2Used s) }

/-- TABLE_BUILD_COMPLETE: the build ends with a version ready, or with a failed fetch, which is tried again up to
FETCH_RETRY_LIMIT attempts (R132). An image shorter than its ROWS slots counts as a failed fetch. SRC_LOC and SRC_ADDR are read
here, where the fetch ends (DESIGN CHOICE, log entry 86: R132 fixes FORMAT, WIDTH and ROWS at the start, and is silent on these). -/
def execTableBuildComplete (table : Nat) (image : Fetch) (s : State) : Host.Outcome State Fault Refusal :=
  .next (
    let tb := getTable s table
    match tb.buildGeo with
    | none => s
    | some (fmt, w, rows) =>
      if sourceReach s (getObj s (Obj.table_SRC_LOC table)) (getObj s (Obj.table_SRC_ADDR table)) image = false then s
      else
      let bytes := match sourceFetch s (getObj s (Obj.table_SRC_LOC table)) (getObj s (Obj.table_SRC_ADDR table)) image with
        | .bytes b => if b.length < rows * slotBytes fmt w then none else some b
        | .failed => none
      match bytes with
      | none =>
        let r := loadAttempt s (Obj.table_LOAD table)
        if r.2 then
          postEvent (setObj (setObj (setTable r.1 table { tb with buildGeo := none }) (Obj.table_LOAD_STATE table) 3)
            (Obj.table_LOAD table) 0) 0x3010 table
        else r.1
      | some b =>
        let s := loadFetched s (Obj.table_LOAD table)
        setObj (setObj (movePages s table { tb with buildGeo := none, built := some (buildVersion s table fmt w rows b) })
          (Obj.table_LOAD_STATE table) 2) (Obj.table_LOAD table) 0)

/-- SWITCH = 1 as applied: the new version becomes active at the first boundary after. -/
def doTableSwitch (s : State) (t : Nat) : State :=
  if getObj s (Obj.table_LOAD_STATE t) ≠ 2 then setObj s (Obj.table_SWITCH t) 0
  else setObj (setTable s t { getTable s t with switchDue := boundary s }) (Obj.table_SWITCH t) 1

/-- TABLE_SWITCH: a write of SWITCH = 1 takes effect (R132). -/
def execTableSwitch (table : Nat) (s : State) : Host.Outcome State Fault Refusal := .next (doTableSwitch s table)

/-- The switch of one table: the built version becomes active, the old one and the replacements written to it go. -/
def switchTable (s : State) (t : Nat) : State :=
  let tb := getTable s t
  match tb.built with
  | none => s
  | some v =>
    let s := movePages s t { active := some v, built := none, buildGeo := none, switchDue := 0 }
    let s := setObj s (Obj.table_VERSION t) ((getObj s (Obj.table_VERSION t) + 1) % 2 ^ 32)
    setObj (setObj s (Obj.table_LOAD_STATE t) 0) (Obj.table_SWITCH t) 0

end Sys2Proof.Machine
end

