-- ==== Sys2Proof/Machine/Quota.lean ====
section
/-! DEFINITION. What collections take of each tier, and what is left for services (R318 to R323). -/

namespace Sys2Proof.Machine

/-- Search-memory bytes of one entry (R191). -/
def entryBytes (s : State) (c : Nat) : Nat :=
  40 + sketchBitsOf s c / 8 + (if isHamming s c then 0 else subspacesOf s c / 2)

/-- Bytes of one centroid row as ROUTE_MODE counts them (R206). -/
def centRowBytes (s : State) (c : Nat) : Nat := if isHamming s c then sketchBitsOf s c / 8 else dimsOf s c + 4

/-- Entries that some retained state of a list holds: they are what it is charged for (R310, R322). -/
def ListCopy.kept (l : ListCopy) : List Nat :=
  nub (l.sets.flatMap (fun g => g.bases.flatten) ++ l.delta.drop l.lowCut ++ l.sets.flatMap (·.adopted))

/-- Entries of the retained base segments. -/
def ListCopy.based (l : ListCopy) : List Nat := nub (l.sets.flatMap fun g => g.bases.flatten)

/-- T2 bytes of one list copy: entries, and full-vector records of the delta and of hot copies. -/
def listT2 (s : State) (l : ListCopy) : Nat :=
  let c := keyColl l.key
  let rec1 := if isHamming s c then 0 else recordBytes s c
  let b := l.based.length
  let n := l.kept.length
  n * entryBytes s c + (n - b) * rec1 + (if l.sets.any (·.hot) then b * rec1 else 0)

/-- T5 bytes of one list copy. -/
def listT5 (s : State) (l : ListCopy) : Nat :=
  if isHamming s (keyColl l.key) then 0 else l.based.length * recordBytes s (keyColl l.key)

/-- Copies of lists of collection `c` on this node. -/
def listsOf (s : State) (c : Nat) : List ListCopy := s.lists.filter fun l => keyColl l.key == c

/-- Bytes of centroid rows and graph edges of every retained set of a collection. -/
def centBytes (s : State) (c : Nat) : Nat :=
  (getColl s c).cents.foldl (fun n cs =>
    n + cs.cents.length * centRowBytes s c + 4 * (cs.entries.length + cs.edges.foldl (fun m e => m + e.2.length) 0)) 0

/-- T1 bytes charged to a collection: rows and edges, up to its quota (Table 14.2). -/
def collT1 (s : State) (c : Nat) : Nat := min (centBytes s c) (getObj s (Obj.coll_T1_QUOTA_MIB c) * 2 ^ 20)

/-- T2 bytes charged to a collection (R322, R383). -/
def collT2 (s : State) (c : Nat) : Nat :=
  (listsOf s c).foldl (fun n l => n + listT2 s l) 0 + (centBytes s c - collT1 s c)
    + 24 * ((getColl s c).cents.headD default).cents.length
    + (s.ing.shards.filter (·.coll == c)).foldl (fun n d => n + 24 * d.recs.length) 0

/-- T4 and T5 bytes charged to a collection. -/
def collT4 (s : State) (c : Nat) : Nat :=
  (s.place.mirrors.filter fun m => keyColl m.key == c).foldl (fun n m => n + m.bytes) 0
def collT5 (s : State) (c : Nat) : Nat := (listsOf s c).foldl (fun n l => n + listT5 s l) 0

/-- T1 and T2 left for services, in MiB (chapter 14). -/
def t1ServiceMib (s : State) : Nat := 
  16384 - 256 - 1536 - getObj s Obj.BAZAAR_BUF_MIB - 1024 * getObj s Obj.MODEL_QUOTA_GIB
    - 64 * (s.scratch.banks.filter fun b => b.2.retired).length
def t2ServiceMib (s : State) : Nat :=
  786432 - 128 - 1024 * (getObj s Obj.HOST_REGION_GIB + getObj s Obj.COMPOSE_T2_GIB + getObj s Obj.CACHE_LEND_GIB)

/-- T2 used by all collections, and by the entries of other lenders that the node keeps (R390). -/
def t2Used (s : State) : Nat := s.fab.kept.foldl (fun n e => n + 16 + e.2.value.length) (s.colls.foldl (fun n p => n + collT2 s p.1) 0)

/-- Free T2 in bytes. -/
def t2Free (s : State) : Nat := t2ServiceMib s * 2 ^ 20 - t2Used s

/-- Whether `n` more bytes of T2 or T5 fit a collection's quota; a node with no flash has no T5 (R323, R353). -/
def t2Fits (s : State) (c n : Nat) : Bool :=
  decide (collT2 s c + n ≤ getObj s (Obj.coll_T2_QUOTA_GIB c) * 2 ^ 30) && decide (n ≤ t2Free s)
def t5Fits (s : State) (c n : Nat) : Bool :=
  decide (collT5 s c + n ≤ getObj s (Obj.coll_T5_QUOTA_GB c) * 10 ^ 9) && !(openDies s).isEmpty

/-- Whether the node refuses all staging (R324). -/
def stagingShut (s : State) : Bool := decide (2 * t2Free s < getObj s Obj.T2_RESERVE_GIB * 2 ^ 30)

/-- The storage of `n` entries as a holder stages them. -/
def stageBytes (s : State) (c : Nat) : Nat := entryBytes s c + (if isHamming s c then 0 else recordBytes s c)

/-- Search memory that the lists of one stack take, and their summed heat. -/
def stackUsed (s : State) (st : Nat) : Nat := (s.lists.filter (·.stack == st)).foldl (fun n l => n + listT2 s l) 0
def stackHeat (s : State) (st : Nat) : Nat := (s.lists.filter (·.stack == st)).foldl (fun n l => n + l.heat) 0

/-- The stack for a new list copy: with room, of least summed heat, the lowest among equals (R332). -/
def chooseStack (s : State) : Nat :=
  let room := (List.range 8).filter fun st => decide (stackUsed s st < 96 * 2 ^ 30 - 16 * 2 ^ 20)
  match room with
  | [] => 0
  | a :: l => l.foldl (fun b st => if stackHeat s st < stackHeat s b then st else b) a

end Sys2Proof.Machine
end

