-- ==== Sys2Proof/Machine/Collections.lean ====
section
/-! DEFINITION. Collections (chapter 08): loading an image, running, stopping and dropping, centroid sets and their
changes, and the freeing of superseded states. -/

namespace Sys2Proof.Machine

/-! ### Collection images (R211, R212) -/

/-- A checked collection image. -/
structure CollImg where
  rows : List (List Flt)
  sketches : List (List Bool)
  books : List (List (List Flt))
  entries : List Nat
  edges : List (List Nat)
  digest : List Byte
  deriving DecidableEq, Repr, Inhabited

/-- The mark of an empty edge (R206). -/
def noEdge : Nat := 0xFFFFFFFF

/-- An FP32 pattern as R212 reads it. -/
def cleanF32 (bits : Nat) : Flt :=
  match f32Val bits with
  | .nan => f0
  | .inf true => fneg fmax32
  | .inf false => fmax32
  | x => x

/-- `n` FP32 values of a block, read under R212. -/
def cleanRow (n off : Nat) (b : List Byte) : List Flt := (List.range n).map fun i => cleanF32 (leNat (slice b (off + 4 * i) 4))

/-- An edge or entry centroid, clamped at load (R206). -/
def loadEdge (ncent v : Nat) : Nat := if v < ncent then v else noEdge

/-- `n` U32 values of a block. -/
def u32s (n off : Nat) (b : List Byte) : List Nat := (List.range n).map fun i => leNat (slice b (off + 4 * i) 4)

/-- Whether M is a power of two from 8 to 512 that divides DIMS (R193). -/
def subspacesOk (dims m : Nat) : Bool := decide (8 ≤ m ∧ m ≤ 512 ∧ m = 2 ^ m.log2) && dims % m == 0

/-- The four values of SKETCH_BITS. -/
def sketchSizeOk (n : Nat) : Bool := n == 128 || n == 256 || n == 512 || n == 1024

/-- Lists that count toward DOMAIN_LISTS (R197). -/
def domainLists (s : State) : Nat := s.colls.foldl (fun n p => n + (p.2.cents.headD default).cents.length) 0

/-- Centroid numbers that the open splits of a collection will use. -/
def splitNumbers (s : State) (c : Nat) : List Nat :=
  (s.ing.reshapes.filter fun r => r.split && keyColl r.key == c).map fun r => keyCent r.other

/-- Lists of the domain with those that open splits will add. -/
def comingLists (s : State) : Nat := domainLists s + (s.ing.reshapes.filter (·.split)).length

/-- Check an image of collection `c` in the order of R211, up to its agreement with the descriptor: the image, or the cause. -/
def parseColl (s : State) (c : Nat) (b : List Byte) : Except Nat CollImg :=
  let h := leNat (b.take 128)
  let metric := bitsOf h 40 8
  let dims := bitsOf h 48 16
  let m := bitsOf h 64 16
  let bits := bitsOf h 80 16
  let nc := bitsOf h 96 32
  let ne := bitsOf h 128 8
  let nen := bitsOf h 136 8
  let bytes := bitsOf h 192 64
  let co := bitsOf h 256 64
  let bo := bitsOf h 320 64
  let go := bitsOf h 384 64
  let ham := metric == 3
  let img := b.take bytes
  if ¬(128 ≤ bytes ∧ bytes ≤ 2 ^ 40) then .error 3
  else if b.length < bytes then .error 1
  else if digest (img.take 56 ++ List.replicate 32 0 ++ img.drop 88) ≠ slice img 56 32 then .error 2
  else if ¬(bitsOf h 0 32 = 0x54484349 ∧ bitsOf h 32 8 = 1 ∧ metric ≤ 3 ∧ sketchSizeOk bits = true ∧ 1 ≤ nc ∧ nc ≤ 4194304
      ∧ ne ≤ 32 ∧ nen ≤ 16 ∧ (nen = 0 → ne = 0) ∧ co % 64 = 0 ∧ (ham = true ∨ bo % 64 = 0) ∧ go % 64 = 0
      ∧ bitsOf h 144 48 = 0 ∧ bitsOf h 704 320 = 0) then .error 3
  else if !ham && !(decide (dims % 32 = 0 ∧ 32 ≤ dims ∧ dims ≤ 4096) && subspacesOk dims m) then .error 3
  else if bytes < co + nc * (if ham then bits / 8 else 4 * dims) ∨ (ham = false ∧ bytes < bo + 64 * dims)
      ∨ (0 < ne ∧ bytes < go + 4 * (nen + nc * ne)) then .error 3
  else if metric ≠ getObj s (Obj.coll_METRIC c) ∨ bits ≠ sketchBitsOf s c
      ∨ (ham = false ∧ (dims ≠ getObj s (Obj.coll_DIMS c) ∨ m ≠ subspacesOf s c)) then .error 4
  else
    .ok { rows := if ham then [] else (List.range nc).map fun i => cleanRow dims (co + 4 * dims * i) img,
          sketches := if ham then (List.range nc).map fun i =>
              sketchBits (getObj s (Obj.coll_SKETCH_LAYOUT c)) bits (slice img (co + bits / 8 * i) (bits / 8)) else [],
          books := if ham then [] else (List.range m).map fun j =>
              (List.range 16).map fun k => cleanRow (dims / m) (bo + 4 * (dims / m) * (16 * j + k)) img,
          entries := if ne = 0 then [] else (u32s nen go img).map (loadEdge nc),
          edges := if ne = 0 then [] else (List.range nc).map fun i => (u32s ne (go + 4 * (nen + ne * i)) img).map (loadEdge nc),
          digest := slice img 56 32 }

/-- Centroids of an image. -/
def CollImg.ncent (x : CollImg) : Nat := x.rows.length + x.sketches.length

/-- Whether an image would pass the domain's list limit (R197, cause 5). -/
def pastLists (s : State) (x : CollImg) : Bool := decide (16777216 < comingLists s + x.ncent)

/-- Whether this node has no room for an image's centroid set and graph (cause 6). -/
def noRoom (s : State) (c : Nat) (x : CollImg) : Bool :=
  decide (t2Free s < x.ncent * (centRowBytes s c + 24) + 4 * (x.entries.length + (x.edges.map (·.length)).sum)
    - getObj s (Obj.coll_T1_QUOTA_MIB c) * 2 ^ 20)

/-- The centroid set of an image, converted under R198 and R212, in force from boundary `n`. -/
def centSetOf (s : State) (c : Nat) (img : CollImg) (n : Nat) : CentSet :=
  let rows := if metricOf s c = .cosine then img.rows.map normalise else img.rows
  { start := n, stop := 0, version := 1,
    cents := (rows.zipIdx.map fun p => convCentroid s c p.2 p.1)
      ++ img.sketches.zipIdx.map fun p => { num := p.2, codes := [], scale := f1, bits := p.1, dead := false },
    entries := img.entries, edges := img.edges.zipIdx.map fun p => (p.2, p.1) }

/-- A failed load (R211): IMG_STATE 3, the cause, event 0x3015; a later load of the number may start. -/
def collFail (s : State) (c cause : Nat) : State :=
  let v := getColl s c
  let s := setColl s c { v with pend := if v.pend = some 3 then none else v.pend, loads := v.loads.filter (·.1 != selfNode s) }
  let s := setObj (setObj (setObj s (Obj.coll_IMG_STATE c) 3) (Obj.coll_IMG_CAUSE c) cause) (Obj.coll_IMG_LOAD c) 0
  postEvent s 0x3015 (c + 2 ^ 12 * cause)

/-- IMG_LOAD = 1 as applied (R211, R185). -/
def doImgLoad (s : State) (c : Nat) : State :=
  let v := getColl s c
  if collState s c ≠ 0 ∨ v.dropDue ≠ 0 then setObj s (Obj.coll_IMG_LOAD c) 0
  else
    let s := setColl s c { v with pend := some 3 }
    setObj (setObj (setObj s (Obj.coll_IMG_STATE c) 1) (Obj.coll_IMG_CAUSE c) 0) (Obj.coll_IMG_LOAD c) 1

/-- IMG_LOAD: a write of IMG_LOAD = 1 takes effect (R211). -/
def execImgLoad (coll : Nat) (s : State) : Host.Outcome State Fault Refusal := .next (doImgLoad s coll)

/-- Other members of the partition. -/
def otherMembers (s : State) : List Nat := s.ledger.members.filter (· != selfNode s)

/-- The image has been fetched: it is checked, distributed to every member and proposed to the ledger (R211). -/
def doCollLoaded (s : State) (c : Nat) (f : Fetch) : State :=
  if (getColl s c).pend ≠ some 3 ∨ getObj s (Obj.coll_IMG_STATE c) ≠ 1 ∨ getObj s (Obj.coll_IMG_LOAD c) = 0 ∨
    sourceReach s (getObj s (Obj.coll_IMG_LOC c)) (getObj s (Obj.coll_IMG_ADDR c)) f = false then s
  else match sourceFetch s (getObj s (Obj.coll_IMG_LOC c)) (getObj s (Obj.coll_IMG_ADDR c)) f with
    | .failed =>
      let r := loadAttempt s (Obj.coll_IMG_LOAD c)
      if r.2 then collFail r.1 c 1 else r.1
    | .bytes b =>
      let s := loadFetched s (Obj.coll_IMG_LOAD c)
      match parseColl s c b with
      | .error e => collFail s c e
      | .ok x =>
        if pastLists s x then collFail s c 5
        else if noRoom s c x then collFail s c 6
        else
        let v := getColl s c
        let s := setColl s c { v with loads := put v.loads (selfNode s) b }
        let s := setObj (sendAll s (otherMembers s) (.copy (.image c b))) (Obj.coll_IMG_LOAD c) 0
        ledgerRequest s (.descriptor (Obj.coll_STATE c) 1)

/-- COLLECTION_IMAGE_LOAD_COMPLETE: the fetch of the image has ended (R211). -/
def execCollectionImageLoadComplete (coll : Nat) (image : Fetch) (s : State) : Host.Outcome State Fault Refusal :=
  .next (doCollLoaded s coll image)

/-- A table bound to a number that becomes a stopped collection is unbound (R186). -/
def unbindTables (s : State) (c : Nat) : State :=
  (List.range 64).foldl (fun s t =>
    if getObj s (Obj.table_TABLE_COLLECTION t) = c then
      postEvent (setObj s (Obj.table_TABLE_COLLECTION t) 0xFFFF) 0x7030 t
    else s) s

/-- The directory of a new collection: this node's shards, with every commit and stamp of turns below `n` counted (R303). -/
def openDirectory (s : State) (c n : Nat) : State :=
  let mine := (List.range 256).filterMap fun sh =>
    let h := shardHolders s c sh
    if h.1 = selfNode s ∨ h.2 = selfNode s then
      some ({ coll := c, shard := sh, primary := h.1 == selfNode s, recs := [], done := n - 1, missing := [], sent := [] } : DirShard)
    else none
  { s with ing := { s.ing with shards := s.ing.shards.filter (·.coll != c) ++ mine,
                               stampThrough := s.ing.stampThrough.filter (·.1.1 != c) ++ (List.range 256).map fun sh => ((c, sh), n - 1) } }

/-- The ledger's record of a load by node `from_` takes effect at boundary `n` (R211, R209, R384). A load of this node
that was superseded fails with cause 7, once. An image that no longer agrees with the descriptor, or that has come to pass the
domain's list limit, is not loaded, and the load fails on its own node. -/
def applyCollLoad (s : State) (c from_ n : Nat) : State :=
  let v := getColl s c
  if v.life ≠ 0 then s
  else
    let own := (look v.loads (selfNode s)).isSome || v.pend == some 3
    let s := if own && from_ != selfNode s then collFail s c 7 else s
    let v := getColl s c
    match look v.loads from_ with
    | none =>
      unbindTables (openDirectory (setColl s c { v with life := 1, pend := none,
                                                        members := sortBy (fun a b => decide (a ≤ b)) s.ledger.members }) c n) c
    | some b =>
      let fail := fun (e : Nat) =>
        if from_ = selfNode s then collFail s c e else setColl s c { v with loads := v.loads.filter (·.1 != from_) }
      match parseColl s c b with
      | .error e => fail e
      | .ok img =>
        if pastLists s img then fail 5
        else
        let cs := centSetOf s c img n
        let s := setColl s c { v with life := 1, pend := none, cents := [cs], books := img.books, imageDigest := img.digest,
                                      imageBytes := b, loads := [],
                                      members := sortBy (fun a b => decide (a ≤ b)) s.ledger.members }
        let s := openDirectory s c n
        let s := if from_ = selfNode s then setObj s (Obj.coll_IMG_STATE c) 2 else s
        let s := if img.edges = [] ∧ getObj s (Obj.coll_ROUTE_MODE c) = 2 then setObj s (Obj.coll_ROUTE_MODE c) 1 else s
        unbindTables s c

/-! ### Running, stopping, dropping (R183) -/

/-- RUN = 1 as applied: tested against the running collections and the runs already pending. -/
def doRun (s : State) (c : Nat) : State :=
  if collState s c ≠ 1 then s
  else if 1024 ≤ (s.colls.filter fun p => p.2.life == 2 || p.2.pend == some 1).length then setObj s (Obj.coll_RUN c) 0
  else ledgerRequest (setObj (setColl s c { getColl s c with pend := some 1 }) (Obj.coll_RUN c) 1) (.descriptor (Obj.coll_RUN c) 1)

/-- RUN = 0 as applied. -/
def doStop (s : State) (c : Nat) : State :=
  if collState s c ≠ 2 then s
  else ledgerRequest (setColl s c { getColl s c with pend := some 0 }) (.descriptor (Obj.coll_RUN c) 0)

/-- DROP = 1 as applied. -/
def doDrop (s : State) (c : Nat) : State :=
  if collState s c ≠ 1 then s
  else ledgerRequest (setObj (setColl s c { getColl s c with pend := some 2 }) (Obj.coll_DROP c) 1) (.descriptor (Obj.coll_DROP c) 1)

/-- RUN: a write of RUN = 1. -/
def execRun (coll : Nat) (s : State) : Host.Outcome State Fault Refusal := .next (doRun s coll)

/-- COLLECTION_STOP: a write of RUN = 0. -/
def execCollectionStop (coll : Nat) (s : State) : Host.Outcome State Fault Refusal := .next (doStop s coll)

/-- DROP: a write of DROP = 1. -/
def execDrop (coll : Nat) (s : State) : Host.Outcome State Fault Refusal := .next (doDrop s coll)

/-- The ledger's record of RUN or DROP takes effect at boundary `n` (R182, R183, R185). `ok` is false where the leader
refused the run. -/
def applyLife (s : State) (c : Nat) (what : Nat) (ok : Bool) (n : Nat) : State :=
  let v := getColl s c
  match what with
  | 1 =>
    if ok && v.life == 1 then setObj (setColl s c { v with life := 2, pend := none }) (Obj.coll_RUN c) 1
    else if v.pend = some 1 then setObj (setColl s c { v with pend := none }) (Obj.coll_RUN c) 0
    else s
  | 0 =>
    if v.life = 2 then setObj (setColl s c { v with life := 1, pend := none }) (Obj.coll_RUN c) 0 else s
  | _ =>
    if v.life = 1 then setObj (setColl s c { v with life := 0, pend := none, dropDue := n + 41 }) (Obj.coll_DROP c) 0 else s

/-! ### Centroid sets (R208, R209) -/

/-- A changed centroid set or graph in force from boundary `n`; `bump` says whether VERSION increments. -/
def pushCents (v : Coll) (n : Nat) (newVersion : Bool) (f : CentSet → CentSet) : Coll :=
  match v.cents with
  | [] => v
  | cs :: old =>
    let x := f cs
    let ver := if newVersion && cs.start != n then cs.version + 1 else cs.version
    let x := { x with start := n, stop := 0, version := ver % 2 ^ 64 }
    if cs.start = n then { v with cents := x :: old } else { v with cents := x :: { cs with stop := n } :: old }

/-- Whether a centroid number names a live centroid of a set. -/
def CentSet.alive (cs : CentSet) (n : Nat) : Bool := ((cs.cent n).map (!·.dead)).getD false

/-- EDGE_REWRITE_COMPLETE: the edge list of a centroid, with its dead targets replaced by empty edges, takes effect at
the first turn boundary after (R207). -/
def execEdgeRewriteComplete (coll centroid : Nat) (s : State) : Host.Outcome State Fault Refusal :=
  .next (
    let v := getColl s coll
    if (v.cents.headD default).edges.any (·.1 == centroid) then
      setColl s coll { v with rewrites := put v.rewrites centroid (dueTurn s) }
    else s)

/-- The rewrites of edge lists that fall due at boundary `n`; the graph changes, and VERSION increments (R207, R209). -/
def applyRewrites (s : State) (n : Nat) : State :=
  s.colls.foldl (fun s p =>
    let due := p.2.rewrites.filter fun r => decide (r.2 ≤ n)
    if due = [] then s
    else
      let v := getColl s p.1
      let v := { v with rewrites := v.rewrites.filter fun r => !decide (r.2 ≤ n) }
      setColl s p.1 (pushCents v n true fun cs =>
        { cs with edges := cs.edges.map fun e =>
            if due.any (·.1 == e.1) then (e.1, e.2.map fun t => if cs.alive t then t else noEdge) else e })) s

/-! ### Retention (R208) -/

/-- Whether a state superseded at `stop` is freed at boundary `n`. -/
def retired (stop n : Nat) : Bool := stop != 0 && decide (stop + 41 ≤ n)

/-- Free the superseded segment sets of one list; answers how many, and their media records. -/
def freeSets (n : Nat) (l : ListCopy) : ListCopy × Nat × List Nat :=
  let keep := l.sets.filter fun g => !retired g.stop n
  ({ l with sets := keep }, l.sets.length - keep.length, (l.sets.filter fun g => retired g.stop n).flatMap (·.locs))

/-- Mirrors are freed with the base segments that they copy (R327): those of `key` that no remaining set holds. -/
def freeMirrors (s : State) (key : Nat) : State :=
  let bases := ((getList s key).map fun l => l.sets.flatMap (·.bases)).getD []
  { s with place := { s.place with mirrors := s.place.mirrors.filter fun m => !(m.key == key && !bases.contains m.base) } }

/-- Media records of a list's entries. -/
def ListCopy.media (l : ListCopy) : List Nat :=
  ((l.based.filterMap fun i => l.entries[i]?).filterMap fun e => if e.loc = 0 then none else some e.loc) ++ l.sets.flatMap (·.locs)

/-- Remove this node's copy of a list and discard its pages. -/
def freeCopy (s : State) (key : Nat) : State :=
  match getList s key with
  | none => s
  | some l => freeMirrors (discardPages { s with lists := s.lists.filter (·.key != key) } l.media) key

/-- Free what boundary `n` frees: list states, centroid sets, released centroid numbers, departed copies, dropped
collections (R185, R200, R208, R335). -/
def freeStates (s : State) (n : Nat) : State :=
  let s := s.lists.foldl (fun s l =>
    let r := freeSets n l
    if r.2.1 = 0 then s
    else if r.1.sets = [] then bump (freeCopy s l.key) Obj.STATES_FREED r.2.1
    else bump (freeMirrors (discardPages (setList s r.1) r.2.2) l.key) Obj.STATES_FREED r.2.1) s
  let gone := s.ledger.lists.flatMap fun p =>
    if p.2.any fun h => h.node == selfNode s && decide (h.role = .departing) && decide (h.lastPin + 42 ≤ n) then [p.1] else []
  let s := gone.foldl freeCopy s
  let left := fun (hs : List Holder) => hs.filter fun h => !(decide (h.role = .departing) && decide (h.lastPin + 42 ≤ n))
  let s : State := { s with ledger := { s.ledger with lists := s.ledger.lists.map fun p => (p.1, left p.2) } }
  s.colls.foldl (fun s p =>
    let v := getColl s p.1
    if v.dropDue ≠ 0 ∧ v.dropDue ≤ n then
      let s := ((listsOf s p.1).map (·.key)).foldl freeCopy s
      let away := fun (l : List (Nat × Nat)) => l.filter fun x => keyColl x.1 != p.1
      let s := { s with ing := { s.ing with shards := s.ing.shards.filter (·.coll != p.1), merged := away s.ing.merged,
                                            derived := away s.ing.derived },
                        ledger := { s.ledger with lists := s.ledger.lists.filter fun x => keyColl x.1 != p.1 } }
      setColl s p.1 Coll.reset
    else
      let cents := v.cents.filter fun cs => !retired cs.stop n
      let free := fun (s : State) (gone : List Nat) =>
        let away := fun (l : List (Nat × Nat)) => l.filter fun x => !gone.contains x.1
        { s with ing := { s.ing with merged := away s.ing.merged, derived := away s.ing.derived } }
      let used := fun k => (s.lists.any (·.key == listKey p.1 k)) || cents.any fun cs => cs.edges.any fun e => e.2.contains k
      match cents with
      | [] => setColl s p.1 { v with cents := [] }
      | cs :: old =>
        let stays := fun (c : Centroid) => !c.dead || decide (n < c.died + 41) || used c.num
        let gone := (cs.cents.filter fun c => !stays c).map fun c => listKey p.1 c.num
        setColl (free s gone) p.1 { v with cents := { cs with cents := cs.cents.filter stays } :: old }) s

/-- STATE_FREE: states superseded at B(s) are freed at B(s + 41). -/
def execStateFree (s : State) : Host.Outcome State Fault Refusal :=
  .next (if s.turn.phase = .p4 then freeStates s (boundary s) else s)

end Sys2Proof.Machine
end

