-- ==== Sys2Proof/Machine/Search.lean ====
section
/-! DEFINITION. The search pipeline from t1 on (chapters 09, 11 and 12): coarse routing, sketch scan, widening, exact
re-ranking in the waystations, re-scoring, local selection and the Bazaar. -/

namespace Sys2Proof.Machine

/-! ### Slips, results, answers -/

/-- Post a result: it is written in this turn, or in the next where its queue's tally has been published already (R81, R82). A queue
number of 16,384 and above marks a request that was in flight when PERST# fell: its result is discarded (R478). -/
def postResult (s : State) (r : Res) : State :=
  if 16384 ≤ r.sq then s
  else
    let r := if (getQ s r.rq).told then { r with postTurn := nextTurn s.turn.no } else r
    { s with host := { s.host with results := s.host.results ++ [r] } }

/-- The result of a query. -/
def queryRes (s : State) (q : Query) (st : Status) (replica : Bool) (ids : List (BitVec 64)) : Res :=
  { rq := (getQ s q.sq).resultQ, sq := q.sq, sqTally := q.tally, userTag := q.userTag, status := st,
    yellow := decide (q.colour = .yellow), widened := q.widened, replica := replica, count := ids.length, ids := ids,
    slots := q.k, postTurn := s.turn.no, taken := q.t0, enc := q.encoder }

/-- Send a cancel to every node that works on a query (R54). -/
def sendCancels (s : State) (q : Query) : State := sendAll s q.shards (.cancel q.qh q.t0)

/-- Bytes of the result entry of a query (R67). -/
def resultBytes (q : Query) : Nat := 32 + 8 * q.k

/-- Answer a query: the result is posted, across the bridge from H1, and the context, its route record and its buffer space are
released (R80, R290, R17). -/
def answerQuery (s : State) (q : Query) (st : Status) (replica : Bool) (ids : List (BitVec 64)) : State :=
  let s := postResult (crossBridge s q.half (resultBytes q)) (queryRes s q st replica ids)
  { s with queries := s.queries.filter fun x => x.qh != q.qh }

/-! ### Coarse routing (R218 to R222) -/

/-- The query vector after R189. -/
def routedVec (s : State) (q : Query) : List Flt :=
  let v := q.vec.getD []
  if metricOf s q.coll = .cosine then normalise v else v

/-- The sketch of a query (R192). -/
def querySketch (s : State) (q : Query) : List Bool := if q.sketch = [] then collSketch s q.coll (routedVec s q) else q.sketch

/-- Turn t1 of a query. -/
def t1Of (q : Query) : Nat := (q.t0 + q.m) % turnMod

/-- Vectors that the routing stream of a collection converts in this turn: one step (R166), which the queries placed for their
first routing make, those that slipped from an earlier turn among them. -/
def routingBatch (s : State) (c : Nat) : List Flt :=
  (s.queries.filter fun q => q.coll == c && q.vec.isSome && q.routeTurn == some s.turn.no).flatMap (routedVec s)

/-- Whether a collection's route is a graph walk (R206). -/
def walks (s : State) (c : Nat) (cs : CentSet) : Bool :=
  match getObj s (Obj.coll_ROUTE_MODE c) with
  | 0 => !cs.edges.isEmpty && decide (getObj s (Obj.coll_T1_QUOTA_MIB c) * 2 ^ 20 < cs.cents.length * centRowBytes s c)
  | 1 => false
  | _ => !cs.edges.isEmpty

/-- A kept centroid of a walk: distance, number, expanded. -/
abbrev Kept := Flt × Nat × Bool

/-- The order of R218 among kept centroids. -/
def keptLe (a b : Kept) : Bool := flt a.1 b.1 || (!flt b.1 a.1 && decide (a.2.1 ≤ b.2.1))

/-- Insertion past `width` drops the worst entry (R220). -/
def keepBest (width : Nat) (best : List Kept) (x : Kept) : List Kept := (insertBy keptLe x best).take width

/-- Mark the first centroid that is not yet expanded; none where every kept centroid is. -/
def firstOpen : List Kept → Option (Nat × List Kept)
  | [] => none
  | (d, c, done) :: l =>
    if done then (firstOpen l).map fun r => (r.1, (d, c, done) :: r.2) else some (c, (d, c, true) :: l)

/-- The walk of R220; answers the kept centroids and the dead edges skipped. -/
def walkGo (cs : CentSet) (dist : Nat → Flt) (width : Nat) : Nat → List Kept → List Nat → Nat → List Kept × Nat
  | 0, best, _, skips => (best, skips)
  | n + 1, best, seen, skips =>
    match firstOpen best with
    | none => (best, skips)
    | some (c, best) =>
      let step := fun (acc : List Kept × List Nat × Nat) (e : Nat) =>
        if e = noEdge then acc
        else if !cs.alive e then (acc.1, acc.2.1, acc.2.2 + 1)
        else if acc.2.1.contains e then acc
        else (keepBest width acc.1 (dist e, e, false), e :: acc.2.1, acc.2.2)
      let r := (lookD cs.edges c []).foldl step (best, seen, skips)
      walkGo cs dist width n r.1 r.2.1 r.2.2

/-- The centroid of a set by number, as its distance from a query. -/
def distTo (m : Metric) (v : List Flt) (sk : List Bool) (cs : CentSet) (n : Nat) : Flt :=
  ((cs.cent n).map (centDist m v sk)).getD fmax32

/-- Seeds of a walk (R207). -/
def seeds (cs : CentSet) : List Nat :=
  match nub (cs.entries.filter fun e => cs.alive e) with
  | [] => (cs.live.map (·.num)).take 1
  | l => l

/-- The route of a query: ranked centroid numbers, at most `l`, and the dead edges skipped. -/
def routeOf (s : State) (c l : Nat) (cs : CentSet) (v : List Flt) (sk : List Bool) : List Nat × Nat :=
  let m := metricOf s c
  if walks s c cs then
    let width := max (getObj s (Obj.coll_WALK_WIDTH c)) l
    let sd := seeds cs
    let best := sd.foldl (fun b e => keepBest width b (distTo m v sk cs e, e, false)) []
    let r := walkGo cs (distTo m v sk cs) width (getObj s (Obj.coll_WALK_EXPAND c)) best sd 0
    ((r.1.map (·.2.1)).take l, r.2)
  else (((rankCents m v sk cs.live).map (·.2)).take l, 0)

/-- Distances that the Router reserves for a query (Table 9.1): NCENT, or WALK_EXPAND times the edges of a centroid. -/
def routeOps (s : State) (c pin : Nat) : Nat :=
  match centSetAt (getColl s c) pin with
  | none => 0
  | some cs =>
    if walks s c cs then getObj s (Obj.coll_WALK_EXPAND c) * cs.edges.foldl (fun m e => max m e.2.length) 0 else cs.cents.length

/-- Whether a holder serves pin turn `pin` (Table 14.5). -/
def eligible (h : Holder) (pin : Nat) : Bool :=
  match h.role with
  | .primary | .replica => decide (h.firstPin ≤ pin)
  | .departing => decide (pin ≤ h.lastPin)
  | .incoming | .stale | .quarantined => false

/-- Where a probe of one list goes (R221). -/
inductive Dest where
  | unheld
  | waits
  | to (node : Nat) (replica : Bool)
  deriving DecidableEq, Repr

/-- C of a query (R217). -/
def candCount (s : State) (q : Query) : Nat := min (getObj s (Obj.coll_C_FACTOR q.coll) * q.k) 8192

/-- Buffer bytes that the Bazaar reserves for a unit of a query, and so the partial-list bytes that the unit draws (R44, R292). -/
def unitBuffer (s : State) (q : Query) : Nat := 16 + 20 * min q.k (candCount s q)

/-- Resolve a list key in the ledger epoch in force: the primary first, then the others in ledger order. A probe that opens a
unit on its node draws the unit's candidate reads and partial-list bytes as well; `had` are the nodes with a unit (R44, R221). -/
def placeProbe (s : State) (q : Query) (had : List Nat) (key : Nat) : Dest :=
  let hs := (holdersOf s key).filter fun h => eligible h q.t0
  let hs := hs.filter (fun h => decide (h.role = .primary)) ++ hs.filter (fun h => !decide (h.role = .primary))
  if hs = [] then .unheld
  else match hs.find? (fun h => decide (0 < grantLeft s .shard h.node)
      && (had.contains h.node || grantCovers s h.node (candCount s q) (unitBuffer s q))) with
    | none => .waits
    | some h => .to h.node (!decide (h.role = .primary))

/-- What placing probes gives: units by node, keys that wait, whether a list had no holder. -/
structure Placement where
  units : List (Nat × List Nat)
  waits : List Nat
  unheld : Bool
  deriving DecidableEq, Repr

/-- Place probes in rank order, drawing on grants. -/
def placeProbes (s : State) (q : Query) (had : List Nat) : List Nat → State × Placement
  | [] => (s, { units := [], waits := [], unheld := false })
  | key :: ks =>
    match placeProbe s q had key with
    | .unheld =>
      let r := placeProbes (bump s Obj.UNHELD_PROBES 1) q had ks
      (r.1, { r.2 with unheld := true })
    | .waits =>
      let r := placeProbes (bump s Obj.GRANT_WAITS 1) q had ks
      (r.1, { r.2 with waits := key :: r.2.waits })
    | .to node rep =>
      let s := if had.contains node then useGrant s .shard node 1
        else drawGrant s { kind := .shard, granter := node, grantee := selfNode s, amount := 1, reads := candCount s q,
                           bytes := unitBuffer s q }
      let r := placeProbes (if rep then bump s Obj.REPLICA_PROBES 1 else s) q (node :: had) ks
      let u := r.2.units
      (r.1, { r.2 with units := if u.any (·.1 == node) then u.map fun p => if p.1 == node then (node, key :: p.2) else p
                                else (node, [key]) :: u })

/-- Deadline turn of a query: its deadline boundary is B of this turn (R52). -/
def deadlineTurn (q : Query) : Nat := q.t0 + q.d - 1

/-- The probe record for one node (Table 9.2). -/
def probeRec (s : State) (q : Query) (round : Nat) (keys : List Nat) : ProbeRec :=
  let ham := isHamming s q.coll
  let v := routedVec s q
  { qh := q.qh, home := selfNode s, pin := q.t0, deadline := deadlineTurn q, colour := q.colour, round := round, k := q.k,
    c := candCount s q, coll := q.coll, pred := { q.pred with pin := q.t0 }, keys := keys, sketch := querySketch s q,
    luts := if ham then [] else
      lutsOf (metricOf s q.coll) (collRnd s q.coll) (getColl s q.coll).books (dimsOf s q.coll / max 1 (subspacesOf s q.coll)) v,
    vec := if ham then [] else v }

/-- Send probes of ranks or of waiting keys: one record to each node, and what is awaited (R216, R222, R285). -/
def sendProbes (s : State) (q : Query) (round : Nat) (keys : List Nat) : State :=
  let r := placeProbes s q [] keys
  let s := r.2.units.foldl (fun s u => sendStage s u.1 (.probe (probeRec s q round u.2))) r.1
  let s := if r.2.waits = [] then s else slipQuery s q.qh
  onQuery s q.qh fun q =>
    { q with waiting := r.2.waits, unheld := q.unheld || r.2.unheld, awaited := q.awaited + r.2.units.length,
             reportsDue := q.reportsDue + r.2.units.length, shards := nub (q.shards ++ r.2.units.map (·.1)) }

/-- Whether a memo answers a query in t1 (R391). -/
def memoValid (s : State) (q : Query) (m : MemoVal) : Bool :=
  let ver := ((centSetAt (getColl s q.coll) q.t0).map (·.version)).getD 0
  ver == m.version && decide (m.pin ≤ q.t0) && decide (q.t0 - m.pin ≤ getObj s (Obj.coll_MEMO_MAX_AGE q.coll))
    && !(s.ing.seen.any fun p => p.1 == q.coll && decide (m.pin ≤ p.2) && decide (p.2 < q.t0))
    && s.ledger.members.all fun n => decide (q.t0 ≤ lookD s.ing.batchThrough n 0 + 1)

/-- The first routing of a query, in its t1. -/
def routeFirst (s : State) (q : Query) : State :=
  match centSetAt (getColl s q.coll) q.t0 with
  | none => onQuery s q.qh fun q => { q with unheld := true }
  | some cs =>
    let ham := isHamming s q.coll
    let v := routedVec s q
    let cv := if ham then (s, v) else
      let r := strmConv s (kRouting, q.coll) (fmtOf (getObj s (Obj.coll_CENTROID_FORMAT q.coll))) (collRnd s q.coll)
        (routingBatch s q.coll ++ v) v
      (r.1, r.2.decoded)
    let lim := getObj s (Obj.coll_NPROBE_MAX q.coll)
    let l := min (if q.colour = .yellow then max 1 (lim / 2) else lim) cs.live.length
    let r := routeOf s q.coll l cs cv.2 (querySketch s q)
    let s := bump cv.1 Obj.DEAD_EDGE_SKIPS r.2
    let keys := r.1.map (listKey q.coll)
    let p := min keys.length q.probesCfg
    let s := onQuery s q.qh fun q => { q with route := keys, probes := p }
    let s := if t1Of q = s.turn.no then s else slipQuery s q.qh
    sendProbes s q 0 (keys.take p)

/-- Whether a query's first routing is still to come. -/
def unrouted (q : Query) : Bool := q.route.isEmpty && q.shards.isEmpty && q.waiting.isEmpty && !q.unheld

/-- COARSE_ROUTE of query `qh`, whose place on the board the Router has issued: the memo answer or the route in t1, and in later
turns the probes that waited for a grant. -/
def doCoarseRoute (s : State) (qh : Nat) : State :=
  match getQuery s qh with
  | none => s
  | some q =>
    if q.vec.isNone ∨ q.error = true ∨ s.turn.no < t1Of q ∨ s.ledger.outOfStep = true ∨ (getColl s q.coll).centLoading = true
      ∨ mayIssue s .router qh = false then s
    else
    let s := unplace (if inTime s then s else slipQuery s qh) .router qh
    if unrouted q then
      match (memoOf s q).map parseMemo with
      | none => routeFirst s q
      | some m =>
        if t1Of q = s.turn.no ∧ memoValid s q m = true then
          bump (answerQuery s { q with widened := m.widened } (if m.fewer then .fewer else .ok) m.replica m.ids) Obj.MEMO_HITS 1
        else routeFirst s q
    else if q.waiting ≠ [] then sendProbes s q q.round q.waiting
    else s

/-- COARSE_ROUTE (R218). -/
def execCoarseRoute (qh : Nat) (s : State) : Host.Outcome State Fault Refusal := .next (doCoarseRoute s qh)

/-! ### The size of a merge (R289) -/

/-- One level of the merge tree: lengths after it, steps, pieces (R289). -/
def mergeLevel (k : Nat) : List Nat → List Nat × Nat × Nat
  | a :: b :: l =>
    let o := min (a + b) k
    let pc := if 8192 < o then (o + 8191) / 8192 else 1
    let r := mergeLevel k l
    (o :: r.1, r.2.1 + o + 64 * pc, r.2.2 + pc)
  | l => (l, 0, 0)

/-- The whole tree; the first argument bounds the levels. -/
def mergeTree (k : Nat) : Nat → List Nat → Nat × Nat
  | 0, _ => (0, 0)
  | n + 1, l =>
    if l.length ≤ 1 then (0, 0)
    else
      let r := mergeLevel k l
      let t := mergeTree k n r.1
      (r.2.1 + t.1, r.2.2 + t.2)

/-- Steps and pieces of a merge (R289). -/
def bazaarSteps (lens : List Nat) (k : Nat) : Nat × Nat :=
  let t := mergeTree k lens.length lens
  (128 + lens.foldl (· + ·) 0 + t.1, t.2)

/-- Steps of a merge of `units` full partial lists, at which R43 counts it (R291). -/
def fullMerge (k c units : Nat) : Nat := (bazaarSteps (List.replicate units (min k c)) k).1

/-! ### Widening (R232 to R235, R292) -/

/-- Units that the first round of a query can form: one for each member, and no more than its probes. -/
def firstUnits (s : State) (probes : Nat) : Nat := min probes s.ledger.members.length

/-- Buffer bytes reserved by open queries: for the units awaited, and for the first round of a query not yet routed, which
R43 counts (R292). -/
def bufferUsed (s : State) : Nat :=
  s.queries.foldl (fun n q => n + (if unrouted q then firstUnits s q.probesCfg else q.awaited + firstUnits s q.waiting.length) * unitBuffer s q) 0

/-- The test of R232 in turn `u`. -/
def mayWiden (q : Query) (u : Nat) : Bool :=
  decide (q.matched < q.k) && decide (q.probes < q.route.length) && decide (u + 4 ≤ deadlineTurn q)

/-- WIDEN: once every match report of the latest round is counted, a further round may be sent. -/
def doWiden (s : State) (qh : Nat) : State :=
  match getQuery s qh with
  | none => s
  | some q =>
    if s.turn.phase ≠ .p6 ∨ (q.colour = .yellow ∧ greensDone s .router = false) then s
    else if halfStalled s q.half then slipQuery s qh
    else if q.waiting ≠ [] ∨ q.shards = [] ∨ q.reports < q.reportsDue ∨ mayWiden q s.turn.no = false ∨ q.timedOut = true then s
    else
      let nxt := min (2 * q.probes) q.route.length
      let keys := slice q.route q.probes (nxt - q.probes)
      let units := (placeProbes s q [] keys).2.units.length
      if getObj s Obj.BAZAAR_BUF_MIB * 2 ^ 20 < bufferUsed s + units * unitBuffer s q then bump s Obj.BUFFER_WAITS 1
      else
        let s := bump s Obj.WIDEN_ROUNDS 1
        let q' := { q with probes := nxt, round := q.round + 1, widened := true, reports := 0, reportsDue := 0,
                           rounds := q.rounds ++ [s.turn.no] }
        sendProbes (holdAhead (onQuery s qh fun _ => q') q.half 4 .bazaar (fullMerge q.k (candCount s q) units)) q' (q.round + 1) keys

/-- WIDEN (R232). -/
def execWiden (qh : Nat) (s : State) : Host.Outcome State Fault Refusal := .next (doWiden s qh)

/-! ### Sketch scan (R225 to R227, R306, R210, R450) -/

/-- Unit `n` of this node. -/
def getUnit (s : State) (n : Nat) : Option SUnit := s.units.find? (·.num == n)

/-- Change unit `n`. -/
def onUnit (s : State) (n : Nat) (f : SUnit → SUnit) : State := { s with units := updFirst (·.num == n) f s.units }

/-- Whether every batch that a scan of pin turn `pin` needs has been counted (R306). -/
def scanReady (s : State) (c pin : Nat) : Bool :=
  (s.ledger.members.all fun n => decide (pin ≤ lookD s.ing.batchThrough n 0 + 1))
    && (List.range 256).all fun sh =>
      decide (pin ≤ lookD s.ing.stampThrough (c, sh) 0 + 1) && (look s.ing.rebuilds (c, sh)).isNone

/-- Whether a copy that was made by a move has the log batches that a scan needs (R336). -/
def copyReady (s : State) (key pin : Nat) : Bool :=
  s.place.jobs.all fun j => !(j.key == key && j.target == selfNode s && j.w != 0 && decide (pin ≤ j.w + 1)) || decide (pin ≤ j.logThrough + 1)

/-- Quarantine this node's copy of a list (R450). -/
def quarantine (s : State) (key : Nat) : State :=
  match getList s key with
  | none => s
  | some l =>
    if l.quarantined then s
    else
      let me := selfNode s
      let hs := holdersNext s key
      let wasPrimary := hs.any fun h => h.node == me && decide (h.role = .primary)
      let hs := hs.map fun h => if h.node == me then { h with role := .quarantined } else h
      let hs := if wasPrimary then updFirst (fun (h : Holder) => decide (h.role = .replica)) (fun h => { h with role := .primary }) hs else hs
      let s := setList s { l with quarantined := true }
      bump (postEvent (ledgerRequest s (.list key hs)) 0x301A key) Obj.QUARANTINES 1

/-- Units of work served raise a list's heat by 16 (R328). -/
def heatList (s : State) (key n : Nat) : State :=
  { s with lists := updFirst (·.key == key) (fun l => { l with events := l.events + n }) s.lists }

/-! ### The pinned state of a query -/

/-- The segment set of a list in a query's pinned state (R203). -/
def pinnedSet (s : State) (key pin : Nat) : Option SegSet := (getList s key).bind fun l => l.setAt pin

/-- Media record address of an entry in the pinned set (R265). -/
def mediaAt (s : State) (key pin i : Nat) (e : Entry) : Nat := ((pinnedSet s key pin).bind fun g => look g.addrs i).getD e.loc

/-- Whether an entry stands in a base segment of the pinned set. -/
def basedAt (s : State) (key pin i : Nat) : Bool := ((pinnedSet s key pin).map fun g => g.bases.flatten.contains i).getD false

/-! ### Waystations (R264 to R273) -/

/-- Queue of a waystation. -/
def wayQ (s : State) (w : Nat) : List WayReq := lookD s.way.queues w []

/-- Replace a waystation's queue. -/
def setWayQ (s : State) (w : Nat) (q : List WayReq) : State := { s with way := { s.way with queues := put s.way.queues w q } }

/-- Whether a candidate already has a request. -/
def requested (s : State) (unit ctag : Nat) : Bool :=
  (s.way.queues.any fun p => p.2.any fun r => r.unit == unit && r.ctag == ctag)
    || s.way.coming.any fun p => p.2.unit == unit && p.2.ctag == ctag

/-- Waystation of a hot candidate: of the half of the stack that holds the copy, the one with the most unreserved hot
reads, the lowest among equals (R267). -/
def hotWay (s : State) (stack : Nat) : Nat :=
  let ws := (List.range 16).map fun i => 16 * (stack / 4) + i
  ws.foldl (fun b w => if lookD s.way.hotUse w 0 < lookD s.way.hotUse b 0 then w else b) (16 * (stack / 4))

/-- Slot of the re-scorer that a collection names, none for 0xFF. -/
def rescorerOf (s : State) (c : Nat) : Option Nat :=
  let n := getObj s (Obj.coll_RESCORER_IMAGE c)
  if n = 255 then none else some n

/-- The part of the work window that a collection's reads may take: up to RESCORE_US before P0 where it has a re-scorer (R274). -/
def readWindow (s : State) (c : Nat) : Nat :=
  if (rescorerOf s c).isSome then workWindowUs s - getObj s Obj.RESCORE_US else workWindowUs s

/-- Slots that the coming board reserves for composition on a waystation, which come first (R120, R272). -/
def composeSlots (s : State) (w : Nat) : Nat :=
  let b := match s.turn.next.getD (w / 16) none with | some b => b | none => boardOf s (w / 16)
  lookD b.waySlots w 0

/-- Bytes of a query descriptor (R268). -/
def descBytes (dims : Nat) : Nat := 64 + 4 * dims

/-- The query descriptor of a unit in slot `n`. -/
def descOf (s : State) (u : SUnit) (n : Nat) : QDesc :=
  { slot := n, unit := u.num, metric := metricOf s u.probe.coll, fmt := getObj s (Obj.coll_FULL_FORMAT u.probe.coll),
    dims := dimsOf s u.probe.coll, vec := u.probe.vec }

/-- The query table of a waystation. -/
def wayTable (s : State) (w : Nat) : List QDesc := lookD s.way.tables w []

/-- The lowest free slot of a query table; the first argument bounds the search. -/
def freeDesc (ds : List QDesc) : Nat → Nat → Nat
  | 0, n => n
  | f + 1, n => if ds.any (·.slot == n) then freeDesc ds f (n + 1) else n

/-- Whether a waystation's query table holds a unit's descriptor, or has room for it (R268). -/
def descFits (s : State) (w : Nat) (u : SUnit) : Bool :=
  let ds := wayTable s w
  ds.any (·.unit == u.num)
    || (decide (ds.length < 1024)
        && decide (ds.foldl (fun n d => n + descBytes d.dims) 0 + descBytes (dimsOf s u.probe.coll) ≤ 1536 * 1024))

/-- Enter a unit's descriptor into a waystation's table, and its slot. -/
def enterDesc (s : State) (w : Nat) (u : SUnit) : State × Nat :=
  let ds := wayTable s w
  match ds.find? (·.unit == u.num) with
  | some d => (s, d.slot)
  | none =>
    let n := freeDesc ds ds.length 0
    ({ s with way := { s.way with tables := put s.way.tables w (ds ++ [descOf s u n]) } }, n)

/-- The request of a candidate (Table 11.1), written into the queue of waystation `w` at P5; `wst` 2 marks one that is not
reserved and returns at once (R272). -/
def comeReq (s : State) (w : Nat) (u : SUnit) (c : Cand) (slot wst : Nat) : State :=
  { s with way := { s.way with coming := s.way.coming ++ [(w,
      { unit := u.num, id := c.id, qh := u.probe.qh, qslot := slot, ctag := c.ctag, hot := c.hot,
        soft := !c.hot && decide (0 < c.retries), loc := c.loc, started := decide (wst = 2) })] } }

/-- Defer a candidate to the next turn (R272). -/
def deferCand (s : State) (w : Nat) (u : SUnit) (c : Cand) : State := bump (comeReq s w u c 0 2) Obj.DIE_SPILLS 1

/-- Assign one candidate for the coming turn, within the caps of R272; `slipped` work draws on the late reserve of its
waystation, which `late` counts by waystation, hot reads from 32 on (R46). -/
def assignCand (slipped : Bool) (u : SUnit) (p : State × List (Nat × Nat)) (c : Cand) : State × List (Nat × Nat) :=
  let s := p.1
  let late := p.2
  let caps := readCaps (readWindow s u.probe.coll)
  let room := fun (k cap : Nat) => !slipped || decide (lookD late k 0 < lateShare s cap)
  let late' := fun (k : Nat) => if slipped then addUse late k 1 else late
  if c.done || requested s u.num c.ctag then p
  else if c.hot then
    let w := hotWay s (((getList s c.key).map (·.stack)).getD 0)
    if decide (lookD s.way.hotUse w 0 < caps.2.2) && room (32 + w) caps.2.2 && descFits s w u then
      let d := enterDesc s w u
      let s := comeReq d.1 w u c d.2 0
      ({ s with way := { s.way with hotUse := addUse s.way.hotUse w 1 } }, late' (32 + w))
    else (deferCand s w u c, late)
  else
    let w := addrChan c.loc
    let d := (dieNum s w (addrDie c.loc)).getD 4096
    let cap := caps.1 - composeSlots s w
    if decide (lookD s.way.flashUse w 0 < cap ∧ lookD s.way.dieUse d 0 < caps.2.1) && room w cap && descFits s w u then
      let e := enterDesc s w u
      let s := comeReq e.1 w u c e.2 0
      ({ s with way := { s.way with flashUse := addUse s.way.flashUse w 1, dieUse := addUse s.way.dieUse d 1 } }, late' w)
    else (deferCand s w u c, late)

/-- Order of service: admission TURN_NO, green before yellow (R46, R272). -/
def unitLe (a b : SUnit) : Bool :=
  decide (a.probe.pin < b.probe.pin) || (a.probe.pin == b.probe.pin && (decide (a.probe.colour = .green) || decide (b.probe.colour ≠ .green)))

/-- Keep the descriptors of some units alone. -/
def clearTables (s : State) (keep : List Nat) : State :=
  { s with way := { s.way with tables := s.way.tables.map fun p => (p.1, p.2.filter fun d => keep.contains d.unit) } }

/-- A unit's descriptors leave the tables, and its records the result queues. -/
def clearWay (s : State) (gone : Nat → Bool) : State :=
  { s with way := { s.way with tables := s.way.tables.map fun p => (p.1, p.2.filter fun d => !gone d.unit)
                               results := s.way.results.map fun p => (p.1, p.2.filter fun r => !gone r.unit) } }

/-- WAYSTATION_ASSIGN at P1 (R267): the reservations of the ending turn end, and with them the requests whose read has not
started; the caps of the coming turn are new, and each unit in t3 has its candidates assigned. Descriptors of units that wait for
no read leave the tables. -/
def assignCandidates (s : State) : State :=
  let queues := s.way.queues.map fun p => (p.1, p.2.filter (·.started))
  let s := { s with way := { s.way with queues := queues, dieUse := [], flashUse := [], hotUse := [], coming := [] } }
  let us := sortBy unitLe (s.units.filter fun u => u.scanned && !u.error && !u.sent && !isHamming s u.probe.coll)
  let waits := (us.filter fun u => u.cands.any fun c => !c.done).map (·.num)
  let s := clearTables s waits
  (us.foldl (fun p u => u.cands.foldl (assignCand (decide (u.arrived < s.turn.no)) u) p) (s, [])).1

/-- A waystation writes a result record to the result queue of its half (R269). -/
def wayResult (s : State) (way : Nat) (r : WayRes) : State :=
  { s with way := { s.way with results := put s.way.results (way / 16) (lookD s.way.results (way / 16) [] ++ [r]) } }

/-- A result record of a candidate that has no distance: its DIST is a free value (Table 11.2). -/
def wayFailed (s : State) (way unit : Nat) (id : BitVec 64) (ctag wst : Nat) : State :=
  let d := drawFree s
  wayResult d.1 way { unit := unit, id := id, dist := f32Val (Config.freeNat d.2 % 2 ^ 32), ctag := ctag, wst := wst }

/-- At P5 the Planner writes the requests into the waystations' queues (R267); one that is deferred returns WST 2 (Table 11.2). -/
def writeRequests (s : State) : State :=
  let one := fun (s : State) (p : Nat × WayReq) =>
    if p.2.started then wayFailed s p.1 p.2.unit p.2.id p.2.ctag 2
    else setWayQ s p.1 (wayQ s p.1 ++ [p.2])
  let s' := s.way.coming.foldl one s
  { s' with way := { s'.way with coming := [] } }

/-- Change candidate `ctag` of unit `n`. -/
def onCand (s : State) (n ctag : Nat) (f : Cand → Cand) : State :=
  onUnit s n fun u => { u with cands := updFirst (·.ctag == ctag) f u.cands }

/-- Physical page of a logical page under the die's translation (R356). -/
def physPage (s : State) (d lpn : Nat) : Nat := lookD s.flash.maps (d, lpn) lpn

/-- CANDIDATE_REQUEST in the work window: waystation `way` takes its next request and starts the read; `busy` names the program
or erase operation that runs on the die, which is suspended up to 8 times (R269, R273, R49). -/
def doCandidateRequest (s : State) (way : Nat) (busy : Option Nat) : State :=
  match (wayQ s way).find? (fun r => !r.started) with
  | none => s
  | some r =>
    let start := fun s => setWayQ s way (updFirst (fun (x : WayReq) => !x.started) (fun x => { x with started := true }) (wayQ s way))
    if s.turn.phase ≠ .p6 then s
    else if r.hot then bump (start s) Obj.HOT_READS 1
    else
      let d := (dieNum s way (addrDie r.loc)).getD 4096
      let pg := physPage s d (addrLpn r.loc)
      match busy with
      | none =>
        let s := { s with way := { s.way with suspends := del s.way.suspends d } }
        emit (countRead (bump (start s) Obj.CAND_READS 1) d pg) (.flashRead d pg r.soft)
      | some op =>
        let n := match look s.way.suspends d with | some (o, n) => if o = op then n else 0 | none => 0
        if n < 8 then
          let s := bump { s with way := { s.way with suspends := put s.way.suspends d (op, n + 1) } } Obj.SUSPENDS 1
          emit (emit (countRead (bump (start s) Obj.CAND_READS 1) d pg) (.flashSuspend d)) (.flashRead d pg r.soft)
        else
          let s := bump (setWayQ s way ((wayQ s way).filter fun x => !(x.unit == r.unit && x.ctag == r.ctag))) Obj.DIE_SPILLS 1
          wayFailed s way r.unit r.id r.ctag 2

/-- CANDIDATE_REQUEST (R269). -/
def execCandidateRequest (way : Nat) (busy : Option Nat) (s : State) : Host.Outcome State Fault Refusal :=
  .next (doCandidateRequest s way busy)

/-- The entry that a candidate names. -/
def candEntry (s : State) (c : Cand) : Option Entry := (getList s c.key).bind fun l => l.entries[c.entry]?

/-- The t4 of a unit follows the boundary at which what it does now is counted (R34, R272). -/
def holdT4 (s : State) (n : Nat) : State := onUnit s n fun u => { u with ready := max u.ready (countedTurn s) }

/-- A read ends with an exact distance, formed with the unit's descriptor in the waystation's query table (R268, R270). -/
def candDone (s : State) (way : Nat) (u : SUnit) (c : Cand) : State :=
  match candEntry s c with
  | none => s
  | some e =>
    let d := ((wayTable s way).find? (·.unit == u.num)).getD (descOf s u 0)
    let x := decodeRecord (fmtOf d.fmt) d.dims e.full
    let dist := exactDist d.metric d.vec x
    let s := wayResult s way { unit := u.num, id := c.id, dist := dist, ctag := c.ctag, wst := 0 }
    heatList (onCand (holdT4 s u.num) u.num c.ctag fun c => { c with dist := dist, done := true }) c.key 1

/-- Mark the block of a read for relocation at the next review (R361). -/
def markPage (s : State) (loc : Nat) : State :=
  match addrPage s loc with
  | none => s
  | some p => markBlock s p.1 (pageBlock (physPage s p.1 p.2))

/-- A record that cannot be read (R273): the unit ends with an error partial list, and the copy is quarantined. -/
def candFailed (s : State) (way : Nat) (u : SUnit) (c : Cand) : State :=
  let s := wayFailed s way u.num c.id c.ctag 1
  let s := onCand (holdT4 s u.num) u.num c.ctag fun c => { c with done := true, failed := true }
  let s := onUnit s u.num fun u => { u with error := true }
  quarantine (postEvent (bump s Obj.UNCORRECTABLE 1) 0x3017 c.key) c.key

/-- CANDIDATE_READ_COMPLETE: the oldest started read of waystation `way` ends. `outcome` is 0 where the record was read,
2 where it was read after read retry, and any other value where hard decoding, or the read of search memory, failed. -/
def doCandidateReadComplete (s : State) (way outcome : Nat) : State :=
  match (wayQ s way).find? (·.started) with
  | none => s
  | some r =>
    let s := setWayQ s way ((wayQ s way).filter fun x => !(x.unit == r.unit && x.ctag == r.ctag))
    match getUnit s r.unit with
    | none => s
    | some u =>
      match u.cands.find? (·.ctag == r.ctag) with
      | none => s
      | some c =>
        if outcome = 0 then candDone s way u c
        else if outcome = 2 then markPage (bump (candDone s way u c) Obj.READ_RETRIES 1) c.loc
        else if r.hot then
          (if !c.based then candFailed s way u c
           else onCand (holdT4 s u.num) u.num c.ctag fun x =>
            { x with hot := false, loc := ((candEntry s c).map fun e => mediaAt s c.key u.probe.pin c.entry e).getD 0 })
        else
          let s := markPage s c.loc
          if c.retries < getObj s Obj.SOFT_RETRIES then
            let s := onCand (bump s Obj.SOFT_DECODES 1) u.num c.ctag fun c => { c with retries := c.retries + 1 }
            let d := (dieNum s way (addrDie c.loc)).getD 4096
            let caps := readCaps (readWindow s u.probe.coll)
            if lookD s.way.flashUse way 0 < caps.1 - composeNow s way ∧ lookD s.way.dieUse d 0 < caps.2.1 then
              let s := setWayQ s way (wayQ s way ++ [{ r with soft := true, started := false }])
              { s with way := { s.way with flashUse := addUse s.way.flashUse way 1, dieUse := addUse s.way.dieUse d 1 } }
            else bump s Obj.DIE_SPILLS 1
          else candFailed s way u c

/-- CANDIDATE_READ_COMPLETE (R270). -/
def execCandidateReadComplete (way outcome : Nat) (s : State) : Host.Outcome State Fault Refusal :=
  .next (doCandidateReadComplete s way outcome)

/-- Whether every candidate of a unit has its rank key (R272, R277). -/
def unitRanked (s : State) (u : SUnit) : Bool :=
  u.cands.all fun c => c.done && ((rescorerOf s u.probe.coll).isNone || c.rescored)

/-- EXACT_RERANK of a unit: in a Hamming collection the tiles recompute the exact distances (R228); in the others the
unit is ranked once the waystations and the re-scorer have given every key. -/
def doExactRerank (s : State) (n : Nat) (bad : Bool) : State :=
  match getUnit s n with
  | none => s
  | some u =>
    if !u.scanned || decide (s.turn.no + 1 < u.ready) then s
    else if isHamming s u.probe.coll then
      if u.ranked ∨ issuing s = false ∨ tilesLent s .selector = 0 then s
      else if bad then
        let s := holdT4 s n
        let s := onUnit s n fun u => { u with error := true, ranked := true }
        (nub (u.cands.map (·.key))).take 1 |>.foldl quarantine s
      else
        onUnit (holdT4 s n) n fun u => { u with ranked := true, cands := u.cands.map fun c =>
          if c.done then c
          else { c with done := true, dist := fnat (((candEntry s c).map fun e => hammingDist u.probe.sketch e.sketch).getD 0) } }
    else onUnit s n fun u => { u with ranked := unitRanked s u }

/-- EXACT_RERANK (R228). -/
def execExactRerank (unit : Nat) (uncorrectable : Bool) (s : State) : Host.Outcome State Fault Refusal :=
  .next (doExactRerank s unit uncorrectable)

/-! ### The learned re-scorer (R274 to R277) -/

/-- The input row of a candidate (Table 11.4). -/
def rescoreRow (s : State) (u : SUnit) (c : Cand) (e : Entry) : List Flt :=
  let dims := dimsOf s u.probe.coll
  [c.dist, fnat e.attr, fnat (u.probe.pin - e.writeTurn)]
    ++ ((List.range 64).map fun i => if e.tag.getLsbD i then f1 else f0)
    ++ (if isHamming s u.probe.coll then List.replicate dims f0 else fitTo dims u.probe.vec)

/-- The candidates that a re-scorer takes in this turn. -/
def rescoreBatch (s : State) (c : Nat) : List (SUnit × Cand × Entry) :=
  (s.units.filter fun u => u.probe.coll == c && u.scanned && !u.sent).flatMap fun u =>
    u.cands.filterMap fun k => if k.done && !k.failed && !k.rescored then (candEntry s k).map fun e => (u, k, e) else none

/-- LUT_DIST and DOT of a batch item (R276). -/
def rescoreLut (s : State) (c : Nat) (b : List (SUnit × Cand × Entry)) (i : Nat) (dot : Bool) (x : List Flt) : Flt :=
  let books := (getColl s c).books
  let x := fitTo (dimsOf s c) x
  let codes := ((b[i]?).map fun t => t.2.2.codes).getD []
  if dot then fsum ((x.zip (reconstruct books codes)).map fun p => fmul p.1 p.2)
  else lutDist (lutsOf (metricOf s c) (collRnd s c) books (dimsOf s c / max 1 (subspacesOf s c)) x) codes

/-- A unit whose re-scorer met bad weights: its home node answers with DATA_ERROR (R154, R231). -/
def failUnit (s : State) (n : Nat) : State := onUnit s n fun u => { u with error := true }

/-- RESCORE of a collection's candidates on this node, on the tiles lent to the Selector; without one it slips. A layer that is
being reloaded holds the units; one whose weights are found bad ends their queries (R154, R277). -/
def doRescore (s : State) (c : Nat) (bad : Option Nat) : State :=
  match rescorerOf s c with
  | none => s
  | some slot =>
    match getImg s slot with
    | none => s
    | some img =>
      let b := rescoreBatch s c
      if b = [] ∨ issuing s = false ∨ tilesLent s .selector = 0 ∨ slotBad s slot = true then s
      else
        let rows := b.map fun t => [fitTo img.inWidth (rescoreRow s t.1 t.2.1 t.2.2)]
        let sample := sampleRows s .selector (getObj s (Obj.slot_PRECISION_MODE slot)) (getObj s (Obj.slot_SAMPLE_ROWS slot))
        match runLayers slot img (rescoreLut s c b) bad sample img.layers 0 s [(0xFFFF, rows)] with
        | .error li => (nub (b.map (·.1.num))).foldl failUnit (weightError s slot li)
        | .ok r =>
          let s := (nub (b.map (·.1.num))).foldl holdT4 r.s
          let s := (List.range img.layers.length).foldl (fun s li => watchLayer slot s li (look r.sampled li)) s
          let last := (look r.outs (img.layers.length - 1)).getD []
          let s := (b.zip last).foldl (fun s p =>
            onCand s p.1.1.num p.1.2.1.ctag fun k =>
              { k with dist := noNan ((p.2.headD []).headD f0), rescored := true }) s
          bump s Obj.RESCORED b.length

/-- RESCORE (R274): `bad` is a layer whose weights are uncorrectable. -/
def execRescore (coll : Nat) (bad : Option Nat) (s : State) : Host.Outcome State Fault Refusal :=
  .next (doRescore s coll bad)

/-! ### The Selector (R282 to R284) -/

/-- Steps of a unit of `n` candidates (R284). -/
def selectSteps (n k : Nat) : Nat :=
  let lg := max 1 (if n ≤ 1 then 1 else (n - 1).log2 + 1)
  64 + n * lg / 2 + min k n

/-- Which of two entries of one ID stays (R205, R282). -/
def pentryWins (a b : PEntry) : Bool :=
  decide (b.writeTurn < a.writeTurn) || (a.writeTurn == b.writeTurn && (decide (b.origin < a.origin)
    || (a.origin == b.origin && !flt b.key a.key)))

/-- Keep one entry of each ID; answers how many were removed. -/
def dedupe (es : List PEntry) : List PEntry :=
  es.foldl (fun acc e =>
    if acc.any (·.id == e.id) then updFirst (·.id == e.id) (fun x => if pentryWins x e then x else e) acc else acc ++ [e]) []

/-- Sort by key; the order among ties is free (R281). -/
def sortKeys (rank : Nat → Nat) (es : List PEntry) : List PEntry :=
  (sortBy (fun (a b : PEntry × Nat) => flt a.1.key b.1.key || (!flt b.1.key a.1.key && decide (rank a.2 ≤ rank b.2))) es.zipIdx).map (·.1)

/-- The Selector has taken a unit: its place, its descriptors and its result records are done with. -/
def unitDone (s : State) (n : Nat) : State := clearWay (unplace s .selector n) (· == n)

/-- LOCAL_SELECT of unit `n`, in its t4 and not before: its partial list, or its error partial list, leaves for the home node (R229, R231). -/
def doLocalSelect (s : State) (n : Nat) : State :=
  match getUnit s n with
  | none => s
  | some u =>
    let p := u.probe
    let pl : PartialList := { qh := p.qh, home := p.home, src := selfNode s, round := p.round, replica := u.replica, error := false,
                              pin := p.pin, entries := [], retired := u.retired }
    if !u.scanned || u.sent || decide (s.turn.no < u.ready) || !issuing s then s
    else if u.error then
      onUnit (sendStage (unitDone s n) p.home (.partialList { pl with replica := false, error := true })) n fun u => { u with sent := true }
    else if !unitRanked s u || !mayIssue s .selector n then s
    else
        let d := drawFree (unitDone { s with turn := { s.turn with selSteps := s.turn.selSteps + selectSteps p.c p.k } } n)
        let mk : Cand → Option PEntry := fun c =>
          (candEntry s c).map fun e => { id := c.id, key := noNan c.dist, writeTurn := e.writeTurn, origin := e.origin }
        let es := (sortKeys (Config.tieRank d.2) (dedupe (u.cands.filterMap mk))).take p.k
        onUnit (sendStage d.1 p.home (.partialList { pl with entries := es })) n fun u => { u with sent := true }

/-- LOCAL_SELECT (R282). -/
def execLocalSelect (unit : Nat) (s : State) : Host.Outcome State Fault Refusal := .next (doLocalSelect s unit)

/-! ### The Bazaar (R285 to R291) -/

/-- Input order of the lists: ascending SRC, then ascending ROUND (R289). -/
def listOrder (ls : List PartialList) : List PartialList :=
  sortBy (fun a b => decide (a.src < b.src) || (a.src == b.src && decide (a.round ≤ b.round))) ls

/-- Lengths of the lists after the duplicates are removed (R288): of identical copies the first list keeps one. -/
def lensAfter : List PEntry → List PartialList → List Nat
  | _, [] => []
  | kept, l :: ls =>
    let mine := l.entries.filter fun e => kept.contains e
    mine.length :: lensAfter (kept.filter fun e => !mine.contains e) ls

/-- Steps and pieces of the merge of a query's counted lists (R289). -/
def mergeSteps (q : Query) : Nat × Nat :=
  bazaarSteps (lensAfter (dedupe ((listOrder q.lists).flatMap (·.entries))) (listOrder q.lists)) q.k

/-- Whether a query is due an answer in this turn (R231, R236, R52, R221). -/
def answerDue (s : State) (q : Query) : Bool :=
  q.error || q.timedOut || q.lists.any (·.error)
    || (!q.shards.isEmpty && q.waiting.isEmpty && decide (q.awaited ≤ q.lists.length))
    || (q.shards.isEmpty && q.waiting.isEmpty && q.unheld && decide (t1Of q + 4 ≤ s.turn.no))

/-- The status of a merged answer (R9, R221, R237, R52, R236). -/
def mergeStatus (q : Query) (n : Nat) : Status :=
  let base : Status := if n = q.k then .ok else .fewer
  let st := if q.timedOut then statusFirst .truncated base else base
  let st := if q.lists.any (fun l => l.retired != 0) then statusFirst .versionRetired st else st
  if q.unheld then statusFirst .dataError st else st

/-- Store an OK or FEWER answer as a memo (R391). -/
def storeMemo (s : State) (q : Query) (st : Status) (replica : Bool) (ids : List (BitVec 64)) : State :=
  if isSet s (Obj.coll_MEMO_EN q.coll) ∧ (st = .ok ∨ st = .fewer) then
    memoPut s q.memoKey (memoBytes q.t0 (((centSetAt (getColl s q.coll) q.t0).map (·.version)).getD 0)
      (if st = .fewer then 1 else 0) q.widened replica ids)
  else s

/-- BAZAAR_MERGE of query `qh`: the counted lists are merged and the result is posted; a list with an error ends the query
with DATA_ERROR, and a query whose deadline boundary found lists missing is answered from those counted. -/
def doBazaarMerge (s : State) (qh : Nat) : State :=
  match getQuery s qh with
  | none => s
  | some q =>
    if !answerDue s q || decide (s.turn.phase ≠ .p6) then s
    else if halfStalled s q.half then slipQuery s qh
    else if q.error || q.lists.any (·.error) then answerQuery (sendCancels s q) q .dataError false []
    else
      let ls := listOrder q.lists
      let kept := dedupe (ls.flatMap (·.entries))
      let total := ls.foldl (fun n l => n + l.entries.length) 0
      let steps := mergeSteps q
      if !(mayIssue s .bazaar qh || decide (deadlineTurn q ≤ s.turn.no)) then s
      else
        let s := unplace s .bazaar qh
        let d := drawFree { s with turn := { s.turn with bazSteps := s.turn.bazSteps + steps.1 } }
        let ids := ((sortKeys (Config.tieRank d.2) kept).take q.k).map (·.id)
        let s := bump (bump (bump d.1 Obj.PARTIALS_MERGED ls.length) Obj.DUPLICATES_DROPPED (total - kept.length)) Obj.MERGE_PIECES steps.2
        let s := if q.timedOut then sendCancels (bump s Obj.TRUNCATED_QUERIES 1) q else s
        let st := mergeStatus q ids.length
        let rep := q.lists.any (·.replica)
        answerQuery (storeMemo s q st rep ids) q st rep ids

/-- BAZAAR_MERGE (R287). -/
def execBazaarMerge (qh : Nat) (s : State) : Host.Outcome State Fault Refusal := .next (doBazaarMerge s qh)

end Sys2Proof.Machine
end

