-- ==== Sys2Proof/Machine/RowLogic.lean ====
section
/-! DEFINITION. Row logic in search memory (chapter 10): addresses of banks, row operations, the row tail, the command
queues of banks in host mode, bands and power windows. -/

namespace Sys2Proof.Machine

/-! ### Addresses (R239, R240) -/

/-- Bytes of a row. -/
def rowBytes : Nat := 1024

/-- Search-memory address of a row of a bank. -/
def rowAddr (b : BankId) (row : Nat) : Nat := b.bank * 2 ^ 10 + b.group * 2 ^ 14 + b.stack * 2 ^ 20 + row * 2 ^ 23

/-- Bank and row of a search-memory address. -/
def bankAt (a : Nat) : BankId := { stack := bitsOf a 20 3, group := bitsOf a 14 6, bank := bitsOf a 10 4 }
def rowNo (a : Nat) : Nat := a / 2 ^ 23

/-- Work rows of a bank. -/
def operandRow (r : Nat) : Bool := decide (0x17FF0 ≤ r ∧ r ≤ 0x17FF7)
def commandRow : Nat := 0x17FF8
def resultRow : Nat := 0x17FFC

/-- Whether an address lies in the host region (R65), to which no work row belongs (R240). -/
def inRegion (s : State) (a : Nat) : Bool :=
  let lo := getObj s Obj.HOST_REGION_BASE
  decide (lo ≤ a) && decide (a < lo + regionBytes s) && decide (rowNo a < 0x17FF0)

/-- One row of a bank. -/
def readRow (s : State) (b : BankId) (row : Nat) : List Byte := readBytes s.smem.cells (rowAddr b row) rowBytes

/-- Write bytes of search memory. -/
def writeSmem (s : State) (a : Nat) (d : List Byte) : State := { s with smem := { s.smem with cells := writeBytes s.smem.cells a d } }

/-! ### Commands (Tables 10.2 and 10.3) -/

/-- The operation codes; codes that the table does not list are clamped to NOP. -/
def rowOpOf : Nat → RowOp
  | 1 => .and
  | 2 => .or
  | 3 => .xor
  | 4 => .not
  | 8 => .pred
  | 9 => .count
  | 10 => .select
  | 11 => .hclear
  | 12 => .hdump
  | _ => .nop

/-- The code of an operation. -/
def rowOpCode : RowOp → Nat
  | .nop => 0
  | .and => 1
  | .or => 2
  | .xor => 3
  | .not => 4
  | .pred => 8
  | .count => 9
  | .select => 10
  | .hclear => 11
  | .hdump => 12

/-- SKETCH_BITS of a WIDTH field. -/
def widthBits (w : Nat) : Nat := 128 * 2 ^ (w % 4)

/-- The clamps of Table 10.2. -/
def clampCmd (c : RowCmd) : RowCmd :=
  { c with nvalid := min 32 c.nvalid, rslot := min 63 (max 1 c.rslot), theta := min (widthBits c.width) c.theta }

/-- A command word of 16 bytes (Table 10.2). -/
def parseCmd (b : List Byte) : RowCmd :=
  let n := leNat (b.take 16)
  clampCmd { op := rowOpOf (bitsOf n 0 4), rowA := bitsOf n 8 17, rowB := bitsOf n 32 17, rowD := bitsOf n 56 17,
             width := bitsOf n 80 2, filter := bitsOf n 82 1 == 1, vis := bitsOf n 83 1 == 1, half := bitsOf n 84 1,
             sq := bitsOf n 85 2, nvalid := bitsOf n 87 6, rslot := bitsOf n 93 6, theta := bitsOf n 99 11 }

/-- Result rows that a tail command reads (R250). -/
def tailRows (w : Nat) : Nat := [1, 1, 2, 4].getD w 1

/-- Consecutive rows from `r` on. -/
def rowsFrom (r n : Nat) : List Nat := (List.range n).map (r + ·)

/-- The rows that a command names (R250, Table 10.2). -/
def cmdRows (c : RowCmd) : List Nat :=
  match c.op with
  | .nop | .hclear => []
  | .and | .or | .xor => [c.rowA, c.rowB, c.rowD]
  | .not => [c.rowA, c.rowD]
  | .pred => [c.rowA]
  | .count | .select => rowsFrom c.rowA (tailRows c.width) ++ [c.rowB, c.rowD]
  | .hdump => rowsFrom c.rowD 4

/-- Row activations that a command counts (R260). -/
def cmdCost (c : RowCmd) : Nat :=
  match c.op with
  | .nop | .pred | .hclear => 0
  | .and | .or | .xor | .not => 1
  | .count | .select => tailRows c.width
  | .hdump => 4

/-- Whether the host may name a row of a bank (R250). -/
def hostRowOk (s : State) (b : BankId) (r : Nat) : Bool := operandRow r || inRegion s (rowAddr b r)

/-- Whether a host command is executed as it stands, and not as NOP. -/
def cmdOk (s : State) (b : BankId) (c : RowCmd) : Bool := (cmdRows c).all (hostRowOk s b)

/-! ### Row operations (R242) -/

/-- The destination row of a row operation. -/
def rowOpOut (op : RowOp) (a b : List Byte) : List Byte :=
  match op with
  | .and => (a.zip b).map fun p => p.1 &&& p.2
  | .or => (a.zip b).map fun p => p.1 ||| p.2
  | .xor => (a.zip b).map fun p => p.1 ^^^ p.2
  | .not => a.map fun x => ~~~ x
  | .nop | .pred | .count | .select | .hclear | .hdump => a

/-- Run a row operation in a bank. -/
def runRowOp (s : State) (b : BankId) (c : RowCmd) : State :=
  bump (writeSmem s (rowAddr b c.rowD) (rowOpOut c.op (readRow s b c.rowA) (readRow s b c.rowB))) Obj.ROW_OPS 1

/-! ### The row tail (R245, R251) -/

/-- A predicate row (Table 10.4). -/
def parsePred (b : List Byte) : Pred :=
  let lo := leNat (slice b 16 4)
  { must := BitVec.ofNat 64 (leNat (slice b 0 8)), mustNot := BitVec.ofNat 64 (leNat (slice b 8 8)), attrLo := lo,
    attrHi := max lo (leNat (slice b 20 4)), pin := leNat (slice b 24 6) }

/-- The predicate that stands where none is loaded. -/
def Pred.zero : Pred := { must := 0, mustNot := 0, attrLo := 0, attrHi := 0, pin := 0 }

/-- Entry `i` of a stripe: its distance, where it takes part, and its ID. -/
def tailEntry (s : State) (b : BankId) (c : RowCmd) (p : Pred) (i : Nat) : Option (Nat × Nat) :=
  let idx := slice (readRow s b c.rowB) (32 * i) 32
  let stamp := leNat (slice (readRow s b c.rowD) (8 * (32 * c.sq + i)) 6)
  let w := widthBits c.width
  let per := 1024 / (w / 8)
  let pos := if c.width = 0 then 32 * c.half + i else i
  let field := slice (readRow s b (c.rowA + pos / per)) (pos % per * (w / 8)) (w / 8)
  let dist := field.foldl (fun n x => n + ((List.range 8).filter fun k => x.toNat.testBit k).length) 0
  let vis := decide (leNat (slice idx 20 6) < p.pin) && decide (p.pin ≤ stamp)
  let ok := (!c.vis || vis)
    && (!c.filter || predMatch p (BitVec.ofNat 64 (leNat (slice idx 8 8))) (leNat (slice idx 16 4)))
  if ok then some (dist, leNat (slice idx 0 8)) else none

/-- The entries of a stripe that take part: entry, distance, ID. -/
def tailHits (s : State) (b : BankId) (c : RowCmd) (p : Pred) : List (Nat × Nat × Nat) :=
  (List.range (min 32 c.nvalid)).filterMap fun i => (tailEntry s b c p i).map fun r => (i, r.1, r.2)

/-- Add one to a saturating bin. -/
def histAdd (h : List (Nat × Nat)) (d : Nat) : List (Nat × Nat) := sput 0 h d (min (2 ^ 32 - 1) (lookD h d 0 + 1))

/-- The bytes of the histogram's row `r` of four. -/
def histRow (h : List (Nat × Nat)) (r : Nat) : List Byte := (List.range 256).flatMap fun i => leBytes 4 (lookD h (256 * r + i) 0)

/-! ### Groups and banks -/

/-- A group that has just entered host mode (R247). -/
def HostGroup.reset : HostGroup := { used := 0, leaving := false, held := false }

/-- A bank with an empty queue. -/
def Bank.reset : Bank := { queue := [], done := 0, drops := 0, rejects := 0 }

/-- The group of a bank in host mode, none where it is not. -/
def hostGroup (s : State) (b : BankId) : Option HostGroup := look s.smem.groups (b.stack, b.group)

/-- Bank state. -/
def getBank (s : State) (b : BankId) : Bank := (look s.smem.banks b).getD Bank.reset
def setBank (s : State) (b : BankId) (v : Bank) : State := { s with smem := { s.smem with banks := put s.smem.banks b v } }

/-- The group of a bank, as a key. -/
def groupKey (b : BankId) : Nat × Nat := (b.stack, b.group)

/-- What a command that the bank takes now sees of its group (R252). -/
def seenNow (s : State) (b : BankId) : Seen := { pred := look s.smem.preds (groupKey b), clears := lookD s.smem.clears (groupKey b) 0 }

/-- Histogram of a bank's group. -/
def histOf (s : State) (b : BankId) : List (Nat × Nat) := lookD s.smem.hists (groupKey b) []

/-- Replace the state of a group in host mode. -/
def setHostGroup (s : State) (b : BankId) (g : HostGroup) : State :=
  { s with smem := { s.smem with groups := put s.smem.groups (groupKey b) g } }

/-- What the commands still queued in a bank see once the bank itself has loaded a predicate or cleared the histogram. -/
def ownSeen (s : State) (b : BankId) (f : Seen → Seen) : State :=
  let bk := getBank s b
  if bk.seen = [] then s else setBank s b { bk with seen := bk.seen.map f }

/-- Load a group's predicate, clear or replace its histogram. -/
def setPred (s : State) (b : BankId) (p : Pred) : State :=
  ownSeen { s with smem := { s.smem with preds := put s.smem.preds (groupKey b) p } } b fun x => { x with pred := some p }
def setHist (s : State) (b : BankId) (h : List (Nat × Nat)) : State :=
  { s with smem := { s.smem with hists := put s.smem.hists (groupKey b) h } }
def clearHist (s : State) (b : BankId) : State :=
  let n := lookD s.smem.clears (groupKey b) 0 + 1
  ownSeen { setHist s b [] with smem := { (setHist s b []).smem with clears := put s.smem.clears (groupKey b) n } } b fun x => { x with clears := n }

/-! ### Result records (R254, Table 10.6) -/

/-- Write 16-byte records from slot `slot` on; after slot 63 comes slot 1. -/
def writeRecords (s : State) (b : BankId) (slot : Nat) (rs : List Nat) : State :=
  rs.zipIdx.foldl (fun s p => writeSmem s (rowAddr b resultRow + 16 * ((slot - 1 + p.2) % 63 + 1)) (leBytes 16 p.1)) s

/-- OP and SEQ of a record; `n` is the value of its other fields. -/
def recWord (c : RowCmd) (seq n : Nat) : Nat := n + rowOpCode c.op * 2 ^ 80 + seq % 2 ^ 32 * 2 ^ 96

/-- The effect of a command on rows, predicate and histogram, and the records that it writes. `bad` is the address of an
index or stamp row that the tail could not read (R244); `x` is what the command sees of its group (R252). A COUNT that was taken
before an HCLEAR of another bank adds to the histogram that the HCLEAR cleared. -/
def runCmd (s : State) (src : RowSrc) (b : BankId) (c : RowCmd) (bad : Option Nat) (seq : Nat) (x : Seen) : State × List Nat :=
  match c.op with
  | .nop => (s, [])
  | .and | .or | .xor | .not => (runRowOp s b c, [])
  | .pred => (setPred s b (parsePred (readRow s b c.rowA)), [])
  | .hclear => (clearHist s b, [])
  | .hdump =>
    let h := histOf s b
    let s := (List.range 4).foldl (fun s r => writeSmem s (rowAddr b (c.rowD + r)) (histRow h r)) s
    let s := if src = .planner then bump s Obj.BUS_BYTES (4 * (widthBits c.width + 1)) else s
    (s, [recWord c seq (lookD h 1024 0)])
  | .count =>
    let s := bump s Obj.TAIL_ROWS (tailRows c.width)
    match bad with
    | some _ => (s, [])
    | none =>
      let hits := tailHits s b c (x.pred.getD Pred.zero)
      let within := (hits.filter fun x => decide (x.2.1 ≤ c.theta)).length
      let least := hits.foldl (fun m x => min m x.2.1) 0x7FF
      (if x.clears = lookD s.smem.clears (groupKey b) 0 then setHist s b (hits.foldl (fun h x => histAdd h x.2.1) (histOf s b)) else s,
        [recWord c seq (hits.length + within * 2 ^ 32 + least * 2 ^ 64)])
  | .select =>
    let s := bump s Obj.TAIL_ROWS (tailRows c.width)
    match bad with
    | some _ => (s, [])
    | none =>
      let sv := (tailHits s b c (x.pred.getD Pred.zero)).filter fun x => decide (x.2.1 ≤ c.theta)
      let s := if src = .planner then bump s Obj.BUS_BYTES (16 * sv.length) else s
      (s, recWord c seq sv.length :: sv.map fun x => x.2.2 + x.2.1 * 2 ^ 64 + x.1 * 2 ^ 75)

/-! ### Host commands (R249 to R253, R260) -/

/-- Whether the host commands of a bank's group may run now, and the next one fits the turn's activations. -/
def canRun (s : State) (b : BankId) (c : RowCmd) : Bool :=
  match hostGroup s b with
  | none => false
  | some g => s.smem.running && !g.held && decide (g.used + cmdCost c ≤ getObj s Obj.HOST_GROUP_OPS)

/-- A command as the bank executes it: as NOP where it names a row that the host may not (R250). -/
def asExecuted (s : State) (b : BankId) (c : RowCmd) : RowCmd := if cmdOk s b c then c else { c with op := .nop }

/-- Count activations against a group's turn. -/
def useOps (s : State) (b : BankId) (n : Nat) : State :=
  match hostGroup s b with
  | none => s
  | some g => setHostGroup s b { g with used := g.used + n }

/-- Run the command at the front of a bank's queue to its completion. -/
def hostRun (s : State) (b : BankId) (c : RowCmd) (bad : Option Nat) : State :=
  let bk := getBank s b
  let x := asExecuted s b c
  let seq := (bk.done + 1).toNat
  let r := runCmd s .host b x bad seq (bk.seen.headD (seenNow s b))
  let s := writeRecords r.1 b x.rslot r.2
  let tail := decide (x.op = .count) || decide (x.op = .select)
  let s := match bad with
    | some a => if tail then postEvent s 0x3016 (a % 2 ^ 40) else s
    | none => s
  let s := bump (useOps s b (cmdCost x)) Obj.HOST_CMDS 1
  setBank s b { bk with queue := bk.queue.tail, seen := (getBank s b).seen.tail, done := bk.done + 1,
                        rejects := if cmdOk s b c then bk.rejects else min 0xFFFF (bk.rejects + 1) }

/-- Whether the board in force gives a group a row-logic window (R246). -/
def hasWindow (s : State) (b : BankId) : Bool :=
  (s.turn.cur.getD (b.stack / 4) Board.empty).windows.any (fun w => w.1 == b.stack && w.2 == b.group) && (hostGroup s b).isNone

/-- One row-logic command of operation `op`. The Planner's runs where its group has a window. The host's is the one at
the front of the bank's queue, and runs where its group may. -/
def rowCommand (s : State) (op : RowOp) (src : RowSrc) (b : BankId) (cmd : RowCmd) (bad : Option Nat) : State :=
  let c := clampCmd { cmd with op := op }
  match src with
  | .planner => if hasWindow s b then (runCmd s .planner b c bad 0 (seenNow s b)).1 else s
  | .host => if (getBank s b).queue.head? = some c ∧ canRun s b (asExecuted s b c) = true then hostRun s b c bad else s

/-- NOP: nothing but the completion (Table 10.3). -/
def execNop (src : RowSrc) (bank : BankId) (cmd : RowCmd) (s : State) : Host.Outcome State Fault Refusal :=
  .next (rowCommand s .nop src bank cmd none)

/-- AND (R242). -/
def execAnd (src : RowSrc) (bank : BankId) (cmd : RowCmd) (s : State) : Host.Outcome State Fault Refusal :=
  .next (rowCommand s .and src bank cmd none)

/-- OR (R242). -/
def execOr (src : RowSrc) (bank : BankId) (cmd : RowCmd) (s : State) : Host.Outcome State Fault Refusal :=
  .next (rowCommand s .or src bank cmd none)

/-- XOR (R242). -/
def execXor (src : RowSrc) (bank : BankId) (cmd : RowCmd) (s : State) : Host.Outcome State Fault Refusal :=
  .next (rowCommand s .xor src bank cmd none)

/-- NOT (R242). -/
def execNot (src : RowSrc) (bank : BankId) (cmd : RowCmd) (s : State) : Host.Outcome State Fault Refusal :=
  .next (rowCommand s .not src bank cmd none)

/-- PRED (R250, Table 10.4). -/
def execPred (src : RowSrc) (bank : BankId) (cmd : RowCmd) (s : State) : Host.Outcome State Fault Refusal :=
  .next (rowCommand s .pred src bank cmd none)

/-- COUNT (R245). -/
def execCount (src : RowSrc) (bank : BankId) (cmd : RowCmd) (badRow : Option Nat) (s : State) : Host.Outcome State Fault Refusal :=
  .next (rowCommand s .count src bank cmd badRow)

/-- SELECT (R245). -/
def execSelect (src : RowSrc) (bank : BankId) (cmd : RowCmd) (badRow : Option Nat) (s : State) : Host.Outcome State Fault Refusal :=
  .next (rowCommand s .select src bank cmd badRow)

/-- HCLEAR (R251). -/
def execHclear (src : RowSrc) (bank : BankId) (cmd : RowCmd) (s : State) : Host.Outcome State Fault Refusal :=
  .next (rowCommand s .hclear src bank cmd none)

/-- HDUMP (R250). -/
def execHdump (src : RowSrc) (bank : BankId) (cmd : RowCmd) (s : State) : Host.Outcome State Fault Refusal :=
  .next (rowCommand s .hdump src bank cmd none)

/-! ### What BAR2 reaches of a group in host mode (R248, R249) -/

/-- A bank takes a command (R249, R253); a group that leaves host mode takes none (R247). -/
def takeCmd (s : State) (b : BankId) (c : RowCmd) : State :=
  match hostGroup s b with
  | none => s
  | some g =>
    if g.leaving then s
    else
      let bk := getBank s b
      if 64 ≤ bk.queue.length then setBank s b { bk with drops := min 0xFFFF (bk.drops + 1) }
      else setBank s b { bk with queue := bk.queue ++ [c], seen := bk.seen ++ [seenNow s b] }

/-- The status slot of a bank (Table 10.5). -/
def statusSlot (s : State) (b : BankId) : List Byte :=
  let bk := getBank s b
  let wait := match bk.queue with
    | [] => false
    | c :: _ => !canRun s b (asExecuted s b c)
  leBytes 8 bk.done.toNat ++ leBytes 2 bk.drops ++ leBytes 2 bk.rejects
    ++ leBytes 4 ((if (hostGroup s b).isSome then 1 else 0) + (if (look s.smem.preds (groupKey b)).isSome then 2 else 0)
        + (if wait then 4 else 0))

/-- One byte as BAR2 reads it. -/
def bar2Byte (s : State) (a : Nat) : Byte :=
  let b := bankAt a
  let r := rowNo a
  if inRegion s a then byteAt s.smem.cells a
  else if (hostGroup s b).isNone then 0
  else if operandRow r then byteAt s.smem.cells a
  else if r = resultRow then (if a % 1024 < 16 then (statusSlot s b).getD (a % 1024) 0 else byteAt s.smem.cells a)
  else 0

/-- Write one 16-byte slot of a command row, or a part of one: `off` is the offset in the slot. -/
def writeSlot (s : State) (b : BankId) (slot off : Nat) (d : List Byte) : State :=
  let old := leBytes 8 (lookD s.smem.low (b, slot) 0)
  let low := (List.range 8).map fun i => if off ≤ i ∧ i < off + d.length then d.getD (i - off) 0 else old.getD i 0
  let s := if off < 8 then { s with smem := { s.smem with low := put s.smem.low (b, slot) (leNat low) } } else s
  if off ≤ 8 ∧ 16 ≤ off + d.length then takeCmd s b (parseCmd (low ++ d.drop (8 - off))) else s

/-- Count a write that BAR2 drops. -/
def dropBar2 (s : State) : State := { s with host := { s.host with bar2Drops := min (2 ^ 32 - 1) (s.host.bar2Drops + 1) } }

/-! ### Host groups at boundaries (R247, R259) -/

/-- The groups that HOST_GROUPS of a stack names. -/
def namedGroups (s : State) (st : Nat) : List Nat := (List.range 64).filter fun g => bitsOf (getObj s (Obj.HOST_GROUPS st)) g 1 == 1

/-- Clear the result rows of a group. -/
def clearResults (s : State) (st g : Nat) : State :=
  { s with smem := { s.smem with
      cells := s.smem.cells.filter fun c => !(rowNo c.1 == resultRow && (bankAt c.1).stack == st && (bankAt c.1).group == g) } }

/-- Discard banks, low halves and status of a group. -/
def clearBanks (s : State) (st g : Nat) : State :=
  { s with smem := { s.smem with banks := s.smem.banks.filter fun p => !(p.1.stack == st && p.1.group == g),
                                 low := s.smem.low.filter fun p => !(p.1.1.stack == st && p.1.1.group == g) } }

/-- At P5 groups enter and leave host mode as HOST_GROUPS now says, and a new turn's activations begin. -/
def hostGroupsAtP5 (s : State) : State :=
  let named := (List.range 8).flatMap fun st => (namedGroups s st).map fun g => (st, g)
  let gone := (s.smem.groups.map (·.1)).filter fun k => !named.contains k
  let s := gone.foldl (fun s k => clearBanks s k.1 k.2) s
  let new := named.filter fun k => (look s.smem.groups k).isNone
  let s := new.foldl (fun s k => clearResults (clearBanks s k.1 k.2) k.1 k.2) s
  let s := { s with smem := { s.smem with preds := s.smem.preds.filter fun p => !new.contains p.1
                                          hists := s.smem.hists.filter fun p => !new.contains p.1 } }
  let keep := (s.smem.groups.filter fun p => named.contains p.1).map fun p => (p.1, { p.2 with used := 0, leaving := false })
  { s with smem := { s.smem with groups := keep ++ new.map fun k => (k, HostGroup.reset) } }

/-- Power window of a band in bank groups (Table 10.7). -/
def powerWindow (band : Nat) : Nat := [16, 12, 8, 0].getD band 0

/-- The windows of one stack that fit beside `host` groups in host mode, highest group removed first. -/
def fitWindows (cap host : Nat) (gs : List Nat) : List Nat := (sortBy (fun a b => decide (a ≤ b)) gs).take (cap - host)

/-- The board being latched, with the Planner windows that do not fit removed, and how many were (R259). `named` gives
the groups in host mode. -/
def cutWindows (s : State) (named : Nat → List Nat) (b : Board) : Board × Nat :=
  let of := fun st => (b.windows.filter fun w => w.1 == st && !(named st).contains w.2).map (·.2)
  let keep := (List.range 8).flatMap fun st =>
    (fitWindows (powerWindow (getObj s (Obj.STACK_BAND st))) (named st).length (of st)).map fun g => (st, g)
  ({ b with windows := keep }, ((List.range 8).flatMap of).length - keep.length)

/-- At P4 the groups that will be in host mode are compared with the power window of the present band: the highest-numbered
beyond it hold their commands in the coming turn (R259). -/
def holdNext (s : State) (named : Nat → List Nat) : State :=
  let beyond := (List.range 8).flatMap fun st =>
    ((sortBy (fun a b => decide (a ≤ b)) (named st)).drop (powerWindow (getObj s (Obj.STACK_BAND st)))).map fun g => (st, g)
  { s with smem := { s.smem with hostHeld := beyond } }

/-- From P5 those groups hold. -/
def holdGroups (s : State) : State :=
  { s with smem := { s.smem with groups := s.smem.groups.map fun p => (p.1, { p.2 with held := s.smem.hostHeld.contains p.1 }) } }

/-! ### Bands (R257) -/

/-- The band whose lower bound a temperature exceeds. -/
def bandUp (t : Nat) : Nat := if 95 < t then 3 else if 90 < t then 2 else if 85 < t then 1 else 0

/-- The band that is held on the way down: left only 2 °C below its lower bound. -/
def bandDown (t : Nat) : Nat → Nat
  | 0 => 0
  | b + 1 => if t + 2 ≤ 85 + 5 * b then bandDown t b else b + 1

/-- STACK_BAND_CHANGE: the temperature of a stack is `temp`, and its band follows (R257, R258); band 3 posts event 0x1003
(R475). The reading follows R445: outside diagnostic mode it is published at boundaries with n a multiple of 64. -/
def execStackBandChange (stack temp : Nat) (s : State) : Host.Outcome State Fault Refusal :=
  .next (
    let cur := getObj s (Obj.STACK_BAND stack)
    let band := max (bandUp temp) (bandDown temp cur)
    let s := { s with clk := { s.clk with stackTemp := put s.clk.stackTemp stack (min 255 temp) } }
    let s := if diagMode s then setObj s (Obj.STACK_TEMP_C stack) (min 255 temp) else s
    let s := setObj s (Obj.STACK_BAND stack) band
    if cur ≠ 3 ∧ band = 3 then postEvent s 0x1003 stack else s)

/-- Stack-turns at twice the refresh rate, counted at the boundary. -/
def countRefresh (s : State) : State :=
  bump s Obj.REFRESH2_TURNS ((List.range 8).filter fun st => getObj s (Obj.STACK_BAND st) != 0).length

end Sys2Proof.Machine
end

