-- ==== Sys2Proof/Machine/Ingest.lean ====
section
/-! DEFINITION. Ingest (chapter 13): preparation of a turn's batch, staging at holders, acknowledgement and commit at the
origin, commit and stamp batches, the ID directory and its rebuild. -/

namespace Sys2Proof.Machine

/-! ### Preparation of the entries taken in a turn (R297) -/

/-- Product-quantisation error of a prepared vector (R173). -/
def strmPq (s : State) (c : Nat) (v : List Flt) (codes : List Nat) : State :=
  if v.all isFin then
    let t := getStrm s (kIngest, c)
    let ps := v.zip (reconstruct (getColl s c).books codes)
    setStrm s (kIngest, c)
      { t with pe := ps.foldl (fun a p => dadd a (errTerms p.1 p.2).1) t.pe,
               px := ps.foldl (fun a p => dadd a (errTerms p.1 p.2).2) t.px, pn := t.pn + 1 }
  else s

/-- Step 4 for one vector of a batch: its full-vector record. -/
def convertOne (c : Nat) (batch : List Flt) (s : State) (p : Prepared) : State × List Byte :=
  if isHamming s c then (s, [])
  else
    let f := fmtOf (getObj s (Obj.coll_FULL_FORMAT c))
    let r := strmConv s (kIngest, c) f (collRnd s c) batch p.vec
    (strmPq (strmSat r.1 (kIngest, c) p.mxSats) c p.vec p.codes, recordOf f r.2)

/-! ### Staging at a holder (R300, R323, R324, R332) -/

/-- Whether this node receives staging of a list (Table 14.5). -/
def servesList (s : State) (key : Nat) : Bool :=
  (holdersOf s key).any fun h => h.node == selfNode s && (decide (h.role = .primary) || decide (h.role = .replica))

/-- Record a change of a list in the log of every copy for which this node is the source (R335). -/
def logCopy (s : State) (key : Nat) (r : LogRec) : State :=
  { s with place := { s.place with jobs := s.place.jobs.map fun j =>
      if j.key == key && j.source == selfNode s && j.start != 0 then
        { j with log := j.log ++ [r], logged := j.logged + (match r with | .append e => 40 + e.full.length | .stamp _ => 32) }
      else j } }

/-- A staged entry as a list holds it. -/
def entryOf (e : StageEntry) : Entry :=
  { id := e.id, tag := e.tag, attr := e.attr, writeTurn := never, origin := e.origin, delTurn := never, sketch := e.sketch,
    codes := e.codes, full := e.full, wid := e.wid, seq := 0, aborted := false, loc := 0 }

/-- Append a staged entry to a list's delta. -/
def ListCopy.append (l : ListCopy) (e : Entry) : ListCopy :=
  { l with entries := l.entries ++ [e], delta := l.delta ++ [l.entries.length] }

/-- Whether a list has no room for a further entry (R204). -/
def ListCopy.full (l : ListCopy) : Bool := decide (2 ^ 20 ≤ l.deltaUsed) || decide (2 ^ 26 ≤ l.kept.length)

/-- Acknowledge or refuse a staged entry to its origin. -/
def ackEntry (s : State) (origin wid : Nat) : State := { s with ing := { s.ing with ackOut := s.ing.ackOut ++ [(origin, wid)] } }
def refuseEntry (s : State) (origin wid : Nat) : State :=
  bump { s with ing := { s.ing with refuseOut := s.ing.refuseOut ++ [(origin, wid)] } } Obj.STAGE_REFUSALS 1

/-- A STAGE section is counted: the entry is appended and acknowledged, or refused. -/
def stageEntry (s : State) (e : StageEntry) : State :=
  if !servesList s e.key then s
  else
    let key := lookD s.ing.merged e.key e.key
    let l := (getList s key).getD { ListCopy.reset key with stack := chooseStack s }
    if l.entries.any fun x => x.wid == e.wid && x.origin == e.origin then ackEntry s e.origin e.wid
    else if l.full then refuseEntry s e.origin e.wid
    else if !t2Fits s e.coll (stageBytes s e.coll) || stagingShut s then
      bump (refuseEntry s e.origin e.wid) Obj.QUOTA_REFUSALS 1
    else logCopy (ackEntry (setList s (l.append (entryOf e))) e.origin e.wid) key (.append e)

/-- Lists that this node's acknowledgement batches name as short of delta space (R300, R323). -/
def shortLists (s : State) : List Nat :=
  (s.lists.filter fun l => decide (2 ^ 20 < l.deltaUsed + getObj s Obj.DELTA_GUARD) || l.full || stagingShut s
    || !t2Fits s (keyColl l.key) (stageBytes s (keyColl l.key))).map (·.key)

/-! ### Commit and stamp batches at a holder (R302, R305, R306) -/

/-- Change the entries of this node's lists of one collection. -/
def onEntries (s : State) (c : Nat) (f : Entry → Entry) : State :=
  { s with lists := s.lists.map fun l => if keyColl l.key == c then { l with entries := l.entries.map f } else l }

/-- What a record of the commit batch of turn `t` from `origin` does to an entry. -/
def Entry.commit (t origin : Nat) (r : CommitRec) (e : Entry) : Entry :=
  if e.wid == r.wid && e.origin == origin && e.writeTurn == never then
    (if r.abort then { e with aborted := true } else { e with writeTurn := t, seq := r.seq })
  else e

/-- One record of the commit batch of turn `t` from `origin`. -/
def applyCommit (t origin : Nat) (s : State) (r : CommitRec) : State := onEntries s r.coll (Entry.commit t origin r)

/-- A COMMIT section is counted. -/
def countCommit (s : State) (src t : Nat) (rs : List CommitRec) : State :=
  let s := rs.foldl (applyCommit t src) s
  let cs := nub ((rs.filter (!·.abort)).map (·.coll))
  let keep := fun (j : CopyJob) =>
    if j.target == selfNode s && j.start != 0 then
      { j with kept := j.kept ++ [(src, t, rs.filter fun r => r.coll == keyColl j.key)] }
    else j
  let ing := { s.ing with
    batches := (s.ing.batches.filter fun b => decide (t < b.2.1 + 128) || s.ing.shards.any fun d => decide (d.done < b.2.1)) ++ [(src, t, rs)],
    batchThrough := put s.ing.batchThrough src (max t (lookD s.ing.batchThrough src 0)),
    seen := (s.ing.seen.filter fun p => decide (t < p.2 + 4200)) ++ cs.map fun c => (c, t) }
  { s with ing := ing, place := { s.place with jobs := s.place.jobs.map keep } }

/-- Whether an entry belongs to the group of a stamp and carries none yet (R305). -/
def stampHit (x : Stamp) (e : Entry) : Bool :=
  e.id == x.id && e.writeTurn == x.writeTurn && e.origin == x.origin && e.delTurn == never && !e.aborted

/-- The entry of a stamp's group that it ends: the first in commit batch order that carries none, by the number under which its origin
staged it. -/
def stampTarget (x : Stamp) (ls : List ListCopy) : Option Nat :=
  ((ls.flatMap fun l => l.entries.filter (stampHit x)).foldl (fun (m : Option Entry) e =>
    match m with | none => some e | some k => if e.seq < k.seq then some e else some k) none).map (·.wid)

/-- Write a stamp into the entry of a list that its origin staged as `w`. -/
def ListCopy.stamp (l : ListCopy) (x : Stamp) (w : Nat) : ListCopy :=
  { l with entries := updFirst (fun e => stampHit x e && e.wid == w) (fun e => { e with delTurn := x.delTurn }) l.entries }

/-- A list and the lists to which its entries have gone by splits and merges; the first argument bounds the chain. -/
def derivedKeys (s : State) : Nat → List Nat → List Nat
  | 0, ks => ks
  | n + 1, ks => derivedKeys s n (nub (ks ++ (s.ing.derived.filter fun p => ks.contains p.1).map (·.2)))

/-- Apply one stamp to its list, and to the lists to which that one's entries have gone by a split or a merge: after one of them more
than one list holds the entry. -/
def applyStamp (s : State) (x : Stamp) : State :=
  let keys := derivedKeys s s.ing.derived.length [x.key]
  match stampTarget x (s.lists.filter fun l => keys.contains l.key) with
  | none => s
  | some w =>
    let hit := (s.lists.filter fun l => keys.contains l.key && l.entries.any fun e => stampHit x e && e.wid == w).map (·.key)
    hit.foldl (fun s k => logCopy s k (.stamp x))
      { s with lists := s.lists.map fun l => if hit.contains l.key then l.stamp x w else l }

/-- A STAMP section is counted. The stamps of a rebuild (R491), which are no turn's batch, carry turn 0 here. -/
def countStamp (s : State) (t shard c : Nat) (xs : List Stamp) : State :=
  if t = 0 then xs.foldl applyStamp s
  else if t ≤ lookD s.ing.stampThrough (c, shard) 0 then s
  else
    let s := xs.foldl applyStamp s
    { s with ing := { s.ing with stampThrough := put s.ing.stampThrough (c, shard) t } }

/-! ### The origin: results and commits (R296, R301, R83) -/

/-- The result of an INGEST entry. -/
def ingestRes (s : State) (w : Write) (st : Status) : Res :=
  { rq := (getQ s w.sq).resultQ, sq := w.sq, sqTally := w.tally, userTag := w.userTag, status := st,
    yellow := decide (w.colour = .yellow), widened := false, replica := false, count := 0, ids := [], slots := 0,
    postTurn := s.turn.no, taken := w.taken }

/-- A write of this origin. -/
def getWrite (s : State) (wid : Nat) : Option Write := s.ing.writes.find? (·.wid == wid)

/-- Change a write. -/
def onWrite (s : State) (wid : Nat) (f : Write → Write) : State :=
  { s with ing := { s.ing with writes := updFirst (·.wid == wid) f s.ing.writes } }

/-- Whether no earlier entry of a write's queue is unanswered (R296). -/
def queueHead (s : State) (w : Write) : Bool := !(s.ing.writes.any fun x => x.sq == w.sq && decide (x.wid < w.wid))

/-- Post a write's result; it leaves the engine. -/
def finishWrite (s : State) (w : Write) (st : Status) : State :=
  let s := postResult s (ingestRes s w st)
  { s with ing := { s.ing with writes := s.ing.writes.filter fun x => x.wid != w.wid } }

/-- Answer the refused entries of a queue that have come to its head (R83); the first argument bounds them. -/
def postRefused (sq : Nat) : Nat → State → State
  | 0, s => s
  | n + 1, s =>
    match s.ing.writes.find? (·.sq == sq) with
    | none => s
    | some w =>
      match w.refused with
      | none => s
      | some st => postRefused sq n (finishWrite s w st)

/-- Add to this turn's commit batch. -/
def commitRec (s : State) (w : Write) (abort : Bool) : State :=
  let r : CommitRec := { wid := w.prep.wid, coll := w.coll, op := w.op, id := w.id, key := w.prep.key, abort := abort,
                         seq := w.wid }
  { s with ing := { s.ing with commitOut := s.ing.commitOut ++ [(w.wid, r)] } }

/-- The drift accumulators of a committed vector (R311). -/
def addDrift (s : State) (w : Write) : State :=
  if !isSet s (Obj.coll_ADAPT_EN w.coll) then s
  else
    let v := getColl s w.coll
    let c := keyCent w.prep.key
    let old := lookD v.driftSum c (w.resid.map fun _ => f0)
    setColl s w.coll { v with driftN := put v.driftN c (lookD v.driftN c 0 + 1),
                              driftSum := put v.driftSum c ((old.zip w.resid).map fun p => dadd p.1 p.2) }

/-- Whether an entry creates a vector: an INSERT or UPSERT that reaches the index. -/
def Write.creates (w : Write) : Bool :=
  w.table.isNone && !w.noid && (decide (w.op = .insert) || decide (w.op = .upsert))

/-- Whether an entry concerns this node alone: a row, a discard, a NOP or an answer that waits for its turn. -/
def Write.local (w : Write) : Bool := w.table.isSome || w.noid || decide (w.op = .nop) || w.refused.isSome

/-- Whether every holder that a write was staged to has acknowledged it. -/
def Write.allAcked (w : Write) : Bool := !w.holders.isEmpty && w.holders.all fun h => w.acked.contains h

/-- Whether a write may commit in this turn: its result is posted in it (R301, R82). -/
def mayCommit (s : State) (w : Write) : Bool :=
  queueHead s w && !(getQ s (getQ s w.sq).resultQ).told && w.refused.isNone && w.ready && decide (w.minTurn ≤ s.turn.no)
      && (!w.creates || w.allAcked)

/-- The row that a write replaces: version, row index and group, where its table has an active version (R124, R113). -/
def rowTarget (s : State) (w : Write) : Option (Nat × TableVer × Nat) :=
  if w.noid || decide (w.op = .nop) then none
  else w.table.bind fun t => (getTable s t).active.map fun v => (t, v, min w.id.toNat (v.rows - 1))

/-- Whether a group takes a replacement at once: it is at home in T2, or its copy in T2 is complete (R125, R127). -/
def RowGroup.takes (x : RowGroup) : Bool := !x.t5 || (x.moving == some false && x.copied)

/-- A replacement that meets a demotion in progress cancels it (R130). -/
def cancelDemotion (s : State) (t g : Nat) : State :=
  onGroup s t g fun x => if x.moving = some true then { x with cancel := true } else x

/-- The Ingest Engine takes up a replacement of a row: at once in a T2 group, after its promotion in a T5 group (R125, R127). The
table need not be enabled (R124). -/
def takeRow (s : State) (w : Write) : State :=
  match rowTarget s w with
  | none => onWrite s w.wid fun w => { w with ready := true }
  | some (t, v, i) =>
    let s := cancelDemotion s t (i / 256)
    if (v.group (i / 256)).takes then onWrite s w.wid fun w => { w with ready := true }
    else
      let s := onWrite s w.wid fun w => { w with ready := false }
      onGroup (startGroupMove s t (i / 256) false) t (i / 256) fun x => { x with waiting := nub (x.waiting ++ [w.wid]) }

/-- Whether a write's row has come to lie in a T5 group since it was taken up: it waits for the promotion (R127). -/
def rowAway (s : State) (w : Write) : Bool := (rowTarget s w).any fun p => !(p.2.1.group (p.2.2 / 256)).takes

/-- The effect of a commit: a row is replaced, or the batch takes the commit. -/
def commitEffect (s : State) (w : Write) : State :=
  if w.noid || decide (w.op = .nop) then s
  else
    match w.table with
    | some _ =>
      match rowTarget s w with
      | none => s
      | some (t, v, i) => replaceRow s t i w.wid (rowPayload v (if w.op = .delete then [] else w.payload))
    | none => if w.creates then addDrift (commitRec s w false) w else commitRec s w false

/-- Commit a write where it may commit: the result is posted, and refused entries behind it are answered. -/
def tryCommit (s : State) (wid : Nat) : State :=
  match getWrite s wid with
  | none => s
  | some w =>
    if w.refused.isSome then (if queueHead s w then postRefused w.sq s.ing.writes.length s else s)
    else if !mayCommit s w then s
    else if rowAway s w then takeRow s w
    else
      let s := finishWrite (bump (commitEffect s w) Obj.INGEST_COMMITS 1) w .ok
      postRefused w.sq s.ing.writes.length s

/-- INGEST_COMMIT: the origin commits an entry and posts its result, in a work window (R301, R33). -/
def execIngestCommit (wid : Nat) (s : State) : Host.Outcome State Fault Refusal :=
  .next (if s.turn.phase = .p6 then tryCommit s wid else s)

/-! ### The operations (R295, Table 13.1) -/

/-- Send a prepared entry to its holders; acknowledgements are due two turns later (Table 13.2). -/
def stageWrite (s : State) (w : Write) : State :=
  let s := sendAll s w.holders (.stage w.prep)
  onWrite s w.wid fun w => { w with ready := true, sentTurn := s.turn.no }

/-- Take up an entry of operation `op`. -/
def takeUp (s : State) (op : IngOp) (wid : Nat) : State :=
  match getWrite s wid with
  | none => s
  | some w =>
    if w.op ≠ op ∨ w.ready = true ∨ w.refused.isSome = true then s
    else if w.noid then bump (onWrite s wid fun w => { w with ready := true }) Obj.NOID_DISCARDS 1
    else match op, w.table with
      | .nop, _ => onWrite s wid fun w => { w with ready := true }
      | _, some _ => takeRow s w
      | .delete, none => onWrite s wid fun w => { w with ready := true }
      | _, none => stageWrite s w

/-- INSERT: the entry is staged on every holder of its list, or replaces a row (R295, R299). -/
def execInsert (wid : Nat) (s : State) : Host.Outcome State Fault Refusal := .next (takeUp s .insert wid)

/-- UPSERT (R295). -/
def execUpsert (wid : Nat) (s : State) : Host.Outcome State Fault Refusal := .next (takeUp s .upsert wid)

/-- DELETE: nothing is sent before the commit (R295, Table 13.2). -/
def execDelete (wid : Nat) (s : State) : Host.Outcome State Fault Refusal := .next (takeUp s .delete wid)

/-- INGEST_NOP: no effect but its result (R295). -/
def execIngestNop (wid : Nat) (s : State) : Host.Outcome State Fault Refusal := .next (takeUp s .nop wid)

/-- TABLE_VERSION_SWITCH: at the boundary a requested switch takes effect; replacements that waited for a promotion in the old
version are taken up for the new one (R132). -/
def execTableVersionSwitch (table : Nat) (s : State) : Host.Outcome State Fault Refusal :=
  .next (
    let tb := getTable s table
    let waiting := ((tb.active.map (·.groups)).getD []).flatMap (·.2.waiting)
    if s.turn.phase = .p4 ∧ tb.switchDue ≠ 0 ∧ tb.switchDue ≤ boundary s then
      waiting.foldl (fun s wid => match getWrite s wid with | none => s | some w => takeRow s w) (switchTable s table)
    else s)

/-- GROUP_PROMOTION_COMPLETE: the copy of a group is complete, its descriptor switches at the next boundary, and the
replacements that waited for it are written and answered (R127, R128). -/
def execGroupPromotionComplete (table group : Nat) (s : State) : Host.Outcome State Fault Refusal :=
  .next (
    match (getTable s table).active with
    | none => s
    | some v =>
      let g := v.group group
      if g.moving ≠ some false ∨ g.copied = true then s
      else
        let s := onGroup s table group fun x => { x with copied := true, waiting := [] }
        let s := g.waiting.foldl (fun s wid => onWrite s wid fun w => { w with ready := true, minTurn := max w.minTurn s.turn.no }) s
        g.waiting.foldl tryCommit s)

/-! ### Acknowledgements (R300, R301) -/

/-- An ACK section from holder `src` is counted. A refused entry is sent again; its wait for acknowledgements goes on (R300, R301). -/
def countAck (s : State) (src : Nat) (wids refused short : List Nat) : State :=
  let ack := fun (w : Write) => if wids.contains w.prep.wid && w.creates then { w with acked := nub (w.acked ++ [src]) } else w
  let ing := { s.ing with writes := s.ing.writes.map ack,
                          short := (s.ing.short.filter fun p => p.1 != src) ++ short.map fun k => (src, k) }
  let s := { s with ing := ing }
  (s.ing.writes.filter fun w => refused.contains w.prep.wid && w.creates).foldl (fun s w => send s src (.stage w.prep)) s

/-- Nodes that receive staging of a list. -/
def stagingHolders (s : State) (key : Nat) : List Nat :=
  ((holdersOf s key).filter fun h => decide (h.role = .primary) || decide (h.role = .replica)).map (·.node)

/-- Report the silent holders of a list to the ledger as stale (R301, R334). A stale primary's place passes to the first
replica that has acknowledged. -/
def reportStale (s : State) (key : Nat) (silent : List Nat) : State :=
  let hs := holdersNext s key
  let lost := hs.any fun h => decide (h.role = .primary) && silent.contains h.node
  let hs := hs.map fun h =>
    if silent.contains h.node && (decide (h.role = .primary) || decide (h.role = .replica)) then { h with role := .stale } else h
  let hs := if lost then updFirst (fun (h : Holder) => decide (h.role = .replica)) (fun h => { h with role := .primary }) hs else hs
  bump (ledgerRequest s (.list key hs)) Obj.STALE_REPLICAS silent.length

/-- ACK_WAIT turns have passed since acknowledgements were due, in turn `sentTurn + 2`, and some are missing. -/
def ackExpired (s : State) (w : Write) : Bool :=
  w.creates && w.ready && !w.allAcked && decide (w.sentTurn + 2 + getObj s Obj.ACK_WAIT ≤ s.turn.no)

/-- ACK_WAIT_EXPIRY: commit with the holders that acknowledged, stage again, or complete with DATA_ERROR (R301). -/
def doAckExpiry (s : State) (wid : Nat) : State :=
  match getWrite s wid with
  | none => s
  | some w =>
    if !ackExpired s w then s
    else
      let got := w.holders.filter fun h => w.acked.contains h
      if got ≠ [] then
        let s := reportStale s w.prep.key (w.holders.filter fun h => !w.acked.contains h)
        tryCommit (onWrite s wid fun w => { w with holders := got }) wid
      else
        let s := commitRec s w true
        let hs := stagingHolders s w.prep.key
        if hs = [] then tryCommit (onWrite s wid fun w => { w with refused := some .dataError }) wid
        else
          let n := s.ing.nextWid
          let s := { s with ing := { s.ing with nextWid := n + 1 } }
          let s := onWrite s wid fun w => { w with prep := { w.prep with wid := n }, holders := hs, acked := [] }
          bump ((getWrite s wid).elim s (stageWrite s)) Obj.RESTAGES 1

/-- ACK_WAIT_EXPIRY (R301). -/
def execAckWaitExpiry (wid : Nat) (s : State) : Host.Outcome State Fault Refusal :=
  .next (if s.turn.phase = .p6 then doAckExpiry s wid else s)

/-! ### The ID directory (R303 to R305) -/

/-- Shard of an ID: the XOR of its eight bytes. -/
def idShard (id : BitVec 64) : Nat := (leBytes 8 id.toNat).foldl (fun x b => x ^^^ b.toNat) 0

/-- A directory record: ID, list key, ORIGIN, WRITE_TURN (Table 13.3). -/
abbrev DirRec := BitVec 64 × Nat × Nat × Nat

/-- The stamp that ends a record's entry in turn `t`. -/
def endStamp (t : Nat) (r : DirRec) : Stamp := { key := r.2.1, id := r.1, writeTurn := r.2.2.2, origin := r.2.2.1, delTurn := t }

/-- What ordering a turn's commits gives: records, stamps, overwrites and misses. -/
structure Ordered where
  recs : List DirRec
  stamps : List Stamp
  overs : Nat
  misses : Nat
  deriving DecidableEq, Repr

/-- Apply one commit of turn `t` (R304). -/
def orderOne (t : Nat) (o : Ordered) (p : Nat × CommitRec) : Ordered :=
  let r := p.2
  let cur := o.recs.find? fun x => x.1 == r.id
  let rest := o.recs.filter fun x => x.1 != r.id
  let stamps := o.stamps ++ (cur.map (endStamp t)).toList
  match r.op with
  | .insert => { recs := rest ++ [(r.id, r.key, p.1, t)], stamps := stamps, overs := o.overs + cur.toList.length, misses := o.misses }
  | .upsert => { o with recs := rest ++ [(r.id, r.key, p.1, t)], stamps := stamps }
  | .delete => { o with recs := rest, stamps := stamps, misses := o.misses + (1 - cur.toList.length) }
  | .nop => o

/-- The commits of turn `t` for a shard: by ORIGIN ascending, and within it in batch order. -/
def shardCommits (s : State) (c sh t : Nat) : List (Nat × CommitRec) :=
  let bs := sortBy (fun a b => decide (a.1 ≤ b.1)) (s.ing.batches.filter fun b => b.2.1 == t)
  bs.flatMap fun b => (b.2.2.filter fun r => r.coll == c && !r.abort && idShard r.id == sh).map fun r => (b.1, r)

/-- Change a directory shard of this node. -/
def onShard (s : State) (c sh : Nat) (f : DirShard → DirShard) : State :=
  { s with ing := { s.ing with shards := updFirst (fun d => d.coll == c && d.shard == sh) f s.ing.shards } }

/-- Whether a node holds the list that a stamp names (R305). -/
def stampFor (s : State) (node : Nat) (x : Stamp) : Bool :=
  (derivedKeys s s.ing.derived.length [x.key]).any fun k => (holdersOf s k).any fun h => h.node == node && !decide (h.role = .incoming)

/-- Send the stamp batch of a turn to every member: to each the stamps of the lists that it holds. -/
def sendStamps (s : State) (t sh c : Nat) (xs : List Stamp) : State :=
  s.ledger.members.foldl (fun s' m => send s' m (.stamp t sh c (xs.filter (stampFor s m)))) s

/-- DIRECTORY_ORDERING: the commits of one turn are ordered, once every member's batch of it has been counted, and the
primary sends the stamp batch to every member (R304, R299). -/
def doOrdering (s : State) (c sh t : Nat) : State :=
  match s.ing.shards.find? fun d => d.coll == c && d.shard == sh with
  | none => s
  | some d =>
    if t ≠ d.done + 1 ∨ d.missing ≠ [] ∨ (s.ledger.members.all fun n => decide (t ≤ lookD s.ing.batchThrough n 0)) = false then s
    else
      let o := (shardCommits s c sh t).foldl (orderOne t) { recs := d.recs, stamps := [], overs := 0, misses := 0 }
      let s := onShard s c sh fun d => { d with recs := o.recs, done := t, sent := ((t, o.stamps) :: d.sent).take 64 }
      if d.primary then
        sendStamps (bump (bump s Obj.INSERT_OVERWRITES o.overs) Obj.DELETE_MISSES o.misses) t sh c o.stamps
      else s

/-- DIRECTORY_ORDERING (R304). -/
def execDirectoryOrdering (coll shard turn : Nat) (s : State) : Host.Outcome State Fault Refusal :=
  .next (doOrdering s coll shard turn)

/-! ### Rebuild of a directory shard (R491) -/

/-- Whether this node sends directory records of a list: it is the first serving holder. -/
def firstServing (s : State) (key : Nat) : Bool :=
  (((holdersOf s key).filter fun h => decide (h.role = .primary) || decide (h.role = .replica)).map (·.node)).head? == some (selfNode s)

/-- The records of this node's lists for a shard, at pin turn `r`: of entries committed before turn r - 1, whose commits no node counts
from B(r) on. -/
def shardRecords (s : State) (c sh r : Nat) : List DirRec :=
  (listsOf s c).flatMap fun l =>
    if firstServing s l.key then
      ((l.visibleAt r).filterMap fun i => l.entries[i]?).filterMap fun e =>
        if idShard e.id = sh ∧ e.writeTurn + 1 < r then some (e.id, l.key, e.origin, e.writeTurn) else none
    else []

/-- A shard is named anew at boundary `n` after both its copies were lost: every member takes part in the rebuild. The commits of turn
n - 1 are the first that the new primary counts from B(n) on. -/
def startRebuild (s : State) (c sh primary replica n : Nat) : State :=
  let me := selfNode s
  let new : DirShard := { coll := c, shard := sh, primary := primary == me, recs := [], done := n - 2,
                          missing := if primary = me then s.ledger.members else [primary], sent := [] }
  let rest := s.ing.shards.filter fun d => !(d.coll == c && d.shard == sh)
  { s with ing := { s.ing with shards := if primary = me ∨ replica = me then rest ++ [new] else rest,
                               rebuilds := put s.ing.rebuilds (c, sh) (n, 0), owed := nub (s.ing.owed ++ [(c, sh)]) } }

/-- This node sends the records that it owes to a shard in rebuild, once it has counted every commit that they rest on. -/
def sendOwed (s : State) (k : Nat × Nat) : State :=
  match look s.ing.rebuilds k with
  | none => { s with ing := { s.ing with owed := s.ing.owed.filter (· != k) } }
  | some (r, _) =>
    if s.ledger.members.all fun m => decide (r ≤ lookD s.ing.batchThrough m 0 + 2) then
      send { s with ing := { s.ing with owed := s.ing.owed.filter (· != k) } } (shardHolders s k.1 k.2).1
        (.copy (.dirRecords k.1 k.2 0 (shardRecords s k.1 k.2 r)))
    else s

/-- Keep the later of two records of one ID; the other's entry ends with the kept one's WRITE_TURN. -/
def mergeRec (acc : List DirRec × List Stamp) (r : DirRec) : List DirRec × List Stamp :=
  match acc.1.find? fun x => x.1 == r.1 with
  | none => (acc.1 ++ [r], acc.2)
  | some x =>
    let newer := decide (x.2.2.2 < r.2.2.2) || (x.2.2.2 == r.2.2.2 && decide (x.2.2.1 < r.2.2.1))
    let win := if newer then r else x
    let lose := if newer then x else r
    (updFirst (fun y => y.1 == r.1) (fun _ => win) acc.1, if x = r then acc.2 else acc.2 ++ [endStamp win.2.2.2 lose])

/-- The whole shard of a primary replaces this node's copy; `done` is the turn through which it was ordered. -/
def takeShard (s : State) (c sh done : Nat) (rs : List DirRec) : State :=
  onShard s c sh fun d => if d.primary then d else { d with recs := rs, done := done, missing := [] }

/-- A COPY section with directory records is counted at the new primary, which reports once every member's have come. -/
def countDirRecords (s : State) (src c sh : Nat) (rs : List DirRec) : State :=
  match s.ing.shards.find? fun d => d.coll == c && d.shard == sh && d.missing.contains src with
  | none => s
  | some d =>
    let m := rs.foldl mergeRec (d.recs, [])
    let left := d.missing.filter (· != src)
    let s := onShard s c sh fun d => { d with recs := m.1, missing := left }
    let s := if m.2 = [] then s else sendStamps s 0 sh c m.2
    if left = [] ∧ d.primary = true then
      let h := shardHolders s c sh
      let s := if h.2 = 255 ∨ h.2 = selfNode s then s else send s h.2 (.copy (.dirRecords c sh d.done m.1))
      ledgerRequest s (.report .rebuild (c * 256 + sh) 0)
    else s

/-- DIRECTORY_REBUILD_COMPLETE: at the boundary after the epoch that records the REPORT, event 0x7033 is posted (R491). -/
def execDirectoryRebuildComplete (coll shard : Nat) (s : State) : Host.Outcome State Fault Refusal :=
  .next (
    match look s.ing.rebuilds (coll, shard) with
    | none => s
    | some (_, due) =>
      if s.turn.phase = .p4 ∧ due ≠ 0 ∧ due ≤ boundary s then
        postEvent { s with ing := { s.ing with rebuilds := del s.ing.rebuilds (coll, shard) } } 0x7033 (coll + 2 ^ 12 * shard)
      else s)

end Sys2Proof.Machine
end

