-- ==== Sys2Proof/Machine/Adapt.lean ====
section
/-! DEFINITION. Compaction (R308 to R310), centroid drift (R311 to R313), splits and merges of lists (R314 to R316), and
the mirrors that new base segments receive (R327). -/

namespace Sys2Proof.Machine

/-! ### Compaction -/

/-- Entries of a list by number. -/
def ListCopy.entry (l : ListCopy) (i : Nat) : Entry := l.entries.getD i default

/-- Whether an entry is staged, and neither committed nor aborted. -/
def Entry.staged (e : Entry) : Bool := e.writeTurn == never && !e.aborted

/-- Dead entries of a base segment in turn `t`. -/
def ListCopy.deadIn (l : ListCopy) (t : Nat) (b : List Nat) : Nat := (b.filter fun i => decide ((l.entry i).delTurn < t)).length

/-- The second condition of R308 for a base segment. -/
def deadSegment (s : State) (l : ListCopy) (b : List Nat) : Bool :=
  decide (getObj s (Obj.coll_COMPACT_DEAD (keyColl l.key)) * b.length < 64 * l.deadIn s.turn.no b)

/-- Whether a list is due for compaction (R308). -/
def compactionDue (s : State) (l : ListCopy) : Bool :=
  decide (getObj s (Obj.coll_COMPACT_DELTA (keyColl l.key)) ≤ l.delta.length - l.newest.cut)
    || l.newest.bases.any (deadSegment s l)

/-- The new cut: the delta's end, lowered to the oldest entry that is neither committed nor aborted (R309). -/
def ListCopy.newCut (l : ListCopy) : Nat :=
  max l.newest.cut ((l.delta.findIdx? fun i => (l.entry i).staged).getD l.delta.length)

/-- Whether an entry goes on into the output of a compaction or a reshape of turn `t`. -/
def Entry.stays (t : Nat) (e : Entry) : Bool := !(decide (e.delTurn < t) || e.aborted)

/-- How many entries of a list stay. -/
def ListCopy.staying (l : ListCopy) (t : Nat) (es : List Nat) : Nat := (es.filter fun i => (l.entry i).stays t).length

/-- Positions of the base segments that a compaction takes: the smallest candidates, while the output stays within 2^24; `out`
entries come from the delta and an adopted one. -/
def takeBases (s : State) (l : ListCopy) (out : Nat) : List Nat :=
  let bs := l.newest.bases.zipIdx
  let cand := if bs.length = 4 then bs else bs.filter fun p => deadSegment s l p.1
  let sorted := sortBy (fun a b => decide (a.1.length ≤ b.1.length)) cand
  (sorted.foldl (fun (acc : List Nat × Nat × Bool) p =>
    let n := l.staying s.turn.no p.1
    if acc.2.2 && decide (acc.2.1 + n ≤ 2 ^ 24) then (acc.1 ++ [p.2], acc.2.1 + n, true)
    else (acc.1, acc.2.1, false)) ([], out, true)).1

/-- The entries that a compaction folds, before omissions. -/
def foldEntries (l : ListCopy) (cut : Nat) (taken : List Nat) : List Nat :=
  let g := l.newest
  let adopted := if g.adopted.any fun i => (l.entry i).staged then [] else g.adopted
  ((g.bases.zipIdx.filter fun p => taken.contains p.2).map (·.1)).flatten ++ slice l.delta g.cut (cut - g.cut) ++ adopted

/-- Whether a list is being split or merged here. -/
def reshaping (s : State) (key : Nat) : Bool := s.ing.reshapes.any fun r => r.key == key || (!r.split && r.other == key)

/-- Whether a copy of a list is in progress with this node as its source (R336). -/
def copySource (s : State) (key : Nat) : Bool := s.place.jobs.any fun j => j.key == key && j.source == selfNode s

/-- COMPACTION_START of list `key`, in turn `turn.no` (R308, R309, R323, R336, R359, R105). It does not start where the new set
would hold five base segments (R201). -/
def doCompactionStart (s : State) (key : Nat) : State :=
  match getList s key with
  | none => s
  | some l =>
    let c := keyColl key
    if !slackOpen s 9 || s.flash.stopped || l.compacting.isSome || l.built.isSome || l.quarantined || copySource s key
        || reshaping s key || !compactionDue s l then s
    else
      let cut := l.newCut
      let taken := takeBases s l (l.staying s.turn.no (foldEntries l cut []))
      let n := (foldEntries l cut taken).length
      let bytes := if isHamming s c then 0 else n * recordBytes s c
      if 4 ≤ l.newest.bases.length - taken.length then s
      else if bytes ≠ 0 && !(t5Fits s c bytes) || (l.newest.hot && !t2Fits s c bytes) then bump s Obj.QUOTA_REFUSALS 1
      else setList s { l with compacting := some (s.turn.no, cut, taken) }

/-- COMPACTION_START (R308). -/
def execCompactionStart (key : Nat) (s : State) : Host.Outcome State Fault Refusal := .next (doCompactionStart s key)

/-- Die numbers that take new records, in channel-major order. -/
def writeDies (s : State) : List Nat := sortBy (fun a b => decide (a ≤ b)) ((openDies s).map (·.num))

/-- Write the full-vector records of a new segment to flash; a Hamming collection has none. -/
def placeSegment (s : State) (c : Nat) (es : List Nat) : State × List (Nat × Nat) :=
  if isHamming s c || (openDies s).isEmpty then (s, [])
  else
    let r := placeRecords (recordBytes s c) (writeDies s) es.length 0 [] s
    (r.1, es.zip r.2)

/-- Space in use in a host-memory range. -/
def rangeUsed (s : State) (r : Nat) : Nat := (s.place.mirrors.filter (·.range == r)).foldl (fun n m => n + m.bytes) 0

/-- Mirror a new base segment where the collection has a T4 quota and an active range has room (R327, R323). -/
def addMirror (s : State) (key : Nat) (es : List Nat) : State :=
  let c := keyColl key
  let quota := getObj s (Obj.coll_T4_QUOTA_GIB c) * 2 ^ 30
  let bytes := (es.length * recordBytes s c + 4095) / 4096 * 4096
  if quota = 0 ∨ es = [] ∨ isHamming s c = true then s
  else if quota < collT4 s c + bytes then bump s Obj.QUOTA_REFUSALS 1
  else
    match (List.range 16).find? fun r => getObj s (Obj.range_STATE r) == 1
        && decide (rangeUsed s r + bytes ≤ getObj s (Obj.range_SIZE_GIB r) * 2 ^ 30) with
    | none => s
    | some r => { s with place := { s.place with mirrors := s.place.mirrors ++ [{ key := key, base := es, range := r, bytes := bytes }] } }

/-- Mirror every base segment of a list that is created at one time. -/
def addMirrors (s : State) (key : Nat) (bases : List (List Nat)) : State := bases.foldl (fun s b => addMirror s key b) s

/-- COMPACTION_COMPLETE: the new base segment is built and its records are placed (R309). -/
def doCompactionComplete (s : State) (key : Nat) : State :=
  match getList s key with
  | none => s
  | some l =>
    match l.compacting with
    | none => s
    | some (st, cut, taken) =>
      let keep := (foldEntries l cut taken).filter fun i => (l.entry i).stays st
      let rest := (l.newest.bases.zipIdx.filter fun p => !taken.contains p.2).map (·.1)
      let p := placeSegment s (keyColl key) keep
      let s := setList p.1 { l with compacting := none, built := some (if keep = [] then rest else rest ++ [keep], cut, p.2),
                                    switchDue := dueTurn s }
      addMirror s key keep

/-- COMPACTION_COMPLETE (R309). -/
def execCompactionComplete (key : Nat) (s : State) : Host.Outcome State Fault Refusal := .next (doCompactionComplete s key)

/-- A new segment set of a list in force from boundary `n`: entries get their new media records, and the records that the
old set alone used go with it (R208). -/
def ListCopy.push (l : ListCopy) (n : Nat) (bases : List (List Nat)) (cut : Nat) (adopted : List Nat) (media : List (Nat × Nat)) :
    ListCopy :=
  let old := l.newest
  let kept := bases.flatten
  let lost := (old.bases.flatten.filter fun i => !kept.contains i || (look media i).isSome).filterMap fun i =>
    if (l.entry i).loc = 0 then none else some (l.entry i).loc
  let es := l.entries.zipIdx.map fun p => match look media p.2 with | some a => { p.1 with loc := a } | none => p.1
  let addrs := media ++ old.addrs.filter fun p => kept.contains p.1 && (look media p.1).isNone
  let new : SegSet := { start := n, stop := 0, bases := bases, cut := cut, hot := old.hot, locs := [], adopted := adopted, addrs := addrs }
  { l with entries := es, sets := new :: (match l.sets with | [] => [] | g :: gs => { g with stop := n, locs := g.locs ++ lost } :: gs) }

/-- The switch of a list's segment set at boundary `n` (R310). -/
def switchSet (s : State) (key n : Nat) : State :=
  match getList s key with
  | none => s
  | some l =>
    match l.built with
    | none => s
    | some (bases, cut, media) =>
      let g := l.newest
      let adopted := if g.adopted.any fun i => !bases.flatten.contains i && !(decide ((l.entry i).delTurn < n) || (l.entry i).aborted)
        then g.adopted else []
      bump (setList s { l.push n bases cut adopted media with built := none, switchDue := 0 }) Obj.COMPACTIONS 1

/-- SEGMENT_SET_SWITCH: at the first boundary after its compaction completes (R310). -/
def execSegmentSetSwitch (key : Nat) (s : State) : Host.Outcome State Fault Refusal :=
  .next (
    let due := ((getList s key).map (·.switchDue)).getD 0
    if s.turn.phase = .p4 ∧ due ≠ 0 ∧ due ≤ boundary s then switchSet s key (boundary s) else s)

/-! ### Centroid drift (R311 to R313) -/

/-- Means of a collection's accumulators, as FP32, by centroid in ascending order. -/
def driftMeans (v : Coll) : List (Nat × Nat × List Flt) :=
  (sortBy (fun a b => decide (a.1 ≤ b.1)) (v.driftN.filter fun p => p.2 != 0)).map fun p =>
    (p.1, p.2, (lookD v.driftSum p.1 []).map fun x => f32 (ddiv x (roundTo fF64 .even false p.2 0)))

/-- Convert the drift rows of an epoch in the collection's drift stream (R312, R168). -/
def driftRecs (s : State) (c : Nat) : State × List DriftRec :=
  let ms := driftMeans (getColl s c)
  let l := stepLimit s (kDrift, c) (ms.flatMap (·.2.2))
  let s2 := scaleOf .aqnil4 l
  ms.foldl (fun (acc : State × List DriftRec) m =>
    let q := aqnilQuant (collRnd s c) 7 32 s2 (m.2.2.length / 32) m.2.2
    (strmAdd acc.1 (kDrift, c) .aqnil4 l m.2.2 (aqnilValue 32 q.1 q.2.1 s2) q.2.2,
      acc.2 ++ [{ centroid := m.1, n := m.2.1, codes := q.1, scales := q.2.1, s2 := s2 }])) (s, [])

/-- A DRIFT section is counted. -/
def countDrift (s : State) (src c epoch : Nat) (rs : List DriftRec) : State :=
  let v := getColl s c
  setColl s c { v with driftIn := v.driftIn ++ [(epoch, src, rs)] }

/-- A decoded drift row. -/
def driftVals (r : DriftRec) : List Flt := aqnilValue 32 r.codes r.scales r.s2

/-- The new row of a centroid from the drift records of every member, in ascending node order; none where they are too few. -/
def driftRow (rate : Flt) (least : Nat) (row : List Flt) (rs : List DriftRec) : Option (List Flt) :=
  let total := rs.foldl (fun n r => n + r.n) 0
  if total < least then none
  else
    let sum := rs.foldl (fun acc r => (acc.zip (driftVals r)).map fun p => fadd p.1 (fmul (fnat r.n) p.2)) (row.map fun _ => f0)
    some ((row.zip sum).map fun p => fadd p.1 (fmul rate (fdiv p.2 (fnat total))))

/-- The new row of a centroid by the records of drift epoch `epoch`, none where it stays. -/
def driftOf (s : State) (c epoch : Nat) (x : Centroid) : Option (List Flt) :=
  let recs := (getColl s c).driftIn.filter fun r => r.1 == epoch
  let ls := (sortBy (fun a b => decide (a.2.1 ≤ b.2.1)) recs).map fun r => r.2.2
  if x.dead then none
  else driftRow (f32Val (getObj s (Obj.coll_ADAPT_RATE c))) (getObj s (Obj.coll_ADAPT_MIN_COUNT c)) x.row
    (ls.filterMap fun l => l.find? fun r => r.centroid == x.num)

/-- A centroid set moved by a drift epoch (R313). -/
def driftSet (s : State) (c epoch : Nat) (cs : CentSet) : CentSet :=
  { cs with cents := cs.cents.map fun x => match driftOf s c epoch x with
      | none => x
      | some row => convCentroid s c x.num (if metricOf s c = .cosine then normalise row else row) }

/-- CENTROID_DRIFT_APPLY: with every member's records of an epoch counted, the new set is computed and reported (R313). An epoch
that the report of a member which came later keeps open gives way to the next. -/
def doDriftApply (s : State) (c epoch : Nat) : State :=
  let v := getColl s c
  let recs := v.driftIn.filter fun r => r.1 == epoch
  if (v.driftPend.any fun p => decide (epoch ≤ p.1)) = true ∨ s.ledger.members = []
      ∨ (s.ledger.members.all fun n => recs.any fun r => r.2.1 == n) = false then s
  else
    match v.cents with
    | [] => s
    | cs :: _ =>
      let skips := (cs.cents.filter fun x => !x.dead && (driftOf s c epoch x).isNone).length
      let s := setColl s c { v with driftPend := some (epoch, driftSet s c epoch cs), driftIn := v.driftIn.filter fun r => decide (epoch ≤ r.1) }
      ledgerRequest (bump s Obj.DRIFT_SKIPS skips) (.report .drift c epoch)

/-- CENTROID_DRIFT_APPLY (R313). -/
def execCentroidDriftApply (coll epoch : Nat) (s : State) : Host.Outcome State Fault Refusal := .next (doDriftApply s coll epoch)

/-- The ledger has recorded every member's report of an epoch: the set takes effect at boundary `n`. The same records move, on every
member, the set that the boundary finds, so that a split which took effect after a member's computation counts (DEDUCED, log entry
87); the drift of a centroid that has died is discarded (R313). -/
def applyDrift (s : State) (c epoch n : Nat) : State :=
  let v := getColl s c
  if (v.driftPend.map (·.1)) = some epoch then
    setColl s c (pushCents { v with driftPend := none, driftIn := v.driftIn.filter fun r => decide (epoch < r.1) } n true
      (driftSet s c epoch))
  else s

/-! ### Splits and merges (R314 to R316) -/

/-- The reconstruction of an entry. -/
def recon (s : State) (c : Nat) (e : Entry) : List Flt := reconstruct (getColl s c).books e.codes

/-- The first of the samples that lies farthest from `x`. -/
def farthest (x : List Flt) (xs : List (List Flt)) : List Flt :=
  (xs.foldl (fun (b : Option (Flt × List Flt)) y =>
    let d := sqDist y x
    match b with
    | none => some (d, y)
    | some p => if flt p.1 d then some (d, y) else b) none).elim x (·.2)

/-- Whether a sample goes to `b` and not to `a`: ties go to `a`. -/
def toB (m : Metric) (a b y : List Flt) : Bool := flt (noNan (exactDist m y b)) (noNan (exactDist m y a))

/-- FP32 mean of samples in ascending order; `d` where there is none. -/
def meanOf (d : List Flt) (xs : List (List Flt)) : List Flt :=
  if xs = [] then d
  else (xs.foldl (fun acc x => (acc.zip x).map fun p => fadd p.1 p.2) (d.map fun _ => f0)).map fun x => fdiv x (fnat xs.length)

/-- The rounds of step 3 of R315. -/
def splitRounds (m : Metric) (xs : List (List Flt)) : Nat → List Flt → List Flt → List Flt × List Flt
  | 0, a, b => (a, b)
  | n + 1, a, b => splitRounds m xs n (meanOf a (xs.filter fun y => !toB m a b y)) (meanOf b (xs.filter (toB m a b)))

/-- The two new centroid rows of a split (steps 1 to 3 of R315). -/
def splitRows (s : State) (l : ListCopy) (e : Nat) : List Flt × List Flt :=
  let c := keyColl l.key
  let vis := l.visibleAt e
  let n := min vis.length 65536
  let xs := (List.range n).map fun i => recon s c (l.entry (nth vis (i * vis.length / n)))
  let row := ((((getColl s c).cents.headD default).cent (keyCent l.key)).map Centroid.row).getD []
  let a := farthest row xs
  splitRounds (metricOf s c) xs 8 a (farthest a xs)

/-- The lowest centroid number that neither the set nor `taken` uses. -/
def freeCentroid (cs : CentSet) (taken : List Nat) : Nat :=
  let n := cs.cents.length + taken.length
  ((List.range (n + 1)).find? fun i => (cs.cent i).isNone && !taken.contains i).getD n

/-- Primary and replicas of a list. -/
def servers (s : State) (key : Nat) : List (Nat × Role) :=
  ((holdersOf s key).filter fun h => decide (h.role = .primary) || decide (h.role = .replica)).map fun h => (h.node, h.role)

/-- The survivor of a merge (R316). -/
def survivorOf (s : State) (key : Nat) : Option Nat :=
  let c := keyColl key
  let cs := (getColl s c).cents.headD default
  let row := ((cs.cent (keyCent key)).map Centroid.row).getD []
  let near := ((rankCents (metricOf s c) row [] (cs.live.filter fun x => x.num != keyCent key)).take 8).map fun p => listKey c p.2
  near.find? fun k => servers s k == servers s key && !reshaping s k && ((getList s k).map fun l => l.newest.adopted.isEmpty).getD true

/-- Whether a copy of a list is in progress anywhere that this node knows of (R336). -/
def copying (s : State) (key : Nat) : Bool :=
  s.place.jobs.any (fun j => j.key == key) || (holdersOf s key).any fun h => decide (h.role = .incoming)

/-- Whether `k` more splits of collection `c` keep to the limits of R197: live centroids, numbers and the domain's lists. -/
def splitFits (s : State) (c k : Nat) : Bool :=
  let cs := (getColl s c).cents.headD default
  decide (cs.live.length + (splitNumbers s c).length + k ≤ 4194304) && decide (comingLists s + k ≤ 16777216)
    && decide (freeCentroid cs (splitNumbers s c) + k ≤ 4194304)

/-- Start the split of a list, or defer it; the second component counts the reshapes of this epoch that have started. -/
def startSplit (e cap : Nat) (p : State × Nat) (l : ListCopy) : State × Nat :=
  let s := p.1
  let c := keyColl l.key
  if cap ≤ p.2 || copying s l.key || reshaping s l.key || !splitFits s c (p.2 + 1) then (bump s Obj.RESHAPE_DEFERRED 1, p.2)
  else if !t2Fits s c (centRowBytes s c + 24) then (bump (bump s Obj.RESHAPE_DEFERRED 1) Obj.QUOTA_REFUSALS 1, p.2)
  else
    let r := splitRows s l e
    let b := freeCentroid ((getColl s c).cents.headD default) (splitNumbers s c)
    (ledgerRequest s (.reshape l.key (listKey c b) true [r.1, r.2]), p.2 + 1)

/-- Start the merge of a list, or defer it. -/
def startMerge (cap : Nat) (p : State × Nat) (l : ListCopy) : State × Nat :=
  let s := p.1
  let no := (bump s Obj.RESHAPE_DEFERRED 1, p.2)
  if cap ≤ p.2 || copying s l.key || reshaping s l.key then no
  else match survivorOf s l.key with
    | none => no
    | some k => if copying s k then no else (ledgerRequest s (.reshape l.key k false []), p.2 + 1)

/-- The reshapes of an adaptation epoch: splits of the largest lists first, then merges of the smallest (R314). -/
def startReshapes (s : State) (c e : Nat) : State :=
  let mine := (listsOf s c).filter fun l => primaryOf (holdersOf s l.key) == some (selfNode s)
    && ((getColl s c).cents.headD default).alive (keyCent l.key)
  let sized := mine.map fun l => (l, (l.visibleAt e).length)
  let big := sortBy (fun a b => decide (b.2 ≤ a.2)) (sized.filter fun p => decide (getObj s (Obj.coll_LIST_MAX c) < p.2))
  let small := sortBy (fun a b => decide (a.2 ≤ b.2)) (sized.filter fun p => decide (p.2 < getObj s (Obj.coll_LIST_MIN c)))
  let cap := getObj s (Obj.coll_RESHAPE_MAX c)
  (small.foldl (fun a p => startMerge cap a p.1) (big.foldl (fun a p => startSplit e cap a p.1) (s, 0))).1

/-- ADAPTATION_EPOCH_END at P5 of B(e): drift records leave for every member, the accumulators are cleared, and the
primaries of lists test their sizes (R312, R314). -/
def doAdaptationEpochEnd (s : State) (c : Nat) : State :=
  let e := s.turn.no
  let v := getColl s c
  if s.turn.phase ≠ .p5 ∨ v.life = 0 ∨ isSet s (Obj.coll_ADAPT_EN c) = false ∨ v.epochDone = e
      ∨ e % max 1 (getObj s (Obj.coll_ADAPT_EPOCH c)) ≠ 0 then s
  else
    let r := driftRecs s c
    let s := sendAll r.1 (otherMembers r.1) (.drift c e r.2)
    let s := countDrift s (selfNode s) c e r.2
    let s := setColl s c { getColl s c with driftN := [], driftSum := [], epochDone := e }
    startReshapes s c e

/-- ADAPTATION_EPOCH_END (R312). -/
def execAdaptationEpochEnd (coll : Nat) (s : State) : Host.Outcome State Fault Refusal := .next (doAdaptationEpochEnd s coll)

/-- The adaptation epoch boundary of a collection at or before `n`, and the reshapes started since it (R314). -/
def epochBound (s : State) (c n : Nat) : Nat := n - n % max 1 (getObj s (Obj.coll_ADAPT_EPOCH c))
def reshapesOf (s : State) (c n : Nat) : Nat :=
  if (getColl s c).reshaped.2 = epochBound s c n then (getColl s c).reshaped.1 else 0

/-- A reshape that does not start is counted by the primary of its list (R314). -/
def deferReshape (s : State) (key : Nat) : State :=
  if primaryOf (holdersOf s key) = some (selfNode s) then bump s Obj.RESHAPE_DEFERRED 1 else s

/-- The ledger's record of a reshape takes effect at boundary `n`: holders may build. Every member gives a split the lowest
centroid number that is free at this point of the record order (step 4 of R315); one that would exceed a limit there does not start
(R314). -/
def openReshape (s : State) (key other : Nat) (split : Bool) (rows : List (List Flt)) (n : Nat) : State :=
  let c := keyColl key
  let cs := (getColl s c).cents.headD default
  if reshaping s key then s
  else if other = key || (split && !splitFits s c 1) then deferReshape s key
  else
    let other := if split then listKey c (freeCentroid cs (splitNumbers s c)) else other
    let s := setColl s c { getColl s c with reshaped := (reshapesOf s c n + 1, epochBound s c n) }
    { s with ing := { s.ing with reshapes := s.ing.reshapes ++
      [{ key := key, other := other, split := split, rows := rows, start := n, built := none, reports := [] }] } }

/-- The entries that a reshape takes of a list, up to `cut`, without the dead and the aborted. -/
def reshapeEntries (l : ListCopy) (start cut : Nat) : List Nat :=
  (l.newest.bases.flatten ++ slice l.delta l.newest.cut (cut - l.newest.cut) ++ l.newest.adopted).filter fun i =>
    (l.entry i).stays start

/-- RESHAPE_BUILD_COMPLETE: a holder's build of a split or a merge is complete, and it reports (R315, R316). -/
def doReshapeBuild (s : State) (key : Nat) : State :=
  match s.ing.reshapes.find? (·.key == key) with
  | none => s
  | some r =>
    if r.built.isSome || !servesList s key then s
    else
      let l := (getList s key).getD (ListCopy.reset key)
      let cut := l.newCut
      let es := reshapeEntries l r.start cut
      let b : List Nat × List Nat × Nat × Nat :=
        if r.split then
          let goes := fun i => toB (metricOf s (keyColl key)) (r.rows.getD 0 []) (r.rows.getD 1 []) (recon s (keyColl key) (l.entry i))
          (es.filter fun i => !goes i, es.filter goes, cut, 0)
        else
          let l2 := (getList s r.other).getD (ListCopy.reset r.other)
          (es, reshapeEntries l2 r.start l2.newCut, cut, l2.newCut)
      let s := { s with ing := { s.ing with reshapes := updFirst (·.key == key) (fun r => { r with built := some b }) s.ing.reshapes } }
      ledgerRequest s (.report .reshape key r.other)

/-- RESHAPE_BUILD_COMPLETE (R315). -/
def execReshapeBuildComplete (key : Nat) (s : State) : Host.Outcome State Fault Refusal := .next (doReshapeBuild s key)

/-- Edge 0 of `es` that is empty becomes `b`, or the last where none is. -/
def addEdge (b : Nat) (es : List Nat) : List Nat :=
  if es.contains noEdge then updFirst (· == noEdge) (fun _ => b) es else es.dropLast ++ [b]

/-- The centroid set after a split. -/
def splitCents (s : State) (r : Reshape) (cs : CentSet) : CentSet :=
  let c := keyColl r.key
  let a := keyCent r.key
  let b := keyCent r.other
  let row := fun i => let x := r.rows.getD i []; if metricOf s c = .cosine then normalise x else x
  let es := lookD cs.edges a []
  let edges := if cs.edges = [] then [] else
    (cs.edges.map fun e => if e.1 = a then (a, addEdge b e.2) else e) ++ [(b, es)]
  { cs with cents := (cs.cents.map fun x => if x.num = a then convCentroid s c a (row 0) else x) ++ [convCentroid s c b (row 1)],
            edges := edges }

/-- Copy entries into a list; answers their numbers there. -/
def copyEntries (es : List Entry) (l : ListCopy) : ListCopy × List Nat :=
  ({ l with entries := l.entries ++ es.map fun e => { e with loc := 0 } }, (List.range es.length).map (l.entries.length + ·))

/-- Base segments of at most 2^24 entries each, four at most (R204). -/
def segmentsOf (es : List Nat) : List (List Nat) :=
  ((List.range 4).map fun i => slice es (2 ^ 24 * i) (2 ^ 24)).filter fun x => !x.isEmpty

/-- The lists of a holder after a split at boundary `n`. -/
def splitLists (s : State) (r : Reshape) (n : Nat) : State :=
  match getList s r.key, r.built with
  | some l, some (as, bs, cut, _) =>
    let c := keyColl r.key
    let p := placeSegment s c as
    let l' := l.push n (segmentsOf as) cut (l.newest.adopted.filter fun i => (l.entry i).staged) p.2
    let s := setList p.1 { l' with compacting := none, built := none, switchDue := 0 }
    let l2 := copyEntries (bs.map l.entry) { ListCopy.reset r.other with stack := l.stack }
    let q := placeSegment s c l2.2
    let l2' := l2.1.push n (segmentsOf l2.2) 0 [] q.2
    let s := setList q.1 { l2' with sets := l2'.sets.take 1 }
    bump (addMirrors (addMirrors s r.key (segmentsOf as)) r.other (segmentsOf l2.2)) Obj.SPLITS 1
  | _, _ => s

/-- The lists of a holder after a merge at boundary `n`: the survivor takes the merged entries in new base segments and
adopts the merged delta from its cut on. -/
def mergeLists (s : State) (r : Reshape) (n : Nat) : State :=
  match getList s r.key, r.built with
  | some l, some (es, ss, cut, cut2) =>
    let c := keyColl r.key
    let l2 := (getList s r.other).getD { ListCopy.reset r.other with stack := l.stack }
    let a := copyEntries (es.map l.entry) l2
    let b := copyEntries ((l.delta.drop cut).map l.entry) a.1
    let seg := ss ++ a.2
    let p := placeSegment (setList s b.1) c seg
    let l2' := b.1.push n (segmentsOf seg) cut2 b.2 p.2
    let s := setList p.1 { l2' with compacting := none, built := none, switchDue := 0 }
    let close := fun (l : ListCopy) =>
      { l with sets := match l.sets with | [] => [] | g :: gs => { g with stop := n, locs := g.locs ++ l.media } :: gs }
    bump (addMirrors (setList s (close l)) r.other (segmentsOf seg)) Obj.MERGES 1
  | _, _ => s

/-- Every holder's completion is recorded: the reshape takes effect at boundary `n` (R315, R316). -/
def applyReshape (s : State) (r : Reshape) (n : Nat) : State :=
  let c := keyColl r.key
  let s := { s with ing := { s.ing with reshapes := s.ing.reshapes.filter fun x => x.key != r.key,
                                        derived := s.ing.derived ++ [(r.key, r.other)] } }
  if r.split then
    let hs := (holdersOf s r.key).map fun h => { h with firstPin := n }
    let s := setColl s c (pushCents (getColl s c) n true (splitCents s r))
    let s := { s with ledger := { s.ledger with lists := put s.ledger.lists r.other hs } }
    splitLists s r n
  else
    let dead := fun (x : Centroid) => if x.num = keyCent r.key then { x with dead := true, died := n } else x
    let s := setColl s c (pushCents (getColl s c) n true fun cs => { cs with cents := cs.cents.map dead })
    mergeLists { s with ing := { s.ing with merged := put s.ing.merged r.key r.other } } r n

/-- A holder's reshape REPORT is recorded at boundary `n`. -/
def reshapeReport (s : State) (node key n : Nat) : State :=
  match s.ing.reshapes.find? (·.key == key) with
  | none => s
  | some r =>
    let r := { r with reports := nub (r.reports ++ [node]) }
    if (servers s key).all fun p => r.reports.contains p.1 then applyReshape s r n
    else { s with ing := { s.ing with reshapes := updFirst (·.key == key) (fun _ => r) s.ing.reshapes } }

end Sys2Proof.Machine
end

