-- ==== Sys2Proof/Machine/Gates.lean ====
section
/-! DEFINITION. Meters (R92 to R96) and time gates (R100 to R104). A meter is named by the address of its EN object
(R109). -/

namespace Sys2Proof.Machine

/-! ### Meters -/

/-- EN objects of the meters of Table 4.2: queue `q`, collection `c`, port `p`. -/
def subMeter (q : Nat) : Nat := Obj.meter 0x3A00 q 1
def svcMeter (c : Nat) : Nat := Obj.meter 0x3E00 c 1
def portMeter (p : Nat) : Nat := Obj.meter 0x3F00 p 1

/-- CLASS of a collection number (Table 4.7). -/
def gateClass (s : State) (c : Nat) : Nat := getObj s (Obj.meter 0x3E00 c 6)

/-- Bursts of a meter in 1/256 of a request. -/
def burstC (s : State) (m : Nat) : Nat := 256 * getObj s (m + 3)
def burstP (s : State) (m : Nat) : Nat := 256 * getObj s (m + 4)

/-- Buckets of a meter; full where none is stored yet. -/
def bucketOf (s : State) (m : Nat) : Bucket := (look s.adm.buckets m).getD { tc := burstC s m, tp := burstP s m }

/-- Store the buckets of a meter. -/
def setBucket (s : State) (m : Nat) (b : Bucket) : State :=
  { s with adm := { s.adm with buckets := put s.adm.buckets m b } }

/-- The colour that a meter returns (R93, `mark`). -/
def mark (s : State) (m : Nat) (c : Colour) : Colour :=
  let b := bucketOf s m
  if !isSet s m then c
  else if c = .red ∨ b.tp < 256 then .red
  else if c = .yellow ∨ b.tc < 256 then .yellow
  else .green

/-- Debit a meter for a taken request of the colour it returned (R93, `debit`). -/
def debit (s : State) (m : Nat) (c : Colour) : State :=
  if !isSet s m ∨ c = .red then s
  else
    let b := bucketOf s m
    setBucket s m { tc := if c = .green then b.tc - 256 else b.tc, tp := b.tp - 256 }

/-- Refill every meter (R93, `refill`), at P4 of every boundary. -/
def refillMeters (s : State) : State :=
  let bs := s.adm.buckets.map fun (p : Nat × Bucket) =>
    (p.1, ({ tc := min (p.2.tc + getObj s (p.1 + 1)) (burstC s p.1), tp := min (p.2.tp + getObj s (p.1 + 2)) (burstP s p.1) } : Bucket))
  { s with adm := { s.adm with buckets := bs } }

/-- Enabled service meters (R95). -/
def servicesMetered (s : State) : Nat :=
  (s.adm.buckets.filter fun p => decide (0x3E0000 ≤ p.1 ∧ p.1 < 0x3F0000) && isSet s p.1).length

/-- A write of a meter's EN as applied: both buckets start full, to the bursts that its transaction leaves in force (`fillMeter`); a
1,025th service meter stays disabled (R93, R95). -/
def applyMeterEn (s : State) (m v : Nat) : State :=
  if v = 0 then
    { setObj s m 0 with adm := { s.adm with buckets := del s.adm.buckets m } }
  else if isSet s m then s
  else if 0x3E0000 ≤ m ∧ m < 0x3F0000 ∧ 1024 ≤ servicesMetered s then s
  else setBucket (setObj s m 1) m { tc := burstC s m, tp := burstP s m }

/-- A meter that a transaction has enabled starts full at the bursts then in force (R93). -/
def fillMeter (s : State) (m : Nat) : State :=
  if isSet s m then setBucket s m { tc := burstC s m, tp := burstP s m } else s

/-- New parameters of a meter take effect: both buckets are cut to the new bursts (R93). -/
def applyMeterParam (s : State) (a v : Nat) : State :=
  let s := setObj s a v
  let m := a / 16 * 16 + 1
  match look s.adm.buckets m with
  | none => s
  | some b => setBucket s m { tc := min b.tc (burstC s m), tp := min b.tp (burstP s m) }

/-! ### Gate lists -/

/-- The entry of a list that holds at an offset (R102, the loop). -/
def gateWalk : List Nat → Nat → Nat
  | [], _ => 0xFFF
  | e :: es, off => if off < gateTurns e then gateMask e else gateWalk es (off - gateTurns e)

/-- The gate mask of turn `n` under a list with base `b` (R102); a list without entries opens every class (R101). -/
def gatesAt (n b : Nat) (es : List Nat) : Nat :=
  let len := es.foldl (fun t e => t + gateTurns e) 0
  if es = [] then 0xFFF else gateWalk es ((n + turnMod - b) % turnMod % len)

/-- The committed administrative list becomes pending (R103, R104), at P4 of boundary `n`. -/
def pendGates (s : State) (n : Nat) : State :=
  let es := (List.range (getObj s Obj.GATE_ADMIN_COUNT)).map fun i => getObj s (Obj.GATE_ADMIN i)
  let t := getObj s Obj.GATE_TAKEOVER_TURN
  { s with adm := { s.adm with gates := { s.adm.gates with pend := some (es, if n < t then t else n) } } }

/-- Whether an object belongs to the administrative list, its count or its takeover turn. -/
def gateObject (a : Nat) : Bool := a == Obj.GATE_ADMIN_COUNT || a == Obj.GATE_TAKEOVER_TURN || a / 256 == 0x3802

/-- GATE_TAKEOVER (R103): at P4 the pending list whose turn has come becomes operational. -/
def execGateTakeover (s : State) : Host.Outcome State Fault Refusal :=
  .next (
    match s.adm.gates.pend with
    | some (es, t) =>
      if s.turn.phase = .p4 ∧ t ≤ boundary s then
        { s with adm := { s.adm with gates := { oper := es, base := t, pend := none } } }
      else s
    | none => s)

/-- GATE_STATE of the turn that begins (R102), set at P5. -/
def applyGateState (s : State) : State :=
  setObj s Obj.GATE_STATE (gatesAt s.turn.no s.adm.gates.base s.adm.gates.oper)

end Sys2Proof.Machine
end

