-- ==== Sys2Proof/Machine/HostRings.lean ====
section
/-! DEFINITION. Result and event rings: the writes of R82, the MSI-X table, and what is kept while the host cannot be reached
(R440, R466). -/

namespace Sys2Proof.Machine

/-- One byte of the MSI-X region: the vector control words have their mask bit set at reset (log entry 2). -/
def msixByte (s : State) (off : Nat) : Nat := lookD s.host.msixBytes off (if off % 16 = 12 then 1 else 0)

/-- Whether a vector is masked. -/
def vectorMasked (s : State) (v : Nat) : Bool := msixByte s (16 * v + 12) % 2 == 1

/-- The address that a vector's message goes to (log entry 2). -/
def vectorAddr (s : State) (v : Nat) : Nat := leNat ((List.range 8).map fun i => BitVec.ofNat 8 (msixByte s (16 * v + i)))

/-- Whether a write reaches the host now: the link is up, and with IDE_REQUIRED a Secure stream covers its address (R440, R466). -/
def reaches (s : State) (o : Output) : Bool :=
  s.host.linkUp && (match o with
    | .hostWrite a b => ideCovers s a b.length
    | .msix v => ideCovers s (vectorAddr s v) 4
    | _ => true)

/-- A write toward the host: it leaves at once, or is kept in order behind the others (R440, R466). -/
def toHost (s : State) (o : Output) : State :=
  if reaches s o && s.host.kept.isEmpty then emit s o
  else { s with host := { s.host with kept := s.host.kept ++ [{ out := o, res := none }] } }

/-- A result has been written: its slot is no longer reserved, and its request no longer in flight (R69, R78). -/
def resultDone (s : State) (sq rq : Nat) : State :=
  let s := setQ s sq { getQ s sq with inflight := (getQ s sq).inflight - 1 }
  setQ s rq { getQ s rq with reserved := (getQ s rq).reserved - 1 }

/-- The kept writes leave in order, up to the first that does not reach the host yet. -/
def flushKept (s : State) : State :=
  let now := s.host.kept.takeWhile fun k => reaches s k.out
  let t := (now.filterMap (·.res)).foldl (fun s r => resultDone s r.1 r.2.1) s
  { t with host := { t.host with kept := s.host.kept.drop now.length }, out := s.out ++ now.map (·.out) }

/-- Send an MSI-X message, or set its pending bit while the vector is masked. -/
def msixSend (s : State) (v : Nat) : State :=
  if vectorMasked s v then { s with host := { s.host with pba := nub (s.host.pba ++ [v]) } } else toHost s (.msix v)

/-- Search-memory address of an offset in the host region. -/
def regionAddr (s : State) (off : Nat) : Nat := getObj s Obj.HOST_REGION_BASE + off

/-- Write bytes to a queue's address space at an offset of its ring. -/
def ringWrite (s : State) (q : Queue) (off : Nat) (b : List Byte) : State :=
  if b = [] then s
  else if q.loc = 0 then toHost s (.hostWrite (q.base + off) b)
  else if q.base + off + b.length ≤ regionBytes s then
    { s with smem := { s.smem with cells := writeBytes s.smem.cells (regionAddr s (q.base + off)) b } }
  else s

/-- Offset of the ring slot of a tally (R67). -/
def ringSlot (q : Queue) (t : Tally) : Nat := t.toNat % q.slots * q.stride

/-- Write an entry: its header and what follows, then ENTRY_TALLY in a write of its own (R82). -/
def writeEntry (s : State) (q : Queue) (t : Tally) (header body : List Byte) : State :=
  let off := ringSlot q t
  let s := ringWrite (ringWrite s q off header) q (off + 32) body
  ringWrite s q (off + 24) (leBytes 8 t.toNat)

/-- Mark the last of the kept writes as the last write of a result. -/
def tagLast (r : Nat × Nat × Nat) : List KeptWrite → List KeptWrite
  | [] => []
  | [k] => [{ k with res := some r }]
  | k :: ks => k :: tagLast r ks

/-- Write one result to its ring; while a write of it is kept it still counts as one to be written (R69, R78, R82). -/
def writeResult (s : State) (r : Res) : State :=
  let q := getQ s r.rq
  let t := setQ (writeEntry s q q.work (resHeader r) (resSlots r)) r.rq { q with work := q.work + 1 }
  if t.host.kept.length ≤ s.host.kept.length then resultDone t r.sq r.rq
  else { t with host := { t.host with kept := tagLast (r.sq, r.rq, r.enc) t.host.kept } }

/-- Advance DEVICE_TALLY, write the shadow, and send the message of a RESULT or EVENT queue (R75, R82). -/
def advanceTally (s : State) (qn : Nat) : State :=
  let q := getQ s qn
  let s := setQ s qn { q with devTally := q.work, told := true }
  let s := if q.shadow = 0 then s else toHost s (.hostWrite q.shadow (leBytes 8 q.work.toNat))
  if submits q.ty then s else msixSend s q.msix

/-- Results of one queue in the order of R83: by turn, within it by submission queue, and within that in tally order, which counts
on over the wrap. That results of one turn go by ascending submission queue is a DESIGN CHOICE (log entry 84). -/
def resultOrder (rs : List Res) : List Res :=
  sortBy (fun a b => decide (a.postTurn < b.postTurn) || (a.postTurn == b.postTurn
    && (decide (a.sq < b.sq) || (a.sq == b.sq && decide (tallyDiff b.sqTally a.sqTally < 2 ^ 63))))) rs

/-- Write what a queue has waiting for this turn and publish its tally, once in a turn (R82). -/
def publishQueue (s : State) (qn : Nat) : State :=
  let q := getQ s qn
  if q.told then s
  else
  match q.ty with
  | .result =>
    let rs := resultOrder (s.host.results.filter (·.rq == qn))
    if rs = [] then s
    else
      let s := { s with host := { s.host with results := s.host.results.filter (·.rq != qn) } }
      advanceTally (rs.foldl writeResult s) qn
  | .event =>
    let es := s.host.events.filter (·.q == qn)
    if es = [] then s
    else
      let s := { s with host := { s.host with events := s.host.events.filter (·.q != qn) } }
      advanceTally (es.foldl (fun s e => writeEntry s (getQ s qn) e.tally (eventHeader e.ev e.lost) []) s) qn
  | _ => if q.work = q.devTally then s else advanceTally s qn

/-- QUEUE_TALLY_PUBLISH: at the end of a queue's writes in a turn, before P0 (R82). -/
def execQueueTallyPublish (q : Nat) (s : State) : Host.Outcome State Fault Refusal :=
  .next (if s.turn.phase = .p6 then publishQueue s q else s)

end Sys2Proof.Machine
end

