-- ==== Sys2Proof/Machine/Placement.lean ====
section
/-! DEFINITION. Placement (chapter 14): heat, reviews, hot copies, dropped copies, host-memory ranges and the copying of
lists between nodes. -/

namespace Sys2Proof.Machine

/-! ### Heat (R328) -/

/-- One step of a heat. -/
def heatStep (h e sh : Nat) : Nat := min 0xFFFFFFFF (h - h / 2 ^ sh + e)

/-- At P4 of every boundary each heat takes the events of the ending turn. -/
def heatAtBoundary (s : State) : State :=
  let sh := getObj s Obj.HEAT_SHIFT
  let lists := s.lists.map fun l => { l with heat := heatStep l.heat l.events sh, events := 0 }
  let group := fun (g : RowGroup) => { g with heat := heatStep g.heat g.events sh, events := 0 }
  let ver := fun (v : TableVer) => { v with groups := v.groups.map fun g => (g.1, group g.2) }
  let tables := s.comp.tables.map fun p => (p.1, { p.2 with active := p.2.active.map ver })
  let layer := fun (l : Layer) => { l with heat := heatStep l.heat l.events sh, events := 0 }
  let images := s.images.map fun p => (p.1, { p.2 with layers := p.2.layers.map layer })
  let remotes := s.remotes.map fun r => { r with image := { r.image with layers := r.image.layers.map layer } }
  { s with lists := lists, comp := { s.comp with tables := tables }, images := images, remotes := remotes }

/-- At a review boundary each holder sends the heats of its copies to the primaries of their lists (R329). -/
def sendHeats (s : State) : State :=
  s.ledger.members.foldl (fun s' m =>
    let hs := (s.lists.filter fun l => primaryOf (holdersOf s l.key) == some m).map fun l => (l.key, l.heat)
    if hs = [] then s' else send s' m (.heat hs)) s

/-! ### Hot copies (R329, Table 14.4) -/

/-- A list copy begins to build a hot copy, or gives it up, as its list's heat says. -/
def hotDecision (s : State) (key heat : Nat) : State :=
  match getList s key with
  | none => s
  | some l =>
    let c := keyColl key
    let bytes := l.newest.bases.flatten.length * recordBytes s c
    if isHamming s c then s
    else if getObj s Obj.HOT_ON ≤ heat ∧ isSet s (Obj.coll_HOT_EN c) = true then
      if l.newest.hot || l.hotBuild then s
      else if t2Fits s c bytes then setList s { l with hotBuild := true, hotDue := 0 }
      else bump s Obj.QUOTA_REFUSALS 1
    else if heat < getObj s Obj.HOT_OFF then
      if l.newest.hot then setList s { l with hotBuild := false, hotDue := dueTurn s } else setList s { l with hotBuild := false, hotDue := 0 }
    else s

/-- Drop every mirror in a range. -/
def dropMirrors (s : State) (r : Nat) : State :=
  { s with place := { s.place with mirrors := s.place.mirrors.filter fun m => m.range != r } }

/-- A mirror read fails (R327). -/
def mirrorFailed (s : State) (r : Nat) : State :=
  postEvent (dropMirrors (setObj (bump s Obj.MIRROR_FALLBACKS 1) (Obj.range_STATE r) 3) r) 0x7042 r

/-- A copy of a list's full-vector records reads its mirrors; `bad` is a range whose mirror could not be read (R327). -/
def readMirrors (s : State) (key : Nat) (bad : Option Nat) : State :=
  bad.elim s fun r => if s.place.mirrors.any (fun m => m.range == r && m.key == key) then mirrorFailed s r else s

/-- HOT_COPY_COMPLETE: a hot copy is complete and joins the list state at the next boundary. `mirrorBad` is a range whose mirror
could not be read while it was built (R327). -/
def execHotCopyComplete (key : Nat) (mirrorBad : Option Nat) (s : State) : Host.Outcome State Fault Refusal :=
  .next (
    match getList s key with
    | none => s
    | some l => if l.hotBuild && l.hotDue == 0 then setList (readMirrors s key mirrorBad) { l with hotDue := dueTurn s } else s)

/-- The same bases with or without their hot copy, in force from boundary `n`. -/
def ListCopy.setHot (l : ListCopy) (n : Nat) (hot : Bool) : ListCopy :=
  let l' := l.push n l.newest.bases l.newest.cut l.newest.adopted []
  { l' with sets := match l'.sets with | [] => [] | g :: gs => { g with hot := hot } :: gs, hotBuild := false, hotDue := 0 }

/-- The hot copies that join or leave their list state at boundary `n`. -/
def hotAtBoundary (s : State) (n : Nat) : State :=
  { s with lists := s.lists.map fun l => if l.hotDue ≠ 0 ∧ l.hotDue ≤ n then l.setHot n l.hotBuild else l }

/-! ### Reviews (R329 to R331) -/

/-- What a review knows of another member: node, T2 use in percent of its service T2, summed heat, 1 where it has quota. -/
abbrev MemberUse := Nat × Nat × Nat × Nat

/-- Copies in which a node takes part as source or target, this node's own proposals of the review among them. An incoming holder
whose source the ledger has yet to name is copied from this node. -/
def copiesAt (s : State) (node : Nat) : Nat :=
  let mine := s.ledger.outReqs.filterMap fun r => match r with | .list k _ => some k | _ => none
  let part := fun (h : Holder) => decide (h.role = .incoming)
    && (h.node == node || (if h.lastPin = never then selfNode s == node else h.lastPin == node))
  ((nub (s.ledger.lists.map (·.1) ++ mine)).flatMap fun k => (holdersNext s k).filter part).length

/-- Whether a further proposal keeps this node within MOVES_MAX, and the list has no copy in progress (R331). -/
def mayPropose (s : State) (key : Nat) : Bool :=
  decide (copiesAt s (selfNode s) < getObj s Obj.MOVES_MAX) && !copying s key
    && !(holdersNext s key).any fun h => decide (h.role = .incoming)

/-- The replica target of Table 14.4. -/
def replicaTarget (s : State) (c heat : Nat) : Nat :=
  let lo := getObj s (Obj.coll_REPLICAS_MIN c)
  let byHeat := if getObj s Obj.REPL_HEAT_3 ≤ heat then 3 else if getObj s Obj.REPL_HEAT_2 ≤ heat then 2
    else if getObj s Obj.REPL_HEAT_1 ≤ heat then 1 else 0
  min (max lo byHeat) (min (getObj s (Obj.coll_REPLICAS_MAX c)) (s.ledger.members.length - 1))

/-- The best member for a new copy of a list: not a holder, with quota, within MOVES_MAX, of least `cost`, the lowest number among
equals. -/
def bestMember (s : State) (ms : List MemberUse) (key : Nat) (ok : MemberUse → Bool) (cost : MemberUse → Nat) : Option Nat :=
  let hs := (holdersNext s key).map (·.node)
  let cs := sortBy (fun (a b : MemberUse) => decide (cost a < cost b) || (cost a == cost b && decide (a.1 ≤ b.1)))
    (ms.filter fun m => m.2.2.2 == 1 && !hs.contains m.1 && s.ledger.members.contains m.1
      && decide (copiesAt s m.1 < getObj s Obj.MOVES_MAX) && ok m)
  cs.head?.map (·.1)

/-- Propose a copy on `target`. The FIRST_PIN of an incoming holder, which Table 14.5 gives no use, says that the copy is a
move; the proposing node is the source. -/
def proposeCopy (s : State) (key target : Nat) (move : Bool) : State :=
  let hs := (holdersNext s key).filter fun h => h.node != target
  ledgerRequest s (.list key (hs ++ [{ node := target, role := .incoming, firstPin := if move then 1 else 0, lastPin := never }]))

/-- The lists of which this node is primary. -/
def primaries (s : State) : List Nat := (s.lists.map (·.key)).filter fun k => primaryOf (holdersOf s k) == some (selfNode s)

/-- Summed heat of a list, from the heats that its holders sent. -/
def listHeat (s : State) (key : Nat) : Nat := lookD s.place.listHeat key 0

/-- Rebuild proposals for the stale and quarantined copies of a list (R334). -/
def reviewRebuild (s : State) (key : Nat) : State :=
  let may := fun (h : Holder) => decide (copiesAt s h.node < getObj s Obj.MOVES_MAX) && s.ledger.members.contains h.node
  match (holdersNext s key).find? fun h => (decide (h.role = .stale) || decide (h.role = .quarantined)) && may h with
  | none => s
  | some h => if mayPropose s key then proposeCopy s key h.node false else s

/-- Replicas held of a list. -/
def replicasHeld (s : State) (key : Nat) : Nat := ((holdersOf s key).filter fun h => decide (h.role = .replica)).length

/-- A replica proposal where a list has fewer than `want`. -/
def reviewReplica (ms : List MemberUse) (want : Nat → Nat) (s : State) (key : Nat) : State :=
  if want key ≤ replicasHeld s key ∨ mayPropose s key = false then s
  else match bestMember s ms key (fun _ => true) (·.2.1) with
    | none => s
    | some t => proposeCopy s key t false

/-- Whether this node's T2 use exceeds a percentage of its service T2. -/
def t2Above (s : State) (pct : Nat) : Bool := decide (pct * (t2ServiceMib s * 2 ^ 20) < t2Used s * 100)

/-- The lists that this node serves. -/
def served (s : State) : List ListCopy := s.lists.filter fun l => servesList s l.key

/-- The copy of least heat per byte, and the hottest copy. -/
def coldest (s : State) : Option ListCopy :=
  (sortBy (fun (a b : ListCopy) => decide (a.heat * listT2 s b ≤ b.heat * listT2 s a)) (served s)).head?
def hottest (s : State) : Option ListCopy := (sortBy (fun (a b : ListCopy) => decide (b.heat ≤ a.heat)) (served s)).head?

/-- Moves of R330. -/
def reviewMove (heatPct : Nat) (ms : List MemberUse) (s : State) : State :=
  let low := fun (m : MemberUse) => decide (m.2.1 < getObj s Obj.BALANCE_LOW_PCT)
  let full := t2Above s (getObj s Obj.BALANCE_HIGH_PCT)
  let skew := decide (getObj s Obj.HEAT_SKEW_PCT < heatPct)
  let one := fun (s : State) (l : Option ListCopy) (cost : MemberUse → Nat) =>
    match l with
    | none => s
    | some l =>
      match bestMember s ms l.key low cost with
      | none => s
      | some t => if mayPropose s l.key then proposeCopy s l.key t true else s
  let s := if full then one s (coldest s) (·.2.1) else s
  if skew then one s (hottest s) (·.2.2.1) else s

/-- One replica too many, and cold: the last replica departs (Table 14.4, R331). -/
def reviewDrop (s : State) (key : Nat) : State :=
  let c := keyColl key
  let heat := listHeat s key
  let held := replicasHeld s key
  let lim := [0, getObj s Obj.REPL_HEAT_1, getObj s Obj.REPL_HEAT_2, getObj s Obj.REPL_HEAT_3].getD held 0
  if replicaTarget s c heat < held ∧ 2 * heat < lim ∧ copying s key = false then
    let hs := holdersNext s key
    if hs.any fun h => decide (h.role = .incoming) then s
    else match hs.reverse.find? fun h => decide (h.role = .replica) with
    | none => s
    | some h =>
      ledgerRequest s (.list key (hs.map fun x => if x.node == h.node then { x with role := .departing, lastPin := 0 } else x))
  else s

/-- A row group's place (Table 14.4, R130): what is decided here takes effect at the next boundary (R128). -/
def reviewGroup (s : State) (t g : Nat) : State :=
  match (getTable s t).active with
  | none => s
  | some v =>
    let x := v.group g
    let up := getObj s Obj.GROUP_T2_HEAT
    let t1 := getObj s Obj.GROUP_T1_HEAT
    let s := onGroup s t g fun x =>
      { x with t1Next := if !x.t5 && decide (t1 ≤ x.heat) then some true else if 4 * x.heat < t1 then some false else none }
    if x.moving.isSome then s
    else if x.t5 && decide (up ≤ x.heat) then (if groupFits s (composeT2Used s) v then startGroupMove s t g false else s)
    else if !x.t5 && decide (4 * x.heat < up) && !isSet s (Obj.table_PIN_T2 t) && !groupErr v g
        && (x.lastRepl == 0 || decide (x.lastRepl + 63 < s.turn.no)) then
      onGroup (startGroupMove s t g true) t g fun x => { x with copied := true }
    else s

/-- One module's readings at a review: port, receive power, temperature, flags (R388, Table 17.8). -/
def readModule (s : State) (m : Nat × Nat × Nat × Nat) : State :=
  let p := m.1
  if getObj s (Obj.port_MODULE p) ≠ 2 then s
  else
    let s := setObj (setObj s (Obj.port_RX_POWER_MIN p) (m.2.1 % 2 ^ 16)) (Obj.port_MODULE_TEMP_C p) (m.2.2.1 % 2 ^ 32)
    let s := setObj s (Obj.port_MODULE_FLAGS p) (m.2.2.2 % 2 ^ 32)
    if m.2.2.2 = 0 then s else postEvent s 0x4008 (p + 2 ^ 8 * (m.2.2.2 % 256))

/-- One receiver's eye at a review: lane p × 4 + l, height in mV, width in 0.1 ps (R456). -/
def readEye (s : State) (e : Nat × Nat × Nat) : State :=
  let old := getDom s Obj.EYE_MAP
  let old := old ++ List.replicate (256 - old.length) 0
  let lane := e.1 % 64
  let s := setDom s Obj.EYE_MAP (old.take (4 * lane) ++ leBytes 2 e.2.1 ++ leBytes 2 e.2.2 ++ old.drop (4 * lane + 4))
  if e.2.1 < getObj s Obj.EYE_MIN_MV then postEvent s 0x4010 lane else s

/-- The health of one flash channel at a review (R366, Table 16.5). -/
def readChannel (s : State) (h : ChanHealth) : State :=
  let c := h.chan % 32
  let s := setObj (setObj s (Obj.chan_PE_MEAN c) (h.peMean % 2 ^ 32)) (Obj.chan_PE_MAX c) (h.peMax % 2 ^ 32)
  setObj (setObj s (Obj.chan_SPARE_PCT_MIN c) (min 100 h.spareMin)) (Obj.chan_LDPC_ITER_MEAN c) (h.ldpcIter % 2 ^ 32)

/-- PLACEMENT_REVIEW, in the turn that a review boundary starts: the decisions of Table 14.4 and the proposals in the order
of R331. `heatPct` is the summed heat of this node's copies in percent of the partition mean; `members` what is known of the
others; `modules` and `eyes` the modules' and the receivers' readings; `life` and `health` the state of the flash. -/
def doReview (s : State) (heatPct : Nat) (ms : List MemberUse) (modules : List (Nat × Nat × Nat × Nat))
    (eyes : List (Nat × Nat × Nat)) (life : Nat) (health : List ChanHealth) : State :=
  if s.turn.no % 64 ≠ 0 ∨ s.turn.phase ≠ .p6 then s
  else
    let s := eyes.foldl readEye (modules.foldl readModule s)
    let s := setObj (health.foldl readChannel s) Obj.LIFE_USED_PCT (min 255 life)
    let s := { s with place := { s.place with fillPosted := false, reservePosted := false, dropping := [] } }
    let ks := primaries s
    let s := ks.foldl (fun s k =>
      let s := hotDecision s k (listHeat s k)
      sendAll s (((holdersOf s k).map (·.node)).filter (· != selfNode s)) (.heat [(k, listHeat s k)])) s
    let s := ks.foldl reviewRebuild s
    let s := ks.foldl (reviewReplica ms fun k => min (getObj s (Obj.coll_REPLICAS_MIN (keyColl k))) (s.ledger.members.length - 1)) s
    let s := ks.foldl (reviewReplica ms fun k => replicaTarget s (keyColl k) (listHeat s k)) s
    let s := ks.foldl reviewDrop (reviewMove heatPct ms s)
    let s := s.comp.tables.foldl (fun s p =>
      ((p.2.active.map fun v => v.groups.map (·.1)).getD []).foldl (fun s g => reviewGroup s p.1 g) s) s
    { s with place := { s.place with listHeat := [] } }

/-- PLACEMENT_REVIEW (R329). -/
def execPlacementReview (heatPct : Nat) (members modules : List (Nat × Nat × Nat × Nat)) (eyes : List (Nat × Nat × Nat))
    (lifePct : Nat) (health : List ChanHealth) (s : State) : Host.Outcome State Fault Refusal :=
  .next (doReview s heatPct members modules eyes lifePct health)

/-- A HEAT section is counted: the primary adds a holder's heat, and a holder takes its primary's decision. -/
def countHeat (s : State) (hs : List (Nat × Nat)) : State :=
  hs.foldl (fun s h =>
    if primaryOf (holdersOf s h.1) = some (selfNode s) then
      { s with place := { s.place with listHeat := put s.place.listHeat h.1 (listHeat s h.1 + h.2) } }
    else hotDecision s h.1 h.2) s

/-! ### Dropped copies (R324) -/

/-- An optional copy: kind, list, a mirror's base segment, heat, and the T2, T4 and T5 bytes that dropping it gives back. -/
structure Optional where
  kind : CopyKind
  key : Nat
  base : List Nat
  heat : Nat
  t2 : Nat
  t4 : Nat
  t5 : Nat
  deriving DecidableEq, Repr

/-- Optional copies of some collections in the order in which they are dropped. -/
def optionals (s : State) (p : Nat → Bool) : List Optional :=
  let ls := s.lists.filter fun l => p (keyColl l.key)
  let cold := fun (xs : List Optional) => sortBy (fun a b => decide (a.heat ≤ b.heat)) xs
  let heatOf := fun k => ((getList s k).map (·.heat)).getD 0
  cold ((s.place.mirrors.filter fun m => p (keyColl m.key)).map fun m =>
      { kind := .mirror, key := m.key, base := m.base, heat := heatOf m.key, t2 := 0, t4 := m.bytes, t5 := 0 })
    ++ cold ((ls.filter fun l => l.newest.hot && l.hotDue == 0).map fun l =>
      { kind := .hot, key := l.key, base := [], heat := l.heat,
        t2 := l.newest.bases.flatten.length * recordBytes s (keyColl l.key), t4 := 0, t5 := 0 })
    ++ cold ((ls.filter fun l => ((holdersOf s l.key).any fun h => h.node == selfNode s && decide (h.role = .replica))
        && !s.place.dropping.contains l.key && !copying s l.key
        && decide (getObj s (Obj.coll_REPLICAS_MIN (keyColl l.key)) < replicasHeld s l.key)).map fun l =>
      { kind := .replica, key := l.key, base := [], heat := l.heat, t2 := listT2 s l, t4 := 0, t5 := listT5 s l })

/-- The pooled-cache entries that this node keeps: they are dropped with the mirrors, as the coldest (R390). -/
def keptOptionals (s : State) : List Optional :=
  s.fab.kept.map fun e => { kind := .entry, key := e.2.key, base := [], heat := 0, t2 := 16 + e.2.value.length, t4 := 0, t5 := 0 }

/-- Drop one optional copy. -/
def dropOptional (s : State) (o : Optional) : State :=
  let s := match o.kind with
    | .mirror => { s with place := { s.place with mirrors := s.place.mirrors.filter fun m => !(m.key == o.key && m.base == o.base) } }
    | .entry => { s with fab := { s.fab with kept := s.fab.kept.filter fun e => e.2.key != o.key } }
    | .hot => { s with lists := updFirst (·.key == o.key) (fun l => { l with hotBuild := false, hotDue := dueTurn s }) s.lists }
    | .replica =>
      let s := { s with place := { s.place with dropping := s.place.dropping ++ [o.key] } }
      ledgerRequest s (.list o.key ((holdersNext s o.key).map fun x =>
        if x.node == selfNode s then { x with role := .departing, lastPin := 0 } else x))
  bump s Obj.COPIES_DROPPED 1

/-- Drop optional copies in order while one of three needs remains. -/
def dropWhile (s : State) : List Optional → Nat → Nat → Nat → State
  | [], _, _, _ => s
  | o :: os, n2, n4, n5 =>
    if n2 = 0 ∧ n4 = 0 ∧ n5 = 0 then s else dropWhile (dropOptional s o) os (n2 - o.t2) (n4 - o.t4) (n5 - o.t5)

/-- T2 and T5 bytes of a list copy that are on their way out: a copy that departs or whose departure is asked for, and a hot copy
that retained states alone hold. They are charged until they are freed (R322), but no further copy is dropped for them (DEDUCED, log
entry 88). -/
def leaving (s : State) (l : ListCopy) : Nat × Nat :=
  let out := s.place.dropping.contains l.key
    || (holdersOf s l.key).any fun h => h.node == selfNode s && decide (h.role = .departing)
  let keeps := l.newest.hot && !(l.hotDue != 0 && !l.hotBuild)
  if out then (listT2 s l, listT5 s l)
  else if l.sets.any (·.hot) && !keeps && !isHamming s (keyColl l.key) then (l.based.length * recordBytes s (keyColl l.key), 0)
  else (0, 0)

/-- The bytes on their way out of some lists. -/
def leavingOf (s : State) (ls : List ListCopy) : Nat × Nat :=
  ls.foldl (fun n l => (n.1 + (leaving s l).1, n.2 + (leaving s l).2)) (0, 0)

/-- COPY_DROP for a collection over its quotas, and for the node where its free T2 is below the reserve. -/
def doCopyDrop (s : State) (c : Nat) : State :=
  let off := leavingOf s (listsOf s c)
  let n2 := collT2 s c - off.1 - getObj s (Obj.coll_T2_QUOTA_GIB c) * 2 ^ 30
  let n4 := collT4 s c - getObj s (Obj.coll_T4_QUOTA_GIB c) * 2 ^ 30
  let n5 := collT5 s c - off.2 - getObj s (Obj.coll_T5_QUOTA_GB c) * 10 ^ 9
  let s := dropWhile s (optionals s (· == c)) n2 n4 n5
  let short := getObj s Obj.T2_RESERVE_GIB * 2 ^ 30 - (t2Free s + (leavingOf s s.lists).1)
  if getObj s Obj.T2_RESERVE_GIB * 2 ^ 30 ≤ t2Free s then s
  else
    let s := if s.place.reservePosted then s
      else postEvent { s with place := { s.place with reservePosted := true } } 0x7043 0
    dropWhile s (keptOptionals s ++ optionals s fun _ => true) short 0 0

/-- COPY_DROP (R324). -/
def execCopyDrop (coll : Nat) (s : State) : Host.Outcome State Fault Refusal := .next (doCopyDrop s coll)

/-! ### Host-memory ranges (R325 to R327) -/

/-- The new BASE and SIZE of a range become its values, with STATE 1 or 0. -/
def setRange (s : State) (r base size : Nat) : State :=
  let s := setObj (setObj s (Obj.range_BASE r) base) (Obj.range_SIZE_GIB r) size
  setObj s (Obj.range_STATE r) (if size = 0 then 0 else 1)

/-- A committed write of a range takes effect (R325, R326): an active range drains first. -/
def applyRange (s : State) (r base size : Nat) (sized : Bool) : State :=
  match getObj s (Obj.range_STATE r) with
  | 1 =>
    let s := dropMirrors s r
    { setObj s (Obj.range_STATE r) 2 with place := { s.place with ranges := put s.place.ranges r (base, size) } }
  | 2 => { s with place := { s.place with ranges := put s.place.ranges r (base, size) } }
  | 3 => if sized then setRange s r base size else setObj s (Obj.range_BASE r) base
  | _ => setRange s r base size

/-- RANGE_DRAIN_COMPLETE: the last read from a draining range has completed; it changes at the next boundary. -/
def execRangeDrainComplete (range : Nat) (s : State) : Host.Outcome State Fault Refusal :=
  .next (
    if getObj s (Obj.range_STATE range) = 2 then
      { s with place := { s.place with drained := put s.place.drained range (dueTurn s) } }
    else s)

/-- The drained ranges that take their new values at boundary `n`. -/
def rangesAtBoundary (s : State) (n : Nat) : State :=
  (s.place.drained.filter fun d => decide (d.2 ≤ n)).foldl (fun s d =>
    let v := lookD s.place.ranges d.1 (0, 0)
    let s := setRange s d.1 v.1 v.2
    { s with place := { s.place with ranges := del s.place.ranges d.1, drained := del s.place.drained d.1 } }) s

/-! ### Copying a list (R335 to R337) -/

/-- The copy of a list in which this node takes part. -/
def getJob (s : State) (key : Nat) : Option CopyJob := s.place.jobs.find? fun j => j.key == key && decide (j.w = 0)

/-- Change the copy of a list. -/
def onJob (s : State) (key : Nat) (f : CopyJob → CopyJob) : State :=
  { s with place := { s.place with jobs := updFirst (fun j => j.key == key && decide (j.w = 0)) f s.place.jobs } }

/-- A list as a snapshot (step 1 of Table 14.6). -/
def snapOf (l : ListCopy) : List SnapEntry :=
  let g := l.newest
  let mk := fun (seg : Option Nat) (i : Nat) =>
    let e := l.entry i
    ({ id := e.id, tag := e.tag, attr := e.attr, writeTurn := e.writeTurn, origin := e.origin, delTurn := e.delTurn,
       sketch := e.sketch, codes := e.codes, full := e.full, wid := e.wid, seq := e.seq, aborted := e.aborted,
       seg := seg } : SnapEntry)
  (g.bases.zipIdx.flatMap fun p => p.1.map (mk (some p.2))) ++ (l.delta.drop g.cut ++ g.adopted).map (mk none)

/-- COPY_START at boundary B(a): the source fixes its snapshot and starts logging; the target discards an old copy. -/
def doCopyStart (s : State) (key : Nat) : State :=
  match getJob s key with
  | none => s
  | some j =>
    let n := boundary s
    if s.turn.phase ≠ .p4 ∨ j.start ≠ 0 ∨ n < j.requested then s
    else if j.source = selfNode s then
      match getList s key with
      | none => s
      | some l =>
        if l.compacting.isSome || l.built.isSome then s
        else
          let s := if j.rebuild then bump s Obj.REBUILDS 1 else s
          onJob s key fun j => { j with start := n, snap := snapOf l, total := (listT2 s l + listT5 s l + 2 ^ 20 - 1) / 2 ^ 20 }
    else onJob (freeCopy s key) key fun j => { j with start := n, logThrough := n - 1 }

/-- COPY_START (R335). -/
def execCopyStart (key : Nat) (s : State) : Host.Outcome State Fault Refusal := .next (doCopyStart s key)

/-- COPY_SNAPSHOT_TRANSFER in a turn with gate class 10 open: the source copies what MOVE_CAP_MIB leaves. `mirrorBad` is a
range whose mirror could not be read. -/
def doSnapshotTransfer (s : State) (key : Nat) (mirrorBad : Option Nat) : State :=
  match getJob s key with
  | none => s
  | some j =>
    let left := getObj s Obj.MOVE_CAP_MIB - s.place.moved
    if j.source ≠ selfNode s ∨ j.start = 0 ∨ j.total ≤ j.copied ∨ left = 0 ∨ slackOpen s 10 = false then s
    else
      let s := readMirrors s key mirrorBad
      let n := min left (j.total - j.copied)
      let last := decide (j.total ≤ j.copied + n)
      let hot := ((getList s key).map fun l => l.newest.hot).getD false
      let s := bump { s with place := { s.place with moved := s.place.moved + n } } Obj.MOVE_BYTES (n * 2 ^ 20)
      let s := onJob s key fun j => { j with copied := j.copied + n }
      send s j.target (.copy (.listPart key n last hot (if last then j.snap else [])))

/-- COPY_SNAPSHOT_TRANSFER (R335). -/
def execCopySnapshotTransfer (key : Nat) (mirrorBad : Option Nat) (s : State) : Host.Outcome State Fault Refusal :=
  .next (doSnapshotTransfer s key mirrorBad)

/-- An entry from a snapshot. -/
def entryOfSnap (e : SnapEntry) : Entry :=
  { id := e.id, tag := e.tag, attr := e.attr, writeTurn := e.writeTurn, origin := e.origin, delTurn := e.delTurn,
    sketch := e.sketch, codes := e.codes, full := e.full, wid := e.wid, seq := e.seq, aborted := e.aborted,
    loc := 0 }

/-- The copy that a whole snapshot makes, in force from B(a). A segment that retained media hold takes their records (R480). -/
def listOfSnap (s : State) (key a : Nat) (hot : Bool) (es : List SnapEntry) : State :=
  let idx := es.zipIdx
  let segs := (List.range 4).map fun k => (idx.filter fun p => p.1.seg == some k).map (·.2)
  let bases := segs.filter fun b => !b.isEmpty
  let l : ListCopy := { ListCopy.reset key with
    entries := es.map entryOfSnap, delta := (idx.filter fun p => p.1.seg.isNone).map (·.2), stack := chooseStack s }
  let place := fun (acc : State × List (Nat × Nat)) (b : List Nat) =>
    let d := digest (b.flatMap fun i => (l.entry i).full)
    match acc.1.nv.retained.find? fun r => r.1 == key && r.2.1 == d with
    | some r =>
      let nv := { acc.1.nv with retained := acc.1.nv.retained.filter fun x => !(x.1 == key && x.2.1 == d) }
      ({ acc.1 with nv := nv }, acc.2 ++ b.zip r.2.2)
    | none =>
      let p := placeSegment acc.1 (keyColl key) b
      (p.1, acc.2 ++ p.2)
  let p := bases.foldl place (s, [])
  let l := l.push a bases 0 [] p.2
  addMirrors (setList p.1 { l with sets := (l.sets.take 1).map fun g => { g with hot := hot } }) key bases

/-- A part of a snapshot is counted at the target. -/
def countListPart (s : State) (key mib : Nat) (last hot : Bool) (es : List SnapEntry) : State :=
  match getJob s key with
  | none => s
  | some j =>
    if j.target ≠ selfNode s ∨ j.start = 0 then s
    else
      let s := onJob s key fun j => { j with copied := j.copied + mib, total := if last then j.copied + mib else 0 }
      if last then listOfSnap s key j.start hot es else s

/-- The commit records that a target kept of a list's collection, by origin and turn, applied to the list's entries that `p` picks. -/
def ListCopy.commitKept (kept : List (Nat × Nat × List CommitRec)) (p : Entry → Bool) (l : ListCopy) : ListCopy :=
  let one := fun (e : Entry) => kept.foldl (fun e k => k.2.2.foldl (fun e r => Entry.commit k.2.1 k.1 r e) e) e
  { l with entries := l.entries.map fun e => if p e then one e else e }

/-- Apply one log record to the target's copy; the kept records of an entry apply as it becomes present (step 4 of Table 14.6). -/
def replayRec (key : Nat) (kept : List (Nat × Nat × List CommitRec)) (s : State) (r : LogRec) : State :=
  match getList s key with
  | none => s
  | some l =>
    match r with
    | .append e =>
      if l.entries.any (fun x => x.wid == e.wid && x.origin == e.origin) then s
      else setList s ((l.append (entryOf e)).commitKept kept fun x => x.wid == e.wid && x.origin == e.origin)
    | .stamp x => setList s (match stampTarget x [l] with | none => l | some w => l.stamp x w)

/-- A MOVE_LOG section is counted at the target: kept until the snapshot is whole, then applied as it comes. -/
def countMoveLog (s : State) (key turn : Nat) (rs : List LogRec) : State :=
  let mark := fun (s : State) =>
    let jobs := s.place.jobs.map fun j => if j.key == key && j.target == selfNode s then { j with logThrough := turn } else j
    { s with place := { s.place with jobs := jobs } }
  match s.place.jobs.find? fun j => j.key == key && j.target == selfNode s with
  | none => s
  | some j =>
    if j.ready then bump (mark (rs.foldl (replayRec key []) s)) Obj.LOG_REPLAYED rs.length
    else mark (onJob s key fun j => { j with logIn := j.logIn ++ rs })

/-- LOG_REPLAY at the target, with gate class 10 open: the log in order, with the commit records that were kept; the copy
is ready and reported (steps 4 and 5 of Table 14.6). -/
def doLogReplay (s : State) (key : Nat) : State :=
  match getJob s key with
  | none => s
  | some j =>
    if j.target ≠ selfNode s ∨ j.ready = true ∨ (getList s key).isNone = true ∨ j.total = 0 ∨ slackOpen s 10 = false then s
    else
      let s := match getList s key with | none => s | some l => setList s (l.commitKept j.kept fun _ => true)
      let s := j.logIn.foldl (replayRec key j.kept) s
      let s := onJob s key fun j => { j with ready := true, logIn := [], kept := [], replayed := j.replayed + j.logIn.length }
      ledgerRequest (bump s Obj.LOG_REPLAYED j.logIn.length) (.report .copyReady key j.start)

/-- LOG_REPLAY (R335). -/
def execLogReplay (key : Nat) (s : State) : Host.Outcome State Fault Refusal := .next (doLogReplay s key)

/-- At the close of a boundary's caravans the source forwards the turn's log, through turn w (steps 2 and 7). -/
def sendLogs (s : State) : State :=
  let t := s.turn.no
  let due := s.place.jobs.filter fun j => j.source == selfNode s && j.start != 0 && decide (j.start ≤ t) && (j.w == 0 || decide (t ≤ j.w))
  let s := due.foldl (fun s j => send s j.target (.moveLog j.key t j.log)) s
  { s with place := { s.place with jobs := s.place.jobs.map fun j => if j.source == selfNode s then { j with log := [] } else j } }

/-- The ledger has recorded that the copy that began at B(a) is ready: it ends at boundary `n` (step 6). -/
def finishCopy (s : State) (node key a n : Nat) : State :=
  let hs := holdersOf s key
  match hs.find? fun h => h.node == node && decide (h.role = .incoming) with
  | none => s
  | some inc =>
    let job := s.place.jobs.find? fun j => j.key == key && j.target == node && decide (j.w = 0)
    let move := inc.firstPin == 1
    let src := inc.lastPin
    let old := (hs.find? fun h => h.node == src).map (·.role)
    let role := if move then old.getD .replica else .replica
    let hs := hs.map fun h =>
      if h.node == node then { h with role := role, firstPin := a, lastPin := never }
      else if move && h.node == src then { h with role := .departing, lastPin := n - 1 } else h
    let s := { s with ledger := { s.ledger with lists := put s.ledger.lists key hs } }
    match job with
    | none => s
    | some _ => bump (postEvent (onJob s key fun j => { j with w := n }) 0x7040 key) Obj.MOVES_DONE 1

/-- Copies that are over at boundary `n`: the last log batch has been counted. -/
def copiesAtBoundary (s : State) (n : Nat) : State :=
  { s with place := { s.place with moved := 0, jobs := s.place.jobs.filter fun j => j.w == 0 || decide (n ≤ j.w + 2) } }

/-- Whether a cause of R337 holds for a copy. -/
def abortCause (s : State) (j : CopyJob) (cause : Nat) : Bool :=
  match cause with
  | 1 => !s.ledger.members.contains j.source || !s.ledger.members.contains j.target || s.turn.withdrawn
  | 2 => j.target == selfNode s && decide (getObj s (Obj.coll_T2_QUOTA_GIB (keyColl j.key)) * 2 ^ 30 < collT2 s (keyColl j.key))
  | 3 => j.source == selfNode s && decide (getObj s Obj.MOVE_LOG_MIB * 2 ^ 20 < j.logged)
  | 4 => !collRuns s (keyColl j.key)
  | 5 => s.sec.switchDue != 0 || s.nv.tenant == 2
  | _ => false

/-- The copy `j` ends here: the node forgets it, and a target frees its copy. -/
def dropJob (s : State) (j : CopyJob) : State :=
  let s := { s with place := { s.place with jobs := s.place.jobs.filter fun x => !(x.key == j.key && decide (x.w = 0)) } }
  if j.target = selfNode s then freeCopy s j.key else s

/-- Abort a copy for a cause: the target's copy is freed, and the ledger removes the incoming holder (R337). -/
def abortJob (cause : Nat) (s : State) (j : CopyJob) : State :=
  let s := dropJob s j
  let hs := (holdersNext s j.key).filter fun h => !(h.node == j.target && decide (h.role = .incoming))
  bump (postEvent (ledgerRequest s (.list j.key hs)) 0x7041 (j.key + 2 ^ 36 * cause)) Obj.MOVES_ABORTED 1

/-- COPY_ABORT (R337). -/
def doCopyAbort (s : State) (key cause : Nat) : State :=
  match getJob s key with
  | none => s
  | some j => if abortCause s j cause then abortJob cause s j else s

/-- A tenant switch aborts every copy (R337, R339). -/
def abortJobs (s : State) : State := (s.place.jobs.filter fun j => decide (j.w = 0)).foldl (abortJob 5) s

/-- COPY_ABORT (R337). -/
def execCopyAbort (key cause : Nat) (s : State) : Host.Outcome State Fault Refusal := .next (doCopyAbort s key cause)

/-! ### List records of the ledger (R334, Table 17.5) -/

/-- A list record of node `from_` takes effect at boundary `n`. The incoming holder's LAST_PIN keeps the source. Where an incoming
target is no longer named, its copy is over (R337). -/
def applyList (s : State) (from_ key : Nat) (new : List Holder) (n : Nat) : State :=
  let old := holdersOf s key
  let serving := fun (r : Role) => decide (r = .primary) || decide (r = .replica)
  let src := if old.any fun h => h.node == from_ && serving h.role then from_ else ((old.find? fun h => serving h.role).map (·.node)).getD from_
  let fix := fun (h : Holder) =>
    let was := (old.find? fun x => x.node == h.node).map (·.role)
    if h.role = .departing ∧ h.lastPin = 0 then { h with lastPin := n - 1 }
    else if h.role = .incoming ∧ was ≠ some .incoming then { h with lastPin := src }
    else if serving h.role && !((was.map serving).getD false) then { h with firstPin := n }
    else h
  let hs := new.map fix
  let fresh := hs.filter fun h => decide (h.role = .incoming) && !(old.any fun x => x.node == h.node && decide (x.role = .incoming))
  let mine := fresh.filter fun h => h.node == selfNode s || src == selfNode s
  let job := fun (h : Holder) =>
    ({ key := key, source := src, target := h.node, move := h.firstPin == 1, requested := n, start := 0, total := 0, copied := 0,
       log := [], logIn := [], kept := [], snap := [], logged := 0,
       rebuild := old.any fun x => x.node == h.node && (decide (x.role = .stale) || decide (x.role = .quarantined)),
       replayed := 0, ready := false, logThrough := 0, w := 0 } : CopyJob)
  let stale := fun (j : CopyJob) => j.key == key && decide (j.w = 0)
    && !(hs.any fun h => h.node == j.target && decide (h.role = .incoming))
  let s := (s.place.jobs.filter stale).foldl dropJob s
  { s with ledger := { s.ledger with lists := put s.ledger.lists key hs },
           place := { s.place with jobs := s.place.jobs ++ mine.map job, dropping := s.place.dropping.filter (· != key) } }

end Sys2Proof.Machine
end

