-- ==== Sys2Proof/Machine/LedgerOps.lean ====
section
/-! DEFINITION. The ledger (R382 to R387): forming, storing, committing, counting and applying epochs, what each record
does, elections, founding and joining a partition, and the ledger image that a new member receives (R458). -/

namespace Sys2Proof.Machine

/-! ### Members and founding (R387, R27) -/

/-- Nodes in ascending order without repeats. -/
def nodeSort (l : List Nat) : List Nat := sortBy (fun a b => decide (a ≤ b)) (nub l)

/-- Whether this node holds the ledger. -/
def isHolder (s : State) : Bool := isMember s && s.ledger.holders.contains (selfNode s)

/-- What a node that enters a partition starts with: no list, collection, write, query or unit of earlier service (R458). -/
def freshMember (s : State) : State :=
  { s with lists := [], colls := [], queries := [], units := [], acts := [], remotes := [],
           ing := { Ing.reset with nextWid := s.ing.nextWid, writes := s.ing.writes.filter Write.local },
           place := { s.place with jobs := [], mirrors := [], listHeat := [] },
           ledger := { Ledger.reset with joinSent := s.ledger.joinSent },
           fab := { Fabric.reset with ports := s.fab.ports, memberPorts := s.fab.memberPorts, streams := s.fab.streams,
                                      inStreams := s.fab.inStreams },
           turn := { s.turn with withdrawn := false, withdraw := none, marksMissed := 0, markTurn := 0, alignBad := 0 } }

/-- A node that becomes a member has its links entered in the link map (Table 17.4, LINK). -/
def recordLinks (s : State) : State := ((List.range 16).filter fun p => linkState s p == linkIsUp).foldl (fun s p => linkRecord s p true) s

/-- FOUND = 1: a partition of one member, sole holder and leader; on a member it reads back 0, and on a node that has escalated,
which returns only after a reset (R21). -/
def doFound (s : State) : State :=
  if isMember s || s.turn.escalated then setObj s Obj.FOUND 0
  else
    let me := selfNode s
    let s := freshMember s
    let s := { s with ledger := { s.ledger with members := [me], holders := [me], leader := me, term := 1, joinSent := false },
                      ing := { s.ing with batchThrough := [(me, s.turn.no)] },
                      ras := { s.ras with load := boundary s } }
    setObj (recordLinks s) Obj.FOUND 0

/-- FOUND (R387). -/
def execFound (s : State) : Host.Outcome State Fault Refusal := .next (doFound s)

/-- Send the MEMBER request of a JOIN over the lowest up port whose peer is a member; until there is one it is tried at each boundary.
A node knows that a peer is a member by the boundary marks that come from it (R387; DEDUCED, log entry 90). -/
def sendJoin (s : State) : State :=
  if isSet s Obj.JOIN = false ∨ isMember s = true ∨ s.ledger.joinSent = true then s
  else match ((upPorts s).filter s.fab.memberPorts.contains).head? with
    | none => s
    | some p => emit { s with ledger := { s.ledger with joinSent := true } } (.joinReq p)

/-- JOIN = 1: reads back 0 on a member, and while SELFTEST_PASS reads 0 (R387, R458); also on a node that has withdrawn, which
returns only as a repaired node, after a start-up (R29, R21, step 1 of Table 21.5). -/
def doJoin (s : State) : State :=
  if isMember s = true ∨ isSet s Obj.SELFTEST_PASS = false ∨ s.turn.withdrawn = true then setObj s Obj.JOIN 0
  else sendJoin (setObj { s with ledger := { s.ledger with joinSent := false } } Obj.JOIN 1)

/-- JOIN (R387). -/
def execJoin (s : State) : Host.Outcome State Fault Refusal := .next (doJoin s)

/-- MEMBER_REQUEST: a member forwards a neighbour's request to the leader in its next caravan (R387, R432). -/
def execMemberRequest (node : Nat) (tag : List Byte) (state : Nat) (s : State) : Host.Outcome State Fault Refusal :=
  .next (if isMember s then ledgerRequest s (.member node true tag state) else s)

/-! ### Forming an epoch (R382, R31, R182, R183, R331, R432) -/

/-- A LEDGER_REQ section is counted at the leader. -/
def countLedgerReq (s : State) (r : LedgerReq) : State :=
  if isLeader s then { s with ledger := { s.ledger with reqs := s.ledger.reqs ++ [r] } } else s

/-- What records conflict over: a period, one descriptor field, one list. -/
inductive RecKey where
  | period
  | field (a : Nat)
  | list (k : Nat)
  deriving DecidableEq, Repr

/-- The key of a record that may conflict. CACHE_LEND_GIB is each node's own. -/
def recKey : LedgerRec → Option RecKey
  | .period _ _ => some .period
  | .descriptor a _ => if a = Obj.CACHE_LEND_GIB then none else some (.field a)
  | .list k _ => some (.list k)
  | .reshape k _ _ _ => some (.list k)
  | _ => none

/-- Whether another request of the epoch for the same key comes from a lower-numbered node, or earlier from the same one. -/
def beaten (rs : List (LedgerReq × Nat)) (r : LedgerReq × Nat) : Bool :=
  (recKey r.1.body).isSome && rs.any fun x => recKey x.1.body == recKey r.1.body
    && (decide (x.1.node < r.1.node) || (x.1.node == r.1.node && decide (r.2 < x.2)))

/-- Requests of one epoch with conflicts resolved: the lowest-numbered node's record stays, and of one node's the last. -/
def resolve (rs : List LedgerReq) : List LedgerReq := (rs.zipIdx.filter fun r => !beaten rs.zipIdx r).map (·.1)

/-- The collections that run after a record of RUN, `cs` before it (R183). -/
def runAfter (cs : List Nat) (r : LedgerReq) : List Nat :=
  match r.body with
  | .descriptor a v =>
    if decide (0x4100 ≤ a / 256 ∧ a / 256 ≤ 0x41FF) && a % 16 == 2 then
      (if v = 1 then nub (cs ++ [ownerOf 0x4100 a]) else if v = 0 then cs.filter (· != ownerOf 0x4100 a) else cs)
    else cs
  | _ => cs

/-- The leader refuses runs beyond 1,024: value 2 of RUN marks the refusal. `cs` are the collections that will run by then. -/
def refuseRuns : List Nat → List LedgerReq → List LedgerReq
  | _, [] => []
  | cs, r :: rs =>
    if 1024 < (runAfter cs r).length ∧ cs.length < (runAfter cs r).length then
      (match r.body with | .descriptor a _ => { r with body := .descriptor a 2 } | _ => r) :: refuseRuns cs rs
    else r :: refuseRuns (runAfter cs r) rs

/-- The collections that run once every committed epoch has taken effect (R183). -/
def willRun (s : State) : List Nat :=
  (s.ledger.epochs.flatMap (·.recs)).foldl runAfter ((s.colls.filter fun p => p.2.life == 2).map (·.1))

/-- The leader keeps each collection to RESHAPE_MAX reshapes an adaptation epoch, counting those of committed epochs; `used` are the
reshapes recorded so far, by collection. A record that names its own list as the other refuses it (R314). -/
def limitReshapes (s : State) : List (Nat × Nat) → List LedgerReq → List LedgerReq
  | _, [] => []
  | used, r :: rs =>
    match r.body with
    | .reshape k o sp rows =>
      let c := keyColl k
      if o = k then r :: limitReshapes s used rs
      else if reshapesOf s c (boundary s) + lookD used c 0 < getObj s (Obj.coll_RESHAPE_MAX c) then
        { r with body := .reshape k o sp rows } :: limitReshapes s (addUse used c 1) rs
      else { r with body := .reshape k k sp [] } :: limitReshapes s used rs
    | _ => r :: limitReshapes s used rs

/-- Reshapes that committed epochs start, by collection. -/
def comingReshapes (s : State) : List (Nat × Nat) :=
  (s.ledger.epochs.flatMap (·.recs)).foldl (fun u r =>
    match r.body with
    | .reshape k o _ _ => if o = k then u else addUse u (keyColl k) 1
    | _ => u) []

/-- Whether the leader records a request: a join needs its own TENANT_TAG and tenant state, and a new node. -/
def recordable (s : State) (r : LedgerReq) : Bool :=
  match r.body with
  | .member n true tag st => tag == s.nv.tag && st == s.nv.tenant && !s.ledger.members.contains n
  | .member n false _ _ => s.ledger.members.contains n
  | _ => true

/-- Complete a record as the leader writes it: a period gets its switch turn, 64 turns on. -/
def complete (s : State) (r : LedgerReq) : LedgerReq :=
  match r.body with
  | .period us _ => { r with body := .period us (s.turn.no + 64) }
  | _ => r

/-- Members after the MEMBER records of an epoch. -/
def membersAfter (ms : List Nat) (rs : List LedgerReq) : List Nat :=
  nodeSort (rs.foldl (fun ms r => match r.body with
    | .member n true _ _ => ms ++ [n]
    | .member n false _ _ => ms.filter (· != n)
    | _ => ms) ms)

/-- The holders of a partition: the leader and the present ones that are not absent (R453), filled up with the lowest-numbered members. -/
def holdersFor (s : State) (ms : List Nat) : List Nat :=
  let gone := fun h => decide (getObj s Obj.LEADER_TIMEOUT ≤ lookD s.ledger.absent h 0)
  let keep := s.ledger.leader :: s.ledger.holders.filter fun h => ms.contains h && h != s.ledger.leader && !gone h
  let more := ms.filter fun m => !keep.contains m && !gone m
  nodeSort ((keep ++ more).take (getObj s Obj.HOLDERS_TARGET))

/-- The lender whose share of the lent space covers a position. -/
def lenderAt : List (Nat × Nat) → Nat → Nat
  | [], _ => 255
  | (n, g) :: l, pos => if pos < g then n else lenderAt l (pos - g)

/-- The slot to lender map: 256 slots in proportion to what the members lend (R389). -/
def slotMap (lend : List (Nat × Nat)) : List Nat :=
  let l := sortBy (fun (a b : Nat × Nat) => decide (a.1 ≤ b.1)) (lend.filter (·.2 != 0))
  let total := l.foldl (fun n p => n + p.2) 0
  if total = 0 then [] else (List.range 256).map fun i => lenderAt l (i * total / 256)

/-- What the members lend after the records of an epoch. -/
def lendAfter (s : State) (ms : List Nat) (rs : List LedgerReq) : List (Nat × Nat) :=
  (rs.foldl (fun l r => match r.body with
    | .descriptor a v => if a = Obj.CACHE_LEND_GIB then put l r.node v else l
    | _ => l) s.ledger.lend).filter fun p => ms.contains p.1

/-- The records that the leader adds: a changed holder set, a changed cache map. -/
def leaderRecs (s : State) (rs : List LedgerReq) : List LedgerReq :=
  let me := selfNode s
  let ms := membersAfter s.ledger.members rs
  let hs := holdersFor s ms
  let cm := slotMap (lendAfter s ms rs)
  (if hs = nodeSort s.ledger.holders then [] else [{ node := me, body := .holders hs me s.ledger.term }])
    ++ (if cm = s.ledger.cacheMap then [] else [{ node := me, body := .cache cm }])

/-- The period in force, the pending one and its switch turn (R25, R30). -/
def gridOf (s : State) : List Nat := [getObj s Obj.TURN_PERIOD_US, getObj s Obj.PERIOD_PENDING, getObj s Obj.PERIOD_SWITCH_TURN]

/-- A node that joins keeps the partition's period, and the change that is pending there (R25, log entry 78). -/
def adoptGrid (s : State) (g : List Nat) : State :=
  match g with
  | [us, next, sw] => setObj (setObj (setObj s Obj.TURN_PERIOD_US us) Obj.PERIOD_PENDING next) Obj.PERIOD_SWITCH_TURN sw
  | _ => s

/-- The number of the next epoch. -/
def nextEpoch (s : State) : Nat := s.ledger.epochs.foldl (fun m e => max m e.num) s.ledger.applied + 1

/-- Nodes whose join the leader refuses for their TENANT_TAG or their state (R432). -/
def refusedJoins (s : State) (rs : List LedgerReq) : List Nat :=
  rs.filterMap fun r => match r.body with
    | .member n true tag st => if s.ledger.members.contains n || (tag == s.nv.tag && st == s.nv.tenant) then none else some n
    | _ => none

/-- LEDGER_EPOCH_FORM in turn x at the leader: an epoch with EFFECT_TURN x + 2 out of the requests received; `withdrawn` are
members that the leader has seen withdraw. A node whose join is refused is sent an epoch without records (log entry 53). -/
def doEpochForm (s : State) (withdrawn : List Nat) : State :=
  if isLeader s = false ∨ s.ledger.forming.isSome = true ∨ s.turn.phase ≠ .p6 then s
  else
    let me := selfNode s
    let gone := (withdrawn.filter fun n => s.ledger.members.contains n && n != me).map fun n =>
      ({ node := me, body := .member n false [] 0 } : LedgerReq)
    let all := gone ++ (s.ledger.reqs.filter fun r => !gone.any fun g => g.node == me && g.body == r.body)
    let now := all.take (getObj s Obj.EPOCH_MAX)
    let rs := refuseRuns (willRun s) ((resolve (now.filter (recordable s))).map (complete s))
    let rs := limitReshapes s (comingReshapes s) rs
    let rs := rs ++ leaderRecs s rs
    let e : Epoch := { num := nextEpoch s, effect := (s.turn.no + 2) % turnMod, leader := me, recs := rs, grid := gridOf s }
    let s := sendAll s (refusedJoins s now) (.epoch { e with recs := [] })
    let s := { s with ledger := { s.ledger with reqs := all.drop (getObj s Obj.EPOCH_MAX) } }
    if rs = [] then s
    else
      (s.ledger.holders.filter (· != me)).foldl (fun s h => emit s (.epochOut h e))
        { s with ledger := { s.ledger with forming := some e, noStore := 0 } }

/-- LEDGER_EPOCH_FORM (R382). -/
def execLedgerEpochForm (withdrawn : List Nat) (s : State) : Host.Outcome State Fault Refusal := .next (doEpochForm s withdrawn)

/-- EPOCH_STORE: a holder stores the leader's epoch and acknowledges it (R382). -/
def execEpochStore (leader : Nat) (epoch : Epoch) (s : State) : Host.Outcome State Fault Refusal :=
  .next (
    if isHolder s && s.ledger.leader == leader && leader != selfNode s then
      emit { s with ledger := { s.ledger with stored := (s.ledger.stored.filter (·.num != epoch.num)) ++ [epoch], noStore := 0 } }
        (.epochAck leader epoch.num)
    else s)

/-- Nodes that an epoch admits. -/
def epochJoins (e : Epoch) : List Nat :=
  e.recs.filterMap fun r => match r.body with | .member n true _ _ => some n | _ => none

/-- Records that go into the next attempt: the leader adds the cache map anew. -/
def retried (r : LedgerReq) : Bool :=
  match r.body with
  | .cache _ => false
  | _ => true

/-- EPOCH_COMMIT before P0: with a majority of the holders, counting the leader, the epoch is published in the next
caravans; else its records wait for the next attempt (R382). -/
def doEpochCommit (s : State) (acks : List Nat) : State :=
  match s.ledger.forming with
  | none => s
  | some e =>
    if isLeader s = false ∨ s.turn.phase ≠ .p6 then s
    else
      let me := selfNode s
      let n := 1 + (nub (acks.filter fun a => s.ledger.holders.contains a && a != me)).length
      let away := (s.ledger.holders.filter (· != me)).map fun h => (h, if acks.contains h then 0 else lookD s.ledger.absent h 0 + 1)
      let s := { s with ledger := { s.ledger with forming := none, absent := away } }
      if s.ledger.holders.length < 2 * n then sendAll s (nodeSort (s.ledger.members ++ epochJoins e)) (.epoch e)
      else bump { s with ledger := { s.ledger with reqs := e.recs.filter retried ++ s.ledger.reqs } } Obj.EPOCH_RETRIES 1

/-- EPOCH_COMMIT (R382). -/
def execEpochCommit (acks : List Nat) (s : State) : Host.Outcome State Fault Refusal := .next (doEpochCommit s acks)

/-- An EPOCH section is counted: kept until B(EFFECT_TURN); one that is counted after it leaves the member out of step, and
one LEADER_TIMEOUT epochs behind withdraws (R385). A node whose JOIN has left takes an epoch that admits it; one that does
not refuses it, and it posts event 0x5006 and stays outside (R432). -/
def countEpoch (s : State) (e : Epoch) : State :=
  let waits := s.ledger.joinSent && !isMember s && !(s.ledger.epochs.any fun x => (epochJoins x).contains (selfNode s))
  let joins := waits && (epochJoins e).contains (selfNode s)
  if waits && !joins then
    postEvent (setObj { s with ledger := { s.ledger with joinSent := false } } Obj.JOIN 0) 0x5006 (e.leader % 256)
  else if !(isMember s || joins) || decide (e.num ≤ s.ledger.applied) || s.ledger.epochs.any (·.num == e.num) then s
  else
    let kept := s.ledger.stored.any (·.num == e.num) || !isHolder s || isLeader s
    let s := { s with ledger := { s.ledger with epochs := s.ledger.epochs ++ [e], noStore := if kept then 0 else s.ledger.noStore + 1 } }
    if joins = true ∨ s.turn.no < e.effect then s
    else
      let s := postEvent { s with ledger := { s.ledger with outOfStep := true } } 0x400A e.num
      if getObj s Obj.LEADER_TIMEOUT ≤ e.num - s.ledger.applied then withdrawSoon s else s

/-! ### What a new member receives (R458) -/

/-- Objects that the ledger publishes (R182, R290, R319, R392): their values are partition-wide. -/
def partitionWide (a : Nat) : Bool :=
  let i := a / 256
  decide (0x4100 ≤ i ∧ i ≤ 0x41FF) || decide (0x4300 ≤ i ∧ i ≤ 0x43FF) || decide (0x4500 ≤ i ∧ i ≤ 0x45FF)
    || decide (0x5100 ≤ i ∧ i ≤ 0x51FF) || decide (0x7400 ≤ i ∧ i ≤ 0x74FF)
    || a == Obj.HOLDERS_TARGET || a == Obj.LEADER_TIMEOUT || a == Obj.EPOCH_MAX

/-- The ledger as records: members, holders, the period in force (switch turn 0) and the pending one, the list table, directory
shards, segments, links, the cache map, partition-wide objects, the state of every collection, the splits and merges that have taken
effect (without rows) and those that are open, with the nodes that have reported. -/
def ledgerImage (s : State) : List LedgerRec :=
  let lists := s.colls.flatMap fun p => ((p.2.cents.headD default).cents.map fun x => listKey p.1 x.num).map fun k => .list k (holdersOf s k)
  let shards := s.colls.flatMap fun p => if p.2.life = 0 then [] else
    (List.range 256).map fun sh => .shard p.1 sh (shardHolders s p.1 sh).1 (shardHolders s p.1 sh).2
  s.ledger.members.map (fun m => .member m true [] 0) ++ [.holders s.ledger.holders s.ledger.leader s.ledger.term]
    ++ [.period (getObj s Obj.TURN_PERIOD_US) 0, .period (getObj s Obj.PERIOD_PENDING) (getObj s Obj.PERIOD_SWITCH_TURN)]
    ++ ((s.dict.objs.filter fun o => partitionWide o.1 && o.2 != objDefault o.1).map fun o => .descriptor o.1 o.2)
    ++ (s.colls.map fun p => .descriptor (Obj.coll_STATE p.1) p.2.life) ++ lists ++ shards
    ++ (s.ledger.segs.map fun g => .segment g.1.1 g.1.2 g.2.1 g.2.2 [])
    ++ (s.ledger.links.map fun l => .link l.1 l.2.1 l.2.2.1 l.2.2.2 true) ++ [.cache s.ledger.cacheMap]
    ++ (s.ing.derived.map fun p => .reshape p.1 p.2 (lookD s.ing.merged p.1 p.1 != p.2) [])
    ++ s.ing.reshapes.flatMap fun r =>
      .reshape r.key r.other r.split (if r.split then r.rows else [[]]) :: r.reports.map fun n => .report .reshape r.key n

/-- A centroid set and graph as a COPY section carries them (R198, R449). -/
def centroidCopy (c : Nat) (cs : CentSet) : CopyBody :=
  .centroids c cs.version (cs.cents.map fun x => (x.num, x.codes, x.scale, x.bits, if x.dead then max 1 x.died else 0)) cs.entries cs.edges

/-- The partner of R458: the lowest-numbered holder other than the leader, or the leader when it is the only one. -/
def partnerOf (s : State) : Nat := ((nodeSort s.ledger.holders).find? (· != s.ledger.leader)).getD s.ledger.leader

/-- The partner sends the ledger, and each collection's image, centroid set and graph, to a new member. -/
def copyLedger (s : State) (node : Nat) : State :=
  let s := send s node (.copy (.ledger (ledgerImage s)))
  s.colls.foldl (fun s p =>
    match p.2.cents with
    | [] => s
    | cs :: _ => send (send s node (.copy (.image p.1 p.2.imageBytes))) node (.copy (centroidCopy p.1 cs))) s

/-- A node added to the members; its commit batches are awaited from turn `n` on. -/
def addMember (s : State) (m n : Nat) : State :=
  if s.ledger.members.contains m then s
  else { s with ledger := { s.ledger with members := nodeSort (s.ledger.members ++ [m]) },
                ing := { s.ing with batchThrough := put s.ing.batchThrough m (n - 1) } }

/-- One record of the ledger image at a new member. -/
def loadRec (s : State) (r : LedgerRec) : State :=
  match r with
  | .member m true _ _ => addMember s m s.ras.load
  | .holders hs l t => { s with ledger := { s.ledger with holders := hs, leader := l, term := t } }
  | .descriptor a v =>
    if 0x4100 ≤ a / 256 ∧ a / 256 ≤ 0x41FF ∧ a % 16 = 1 then
      let c := ownerOf 0x4100 a
      setColl s c { getColl s c with life := v }
    else setObj s a v
  | .list k hs => { s with ledger := { s.ledger with lists := put s.ledger.lists k hs } }
  | .shard c sh p q => { s with ledger := { s.ledger with shards := put s.ledger.shards (c, sh) (p, q) } }
  | .segment sl sg p q _ => { s with ledger := { s.ledger with segs := put s.ledger.segs (sl, sg) (p, q) } }
  | .link n p m q _ => { s with ledger := { s.ledger with links := nub (s.ledger.links ++ [(n, p, m, q)]) } }
  | .cache l => { s with ledger := { s.ledger with cacheMap := l } }
  | .period us t =>
    if t = 0 then (if us = 0 then s else setObj s Obj.TURN_PERIOD_US us)
    else setObj (setObj s Obj.PERIOD_PENDING us) Obj.PERIOD_SWITCH_TURN t
  | .reshape k o split [] =>
    { s with ing := { s.ing with derived := s.ing.derived ++ [(k, o)], merged := if split then s.ing.merged else put s.ing.merged k o } }
  | .reshape k o split (a :: rows) =>
    let r : Reshape := { key := k, other := o, split := split, rows := if split then a :: rows else [], start := s.turn.no, built := none,
                         reports := [] }
    { s with ing := { s.ing with reshapes := s.ing.reshapes ++ [r] } }
  | .report .reshape k n =>
    let one := fun (r : Reshape) => if r.key = k then { r with reports := nub (r.reports ++ [n]) } else r
    { s with ing := { s.ing with reshapes := s.ing.reshapes.map one } }
  | _ => s

/-- The route table of the link map and the members in force (R372). -/
def reroute (s : State) : State := { s with fab := { s.fab with route := routeTable s } }

/-- A COPY section with the ledger is counted at a member that is loading; any other member holds what it says already. -/
def countLedgerCopy (s : State) (rs : List LedgerRec) : State :=
  if getObj s Obj.MEMBER_LOAD ≠ 1 then s else reroute (rs.foldl loadRec s)

/-- A COPY section with a collection's image is counted: kept until the ledger records the load (R211), or installed at a
member that is loading (R458). -/
def countImageCopy (s : State) (src c : Nat) (b : List Byte) : State :=
  let v := getColl s c
  if getObj s Obj.MEMBER_LOAD = 1 ∨ (v.life ≠ 0 ∧ v.cents = []) then
    match parseColl s c b with
    | .error _ => s
    | .ok img =>
      setColl s c { v with cents := [centSetOf s c img s.turn.no], books := img.books, imageDigest := img.digest, imageBytes := b }
  else setColl s c { v with loads := put v.loads src b }

/-- A COPY section with a centroid set and graph is counted (R458, R449): it replaces the newest set. -/
def countCentroids (s : State) (c version : Nat) (rows : List (Nat × List Flt × Flt × List Bool × Nat)) (entries : List Nat)
    (edges : List (Nat × List Nat)) : State :=
  let v := getColl s c
  let cents := rows.map fun x => ({ num := x.1, codes := x.2.1, scale := x.2.2.1, bits := x.2.2.2.1, dead := x.2.2.2.2 != 0,
                                    died := x.2.2.2.2 } : Centroid)
  match v.cents with
  | [] => s
  | cs :: old => setColl s c { v with cents := { cs with version := version, cents := cents, entries := entries, edges := edges } :: old }

/-! ### What the records do (R383, Table 17.4) -/

/-- Shift a boundary number by a change of TURN_NO; 0 stands for none. -/
def rebase (old new x : Nat) : Nat := if x = 0 then 0 else x - old + new

/-- TURN_NO is adopted at the boundary of an admission (R27): P5 then starts turn `effect`. What waits for a boundary of the
old grid keeps its distance. -/
def adoptTurn (s : State) (effect : Nat) : State :=
  let new := (effect + turnMod - 1) % turnMod
  let mv := rebase s.turn.no new
  let commits := s.dict.commits.map fun j => { j with due := mv j.due }
  let reqs := s.dict.reqs.map fun r =>
    { r with beginTurn := mv r.beginTurn, applyTurn := mv r.applyTurn, seg := r.seg.map fun g => { g with deadline := mv g.deadline } }
  let queues := s.host.queues.map fun q => (q.1, { q.2 with enableDue := mv q.2.enableDue, disableDue := mv q.2.disableDue })
  let banks := s.scratch.banks.map fun b => (b.1, { b.2 with due := mv b.2.due })
  let sh := fun x => max 1 (x + new - s.turn.no)
  let row := fun (r : Row) => { r with flipDue := mv r.flipDue }
  let group := fun (g : RowGroup) => { g with lastRepl := if g.lastRepl = 0 then 0 else sh g.lastRepl }
  let ver := fun (v : TableVer) =>
    { v with data := v.data.map fun r => (r.1, row r.2), groups := v.groups.map fun g => (g.1, group g.2) }
  let tables := s.comp.tables.map fun t => (t.1, { t.2 with switchDue := mv t.2.switchDue, active := t.2.active.map ver })
  let staged := s.comp.staged.map fun x => { x with turn := sh x.turn }
  let ahead := s.comp.ahead.map fun x => (x.1, x.2.1, sh x.2.2)
  let writes := s.ing.writes.map fun w => { w with taken := sh w.taken, minTurn := sh w.minTurn }
  let trips := s.turn.trips.map fun x => { x with turn := sh x.turn }
  let missed := s.turn.seqMissed.map fun x => (x.1, sh x.2)
  let fetched := s.host.fetched.map fun f => { f with turn := sh f.turn }
  let images := s.images.map fun i => (i.1, { i.2 with readyDue := mv i.2.readyDue,
                                                       layers := i.2.layers.map fun l => { l with reloadDue := mv l.reloadDue } })
  let bslots := s.bslots.map fun b => (b.1, { b.2 with clearDue := mv b.2.clearDue })
  { s with turn := { s.turn with no := new, withdraw := none, trips := trips, seqMissed := missed },
           dict := { s.dict with commits := commits, reqs := reqs },
           host := { s.host with queues := queues, fetched := fetched }, ing := { s.ing with writes := writes },
           scratch := { s.scratch with banks := banks },
           comp := { s.comp with tables := tables, staged := staged, ahead := ahead }, images := images, bslots := bslots,
           clk := { s.clk with readyDue := mv s.clk.readyDue },
           sec := { s.sec with bindDue := mv s.sec.bindDue, switchDue := mv s.sec.switchDue, diagDue := mv s.sec.diagDue } }

/-- This node is admitted by epoch `e` (R387, R458): event 0x4007 for itself, MEMBER_LOAD 1. -/
def admitSelf (s : State) (e : Epoch) : State :=
  let s := adoptGrid (adoptTurn (freshMember s) e.effect) e.grid
  let me := selfNode s
  let ing := { s.ing with batchThrough := [(me, e.effect - 1), (e.leader, e.effect - 1)] }
  let s := { s with ledger := { s.ledger with members := nodeSort [me, e.leader], holders := [e.leader], leader := e.leader,
                                              joinSent := false }, ing := ing, ras := { s.ras with load := e.effect } }
  postEvent (setObj (setObj (recordLinks s) Obj.MEMBER_LOAD 1) Obj.JOIN 0) 0x4007 me

/-- A MEMBER record that admits node `j` at boundary `n`. -/
def admitNode (s : State) (e : Epoch) (j n : Nat) : State :=
  if j = selfNode s then (if isMember s then s else admitSelf s e)
  else
    let s := reroute (postEvent (addMember s j n) 0x4007 j)
    if partnerOf s = selfNode s then copyLedger s j else s

/-- The serving holders of a list without a withdrawn node: the first replica takes a lost primary's place. -/
def holdersWithout (d : Nat) (hs : List Holder) : List Holder :=
  let lost := hs.any fun h => h.node == d && decide (h.role = .primary)
  let hs := hs.filter fun h => h.node != d
  if lost then updFirst (fun (h : Holder) => decide (h.role = .replica)) (fun h => { h with role := .primary }) hs else hs

/-- Take a withdrawn node out of every list record. -/
def listsWithout (s : State) (d : Nat) : State :=
  let keys := s.colls.flatMap fun p => (p.2.cents.headD default).cents.map fun x => listKey p.1 x.num
  let keys := nub (keys ++ s.ledger.lists.map (·.1))
  let lists := keys.foldl (fun l k =>
    let hs := holdersOf s k
    if hs.any (fun h => h.node == d) then put l k (holdersWithout d hs) else l) s.ledger.lists
  { s with ledger := { s.ledger with lists := lists } }

/-- This node becomes the primary of a directory shard: the stamps of the last turns that it ordered go out again. -/
def promoteShard (s : State) (c sh : Nat) : State :=
  match s.ing.shards.find? fun d => d.coll == c && d.shard == sh with
  | none => s
  | some d =>
    d.sent.reverse.foldl (fun s p => sendStamps s p.1 sh c p.2) (onShard s c sh fun d => { d with primary := true })

/-- The record of a directory shard at boundary `n`: a replica that becomes primary takes over the stamp batches, and a
new replica receives the shard from the primary (R307, Table 21.2). -/
def setShard (s : State) (c sh p q n : Nat) : State :=
  let old := shardHolders s c sh
  let me := selfNode s
  let s := { s with ledger := { s.ledger with shards := put s.ledger.shards (c, sh) (p, q) } }
  let s := if p = me ∧ old.1 ≠ me then promoteShard s c sh else s
  let s :=
    if p = me ∧ q ≠ 255 ∧ q ≠ me then
      match s.ing.shards.find? fun d => d.coll == c && d.shard == sh with
      | none => s
      | some d => send s q (.copy (.dirRecords c sh d.done d.recs))
    else s
  if p ≠ old.1 ∧ p ≠ old.2 then startRebuild s c sh p q n
  else if q = me then
    let new : DirShard := { coll := c, shard := sh, primary := false, recs := [], done := n - 1, missing := [p], sent := [] }
    { s with ing := { s.ing with shards := (s.ing.shards.filter fun d => !(d.coll == c && d.shard == sh)) ++ [new] } }
  else s

/-- Take a withdrawn node out of the directory shards; a shard whose copies are both lost is named anew and rebuilt (R491). -/
def shardsWithout (s : State) (d n : Nat) : State :=
  (s.colls.filter fun p => p.2.life != 0).foldl (fun s p =>
    (List.range 256).foldl (fun s sh =>
      let h := shardHolders s p.1 sh
      if h.1 = d then
        (if h.2 ≠ 255 ∧ h.2 ≠ d then setShard s p.1 sh h.2 255 n
         else
          let ms := s.ledger.members.filter (· != d)
          let a := ms.getD 0 255
          let b := ms.getD 1 255
          let s := { s with ledger := { s.ledger with shards := put s.ledger.shards (p.1, sh) (a, b) } }
          startRebuild s p.1 sh a b n)
      else if h.2 = d then setShard s p.1 sh h.1 255 n
      else s) s) s

/-- Switch remote segments from a withdrawn primary to their replicas, and give each that has lost a holder another one while three or
more members remain (R149). -/
def segsWithout (s : State) (d : Nat) : State :=
  let lost := s.ledger.segs.filter fun g => g.2.1 == d
  let move := fun (g : (Nat × Nat) × (Nat × Nat)) =>
    if g.2.1 == d then (g.1, (g.2.2, 255)) else if g.2.2 == d then (g.1, (g.2.1, 255)) else g
  let s := { s with ledger := { s.ledger with segs := s.ledger.segs.map move } }
  let fix := fun (g : SegMap) =>
    if g.primary = d then { g with primary := g.replica, replica := 255 } else if g.replica = d then { g with replica := 255 } else g
  let seg := fun (i : Nat × Image) => (i.1, replicate s { i.2 with segs := i.2.segs.map fix })
  let s := { s with images := s.images.map seg,
                    remotes := s.remotes.filter fun r => r.home != d }
  (nub (lost.map fun g => g.1.1 % 16)).foldl (fun s sl => postEvent s 0x7010 sl) s

/-- Rebuilds that have not ended begin anew after a withdrawal: the new primary awaits every member, and each sends again what is its
to send now (R491). -/
def reopenRebuilds (s : State) : State :=
  let again := fun (d : DirShard) => if d.missing ≠ [] ∧ d.primary = true then { d with missing := s.ledger.members } else d
  { s with ing := { s.ing with shards := s.ing.shards.map again,
                               owed := (s.ing.rebuilds.filter fun r => r.2.2 == 0).map (·.1) } }

/-- Reports that awaited a withdrawn member alone are complete: a drift set or a reshape takes effect at boundary `n` (R313, R315). -/
def recount (s : State) (n : Nat) : State :=
  let whole := fun (r : ReportKind × Nat × Nat × List Nat) => decide (r.1 = .drift) && s.ledger.members.all fun m => r.2.2.2.contains m
  let drift := s.ledger.reports.filter whole
  let s := drift.foldl (fun s r => applyDrift s r.2.1 r.2.2.1 n)
    { s with ledger := { s.ledger with reports := s.ledger.reports.filter fun r => !whole r } }
  let done := s.ing.reshapes.filter fun r => r.reports != [] && (servers s r.key).all fun p => r.reports.contains p.1
  done.foldl (fun s r => applyReshape s r n) s

/-- A MEMBER record that withdraws node `d` at boundary `n` (R387, R307, R54, R149, R389, R303). -/
def dismiss (s : State) (d n : Nat) : State :=
  if d = selfNode s then withdrawNow s
  else if !s.ledger.members.contains d then s
  else
    let s := barrierLost (postEvent s 0x4006 d) d
    let drop := fun (u : SUnit) => if u.probe.home = d then { u with dropDue := n } else u
    let lose := fun (e : Entry) => if e.origin = d ∧ e.writeTurn = never then { e with aborted := true } else e
    let s := { s with units := s.units.map drop, acts := s.acts.filter fun a => a.home != d,
                      lists := s.lists.map fun l => { l with entries := l.entries.map lose } }
    let s := shardsWithout (listsWithout s d) d n
    let s := segsWithout { s with ledger := { s.ledger with members := s.ledger.members.filter (· != d) } } d
    let s := recount (reopenRebuilds s) n
    let fab := { s.fab with
      grants := s.fab.grants.filter fun g => g.granter != d && g.grantee != d
      given := del s.fab.given d
      out := s.fab.out.filter (·.1 != d)
      nextOut := s.fab.nextOut.filter (·.1 != d)
      streams := s.fab.streams.filter (·.peer != d)
      unconsumed := del s.fab.unconsumed d
      inbox := s.fab.inbox.filter (·.1 != d)
      consumed := del s.fab.consumed d }
    reroute { s with ledger := { s.ledger with members := s.ledger.members.filter (· != d), lend := del s.ledger.lend d }, fab := fab }

/-- Whether the image of slot `n` may re-score collection `c`: in a Hamming collection it holds no LUT_DIST and no DOT (R276). -/
def rescorerFits (s : State) (c n : Nat) : Bool :=
  !(isHamming s c && ((getImg s n).map fun i => i.layers.any fun l => l.op == 9 || l.op == 10).getD false)

/-- DESCRIPTOR and the other partition-wide objects take effect at boundary `n` (R182, R183, R391). -/
def applyDescr (s : State) (from_ a v n : Nat) : State :=
  let i := a / 256
  let f := a % 16
  if a = Obj.CACHE_LEND_GIB then { s with ledger := { s.ledger with lend := put s.ledger.lend from_ v } }
  else if 0x4100 ≤ i ∧ i ≤ 0x41FF then
    let c := ownerOf 0x4100 a
    if f = 1 then applyCollLoad s c from_ n
    else if f = 2 then applyLife s c (if v = 0 then 0 else 1) (v != 2) n
    else if f = 13 ∧ v = 2 ∧ collState s c ≠ 0 ∧ ((getColl s c).cents.headD default).edges = [] then setObj s a 1
    else
      let s := setObj s a (clampNow s a v)
      if f = 11 then setObj s (Obj.coll_NPROBE_DEFAULT c) (min (getObj s (Obj.coll_NPROBE_DEFAULT c)) (getObj s a))
      else if f = 4 ∧ isHamming s c = true then
        let s := setObj s (Obj.coll_ADAPT_EN c) 0
        if rescorerFits s c (getObj s (Obj.coll_RESCORER_IMAGE c)) then s else setObj s (Obj.coll_RESCORER_IMAGE c) 255
      else s
  else if 0x4200 ≤ i ∧ i ≤ 0x42FF then applyLife s (ownerOf 0x4200 a) 2 true n
  else if 0x7400 ≤ i ∧ i ≤ 0x74FF ∧ f = 1 then
    let c := ownerOf 0x7400 a
    let plain := getObj s (Obj.coll_INPUT_MODE c) == 0 && getObj s (Obj.coll_ENCODER_IMAGE c) == 255
      && getObj s (Obj.coll_RESCORER_IMAGE c) == 255
    setObj s a (if plain then v else 0)
  else if 0x4500 ≤ i ∧ i ≤ 0x45FF ∧ f = 3 ∧ isHamming s (ownerOf 0x4500 a) = true then setObj s a 0
  else setObj s a (clampNow s a v)

/-- A SEGMENT record of home node `home`: once every segment of its image is recorded the slot is ready (R146).
Node 255 stands for none: the slot has been freed (R152). -/
def applySegment (s : State) (home slot seg p q : Nat) (settings : List Nat) : State :=
  if p = 255 then
    { s with ledger := { s.ledger with segs := del s.ledger.segs (home * 16 + slot, seg) },
             remotes := s.remotes.filter fun r => !(r.home == home && r.slot == slot && r.seg == seg) }
  else
  let s := { s with ledger := { s.ledger with segs := put s.ledger.segs (home * 16 + slot, seg) (p, q) } }
  let take := fun (r : RemoteSeg) =>
    if r.home = home ∧ r.slot = slot ∧ r.seg = seg ∧ settings ≠ [] then
      { r with settings := settings, image := { r.image with layers := modeLayers (settings.getD 1 0) r.image.layers } }
    else r
  let s := { s with remotes := s.remotes.map take }
  if home ≠ selfNode s then s
  else match getImg s slot with
    | none => s
    | some img =>
      let segs := img.segs.map fun g => if g.seg = seg then { g with placed := true } else g
      let s := setImg s slot { img with segs := segs }
      if slotState s slot = 4 ∧ segs.all (·.placed) = true then setObj (setObj s (Obj.slot_LOAD_STATE slot) 2) (Obj.slot_LOAD slot) 0
      else s

/-- Whether the part of a divided partition in which this node is holds a majority of the ledger holders (R372). -/
def majorityPart (s : State) (gone : List Nat) : Bool :=
  decide (s.ledger.holders.length < 2 * (s.ledger.holders.filter fun h => !gone.contains h).length)

/-- A LINK record: the map, the route table, and members that no route reaches any more (R372). -/
def applyLink (s : State) (l : Nat × Nat × Nat × Nat) (up : Bool) : State :=
  let same := fun (x : Nat × Nat × Nat × Nat) => x == l || x == (l.2.2.1, l.2.2.2, l.1, l.2.1)
  let links := if up then (if s.ledger.links.any same then s.ledger.links else s.ledger.links ++ [l]) else s.ledger.links.filter fun x => !same x
  let before := unreached s
  let s := { s with ledger := { s.ledger with links := links } }
  let s := reroute s
  let gone := unreached s
  let s := (gone.filter fun d => !before.contains d).foldl (fun s d => postEvent s 0x4004 d) s
  if gone ≠ [] ∧ up = false ∧ majorityPart s gone = false then withdrawNow s else s

/-- A salvaged copy becomes primary with FIRST_PIN `n`; its node posts 0x301C with the entries omitted (R451). -/
def finishSalvage (s : State) (node key omitted n : Nat) : State :=
  let hs := (holdersOf s key).map fun h =>
    if h.node = node then { h with role := .primary, firstPin := n, lastPin := never } else h
  let s := { s with ledger := { s.ledger with lists := put s.ledger.lists key hs } }
  if node = selfNode s then postEvent s 0x301C (key + 2 ^ 34 * omitted) else s

/-- A REPORT record takes effect at boundary `n` (R313, R315, R316, R335, R451, R458, R491). -/
def applyReport (s : State) (node : Nat) (k : ReportKind) (key arg n : Nat) : State :=
  match k with
  | .drift =>
    let same := fun (r : ReportKind × Nat × Nat × List Nat) => decide (r.1 = .drift) && r.2.1 == key && r.2.2.1 == arg
    let got := nub ((((s.ledger.reports.find? same).map fun r => r.2.2.2).getD []) ++ [node])
    let rest := s.ledger.reports.filter fun r => !same r
    if s.ledger.members.all fun m => got.contains m then applyDrift { s with ledger := { s.ledger with reports := rest } } key arg n
    else { s with ledger := { s.ledger with reports := rest ++ [(k, key, arg, got)] } }
  | .reshape => reshapeReport s node key n
  | .copyReady => finishCopy s node key arg n
  | .rebuild =>
    let k := (key / 256, key % 256)
    match look s.ing.rebuilds k with
    | none => s
    | some r => { s with ing := { s.ing with rebuilds := put s.ing.rebuilds k (r.1, n) } }
  | .memberLoaded => if node = selfNode s then setObj s Obj.MEMBER_LOAD 2 else s
  | .salvage => finishSalvage s node key arg n

/-- A HOLDERS record: event 0x4005 where the leader changes; the leader sends the ledger to a new holder (R386). -/
def applyHolders (s : State) (hs : List Nat) (l t : Nat) : State :=
  let s := if l = selfNode s then
      sendAll s (hs.filter fun h => h != l && !s.ledger.holders.contains h) (.copy (.ledger (ledgerImage s))) else s
  let s := if s.ledger.leader = l then s else postEvent s 0x4005 l
  { s with ledger := { s.ledger with holders := hs, leader := l, term := max t s.ledger.term,
                                     standing := 0, beats := if s.ledger.leader = l then s.ledger.beats else 0 } }

/-- One record of an epoch takes effect at boundary `n`. A PERIOD record replaces a period that is still pending
(DESIGN CHOICE, log entry 78). -/
def applyRec (e : Epoch) (n : Nat) (s : State) (r : LedgerReq) : State :=
  match r.body with
  | .member j true _ _ => admitNode s e j n
  | .member d false _ _ => dismiss s d n
  | .list k hs => applyList s r.node k hs n
  | .shard c sh p q => setShard s c sh p q n
  | .segment sl sg p q st => applySegment s r.node sl sg p q st
  | .descriptor a v => applyDescr s r.node a v n
  | .period us t => setObj (setObj s Obj.PERIOD_PENDING us) Obj.PERIOD_SWITCH_TURN t
  | .holders hs l t => applyHolders s hs l t
  | .link nd p m q up => applyLink s (nd, p, m, q) up
  | .report k key arg => applyReport s r.node k key arg n
  | .cache l => { s with ledger := { s.ledger with cacheMap := l } }
  | .reshape k o sp rows => openReshape s k o sp rows n

/-- Apply one epoch at boundary `n`. -/
def applyEpoch (n : Nat) (s : State) (e : Epoch) : State :=
  let s := e.recs.foldl (applyRec e n) s
  { s with ledger := { s.ledger with applied := e.num, outOfStep := false, epochs := s.ledger.epochs.filter (·.num != e.num),
                                     stored := s.ledger.stored.filter fun x => decide (e.num < x.num) } }

/-- The epoch that admits this node, where it waits for one. -/
def admission (s : State) : Option Epoch :=
  if isMember s then none else s.ledger.epochs.find? fun e => (epochJoins e).contains (selfNode s)

/-- EPOCH_APPLY at P4: the epochs whose EFFECT_TURN has come, in order (R382, R385). The record that admits this node is
applied at the first boundary after it is counted, on a grid that is not yet the partition's (R27, R387). -/
def doEpochApply (s : State) : State :=
  if s.turn.phase ≠ .p4 then s
  else match admission s with
    | some e => applyEpoch e.effect s e
    | none =>
      if !isMember s then s
      else
        let due := s.ledger.epochs.filter fun e => decide (e.effect ≤ boundary s)
        (sortBy (fun (a b : Epoch) => decide (a.num ≤ b.num)) due).foldl (applyEpoch (boundary s)) s

/-- EPOCH_APPLY (R382). -/
def execEpochApply (s : State) : Host.Outcome State Fault Refusal := .next (doEpochApply s)

/-! ### Heartbeats and elections (R386) -/

/-- In every work window the leader sends a heartbeat to each holder. -/
def sendHeartbeats (s : State) : State :=
  if isLeader s then (s.ledger.holders.filter (· != selfNode s)).foldl (fun s h => emit s (.heartbeatOut h)) s else s

/-- At the arrival snapshot a holder counts whether a heartbeat came. -/
def countBeat (s : State) : State :=
  if isHolder s && !isLeader s then
    { s with ledger := { s.ledger with beats := if s.ledger.beatSeen then 0 else s.ledger.beats + 1, beatSeen := false } }
  else s

/-- HEARTBEAT (R386). -/
def execHeartbeat (leader : Nat) (s : State) : Host.Outcome State Fault Refusal :=
  .next (if isHolder s && s.ledger.leader == leader then { s with ledger := { s.ledger with beatSeen := true } } else s)

/-- LEADER_TIMEOUT: a holder that counted no heartbeat at LEADER_TIMEOUT consecutive boundaries proposes itself, with the
term raised by one and its last committed epoch (R386). -/
def doLeaderTimeout (s : State) : State :=
  if isHolder s && !isLeader s && decide (getObj s Obj.LEADER_TIMEOUT ≤ s.ledger.beats) then
    let t := s.ledger.term + 1
    emit { s with ledger := { s.ledger with term := t, standing := t } } (.electOut t s.ledger.applied)
  else s

/-- LEADER_TIMEOUT (R386). -/
def execLeaderTimeout (s : State) : Host.Outcome State Fault Refusal := .next (doLeaderTimeout s)

/-- The candidate that wins a vote: of the highest last committed epoch, then of the lowest node number. -/
def bestCand : List (Nat × Nat × Nat) → Option (Nat × Nat × Nat)
  | [] => none
  | a :: l =>
    match bestCand l with
    | none => some a
    | some b => if b.2.2 < a.2.2 ∨ (b.2.2 = a.2.2 ∧ a.1 ≤ b.1) then some a else some b

/-- VOTE: one vote per term among the candidates received in this turn, as node, term and last epoch, by a holder that
counted no heartbeat at the last boundary; a candidate that holds a majority of `votes` leads from the next boundary. -/
def doVote (s : State) (cands : List (Nat × Nat × Nat)) (votes : List Nat) : State :=
  if isHolder s = false ∨ s.turn.phase ≠ .p6 then s
  else
    let me := selfNode s
    let own := if s.ledger.standing = 0 then [] else [(me, s.ledger.standing, s.ledger.applied)]
    let open_ := (own ++ cands).filter fun c => decide (s.ledger.votedTerm < c.2.1) && s.ledger.holders.contains c.1
    let pick : Option (Nat × Nat × Nat) := if s.ledger.beats = 0 then none else bestCand open_
    let s : State := match pick with
      | none => s
      | some c =>
        let s := { s with ledger := { s.ledger with votedTerm := c.2.1 } }
        if c.1 = me then s else emit s (.voteOut c.1 c.2.1)
    let mine := (nub (votes.filter fun v => s.ledger.holders.contains v && v != me)).length
      + (if (pick.map fun c => c.1) = some me then 1 else 0)
    if s.ledger.standing ≠ 0 ∧ s.ledger.holders.length < 2 * mine then { s with ledger := { s.ledger with electDue := boundary s } } else s

/-- VOTE (R386). -/
def execVote (cands : List (Nat × Nat × Nat)) (votes : List Nat) (s : State) : Host.Outcome State Fault Refusal :=
  .next (doVote s cands votes)

/-- An elected holder becomes leader and turn master at boundary `n`: its first epoch carries a HOLDERS record. -/
def electAtBoundary (s : State) (n : Nat) : State :=
  if s.ledger.electDue = 0 ∨ n < s.ledger.electDue then s
  else
    let me := selfNode s
    let s := { s with ledger := { s.ledger with leader := me, electDue := 0, standing := 0, beats := 0 } }
    let s := { s with ledger := { s.ledger with
      reqs := s.ledger.reqs ++ [{ node := me, body := .holders (holdersFor s s.ledger.members) me s.ledger.term }] } }
    postEvent s 0x4005 me

end Sys2Proof.Machine
end

