-- ==== Sys2Proof/Machine/Scratch.lean ====
section
/-! DEFINITION. Scratch Banks: owners and handovers (R340 to R343), accesses (R344), atomics (R345, R346), errors (R348). -/

namespace Sys2Proof.Machine

/-- A bank's control registers at reset: the owner is the quarter of its half, b[7:5] (Table 15.2). -/
def ScrBank.reset (b : Nat) : ScrBank :=
  { owner := b / 32, next := b / 32, due := 0, retired := false, wdrops := 0, rzeros := 0, lastReq := 0 }

/-- Control registers of bank `b`. -/
def getScr (s : State) (b : Nat) : ScrBank := (look s.scratch.banks b).getD (ScrBank.reset b)

/-- Replace the control registers of bank `b`. -/
def setScr (s : State) (b : Nat) (v : ScrBank) : State :=
  { s with scratch := { s.scratch with banks := put s.scratch.banks b v } }

/-- A scratch address has 34 bits (R340). -/
def scrAddr (a : Nat) : Nat := a % 2 ^ 34

/-- The bank of a scratch address (R340). -/
def scrBankOf (a : Nat) : Nat := scrAddr a / 2 ^ 26

/-- Whether a bank whose owner is `owner` takes a request that carries `code`; a quarter's bank takes the codes of its
stage engines too (R341). -/
def ownerTakes (owner code : Nat) : Bool :=
  owner == code || (decide (owner < 8) && decide (0x40 ≤ code ∧ code < 0x80) && (code - 0x40) / 8 == owner)

/-- The 8-byte words that `n` bytes from `a` on touch. -/
def wordsOf (a n : Nat) : List Nat := if n = 0 then [] else (List.range ((a % 8 + n + 7) / 8)).map fun i => a / 8 + i

/-- Bytes of a request from `a` on: a request goes to one bank and ends with it. -/
def scrLen (a n : Nat) : Nat := min n (2 ^ 26 - scrAddr a % 2 ^ 26)

/-- A request that a bank's owner did not send: LAST_REQ takes its code, and it is counted (R344). -/
def foreign (s : State) (b code : Nat) (write : Bool) : State :=
  let v := getScr s b
  let v := if write then { v with wdrops := min (2 ^ 32 - 1) (v.wdrops + 1), lastReq := code % 256 }
    else { v with rzeros := min (2 ^ 16 - 1) (v.rzeros + 1), lastReq := code % 256 }
  bump (bump (setScr s b v) (if write then Obj.NONOWNER_WRITES else Obj.NONOWNER_READS) 1) (Obj.bank_DROPS b) 1

/-- What SECDED finds at the first word of a request: 0 nothing, 1 a single-bit error, corrected and counted, otherwise
an uncorrectable word (R348). -/
def secded (s : State) (word fault : Nat) : State :=
  if fault = 0 then s
  else if fault = 1 then bump s Obj.SCRATCH_CORRECTED 1
  else if s.scratch.bad.contains word then s
  else { s with scratch := { s.scratch with bad := word :: s.scratch.bad } }

/-- Mark the query, or the units of a query of another node, whose work met an uncorrectable word (R348). -/
def failWork (s : State) (work : Option (Nat × Nat)) : State :=
  match work with
  | none => s
  | some (home, qh) =>
    let us := s.units.map fun (u : SUnit) => if u.probe.home == home && u.probe.qh == qh then { u with error := true } else u
    let s := { s with units := us }
    if home = selfNode s then markError s [qh] else s

/-- The error indication of an uncorrectable word: event 0x3018 with the scratch address, no data (R348). -/
def scrError (s : State) (a : Nat) (work : Option (Nat × Nat)) : State :=
  emit (failWork (postEvent s 0x3018 (scrAddr a)) work) .scratchError

/-- A read (R344, R348). -/
def doScratchRead (s : State) (addr len code fault : Nat) (work : Option (Nat × Nat)) : State :=
  let a := scrAddr addr
  let n := scrLen a len
  let b := scrBankOf a
  if !ownerTakes (getScr s b).owner code then emit (foreign s b code false) (.scratchData (List.replicate n 0))
  else
    let s := secded s (a / 8) fault
    if (wordsOf a n).any (fun w => s.scratch.bad.contains w) then scrError s a work
    else emit s (.scratchData (readBytes s.scratch.cells a n))

/-- SCRATCH_READ (R344). -/
def execScratchRead (addr len code fault : Nat) (work : Option (Nat × Nat)) (s : State) : Host.Outcome State Fault Refusal :=
  .next (doScratchRead s addr len code fault work)

/-- Write one byte of a request from `a` to `e`: the bytes of an uncorrectable word that the request does not cover
whole are dropped. -/
def scrPut (a e : Nat) (bad : List Nat) (m : List Host.Cell) (x : Nat × Byte) : List Host.Cell :=
  let w := x.1 / 8
  if bad.contains w && !(decide (a ≤ 8 * w) && decide (8 * w + 8 ≤ e)) then m else setByte m x.1 x.2

/-- A write by the owner: whole words clear errors, narrower writes to an uncorrectable word are dropped and counted
(R348). -/
def ownerWrite (s : State) (a : Nat) (d : List Byte) : State :=
  let e := a + d.length
  let whole := fun (w : Nat) => decide (a ≤ 8 * w) && decide (8 * w + 8 ≤ e)
  let bad := s.scratch.bad
  let drops := ((wordsOf a d.length).filter fun w => bad.contains w && !whole w).length
  let cells := ((List.range d.length).map (a + ·) |>.zip d).foldl (scrPut a e bad) s.scratch.cells
  let s := { s with scratch := { s.scratch with cells := cells, bad := bad.filter fun w => !whole w } }
  if drops = 0 then s
  else
    let v := getScr s (scrBankOf a)
    setScr s (scrBankOf a) { v with wdrops := min (2 ^ 32 - 1) (v.wdrops + drops) }

/-- A write (R344, R348). -/
def doScratchWrite (s : State) (addr : Nat) (data : List Byte) (code fault : Nat) : State :=
  let a := scrAddr addr
  let b := scrBankOf a
  let d := data.take (scrLen a data.length)
  if !ownerTakes (getScr s b).owner code then foreign s b code true
  else ownerWrite (secded s (a / 8) fault) a d

/-- SCRATCH_WRITE (R344). -/
def execScratchWrite (addr : Nat) (data : List Byte) (code fault : Nat) (s : State) : Host.Outcome State Fault Refusal :=
  .next (doScratchWrite s addr data code fault)

/-- An atomic on a naturally aligned word of `w` bytes (R345): the old value goes to the requester; a non-owner's changes
nothing and returns zero (R344); one that meets an uncorrectable word leaves it and returns the error indication (R348). -/
def atomic (s : State) (w addr code fault : Nat) (work : Option (Nat × Nat)) (f : Nat → Nat) : State :=
  let a := scrAddr addr / w * w
  let b := scrBankOf a
  if !ownerTakes (getScr s b).owner code then emit (foreign s b code true) (.scratchData (List.replicate w 0))
  else
    let s := secded s (a / 8) fault
    if s.scratch.bad.contains (a / 8) then scrError s a work
    else
      let old := readBytes s.scratch.cells a w
      let new := leBytes w (f (leNat old) % 2 ^ (8 * w))
      let s := { s with scratch := { s.scratch with cells := writeBytes s.scratch.cells a new } }
      emit (bump s Obj.ATOMICS 1) (.scratchData old)

/-- ADD32 (R345). -/
def execAdd32 (addr operand code fault : Nat) (work : Option (Nat × Nat)) (s : State) : Host.Outcome State Fault Refusal :=
  .next (atomic s 4 addr code fault work (· + operand))

/-- ADD64 (R345). -/
def execAdd64 (addr operand code fault : Nat) (work : Option (Nat × Nat)) (s : State) : Host.Outcome State Fault Refusal :=
  .next (atomic s 8 addr code fault work (· + operand))

/-- SWAP32 (R345). -/
def execSwap32 (addr operand code fault : Nat) (work : Option (Nat × Nat)) (s : State) : Host.Outcome State Fault Refusal :=
  .next (atomic s 4 addr code fault work fun _ => operand)

/-- SWAP64 (R345). -/
def execSwap64 (addr operand code fault : Nat) (work : Option (Nat × Nat)) (s : State) : Host.Outcome State Fault Refusal :=
  .next (atomic s 8 addr code fault work fun _ => operand)

/-- The nearest owner code of Table 15.1 (R342). -/
def clampOwner (v : Nat) : Nat :=
  let v := v % 256
  if v < 0x08 then v else if v < 0x24 then 0x07 else if v < 0x40 then 0x40 else if v < 0x80 then v
  else if v < 0xC0 then 0x7F else 0xFF

/-- The owner that a bank will have once the handovers latched at P2 are in force. -/
def ownerLatched (s : State) (b : Nat) : Nat :=
  s.turn.shadow.foldl (fun o c => match c with | .owner n code => if n = b then code else o | _ => o) (getScr s b).owner

/-- A handover whose P2 tick has come: it belongs to the boundary in progress, and a later write no longer replaces it (R343). -/
def latchOwner (s : State) (bank : Nat) : State :=
  let v := getScr s bank
  if v.due ≠ 0 ∧ v.due < dueTurn s then shadowPush (setScr s bank { v with due := 0 }) (.owner bank v.next) else s

/-- NEXT_OWNER_WRITE (R342, R343): the last write before a P2 tick counts; a retired bank ignores it (R350). -/
def execNextOwnerWrite (bank code : Nat) (s : State) : Host.Outcome State Fault Refusal :=
  if (getScr s bank).retired then .next s
  else
    let s := latchOwner s bank
    let c := clampOwner code
    .next (setScr s bank { getScr s bank with next := c, due := if c = ownerLatched s bank then 0 else dueTurn s })

/-- PENDING of BANK_CTL (Table 15.2). -/
def scrPending (s : State) (b : Nat) : Bool := decide ((getScr s b).due ≠ 0) || decide (ownerLatched s b ≠ (getScr s b).owner)

/-- At P4, latch the handovers whose P2 tick has come at boundary `n` (R343, R35). -/
def latchOwners (s : State) (n : Nat) : State :=
  s.scratch.banks.foldl (fun s p =>
    if p.2.due ≠ 0 ∧ p.2.due ≤ n then shadowPush (setScr s p.1 { p.2 with due := 0 }) (.owner p.1 p.2.next) else s) s

/-- At P5, a handover comes into force; contents stay (R343). -/
def handOver (s : State) (b code : Nat) : State :=
  let v := getScr s b
  if v.retired then s else bump (setScr s b { v with owner := code }) Obj.HANDOVERS 1

end Sys2Proof.Machine
end

