-- ==== Sys2Proof/Machine/Security.lean ====
section
/-! DEFINITION. Security and tenancy (chapter 20): binding, tenant switch and scrub, diagnostic mode, firmware images,
attestation reports, IDE failures. -/

namespace Sys2Proof.Machine

/-! ### Keys and binding (R431, R441, R446) -/

/-- Bytes cut or extended with zeros to `n`. -/
def padTo (n : Nat) (b : List Byte) : List Byte := b.take n ++ List.replicate (n - b.length) 0

/-- The tenant flash key: 64 bytes of SHAKE256 over the unique secret, the label "TEN" and the nonce (R441). -/
def flashKeyOf (nonce : List Byte) : List Byte := shake256 (Config.secret ++ ascii "TEN" ++ nonce) 64

/-- The binding takes effect at P5 of its boundary (R431): `nonce` is what the true random source gives. -/
def doBind (s : State) (nonce : List Byte) : State :=
  if s.turn.phase ≠ .p5 ∨ s.sec.bindDue = 0 ∨ s.turn.no < s.sec.bindDue ∨ s.nv.tenant ≠ 0 then s
  else
    let tag := padTo 32 (getDom s Obj.TENANT_TAG)
    let nonce := padTo 32 nonce
    let s := { s with nv := { s.nv with tenant := 1, tag := tag, nonce := nonce },
                      sec := { s.sec with bindDue := 0, flashKey := flashKeyOf nonce } }
    postEvent s 0x5002 (leNat (tag.take 8))

/-- BIND (R431). -/
def execBind (nonce : List Byte) (s : State) : Host.Outcome State Fault Refusal := .next (doBind s nonce)

/-- Diagnostic mode begins at P5 of its boundary, with a key from a nonce that the vault never holds (R446). -/
def doDiag (s : State) (nonce : List Byte) : State :=
  if s.turn.phase ≠ .p5 ∨ s.sec.diagDue = 0 ∨ s.turn.no < s.sec.diagDue ∨ s.nv.tenant ≠ 0 then s
  else
    { s with nv := { s.nv with tenant := 3, tag := List.replicate 32 0 },
             sec := { s.sec with diagDue := 0, flashKey := flashKeyOf (padTo 32 nonce) } }

/-- DIAG_EN (R446). -/
def execDiagEn (nonce : List Byte) (s : State) : Host.Outcome State Fault Refusal := .next (doDiag s nonce)

/-! ### Tenant switch (R442, R87, R426, R365) -/

/-- Every open transaction is rolled back and every segmented transfer aborted, without an event (R426). -/
def endTransactions (s : State) : State :=
  { s with dict := { s.dict with reqs := s.dict.reqs.map fun r =>
      { r with isOpen := false, staged := [], state := if r.isOpen then 0 else r.state, seg := none } } }

/-- SWITCH = 1 as applied at P4 of B(s), after the other writes of the boundary: admission stops, the node withdraws, open
transactions end. In state 2 it has no effect. -/
def doSwitch (s : State) : State :=
  if s.nv.tenant = 2 ∨ s.sec.switchDue ≠ 0 then s
  else endTransactions (withdrawNow { s with sec := { s.sec with switchDue := boundary s, bindDue := 0, diagDue := 0 } })

/-- Every request in flight completes with TENANT_RESET; the results are written where their queue is enabled (R87). -/
def endRequests (s : State) : State :=
  let s := s.queries.foldl (fun s q => answerQuery s q .tenantReset false []) s
  let s := s.ing.writes.foldl (fun s w => finishWrite s w .tenantReset) s
  let on := fun (r : Res) => (getQ s r.rq).enabled
  { s with host := { s.host with results := s.host.results.filter on } }

/-- Every queue returns to its reset value, and the host region is released (R87). -/
def resetQueues (s : State) : State :=
  setObj (setObj { s with host := { s.host with queues := [], fetched := [], results := [], events := [] } } Obj.HOST_REGION_GIB 0)
    Obj.HOST_REGION_BASE 0

/-- TENANT_SWITCH in turn s: requests in flight end with TENANT_RESET, their results are written, and every queue is
disabled (R442, R87). -/
def doTenantSwitch (s : State) : State :=
  if s.sec.switchDue = 0 ∨ s.turn.phase ≠ .p6 ∨ s.turn.no ≠ s.sec.switchDue then s
  else
    let s := abortJobs (endRequests s)
    let s := (s.host.queues.map (·.1)).foldl publishQueue s
    resetQueues s

/-- TENANT_SWITCH (R442). -/
def execTenantSwitch (s : State) : Host.Outcome State Fault Refusal := .next (doTenantSwitch s)

/-- Counters that R57 governs, which a tenant switch clears. -/
def isCounter (a : Nat) : Bool :=
  let i := a / 256
  let f := a % 256
  [0x2801, 0x3001, 0x3801, 0x4C01, 0x4D01, 0x4801, 0x4001, 0x6804, 0x6201, 0x4401, 0x4601, 0x5001, 0x5801, 0x6001, 0x7001,
    0x7801, 0x1801, 0x8801, 0x2401].contains i
    || (decide (0x5810 ≤ i ∧ i < 0x5910) && f == 3) || (decide (0x7100 ≤ i ∧ i ≤ 0x710F) && decide (6 ≤ f ∧ f ≤ 8))
    || (i == 0x1001 && decide (6 ≤ f)) || a == Obj.SESSION_FAILS || a == Obj.IDE_REFUSED

/-- Whether software writes an object. -/
def writable (a : Nat) : Bool := match rowAt a with | none => false | some r => r.acc != .ro

/-- Writable objects that a tenant switch leaves: chapter 19 (R428), the chapter of Wenmen, whose rule names the cache and the
memos alone (R392), and PKG_LIMIT_W (R481; log entry 56). -/
def switchKeeps (a : Nat) : Bool :=
  let i := a / 256
  decide (0x1000 ≤ i ∧ i < 0x2000) || decide (0x7000 ≤ i ∧ i < 0x7800) || a == Obj.PKG_LIMIT_W

/-- Objects that a tenant switch returns to their default: the writable ones but for those kept, and what the chapters' rules
name beside them (R57, R87, R104, R133, R339, R404, R442, R447). -/
def switchResets (a : Nat) : Bool :=
  let i := a / 256
  isCounter a || (writable a && !switchKeeps a) || a == Obj.HOST_REGION_BASE || a == Obj.PERIOD_PENDING || a == Obj.PERIOD_SWITCH_TURN
    || decide (0x3800 ≤ i ∧ i ≤ 0x3FFF)
    || decide (0x4000 ≤ i ∧ i ≤ 0x47FF) || decide (0x4A00 ≤ i ∧ i ≤ 0x4FFF)
    || decide (0x4810 = i) || decide (0x5000 ≤ i ∧ i ≤ 0x57FF) || decide (0x6200 ≤ i ∧ i ≤ 0x62FF)
    || decide (0x5810 ≤ i ∧ i < 0x5910) || decide (0x7810 ≤ i ∧ i < 0x7850)
    || decide (0x8000 ≤ i ∧ i ≤ 0x8003)

/-- Every tenant object at its default. -/
def resetObjects (s : State) : State :=
  { s with dict := { s.dict with objs := s.dict.objs.filter fun o => !switchResets o.1,
                                 doms := s.dict.doms.filter fun o => !switchResets o.1,
                                 ctrPend := s.dict.ctrPend.filter fun o => !switchResets o.1,
                                 reqs := s.dict.reqs.map fun r => { r with report := [], selKind := 0, selId := 0 } } }

/-- What the scrub overwrites: search memory, Scratch Banks and every structure held in on-die memory; flash pages outside
the system area are discarded (R442, R365). -/
def scrubState (s : State) : State :=
  let banks := (s.scratch.banks.filter fun b => b.2.retired).map fun b => (b.1, { ScrBank.reset b.1 with retired := true, owner := 255 })
  { resetObjects s with
    adm := Adm.reset, comp := { tables := [], staged := [], ahead := [], flashUsed := 0, wayUsed := [] }, images := [], remotes := [], acts := [],
    streams := [], remoteStats := [], colls := [], lists := [], queries := [], units := [], smem := SMem.reset,
    way := WaySt.reset, turn := { s.turn with buffers := [] },
    ing := { Ing.reset with nextWid := s.ing.nextWid }, place := Place.reset,
    scratch := { s.scratch with cells := [], banks := banks, bad := [] },
    flash := { s.flash with maps := [], discarded := [], held := [], images := [], used := 0, stopped := false,
                            dies := s.flash.dies.map fun d => { d with marked := [], reads := [], next := 1 } },
    fab := { s.fab with
      out := [], nextOut := [], closed := [], inbox := [], grants := [], grantUsed := [], cache := [], kept := [], gets := [],
      getWait := [], replies := [] }, bslots := [] }

/-- SCRUB_START at P5 of B(s + 1): the nonce, the tag and every session and IDE key are erased, TENANT_STATE reads 2 and the
scrub runs; a running sweep is aborted (R442, R466 for kept entries). -/
def doScrubStart (s : State) : State :=
  if s.sec.switchDue = 0 ∨ s.turn.phase ≠ .p5 ∨ s.turn.no ≠ nextTurn s.sec.switchDue then s
  else
    let sweeping := s.ras.sweep.isSome
    let s := scrubState (resetQueues s)
    let s := { s with
      nv := { s.nv with tenant := 2, tag := List.replicate 32 0, nonce := [], scrubPending := true, retained := [] },
      sec := { s.sec with flashKey := [], switchDue := 0, scrubbing := true, scrubDone := none, bindDue := 0, diagDue := 0 },
      host := { s.host with session := none, ide := [0, 0, 0, 0], kept := [], tries := [] },
      ras := { s.ras with sweep := none, sweepRes := [], sweepPts := [] } }
    if sweeping then setObj (setObj s Obj.SWEEP_STATE 3) Obj.SWEEP_START 0 else s

/-- SCRUB_START (R442). -/
def execScrubStart (s : State) : Host.Outcome State Fault Refusal := .next (doScrubStart s)

/-- SCRUB_COMPLETE: every memory has been overwritten and flash discarded, after `ms` milliseconds (R442). -/
def execScrubComplete (ms : Nat) (s : State) : Host.Outcome State Fault Refusal :=
  .next (if s.sec.scrubbing && s.sec.scrubDone.isNone then { s with sec := { s.sec with scrubDone := some ms } } else s)

/-- SCRUB_END_BOUNDARY: at the first boundary after the scrub TENANT_STATE reads 0, SCRUB_MS its duration, and event 0x5001
enters ERROR_LOG alone; SWITCHES counts the switch, and FILL_PCT reads 0 (R442, R444, R447, R365). -/
def doScrubEnd (s : State) : State :=
  match s.sec.scrubDone with
  | none => s
  | some ms =>
    if s.turn.phase ≠ .p5 then s
    else
      let s := { s with nv := { s.nv with tenant := 0, scrubPending := false, switches := (s.nv.switches + 1) % 2 ^ 64 },
                        sec := { s.sec with scrubbing := false, scrubDone := none } }
      let s := setObj (setObj s Obj.SCRUB_MS (min ms 65535)) Obj.FILL_PCT 0
      logEvent s { code := 0x5001, turn := s.turn.no, detail := min ms 65535 }

/-- SCRUB_END_BOUNDARY (R442). -/
def execScrubEndBoundary (s : State) : Host.Outcome State Fault Refusal := .next (doScrubEnd s)

/-! ### Firmware images (R433, R434) -/

/-- SVN of a firmware image. -/
def imageSvn (b : List Byte) : Nat := leNat (slice b 4 4)

/-- The checks of R433: none where an image passes, else the cause of event 0x5003. -/
def fwRefusal (s : State) (b : List Byte) : Option Nat :=
  if leNat (slice b 0 4) ≠ 0x54484657 ∨ b.length ≠ 64 + leNat (slice b 8 4) + 3309 ∨ 63 < imageSvn b then some 3
  else if Config.fwSignatureOk b = false then some 1
  else if imageSvn b < s.nv.minSvn then some 2
  else none

/-- Whether copy A is the one that runs. -/
def runsA (s : State) : Bool := !s.sec.runsB

/-- A whole image of FW_IMAGE: stored as the inactive copy, or refused with event 0x5003 (R434). Answers whether it passed. -/
def stageFirmware (s : State) (b : List Byte) : State × Bool :=
  match fwRefusal s b with
  | some c => (postEvent { s with sec := { s.sec with staged := 2 } } 0x5003 c, false)
  | none =>
    let a := if runsA s then s.nv.fwA else b
    let b := if runsA s then b else s.nv.fwB
    ({ s with nv := { s.nv with fwA := a, fwB := b }, sec := { s.sec with staged := 1 } }, true)

/-- FW_ACTIVATE = 1 while FW_STAGED reads 1: the next reset boots the staged copy first (R434). -/
def doFwActivate (s : State) : State :=
  if s.sec.staged = 1 then setObj { s with nv := { s.nv with activateB := runsA s }, sec := { s.sec with activate := true } } Obj.FW_ACTIVATE 1
  else setObj s Obj.FW_ACTIVATE 0

/-- FW_ACTIVATE (R434). -/
def execFwActivate (s : State) : Host.Outcome State Fault Refusal := .next (doFwActivate s)

/-! ### Attestation (R436, R437) -/

/-- IMAGES_DIGEST (R436). -/
def imagesDigest (s : State) : List Byte :=
  let slots := (List.range 16).flatMap fun n =>
    if slotState s n = 2 then padTo 32 (((getImg s n).map (·.digest)).getD []) else List.replicate 32 (0 : Byte)
  let cs := sortBy (fun (a b : Nat × Coll) => decide (a.1 ≤ b.1)) (s.colls.filter fun p => getObj s (Obj.coll_IMG_STATE p.1) == 2)
  digest (slots ++ cs.flatMap fun p => leBytes 2 p.1 ++ padTo 32 p.2.imageDigest)

/-- FLAGS of a report (Table 20.2). -/
def reportFlags (s : State) : Nat :=
  (if s.nv.tenant = 1 then 1 else 0) + (if s.nv.tenant = 3 then 2 else 0) + (if s.nv.tenant = 2 then 4 else 0)
    + (if isSet s Obj.IDE_REQUIRED then 8 else 0) + (if s.host.ide.contains 2 then 16 else 0)

/-- Bytes 0 to 167 + CT_LEN of a report. -/
def reportBody (s : State) (nonce ct : List Byte) : List Byte :=
  leBytes 4 0x54484154 ++ leBytes 1 1 ++ leBytes 1 (reportFlags s) ++ leBytes 2 0 ++ leBytes 8 Config.serial.toNat
    ++ leBytes 6 s.turn.no ++ leBytes 2 0 ++ padTo 32 nonce ++ digest s.sec.fwRunning ++ leBytes 4 s.sec.fwSvn ++ leBytes 4 0
    ++ (if s.nv.tenant = 1 then padTo 32 s.nv.tag else List.replicate 32 0) ++ imagesDigest s
    ++ leBytes 2 ct.length ++ leBytes 6 0 ++ ct

/-- The 32 bytes from which the identity key is generated (R435). -/
def identitySeed : List Byte := shake256 (Config.secret ++ ascii "ID") 32

/-- A report, signed with the identity key (R436). -/
def reportOf (s : State) (nonce ct : List Byte) : List Byte :=
  reportBody s nonce ct ++ padTo 3309 (Config.sign identitySeed (reportBody s nonce ct))

/-- What ATT_REQUEST holds of a written request: NONCE, and EK_LEN clamped to 0 (R437). -/
def attRequest (data : List Byte) : List Byte := padTo 40 (padTo 32 data)

/-- A write of ATT_REQUEST by a requester forms its report; EK_LEN is clamped to 0 on this path (R437). -/
def doAttRequest (s : State) (req : Nat) (data : List Byte) : State :=
  let r := reportOf s (data.take 32) []
  { s with dict := { s.dict with reqs := atIdx (fun q => { q with report := r }) req s.dict.reqs } }

/-- ATT_REQUEST (R437). -/
def execAttRequest (req : Nat) (data : List Byte) (s : State) : Host.Outcome State Fault Refusal :=
  .next (doAttRequest (setDom s Obj.ATT_REQUEST (attRequest data)) req data)

/-! ### Host link encryption (R439, R440) -/

/-- The state of an IDE stream: 0 off, 1 Insecure, 2 Secure. -/
def setIde (s : State) (st v : Nat) : State := { s with host := { s.host with ide := atIdx (fun _ => v) st s.host.ide } }

/-- IDE_INTEGRITY_FAILURE: the stream becomes Insecure, and event 0x5004 names it (R440). -/
def execIdeIntegrityFailure (stream : Nat) (s : State) : Host.Outcome State Fault Refusal :=
  .next (if s.host.ide.getD stream 0 = 2 then postEvent (setIde s stream 1) 0x5004 stream else s)

end Sys2Proof.Machine
end

