-- ==== Sys2Proof/Machine/Reliability.lean ====
section
/-! DEFINITION. Reliability (chapter 21): watchdogs and escalation, the Management Controller's reset, salvage, patrol scrub,
margin sweeps, droop, the load of a new member. -/

namespace Sys2Proof.Machine

/-! ### Watchdogs (R453 to R455) -/

/-- Levels of Table 1.6 whose trips are counted together. -/
def levelPlanner : Nat := 3
def levelSequencer : Nat := 4
def levelEngine : Nat := 5
def levelTile : Nat := 6

/-- Count a trip of a unit. -/
def trip (s : State) (level unit : Nat) : State :=
  bump { s with turn := { s.turn with trips := s.turn.trips ++ [{ level := level, unit := unit, turn := s.turn.no }] } } Obj.WDT_TRIPS 1

/-- Trips of a unit within the last `span` turns. -/
def tripsIn (s : State) (level unit span : Nat) : Nat :=
  (s.turn.trips.filter fun t => t.level == level && t.unit == unit && decide (s.turn.no < t.turn + span)).length

/-- Escalation: the node withdraws, event 0x2008 names the level, and every Wenmen Port goes to electrical idle until the node
is reset (R454). -/
def escalate (s : State) (level : Nat) : State :=
  if s.turn.escalated then s
  else
    let s := withdrawSoon (postEvent { s with turn := { s.turn with escalated := true } } 0x2008 level)
    (List.range 16).foldl (fun s p =>
      if linkState s p = linkOff then s else emit (setPort (setObj s (Obj.port_LINK_STATE p) linkDown) p Port.reset) (.portIdle p)) s

/-- A query's work slips (R46). -/
def slipAll (s : State) (qhs : List Nat) : State := qhs.foldl slipQuery s

/-- Whether the work of a loan to an engine has not retired (R453): a completion counted at the boundary wins (R38). -/
def unretired (s : State) (e : Engine) : Bool :=
  match e with
  | .ingest | .compactor | .adapter => true
  | .composer | .router | .scanner | .selector | .bazaar => decide (0 < lookD s.turn.unmet e 0)

/-- TILE_WATCHDOG at P3: the tile is reset and slack in the next turn, the work named slips; a tile that trips 3 times within
64 turns is retired until the next node reset (R453, R454). -/
def doTileWatchdog (s : State) (tile : Nat) (work : List Nat) : State :=
  if s.turn.phase ≠ .p3 ∨ (s.turn.cur.any fun b => b.loans.any fun l => l.tile == tile && unretired s l.engine) = false then s
  else
    let s := slipAll (postEvent (trip s levelTile tile) 0x2001 tile) work
    let s := { s with turn := { s.turn with tileIdle := nub (s.turn.tileIdle ++ [tile]) } }
    if 3 ≤ tripsIn s levelTile tile 64 ∧ s.turn.tileRetired.contains tile = false then
      let s := { s with turn := { s.turn with tileRetired := s.turn.tileRetired ++ [tile] } }
      postEvent (setObj s Obj.TILES_GOOD (getObj s Obj.TILES_GOOD - 1)) 0x2007 tile
    else s

/-- TILE_WATCHDOG (R453). -/
def execTileWatchdog (tile : Nat) (work : List Nat) (s : State) : Host.Outcome State Fault Refusal := .next (doTileWatchdog s tile work)

/-- The number of a stage engine (Table 15.1). -/
def engineNum : Engine → Nat
  | .composer => 0
  | .router => 1
  | .scanner => 2
  | .selector => 3
  | .bazaar => 4
  | .ingest => 5
  | .compactor => 6
  | .adapter => 7

/-- Whether an engine has had work and completed none of it at P1 of two consecutive boundaries; the work of the background
engines is not on the boards, and the command says so of it. -/
def stalls (s : State) (e : Engine) : Bool :=
  match e with
  | .ingest | .compactor | .adapter => true
  | .composer | .router | .scanner | .selector | .bazaar => decide (2 ≤ lookD s.turn.unmet e 0)

/-- STAGE_ENGINE_WATCHDOG at P1 of the second boundary without a completion: its control state is reset and its units slip
one turn; 3 trips within 64 turns escalate (R453, R454). -/
def doEngineWatchdog (s : State) (quarter : Nat) (e : Engine) (work : List Nat) : State :=
  if (s.turn.phase ≠ .p1 ∧ s.turn.phase ≠ .p2 ∧ s.turn.phase ≠ .p3) ∨ stalls s e = false then s
  else
    let u := quarter + 8 * engineNum e
    let s := slipAll (postEvent (trip s levelEngine u) 0x2002 u) work
    if 3 ≤ tripsIn s levelEngine u 64 then escalate s levelEngine else s

/-- STAGE_ENGINE_WATCHDOG (R453). -/
def execStageEngineWatchdog (quarter : Nat) (engine : Engine) (work : List Nat) (s : State) : Host.Outcome State Fault Refusal :=
  .next (doEngineWatchdog s quarter engine work)

/-- TURN_SEQUENCER_WATCHDOG: a phase started `late` ticks after its offset. Beyond 125 the sequencer is reset and its half
issues no query-path work in the missed turn (R453). -/
def doSequencerWatchdog (s : State) (half late : Nat) : State :=
  if late ≤ 125 then s
  else
    let missed := match s.turn.phase with
      | .p0 | .p1 | .p2 | .p3 | .p4 => boundary s
      | .p5 | .p6 => s.turn.no
    let s := postEvent (trip s levelSequencer half) 0x2003 half
    let s := { s with turn := { s.turn with seqMissed := nub (s.turn.seqMissed ++ [(half, missed)]) } }
    if 3 ≤ tripsIn s levelSequencer half 64 then escalate s levelSequencer else s

/-- TURN_SEQUENCER_WATCHDOG (R453). -/
def execTurnSequencerWatchdog (half late : Nat) (s : State) : Host.Outcome State Fault Refusal := .next (doSequencerWatchdog s half late)

/-- PLANNER_WATCHDOG: PLANNER_REPEAT_LIMIT consecutive repeats reset the Planner; two trips within 1,024 turns escalate. -/
def doPlannerWatchdog (s : State) : State :=
  if s.turn.repeats < getObj s Obj.PLANNER_REPEAT_LIMIT then s
  else
    let s := postEvent (trip s levelPlanner 0) 0x2004 (min 255 s.turn.repeats)
    let s := { s with turn := { s.turn with repeats := 0 } }
    if 2 ≤ tripsIn s levelPlanner 0 1024 then escalate s levelPlanner else s

/-- PLANNER_WATCHDOG (R453). -/
def execPlannerWatchdog (s : State) : Host.Outcome State Fault Refusal := .next (doPlannerWatchdog s)

/-- MC_WATCHDOG after `unservicedMs` without service: the Management Controller resets, the dictionary answers nothing,
transactions roll back, stored responses and the DOE session are lost (R453, R455, R426, R438). -/
def doMcWatchdog (s : State) (unservicedMs : Nat) : State :=
  if unservicedMs < getObj s Obj.MC_WDT_MS ∨ s.ras.mcDown = true ∨ s.dict.served = false then s
  else
    let s := endTransactions (bump s Obj.WDT_TRIPS 1)
    { s with ras := { s.ras with mcDown := true },
             dict := { s.dict with served := false, reqs := s.dict.reqs.map fun r => { r with last := none } },
             host := { s.host with session := none, doeResp := none } }

/-- MC_WATCHDOG (R453). -/
def execMcWatchdog (unservicedMs : Nat) (s : State) : Host.Outcome State Fault Refusal := .next (doMcWatchdog s unservicedMs)

/-- MC_RESET_COMPLETE: after its reboot the controller answers again, BUSY clears with DONE at 0, and event 0x2005 is posted
(R455). An activated firmware copy runs from here (R434). -/
def doMcResetComplete (s : State) : State :=
  if !s.ras.mcDown then s
  else
    let copy := if s.nv.activateB then s.nv.fwB else s.nv.fwA
    let sec := if s.sec.activate then
        { s.sec with activate := false, staged := 0, fwRunning := copy, fwSvn := imageSvn copy, runsB := s.nv.activateB }
      else s.sec
    let mb := { s.dict.mb with busy := false, done := if s.dict.mb.busy then false else s.dict.mb.done }
    postEvent { s with ras := { s.ras with mcDown := false }, dict := { s.dict with served := true, mb := mb }, sec := sec } 0x2005 0

/-- MC_RESET_COMPLETE (R455). -/
def execMcResetComplete (s : State) : Host.Outcome State Fault Refusal := .next (doMcResetComplete s)

/-- LEDGER_HOLDER_WATCHDOG: a holder without a stored epoch at 2 consecutive boundaries resets its ledger process, which
reloads from its T2 copy (R453). -/
def execLedgerHolderWatchdog (s : State) : Host.Outcome State Fault Refusal :=
  .next (
    if isHolder s && !isLeader s && decide (2 ≤ s.ledger.noStore) then
      postEvent (bump { s with ledger := { s.ledger with noStore := 0, stored := [] } } Obj.WDT_TRIPS 1) 0x2006 0
    else s)

/-! ### Salvage (R451) -/

/-- Whether this node salvages a list: its only copies are quarantined, and this holder has the lowest number. -/
def salvages (s : State) (key : Nat) : Bool :=
  let hs := holdersOf s key
  let q := hs.filter fun h => decide (h.role = .quarantined)
  !(hs.any fun h => decide (h.role = .primary) || decide (h.role = .replica))
    && (nodeSort (q.map (·.node))).head? == some (selfNode s)

/-- SALVAGE_COMPLETE: a new segment set holds every entry that could be read whole; `unreadable` are the others. -/
def doSalvage (s : State) (key : Nat) (unreadable : List Nat) : State :=
  match getList s key with
  | none => s
  | some l =>
    if !isSet s Obj.SALVAGE_EN || !gateOpen s 10 || !l.quarantined || !salvages s key then s
    else
      let all := (l.reads l.newest).filter fun i => !(l.entry i).staged && !(l.entry i).aborted
      let keep := all.filter fun i => !unreadable.contains i && !l.bad.contains i
      let p := placeSegment s (keyColl key) keep
      let l' := l.push (dueTurn s) (if keep = [] then [] else [keep]) l.delta.length [] p.2
      let l' := { l' with sets := l'.sets.take 1, bad := [], quarantined := false, compacting := none, built := none, switchDue := 0 }
      ledgerRequest (bump (setList p.1 l') Obj.SALVAGES 1) (.report .salvage key (all.length - keep.length))

/-- SALVAGE_COMPLETE (R451). -/
def execSalvageComplete (key : Nat) (unreadable : List Nat) (s : State) : Host.Outcome State Fault Refusal :=
  .next (doSalvage s key unreadable)

/-! ### Uncorrectable data outside the query path (R449, R452) -/

/-- A centroid row or graph edge is uncorrectable: event 0x301E, and the partner is asked for the set and graph (R449). -/
def centroidBad (s : State) (c : Nat) : State :=
  let v := getColl s c
  if v.centLoading ∨ v.cents = [] then s
  else
    let s := postEvent (setColl s c { v with centLoading := true }) 0x301E c
    if isMember s && partnerOf s != selfNode s then send s (partnerOf s) (.resend 0x112 c) else s

/-- CENTROID_RELOAD_COMPLETE: queries of the collection are admitted again (R449). -/
def execCentroidReloadComplete (coll : Nat) (s : State) : Host.Outcome State Fault Refusal :=
  .next (
    let v := getColl s coll
    if v.centLoading then setColl s coll { v with centLoading := false } else s)

/-- A directory record is uncorrectable: this copy of the shard is stale, its other copy is made primary and sends it anew;
with no other copy the shard is named anew and rebuilt (Table 21.2, R491). -/
def shardBad (s : State) (c sh : Nat) : State :=
  match s.ing.shards.find? fun d => d.coll == c && d.shard == sh with
  | none => s
  | some d =>
    if d.missing ≠ [] then s
    else
      let me := selfNode s
      let h := shardHolders s c sh
      let other := if h.1 = me then h.2 else h.1
      let ms := s.ledger.members.filter (· != me)
      if other = 255 then ledgerRequest (onShard s c sh fun d => { d with missing := [me] }) (.shard c sh (ms.getD 0 255) (ms.getD 1 255))
      else ledgerRequest (onShard s c sh fun d => { d with missing := [other] }) (.shard c sh other me)

/-- Whether the patrol reads here in this turn: it runs in slack, and skips a bank that is in row-logic mode (R452). -/
def patrolReads (s : State) : PatrolHit → Bool
  | .hostRegion a => decide (s.turn.phase = .p6) && inRegion s a && !hasWindow s (bankAt a)
  | _ => decide (s.turn.phase = .p6)

/-- PATROL_READ: what the patrol scrub found (R452). -/
def doPatrol (s : State) (hit : PatrolHit) : State :=
  let lost := bump s Obj.PATROL_UNCORRECTABLE 1
  if !patrolReads s hit then s
  else match hit with
  | .corrected => bump s Obj.PATROL_CORRECTED 1
  | .hostRegion a => postEvent lost 0x301D (a % 2 ^ 40)
  | .listData k => quarantine lost k
  | .directory c sh => shardBad lost c sh
  | .tableRow t i =>
    (match (getTable s t).active with
     | none => lost
     | some v =>
       if (v.row i).err then lost
       else postEvent (onActive lost t fun v => v.setRow i { v.row i with err := true }) 0x3011 (t + 64 * i))
  | .weights sl li => if ((getImg s sl).map fun i => decide (li < i.layers.length)).getD false then weightError lost sl li else lost
  | .centroids c => centroidBad lost c
  | .scratch a => secded (postEvent lost 0x3018 (scrAddr a)) (scrAddr a / 8) 2

/-- PATROL_READ (R452). -/
def execPatrolRead (hit : PatrolHit) (s : State) : Host.Outcome State Fault Refusal := .next (doPatrol s hit)

/-! ### Margins (R456, R457) -/

/-- SWEEP_START = 1 as applied: while a sweep runs it reads back 0. -/
def doSweepStart (s : State) : State :=
  if s.ras.sweep.isSome then setObj s Obj.SWEEP_START 0
  else
    let st := getObj s Obj.SWEEP_STACK
    let s := { s with ras := { s.ras with sweep := some (st, getObj s Obj.SWEEP_KIND, if st = 8 then 512 else 64), sweepRes := [], sweepPts := [] } }
    setObj (setObj s Obj.SWEEP_STATE 1) Obj.SWEEP_START 1

/-- SWEEP_START (R457). -/
def execSweepStart (s : State) : Host.Outcome State Fault Refusal := .next (doSweepStart s)

/-- Replace the 8 bytes of one pseudo-channel in MARGIN_RESULT: the margins that the sweep's kind measured. -/
def putMargin (kind : Nat) (old : List Byte) (r : Nat × List Nat) : List Byte :=
  let was := fun i => (old.getD (8 * r.1 + i) 0).toNat
  let v := fun i => if (i < 2 ∧ kind ≠ 1) ∨ (2 ≤ i ∧ kind ≠ 0) then nth r.2 i else was i
  old.take (8 * r.1) ++ ((List.range 4).map fun i => BitVec.ofNat 8 (v i)) ++ List.replicate 4 0 ++ old.drop (8 * r.1 + 8)

/-- Whether a measured margin is below MARGIN_MIN, where that is not 0. -/
def marginLow (s : State) (kind : Nat) (r : Nat × List Nat) : Bool :=
  let v := (if kind = 1 then [] else r.2.take 2) ++ (if kind = 0 then [] else (r.2.drop 2).take 2)
  v.any fun x => decide (x < getObj s Obj.MARGIN_MIN)

/-- The end of a sweep: MARGIN_RESULT, the events of Table 21.4, SWEEP_STATE 2. -/
def endSweep (s : State) (kind : Nat) : State :=
  let rs := sortBy (fun (a b : Nat × List Nat) => decide (a.1 ≤ b.1)) s.ras.sweepRes
  let s := setDom s Obj.MARGIN_RESULT (rs.foldl (putMargin kind) (padTo 4096 (getDom s Obj.MARGIN_RESULT)))
  let s := (rs.filter (marginLow s kind)).foldl (fun s r => postEvent s 0x3020 r.1) s
  setObj (setObj { s with ras := { s.ras with sweep := none, sweepRes := [], sweepPts := [] } } Obj.SWEEP_STATE 2) Obj.SWEEP_START 0

/-- Points of a pseudo-channel in a sweep of a kind: 64 of timing, 64 of voltage, or both (R457). -/
def sweepPoints (kind : Nat) : Nat := if kind = 2 then 128 else 64

/-- SWEEP_STEP on a pseudo-channel that has no row-logic window in this turn, with gate class 11 open and steps left for the
stack: one of its 64 points of each kind swept. At the channel's last point `result` holds its left, right, upper and lower margins.
The patterns written to the sweep rows are not held: nothing else uses those rows (R240, log entry 81). -/
def doSweepStep (s : State) (stack channel : Nat) (result : List Nat) : State :=
  match s.ras.sweep with
  | none => s
  | some (st, kind, left) =>
    let used := lookD s.ras.sweepUsed stack 0
    let pc := 64 * stack + channel
    if !slackOpen s 11 || decide (8 ≤ stack ∨ 64 ≤ channel) || hasWindow s { stack := stack, group := channel, bank := 0 }
        || (st != 8 && st != stack) || decide (getObj s Obj.SWEEP_STEPS_PER_TURN ≤ used)
        || s.ras.sweepRes.any (fun r => r.1 == pc) then s
    else
      let n := lookD s.ras.sweepPts pc 0 + 1
      let s := { s with ras := { s.ras with sweepUsed := put s.ras.sweepUsed stack (used + 1), sweepPts := put s.ras.sweepPts pc n } }
      if n < sweepPoints kind then s
      else
        let s := { s with ras := { s.ras with sweep := some (st, kind, left - 1), sweepRes := s.ras.sweepRes ++ [(pc, result)] } }
        if left ≤ 1 then endSweep s kind else s

/-- SWEEP_STEP (R457). -/
def execSweepStep (stack channel : Nat) (result : List Nat) (s : State) : Host.Outcome State Fault Refusal :=
  .next (doSweepStep s stack channel result)

/-- DROOP_EVENT: counted for its half until the end of the statistics epoch (R456). -/
def execDroopEvent (half : Nat) (s : State) : Host.Outcome State Fault Refusal :=
  .next { s with ras := { s.ras with droop := s.ras.droop ++ [half] } }

/-! ### Load of a new member (R458) -/

/-- MEMBER_LOAD_COMPLETE: the node reports that its load is complete. -/
def execMemberLoadComplete (s : State) : Host.Outcome State Fault Refusal :=
  .next (if getObj s Obj.MEMBER_LOAD = 1 then ledgerRequest s (.report .memberLoaded (selfNode s) 0) else s)

end Sys2Proof.Machine
end

