-- ==== Sys2Proof/Machine/Clocks.lean ====
section
/-! DEFINITION. Clocks, power, resets and start-up (chapter 22), with the start-up parts of chapters 15, 16, 20 and 21. -/

namespace Sys2Proof.Machine

/-- The node runs: it has power, POR_N is high and it has not tripped. -/
def nodeOn (s : State) : Bool := s.clk.powered && !s.clk.porLow && !s.clk.tripped

/-! ### Clock monitor (R465 to R468)

Sources are numbered as in R467: 0 XTAL, 1 OSC, 2 REFCLK_PCIE, 3 REFCLK_FAB. Pairs: 0 PCIE and XTAL, 1 FAB and XTAL,
2 XTAL and OSC, 3 FAB and OSC, 4 PCIE and FAB. -/

/-- Whether a count agrees with its expected value within `pct` percent. -/
def agrees (n expected pct : Nat) : Bool := decide (expected * (100 - pct) ≤ 100 * n) && decide (100 * n ≤ expected * (100 + pct))

/-- Count one window of a pair. -/
def countPair (s : State) (pair : Nat) (ok : Bool) : State :=
  let bad := if ok then 0 else lookD s.clk.pairBad pair 0 + 1
  let good := if ok then lookD s.clk.pairGood pair 0 + 1 else 0
  { s with clk := { s.clk with pairBad := put s.clk.pairBad pair bad, pairGood := put s.clk.pairGood pair good } }

/-- Whether a pair has disagreed in two consecutive windows. -/
def pairOff (s : State) (pair : Nat) : Bool := decide (2 ≤ lookD s.clk.pairBad pair 0)

/-- Whether a pair has agreed in 64 consecutive windows. -/
def pairBack (s : State) (pair : Nat) : Bool := decide (64 ≤ lookD s.clk.pairGood pair 0)

/-- The sources that the windows counted so far declare failed (R465). With OSC failed, XTAL is checked only against
REFCLK_FAB (Table 22.4). -/
def offSources (s : State) : List Nat :=
  let fx := pairOff s 1
  let xo := pairOff s 2
  let fo := pairOff s 3
  let oscOut := s.clk.failed.contains 1
  let three := if fx && xo && fo then [0, 3]
    else if fx && (xo || oscOut) then [0]
    else if fx && fo then [3]
    else if xo && fo then [1]
    else []
  three ++ (if pairOff s (if s.clk.failed.contains 0 then 4 else 0) then [2] else [])

/-- Whether a failed source has agreed with its comparison sources long enough (R468). -/
def sourceBack (s : State) (src : Nat) : Bool :=
  match src with
  | 0 => pairBack s 1 && (s.clk.failed.contains 1 || pairBack s 2)
  | 1 => pairBack s 2 && pairBack s 3
  | 2 => pairBack s (if s.clk.failed.contains 0 then 4 else 0)
  | _ => pairBack s 1 && pairBack s 3

/-- SOURCES_FAILED, and the DETAIL of R467. -/
def failedMask (s : State) : Nat := s.clk.failed.foldl (fun n i => n + 2 ^ i) 0
def clockDetail (s : State) : Nat := failedMask s + 256 * s.clk.fallback

/-- The host link is down (R466, R478). -/
def hostLinkDown (s : State) : State := { s with host := { s.host with linkUp := false } }

/-- Domains that a failed source puts on a fallback (Table 22.4). -/
def fallbackOf (src : Nat) : Nat := if src = 0 then 0x3F else if src = 3 then 0x40 else 0

/-- Whether a counter clock (Table 22.5) is the failed source `src` or a domain that it switches. -/
def fmcHit (src code : Nat) : Bool :=
  if code < 4 then code == src
  else bitsOf (fallbackOf src) (if code = 11 then 6 else code - 5) 1 == 1

/-- What a declared failure does at once (Table 22.4). -/
def loseSource (s : State) (src : Nat) : State :=
  let bad := s.clk.fmcRun && (fmcHit src s.clk.fmcSel.1 || fmcHit src s.clk.fmcSel.2.1)
  let s := { s with clk := { s.clk with failed := s.clk.failed ++ [src], fallback := s.clk.fallback ||| fallbackOf src,
                                        fmcBad := s.clk.fmcBad || bad } }
  match src with
  | 0 => withdrawSoon s
  | 2 => hostLinkDown s
  | 3 => withdrawSoon ((List.range 16).foldl (fun s p =>
      if linkState s p = linkIsUp ∨ linkState s p = linkTraining then portDown s p linkDown else s) s)
  | _ => s

/-- Declare the sources that have failed, then post CLOCK_LOSS for each (R467). -/
def declare (s : State) : State :=
  let new := (offSources s).filter fun i => !s.clk.failed.contains i
  let s := new.foldl loseSource s
  new.foldl (fun s _ => setObj (postEvent s 0x0001 (clockDetail s)) Obj.CLOCK_LOSSES ((getObj s Obj.CLOCK_LOSSES + 1) % 2 ^ 64)) s

/-- Restore the sources that agree again, with CLOCK_RESTORED for each; fallbacks stay until the next reset (R468). -/
def restore (s : State) : State :=
  let back := s.clk.failed.filter (sourceBack s)
  back.foldl (fun s i =>
    let s := { s with clk := { s.clk with failed := s.clk.failed.filter (· != i) } }
    postEvent s 0x0002 (clockDetail s)) s

/-- The counts of one window (R465). -/
def countWindow (s : State) : ClockWindow → State
  | .xtal pcie fab => countPair (countPair s 0 (agrees pcie 4096 1)) 1 (agrees fab 6400 1)
  | .osc xtal fab => countPair (countPair s 2 (agrees xtal 512 25)) 3 (agrees fab 3200 25)
  | .pcieFab pcie => countPair s 4 (agrees pcie 4096 1)

/-- CLOCK_MONITOR_WINDOW (R465). -/
def execClockMonitorWindow (w : ClockWindow) (s : State) : Host.Outcome State Fault Refusal :=
  .next (if nodeOn s then restore (declare (countWindow s w)) else s)

/-! ### Frequency-measuring counter (R469) -/

/-- FMC_START = 1: a measurement starts with the settings of now; one in progress is abandoned. -/
def doFmcStart (s : State) : State :=
  let s := { s with clk := { s.clk with
    fmcRun := true, fmcBad := false,
    fmcSel := (getObj s Obj.FMC_REF, getObj s Obj.FMC_TARGET, getObj s Obj.FMC_GATE_LOG2) } }
  setObj (setObj s Obj.FMC_STATE 1) Obj.FMC_START 1

/-- FMC_START (R469). -/
def execFmcStart (s : State) : Host.Outcome State Fault Refusal := .next (if nodeOn s then doFmcStart s else s)

/-- Four times the frequency in MHz of a counter clock: programmed for a domain, nominal for a source (Table 22.5). -/
def fmcRefX4 (s : State) (code : Nat) : Nat :=
  match code with
  | 0 => 100
  | 1 => 200
  | 2 => 400
  | 3 => 625
  | 4 | 5 => 4 * domainMhz s 0
  | 11 => 5000
  | c => 4 * domainMhz s (c - 5)

/-- FMC_GATE_END: `count` cycles of the target were counted. -/
def execFmcGateEnd (count : Nat) (s : State) : Host.Outcome State Fault Refusal :=
  .next (
    if !nodeOn s || !s.clk.fmcRun then s
    else
      let bad := s.clk.fmcBad
      let s' := setObj { s with clk := { s.clk with fmcRun := false, fmcBad := false } } Obj.FMC_START 0
      if bad then setObj s' Obj.FMC_STATE 3
      else
        let n := count % 2 ^ 64
        let mhz := roundTo fF32 .even false (n * fmcRefX4 s s.clk.fmcSel.1) (-((s.clk.fmcSel.2.2 + 2 : Nat) : Int))
        setObj (setObj (setObj s' Obj.FMC_STATE 2) Obj.FMC_COUNT n) Obj.FMC_MHZ (f32Bits mhz))

/-! ### Power, temperature, throttling (R473 to R476, R445) -/

/-- Publish the power and temperature readings: `n` samples summed in the rail sums, power rounded down to `q` watts. -/
def publishPower (s : State) (q : Nat) : State :=
  let n := max 1 s.clk.powerN
  let total := s.clk.railSum.foldl (· + ·) 0
  let s := setObj s Obj.PKG_POWER_W (min 65535 (total / n / q * q))
  let s := s.clk.railSum.zipIdx.foldl (fun s p => setObj s (Obj.RAIL_POWER_W (p.2 + 1)) (min 65535 (p.1 / n / q * q))) s
  { s with clk := { s.clk with railSum := [], powerN := 0 } }

/-- Publish the temperatures. -/
def publishTemps (s : State) : State :=
  let s := setObj (setObj s Obj.TJ_H0_C (min 255 (nth s.clk.tj 0))) Obj.TJ_H1_C (min 255 (nth s.clk.tj 1))
  let s := setObj s Obj.SCRATCH_TEMP_C ((s.clk.scrTemp.take 4).zipIdx.foldl (fun n p => n + min 255 p.1 * 256 ^ p.2) 0)
  s.clk.stackTemp.foldl (fun s p => setObj s (Obj.STACK_TEMP_C p.1) p.2) s

/-- At a boundary with n a multiple of 64 outside diagnostic mode, the readings are updated (R445). -/
def readingsAtBoundary (s : State) (n : Nat) : State :=
  if diagMode s ∨ n % 64 ≠ 0 then s else publishTemps (if s.clk.powerN = 0 then s else publishPower s 8)

/-- Add two lists of readings. -/
def addLists : List Nat → List Nat → List Nat
  | [], l => l
  | l, [] => l
  | a :: l, b :: m => (a + b) :: addLists l m

/-- Stretch of one half after a step of 10 us: one eighth more, up to four, while the condition holds; one less per 100 us
once it has cleared (R474). -/
def stretchStep (cond : Bool) (stretch clear : Nat) : Nat × Nat :=
  if cond then (min 4 (stretch + 1), 0)
  else if stretch = 0 then (0, 0)
  else if clear + 1 = 10 then (stretch - 1, 0)
  else (stretch, clear + 1)

/-- Whether an episode of a throttle goes on: its condition holds, or a clock that it stretched is still stretched. -/
def episodeOn (cond was stretched : Bool) : Bool := cond || (was && stretched)

/-- The throttle of R474 for one sample. -/
def throttle (s : State) (tj0 tj1 : Nat) : State :=
  let power := decide (getObj s Obj.PKG_LIMIT_W * 103 < 10 * s.clk.samples.foldl (· + ·) 0)
  let limit := getObj s Obj.TJ_THROTTLE_C
  let h0 := decide (limit < tj0)
  let h1 := decide (limit < tj1)
  let a := stretchStep (power || h0) (nth s.clk.stretch 0) (nth s.clk.clearFor 0)
  let b := stretchStep (power || h1) (nth s.clk.stretch 1) (nth s.clk.clearFor 1)
  let was := fun (i : Nat) => s.clk.episodes.contains i
  let on0 := episodeOn power (was 0) (decide (0 < a.1 + b.1))
  let on1 := episodeOn h0 (was 1) (decide (0 < a.1))
  let on2 := episodeOn h1 (was 2) (decide (0 < b.1))
  let now := (if on0 then [0] else []) ++ (if on1 then [1] else []) ++ (if on2 then [2] else [])
  let therm := (if on1 && !was 1 then 1 else 0) + (if on2 && !was 2 then 2 else 0)
  let newPower := on0 && !was 0
  let s := { s with clk := { s.clk with stretch := [a.1, b.1], clearFor := [a.2, b.2], episodes := now } }
  let s := if newPower then postEvent s 0x1001 3 else s
  let s := if therm = 0 then s else postEvent s 0x1002 therm
  if a.1 + b.1 = 0 ∨ s.clk.throttled = true then s
  else bump { s with clk := { s.clk with throttled := true } } Obj.THROTTLE_TURNS 1

/-- Event 0x1003 for each scratch stack that has risen above 95 degrees (R475). -/
def scratchHot (s : State) (old : List Nat) : State :=
  (List.range 4).foldl (fun s i =>
    if nth old i ≤ 95 ∧ 95 < nth s.clk.scrTemp i then postEvent s 0x1003 (8 + i) else s) s

/-- POWER_SAMPLE: the rail powers, the hottest junction of each half and the scratch-stack temperatures (R474). -/
def doPowerSample (s : State) (rails : List Nat) (tj0 tj1 : Nat) (scratch : List Nat) : State :=
  let rails := rails.take 14
  let old := s.clk.scrTemp
  let s := { s with clk := { s.clk with
    samples := (rails.foldl (· + ·) 0 :: s.clk.samples).take 10, railSum := addLists s.clk.railSum rails,
    powerN := s.clk.powerN + 1, tj := [tj0, tj1], scrTemp := scratch.take 4 } }
  let s := if diagMode s then publishTemps (publishPower s 1) else s
  throttle (scratchHot s old) tj0 tj1

/-- POWER_SAMPLE (R474). -/
def execPowerSample (rails : List Nat) (tj0 tj1 : Nat) (scratch : List Nat) (s : State) : Host.Outcome State Fault Refusal :=
  .next (if nodeOn s then doPowerSample s rails tj0 tj1 scratch else s)

/-- THROTTLE_STATE. -/
def throttleState (s : State) : Nat :=
  s.clk.episodes.foldl (fun n i => n + 2 ^ i) 0 + (if (List.range 8).any fun st => getObj s (Obj.STACK_BAND st) == 3 then 8 else 0)

/-- THERMAL_TRIP: THERMTRIP_N is asserted, every clock but OSC stops, and the trip is entered in ERROR_LOG; the manual gives
the entry no code, so code and DETAIL are free values (R476). -/
def execThermalTrip (s : State) : Host.Outcome State Fault Refusal :=
  .next (
    if !nodeOn s then s
    else
      let a := drawFree s
      let b := drawFree a.1
      let e : Event := { code := Config.freeNat a.2 % 65536, turn := s.turn.no, detail := Config.freeNat b.2 % 2 ^ 64 }
      let s := logEvent b.1 e
      emit { s with clk := { s.clk with tripped := true } } .thermTrip)

/-! ### Resets (R472, R477, R478, R364, R480) -/

/-- The media of a list that survive a loss of power: each segment of its active set, with the digest over its records. -/
def retainedOf (l : ListCopy) : List (Nat × List Byte × List Nat) :=
  (l.newest.bases.filter fun b => b.any fun i => (l.entry i).loc != 0).map fun b =>
    (l.key, digest (b.flatMap fun i => (l.entry i).full), b.map fun i => (l.entry i).loc)

/-- What is left when the volatile state is lost: the key vault, the system area, and the flash pages of active segment
sets (R364, R430, R460, R477). What has left the node and the commands that wait are not state of the node. -/
def volatileLost (s : State) : State :=
  let media := if s.nv.tenant = 1 then s.nv.retained ++ s.lists.flatMap retainedOf else []
  let pages := nub ((media.flatMap fun r => r.2.2).filterMap (addrPage s))
  { State.reset with
    nv := { s.nv with retained := media },
    flash := { Flash.reset with
      maps := s.flash.maps.filter fun m => pages.contains m.1, used := pages.length,
      dies := s.flash.dies.map fun d => { d with marked := [], reads := [] } },
    out := s.out, free := s.free, pending := s.pending }

/-- POR_N falls: the whole node is reset. -/
def porLow (s : State) : State :=
  let t := volatileLost s
  { t with clk := { t.clk with porLow := true, powered := s.clk.powered, tripped := s.clk.tripped } }

/-- POR_N rises: start-up begins with step 2, at the stored frequencies. LAST_RESET_CAUSE reads 0 after a power-up, 1 with
power held, 2 after a trip (R477); a tripped node that has kept its power stays down (R476). -/
def porHigh (s : State) : State :=
  if !s.clk.porLow || (s.clk.tripped && s.clk.powered) then s
  else
    let cause := if s.clk.tripped then 2 else if s.clk.powered then 1 else 0
    { s with clk := { Clk.reset with freqs := s.nv.freqs, resetCause := cause } }

/-- POR (R477). -/
def execPor (level : Bool) (s : State) : Host.Outcome State Fault Refusal := .next (if level then porHigh s else porLow s)

/-- POWER_LOSS: a rail is lost; POR_N is low until the next power-up (R472). -/
def execPowerLoss (s : State) : Host.Outcome State Fault Refusal :=
  .next (
    let t := porLow s
    { t with clk := { t.clk with powered := false } })

/-- Requests in flight complete inside the node, and their results are discarded (R478). -/
def dropResults (s : State) : State :=
  let off := fun (q : Nat) => if q < 16384 then q + 16384 else q
  { s with queries := s.queries.map fun q => { q with sq := off q.sq },
           ing := { s.ing with writes := s.ing.writes.map fun w => { w with sq := off w.sq } },
           comp := { s.comp with ahead := [] } }

/-- PERST_ASSERT: the Host Interface alone is reset (R478). -/
def execPerstAssert (s : State) : Host.Outcome State Fault Refusal :=
  .next (
    if s.host.perstLow then s
    else
      let s := dropResults s
      { s with host := { HostIf.reset with perstLow := true }, dict := { s.dict with mb := Mailbox.reset } })

/-- PERST_RELEASE: configuration requests are answered at once; R478 allows Retry Status for up to 100 ms (DESIGN CHOICE, log
entry 91). -/
def execPerstRelease (s : State) : Host.Outcome State Fault Refusal :=
  .next { s with host := { s.host with perstLow := false } }

/-! ### Start-up (R479, Table 22.7) -/

/-- End step `n` after `ms` milliseconds. -/
def endStep (s : State) (n ms : Nat) : State :=
  { s with clk := { s.clk with bootStage := n + 1, bootMs := s.clk.bootMs ++ [min ms (2 ^ 32 - 1)] } }

/-- Whether step `n` runs. -/
def inStep (s : State) (n : Nat) : Bool := nodeOn s && s.clk.bootStage == n

/-- Whether a copy whose signature check gave this SVN is accepted (R433). -/
def copyPasses (s : State) (c : Option Nat) : Bool := (c.map fun v => decide (s.nv.minSvn ≤ v)).getD false

/-- Start firmware copy A, or B: step 2 ends, the dictionary is served, and the turn grid begins with TURN_NO 0. -/
def startFirmware (s : State) (b : Bool) (svn ms : Nat) : State :=
  let s := endStep s 2 ms
  { s with sec := { s.sec with fwRunning := if b then s.nv.fwB else s.nv.fwA, fwSvn := svn, runsB := b, activate := false, staged := 0 },
           dict := { s.dict with served := true }, clk := { s.clk with bootFailed := false } }

/-- The SVN of a stored copy: that of its header, or what the check found where the copy is the factory's, whose bytes the model does
not hold (log entry 91). -/
def copySvn (copy : List Byte) (found : Option Nat) : Option Nat := if copy = [] then found else found.map fun _ => imageSvn copy

/-- BOOT_COMPLETE: `copyA` and `copyB` are the SVNs of the copies whose signature verifies. The activated copy is tried
first; if none passes, the node stays in step 2 and boots a written image that passes (R433, R434). -/
def doBoot (s : State) (copyA copyB : Option Nat) (ms : Nat) : State :=
  if !inStep s 2 then s
  else if s.clk.bootFailed then
    if s.sec.staged = 1 then startFirmware s true (imageSvn s.nv.fwB) ms else s
  else
    let a := (copySvn s.nv.fwA copyA, false)
    let b := (copySvn s.nv.fwB copyB, true)
    let first := if s.nv.activateB then b else a
    let second := if s.nv.activateB then a else b
    if copyPasses s first.1 then startFirmware s first.2 (first.1.getD 0) ms
    else if copyPasses s second.1 then startFirmware s second.2 (second.1.getD 0) ms
    else { s with clk := { s.clk with bootFailed := true } }

/-- BOOT_COMPLETE (R433). -/
def execBootComplete (copyA copyB : Option Nat) (ms : Nat) (s : State) : Host.Outcome State Fault Refusal :=
  .next (doBoot s copyA copyB ms)

/-- Record failed units as bits of SELFTEST_RESULT. -/
def recordFail (s : State) (units : List Nat) : State :=
  { s with ras := { s.ras with selfFail := nub (s.ras.selfFail ++ units) } }

/-- MEMORY_TRAINING_COMPLETE: `failed` names stacks whose interface did not train. -/
def execMemoryTrainingComplete (failed : List Nat) (ms : Nat) (s : State) : Host.Outcome State Fault Refusal :=
  .next (if inStep s 3 then recordFail (endStep s 3 ms) ((failed.filter (· < 8)).map (384 + ·)) else s)

/-- A repair entry as it steers: bank, subarray, spare, column (Table 15.5). -/
def repairEntry (e : Nat) : Nat × Nat × Nat × Nat := (bitsOf e 23 8, bitsOf e 19 4, bitsOf e 1 4, min 9215 (bitsOf e 5 14))

/-- A repair entry as stored: the reserved bit is zero, COLUMN clamped (R4, R5, Table 15.5). -/
def repairWord (e : Nat) : Nat := e % 2 ^ 32 / 2 ^ 19 * 2 ^ 19 + min 9215 (bitsOf e 5 14) * 2 ^ 5 + bitsOf e 1 4 * 2

/-- Whether VALID is set. -/
def repairValid (e : Nat) : Bool := bitsOf e 31 1 == 1

/-- Steer each valid entry in order; one that names a spare already steered is ignored (R349). -/
def steer (es : List Nat) : List (Nat × Nat × Nat × Nat) :=
  (es.filter repairValid).foldl (fun l e =>
    let r := repairEntry e
    if l.any fun x => x.1 == r.1 && x.2.1 == r.2.1 && x.2.2.1 == r.2.2.1 then l else l ++ [r]) []

/-- Retire a Scratch Bank: OWNER reads 0xFF (R350). -/
def retireBank (s : State) (b : Nat) : State := setScr s b { getScr s b with retired := true, owner := 255 }

/-- REPAIR_FUSE_LOAD_COMPLETE: the factory entries and then the soft table steer; banks with a fault that no spare covers are
retired; the self-test is recorded (R349, R350, R458). -/
def doRepairLoad (s : State) (fuses badBanks badTiles : List Nat) (ms : Nat) : State :=
  let fuses := (fuses.take 4096).map repairWord
  let banks := nub (badBanks.filter (· < 256))
  let tiles := nub (badTiles.filter (· < 128))
  let s := { s with scratch := { s.scratch with fuses := fuses, soft := s.nv.softRepair, steered := steer (fuses ++ s.nv.softRepair) } }
  let s := setObj (banks.foldl retireBank (endStep s 4 ms)) Obj.TILES_GOOD (128 - tiles.length)
  recordFail s (tiles ++ banks.map (128 + ·))

/-- REPAIR_FUSE_LOAD_COMPLETE (R349). -/
def execRepairFuseLoadComplete (fuses : List Nat) (badBanks badTiles : List Nat) (ms : Nat) (s : State) : Host.Outcome State Fault Refusal :=
  .next (if inStep s 4 then doRepairLoad s fuses badBanks badTiles ms else s)

/-- The partner of a channel (R353). -/
def partnerChan (n : Nat) : Nat := (n + 16) % 32

/-- The channels mounted (R353): none where no pair of channels trains. -/
def mountable (trained differ : List Nat) : List Nat :=
  let ref := (List.range 16).find? fun n => trained.contains n && trained.contains (n + 16)
  let fit := fun n => trained.contains n && !differ.contains n
  match ref with
  | none => []
  | some _ => (List.range 32).filter fun n => fit n && fit (partnerChan n)

/-- SELFTEST_PASS (Table 21.5). -/
def selfTestPass (s : State) : Bool :=
  let f := s.ras.selfFail
  let some_ := fun (lo hi : Nat) => (f.filter fun u => decide (lo ≤ u ∧ u < hi)).length
  some_ 0 128 == 0 && decide (some_ 128 384 ≤ 8) && some_ 384 392 == 0 && some_ 392 424 == 0

/-- FLASH_TRANSLATION_MOUNT: `present` channels carry targets, `trained` ones trained, `differ` ones have other parameter
pages than the reference channel; `margins` gives the read eye width of channels, in ps (R353, R354, R358, Table 16.5). -/
def doMount (s : State) (present trained differ : List Nat) (margins : List (Nat × Nat)) (targets luns rawGb ms : Nat) : State :=
  let chans := mountable (trained.filter present.contains) differ
  let lost := (List.range 32).filter fun n => present.contains n && !chans.contains n
  let d := min 2048 (chans.length * targets * luns)
  let same := s.flash.dies.map (·.num) == List.range d
  let fresh := (List.range d).map fun n => ({ num := n, readOnly := false, retired := [], next := 1, marked := [], reads := [] } : Die)
  let raw := if chans = [] then 0 else min 256000 rawGb
  let s := setObj (endStep s 5 ms) Obj.CHANNELS_MOUNTED (chans.foldl (fun n c => n + 2 ^ c) 0)
  let s := chans.foldl (fun s c => setObj s (Obj.chan_MOUNTED c) 1) s
  let s := margins.foldl (fun s m => setObj s (Obj.chan_TRAIN_MARGIN_PS (m.1 % 32)) (m.2 % 2 ^ 16)) s
  let s := setObj (setObj (setObj s Obj.DIES d) Obj.RAW_GB raw) Obj.USER_GB (raw * 7 / 8 - getObj s Obj.SYSTEM_GB)
  let s := if same then s
    else { s with flash := { s.flash with dies := fresh, maps := [], used := 0 }, nv := { s.nv with retained := [] } }
  let s := chans.foldl (fun s c => setObj s (Obj.chan_DIES_READ_ONLY c)
    (s.flash.dies.filter fun d => d.readOnly && (dieAddr s d.num).1 == c).length) s
  let s := lost.foldl (fun s c => postEvent s 0x301B c) (recordFail s (lost.map (392 + ·)))
  setObj s Obj.SELFTEST_PASS (if selfTestPass s then 1 else 0)

/-- FLASH_TRANSLATION_MOUNT (R353). -/
def execFlashTranslationMount (present trained differ : List Nat) (margins : List (Nat × Nat)) (targets luns rawGb ms : Nat) (s : State) :
    Host.Outcome State Fault Refusal :=
  .next (if inStep s 5 then doMount s present trained differ margins targets luns rawGb ms else s)

/-- INDEX_VERSIONS_SWITCH: with the scrub-pending flag set the discard of R365 is completed; the tenant key is derived
again while the node is bound; READY is due at the next turn boundary (R443, R441, R479). -/
def doVersionsSwitch (s : State) (ms : Nat) : State :=
  let s := if s.nv.scrubPending then
      { s with nv := { s.nv with retained := [] }, flash := { s.flash with maps := [], used := 0 } }
    else s
  let key := if s.nv.tenant = 1 then flashKeyOf s.nv.nonce else []
  let s := endStep s 6 ms
  { s with sec := { s.sec with flashKey := key }, clk := { s.clk with stepDone := true, readyDue := nextTurn s.turn.no } }

/-- INDEX_VERSIONS_SWITCH (R479). -/
def execIndexVersionsSwitch (ms : Nat) (s : State) : Host.Outcome State Fault Refusal :=
  .next (if inStep s 6 then doVersionsSwitch s ms else s)

/-- READY at P5 of the first turn boundary after step 6: the fused minimum SVN rises to the running copy's, and a scrub that
a loss of power interrupted has ended, which enters event 0x5001 in ERROR_LOG (R434, R443, R444, R447). -/
def doReady (s : State) (ms : Nat) : State :=
  let cut := s.nv.scrubPending
  let s := if cut then logEvent s { code := 0x5001, turn := s.turn.no, detail := getObj s Obj.SCRUB_MS } else s
  { s with dict := { s.dict with readyObj := true },
           nv := { s.nv with tenant := if cut then 0 else s.nv.tenant, scrubPending := false,
                             switches := if cut then (s.nv.switches + 1) % 2 ^ 64 else s.nv.switches,
                             minSvn := max s.nv.minSvn s.sec.fwSvn },
           clk := { s.clk with stepDone := false, readyDue := 0, bootMs := s.clk.bootMs ++ [min ms (2 ^ 32 - 1)] } }

/-- READY (R479). -/
def execReady (ms : Nat) (s : State) : Host.Outcome State Fault Refusal :=
  .next (if inStep s 7 && s.clk.stepDone && decide (s.turn.phase = .p5 ∧ s.clk.readyDue ≤ s.turn.no) then doReady s ms else s)

/-- RETAINED_MEDIA_DISCARD: in the node's 65,536th turn as a member (R480, R363). -/
def execRetainedMediaDiscard (s : State) : Host.Outcome State Fault Refusal :=
  .next (
    if isMember s && decide (s.ras.load + 65535 ≤ s.turn.no) && !s.nv.retained.isEmpty then
      discardPages { s with nv := { s.nv with retained := [] } } (s.nv.retained.flatMap fun r => r.2.2)
    else s)

end Sys2Proof.Machine
end

