-- ==== Sys2Proof/Machine/Views.lean ====
section
/-! DEFINITION. What a READ of an object returns (R411, R412): the stored value, or the value that the object's Effect column
names where another structure of the state is the object's home. -/

namespace Sys2Proof.Machine

/-- LEDGER_ROLE: 0 member, 1 holder, 2 leader. -/
def ledgerRole (s : State) : Nat := if isLeader s then 2 else if isHolder s then 1 else 0

/-- The 32-bit two's complement of a number. -/
def i32Bits (i : Int) : Nat := (i % 2 ^ 32).toNat

/-- Valid entries of the stored soft repair table. -/
def softEntries (s : State) : Nat := (s.nv.softRepair.filter repairValid).length

/-- Sum of the sizes of the active ranges, and of every range but `skip` (R325). -/
def rangesActive (s : State) : Nat :=
  (List.range 16).foldl (fun n r => if getObj s (Obj.range_STATE r) = 1 then n + getObj s (Obj.range_SIZE_GIB r) else n) 0
def rangesOther (s : State) (skip : Nat) : Nat :=
  (List.range 16).foldl (fun n r => if r = skip then n else n + getObj s (Obj.range_SIZE_GIB r)) 0

/-- Objects with one address that are computed. -/
def fixedViews : List (Nat × (State → Nat)) := [
  (Obj.TURN_NO, fun s => s.turn.no),
  (Obj.ALIGN_OFFSET_NS, fun s => i32Bits s.turn.alignOff),
  (Obj.TURN_MASTER, fun s => s.ledger.leader),
  (Obj.GATE_OPER_COUNT, fun s => s.adm.gates.oper.length),
  (Obj.GATE_OPER_BASE, fun s => s.adm.gates.base),
  (Obj.GATE_PENDING, fun s => if s.adm.gates.pend.isSome then 1 else 0),
  (Obj.COMPOSE_CAP, composeCap),
  (Obj.RUNNING_COLLECTIONS, runningCount),
  (Obj.DOMAIN_LISTS, domainLists),
  (Obj.STEPS_PER_TILE, stepsPerTile),
  (Obj.INGEST_CAP, ingestCap),
  (Obj.STAGE_CAP, stageCap),
  (Obj.WAY_READ_CAP, wayReadCap),
  (Obj.DIE_READ_CAP, dieReadCap),
  (Obj.HOT_READ_CAP, hotReadCap),
  (Obj.T1_SERVICE_MIB, t1ServiceMib),
  (Obj.T2_SERVICE_MIB, t2ServiceMib),
  (Obj.T4_REGISTERED_GIB, rangesActive),
  (Obj.BANKS_GOOD, fun s => 256 - (s.scratch.banks.filter fun b => b.2.retired).length),
  (Obj.FUSE_ENTRIES, fun s => s.scratch.fuses.length),
  (Obj.SOFT_ENTRIES, softEntries),
  (Obj.MEMBER, fun s => if isMember s then 1 else 0),
  (Obj.EPOCH, fun s => s.ledger.applied),
  (Obj.LEADER, fun s => s.ledger.leader),
  (Obj.LEDGER_ROLE, ledgerRole),
  (Obj.PORT_TURN_BYTES, portTurnBytes),
  (Obj.SERIAL, fun _ => Config.serial.toNat),
  (Obj.FW_VERSION, fun s => Config.fwVersion s.sec.fwRunning % 2 ^ 32),
  (Obj.READY, fun s => if s.dict.readyObj then 1 else 0),
  (Obj.TENANT_STATE, fun s => s.nv.tenant),
  (Obj.FW_STAGED, fun s => s.sec.staged),
  (Obj.FW_SVN, fun s => s.nv.minSvn),
  (Obj.SWITCHES, fun s => s.nv.switches),
  (Obj.SOURCES_FAILED, failedMask),
  (Obj.ON_FALLBACK, fun s => s.clk.fallback),
  (Obj.THROTTLE_STATE, throttleState),
  (Obj.BOOT_STAGE, fun s => s.clk.bootStage),
  (Obj.LAST_RESET_CAUSE, fun s => s.clk.resetCause)]

/-- GROUPS_T1, GROUPS_T2 and GROUPS_T5 of a table's active version (R128, R134). -/
def groupsCount (s : State) (t f : Nat) : Nat :=
  match (getTable s t).active with
  | none => 0
  | some v =>
    ((List.range ((v.rows + 255) / 256)).filter fun g =>
      if f = 13 then (v.group g).t1 else if f = 14 then !(v.group g).t5 else (v.group g).t5).length

/-- VECTORS: entries held on this node that are visible at the present turn. -/
def vectorsHeld (s : State) (c : Nat) : Nat := (listsOf s c).foldl (fun n l => n + (l.visibleAt s.turn.no).length) 0

/-- The statistics that a requester has selected (R180, Table 7.7). -/
def selView (s : State) (r : Requester) (f : Nat) : Nat :=
  let t := getStrm s (r.selKind, r.selId)
  let layer := if r.selKind = kLayer then (getImg s (r.selId / 1024)).bind fun i => i.layers[r.selId % 1024]? else none
  match f with
  | 1 => r.selKind
  | 2 => r.selId
  | 3 => if r.selKind = kLayer ∧ layerAway s (r.selId / 1024) (r.selId % 1024) = true then t.pubTurn else s.turn.statPub
  | 4 => f32Bits t.pubMse
  | 5 => f32Bits t.pubNmse
  | 6 => t.pubSat
  | 7 => t.pubN
  | 8 => f32Bits t.pubAux
  | 9 => (layer.map (·.pubPrec)).getD 0
  | _ => (layer.map (·.pubCount)).getD 0

/-- Requester state (Table 19.9). -/
def reqView (s : State) (r f : Nat) : Nat :=
  let q := s.dict.reqs.getD r Requester.reset
  match f with
  | 1 => q.state
  | 2 => q.beginTurn
  | 3 => q.staged.length
  | 4 => q.applyTurn
  | 5 => q.reject
  | 6 => (q.seg.map fun g => if g.write then 2 else 1).getD 0
  | 7 => (q.seg.map (·.addr)).getD 0
  | _ => (q.seg.map (·.sent)).getD 0

/-- Blocks of objects that are computed; none where the object is stored. -/
def blockView (s : State) (req a : Nat) : Option Nat :=
  let i := a / 256
  let sub := a % 256
  let f := sub % 16
  if i = 0x3803 then some (nth s.adm.gates.oper (sub - 1))
  else if i = 0x4810 then some (selView s (s.dict.reqs.getD req Requester.reset) sub)
  else if 0x4C40 ≤ i ∧ i ≤ 0x4C7F ∧ 13 ≤ sub then some (groupsCount s (i - 0x4C40) sub)
  else if 0x4D10 ≤ i ∧ i ≤ 0x4D1F ∧ sub = 10 then some (slotHolders s (i - 0x4D10))
  else if 0x4100 ≤ i ∧ i ≤ 0x41FF ∧ f = 1 then some (collState s (ownerOf 0x4100 a))
  else if 0x4100 ≤ i ∧ i ≤ 0x41FF ∧ f = 3 then some (dimsOf s (ownerOf 0x4100 a))
  else if 0x4200 ≤ i ∧ i ≤ 0x42FF ∧ f = 5 then some (((centSetAt (getColl s (ownerOf 0x4200 a)) s.turn.no).map (·.version)).getD 0)
  else if 0x4200 ≤ i ∧ i ≤ 0x42FF ∧ f = 6 then some (liveCount s (ownerOf 0x4200 a))
  else if 0x4200 ≤ i ∧ i ≤ 0x42FF ∧ f = 7 then some (vectorsHeld s (ownerOf 0x4200 a))
  else if 0x5010 ≤ i ∧ i ≤ 0x501F ∧ sub = 4 then some (rangeUsed s (i - 0x5010) / 2 ^ 30)
  else if 0x5200 ≤ i ∧ i ≤ 0x52FF then
    let c := ownerOf 0x5200 a
    some (if f = 1 then collT1 s c / 2 ^ 20 else if f = 2 then collT2 s c / 2 ^ 20 else if f = 3 then collT4 s c / 2 ^ 20
      else collT5 s c / 10 ^ 9)
  else if 0x5810 ≤ i ∧ i ≤ 0x581F ∧ f = 1 then some (getScr s (ownerOf 0x5810 a)).owner
  else if 0x5810 ≤ i ∧ i ≤ 0x581F ∧ f = 2 then some (if (getScr s (ownerOf 0x5810 a)).retired then 1 else 0)
  else if 0x1810 ≤ i ∧ i ≤ 0x1813 then some (reqView s (i - 0x1810) sub)
  else if i = 0x8003 then some (s.host.ide.getD (sub - 1) 0)
  else if i = 0x2000 ∧ sub ≤ 6 then some (nth s.nv.freqs (sub - 1))
  else none

/-- The value in force of a fixed-size object as requester `req` reads it. -/
def objVal (s : State) (req a : Nat) : Nat :=
  match look fixedViews a with
  | some f => f s
  | none => (blockView s req a).getD (getObj s a)

/-- Strings of Table 19.8. -/
def strVal (a : Nat) : List Byte :=
  if a = Obj.VENDOR then ascii "Quoholt" else if a = Obj.PRODUCT then ascii "Thiurn 7440" else ascii "TH7440-AA"

/-- ERROR_LOG: the events in the layout of Table 3.10, with the log's own tally as ENTRY_TALLY (R460). -/
def errorLogBytes (s : State) : List Byte :=
  s.nv.errorLog.flatMap fun e => eventHeader e.2 0 ++ leBytes 8 e.1

/-- SELFTEST_RESULT. -/
def selfTestBytes (s : State) : List Byte :=
  leBytes 64 (s.ras.selfFail.foldl (fun n u => n + 2 ^ u) 0)

/-- Contents in force of a DOMAIN object as requester `req` reads it. -/
def domVal (s : State) (req a : Nat) : List Byte :=
  if a = Obj.FUSE_MAP then s.scratch.fuses.flatMap (leBytes 4)
  else if a = Obj.SOFT_REPAIR then s.nv.softRepair.flatMap (leBytes 4)
  else if a = Obj.MEMBERS then nodeMask s.ledger.members
  else if a = Obj.TENANT_TAG then (if s.nv.tenant = 1 ∨ s.nv.tenant = 3 then padTo 32 s.nv.tag else padTo 32 (getDom s a))
  else if a = Obj.ID_PUBKEY then padTo 1952 (Config.idPubkey identitySeed)
  else if a = Obj.ID_CERT then Config.idCert.take 16384
  else if a = Obj.ATT_REQUEST then padTo 40 (getDom s a)
  else if a = Obj.ATT_REPORT then (s.dict.reqs.getD req Requester.reset).report
  else if a = Obj.SELFTEST_RESULT then selfTestBytes s
  else if a = Obj.ERROR_LOG then errorLogBytes s
  else if a = Obj.MARGIN_RESULT then padTo 4096 (getDom s a)
  else if a = Obj.EYE_MAP then padTo 256 (getDom s a)
  else if a = Obj.BOOT_MS then padTo 24 (s.clk.bootMs.flatMap (leBytes 4))
  else if 0x7810 ≤ a / 256 ∧ a / 256 ≤ 0x784F then
    (if getDom s a = [] then nodeMask [selfNode s] else getDom s a)
  else getDom s a

/-- What the objects read now, for the time between P4 and P5 (R35). -/
def shownNow (s : State) : Shown :=
  { objs := s.dict.objs, doms := s.dict.doms, views := fixedViews.map fun v => (v.1, v.2 s),
    sels := s.dict.reqs.map fun r => (r.selKind, r.selId), gates := s.adm.gates.oper, lives := s.colls.map fun c => (c.1, c.2.life),
    members := s.ledger.members, soft := s.nv.softRepair, freqs := s.nv.freqs }

/-- A state in which the objects hold what they read before P4. -/
def Shown.over (w : Shown) (s : State) : State :=
  let reqs := s.dict.reqs.zipIdx.map fun r =>
    { r.1 with selKind := (w.sels.getD r.2 (0, 0)).1, selId := (w.sels.getD r.2 (0, 0)).2 }
  { s with dict := { s.dict with objs := w.objs, doms := w.doms, reqs := reqs },
           adm := { s.adm with gates := { s.adm.gates with oper := w.gates } },
           colls := s.colls.map fun c => (c.1, { c.2 with life := lookD w.lives c.1 0 }),
           ledger := { s.ledger with members := w.members }, nv := { s.nv with softRepair := w.soft, freqs := w.freqs } }

/-- Bytes of an object in a state, a WO object as zero. -/
def bytesOf (s : State) (req : Nat) (r : ObjRow) (a : Nat) : List Byte :=
  match r.ty with
  | .str => strVal a
  | .domain _ => if r.acc = .wo then [] else domVal s req a
  | t => leBytes t.size (objVal s req a)

/-- Bytes that a READ of an object returns: the contents in force, which what is applied at P4 changes at P5 (R35). -/
def readBytesOf (s : State) (req : Nat) (r : ObjRow) (a : Nat) : List Byte :=
  match s.dict.was with
  | none => bytesOf s req r a
  | some w =>
    match look w.views a with
    | some v => leBytes r.ty.size v
    | none => bytesOf (w.over s) req r a

end Sys2Proof.Machine
end

