-- ==== Sys2Proof/Machine/ObjWrite.lean ====
section
/-! DEFINITION. Writes of objects: stopped conditions (R413), the tests of a write (R408, R412, R414, R431, R440, R444, R446),
clamps that depend on the state, and what a write does when it is applied (R421). -/

namespace Sys2Proof.Machine

/-! ### Stopped conditions -/

/-- Whether any collection runs in the partition. -/
def anyRuns (s : State) : Bool := s.colls.any fun p => p.2.life == 2

/-- Whether any table is enabled (R134). -/
def anyTable (s : State) : Bool := (List.range 64).any fun t => isSet s (Obj.table_TBL_EN t)

/-- Whether a running collection's composer settings name a table: its token table, or any table in FEATURES mode, whose
records carry the table number (R115, R132). -/
def tableNamed (s : State) (t : Nat) : Bool :=
  s.colls.any fun p => p.2.life == 2
    && (getObj s (Obj.coll_INPUT_MODE p.1) == 2
        || (getObj s (Obj.coll_INPUT_MODE p.1) == 1 && getObj s (Obj.coll_TOKEN_TABLE p.1) == t))

/-- Whether a slot is empty or failed (R157). -/
def slotStopped (s : State) (n : Nat) : Bool := slotState s n == 0 || slotState s n == 3

/-- The stopped condition of the service that an RWS object governs, as its chapter states it. -/
def stopped (s : State) (a : Nat) : Bool :=
  let i := a / 256
  let f := a % 16
  if a = Obj.HOST_REGION_GIB then !(s.host.queues.any fun p => p.2.enabled && p.2.loc == 1)
  else if i = 0x2000 ∨ a = Obj.SOFT_REPAIR then !isReady s || diagMode s
  else if a = Obj.SYSTEM_GB then !isReady s
  else if a = Obj.COMPOSE_T2_GIB then !isReady s || !anyTable s
  else if 0x4C40 ≤ i ∧ i ≤ 0x4C7F then !isReady s || !tableNamed s (i - 0x4C40)
  else if a = Obj.MODEL_QUOTA_GIB then (List.range 16).all (slotStopped s)
  else if 0x4D10 ≤ i ∧ i ≤ 0x4D1F then slotStopped s (i - 0x4D10)
  else if a = Obj.BAZAAR_BUF_MIB ∨ a = Obj.CACHE_LEND_GIB then !anyRuns s
  else if 0x4100 ≤ i ∧ i ≤ 0x41FF then
    let st := collState s (ownerOf 0x4100 a)
    if 3 ≤ f ∧ f ≤ 9 then st == 0 else decide (st ≤ 1)
  else if 0x4200 ≤ i ∧ i ≤ 0x42FF then decide (collState s (ownerOf 0x4200 a) ≤ 1)
  else if 0x4A00 ≤ i ∧ i ≤ 0x4AFF then decide (collState s (ownerOf 0x4A00 a) ≤ 1)
  else if 0x4E00 ≤ i ∧ i ≤ 0x4EFF then decide (collState s (ownerOf 0x4E00 a) ≤ 1)
  else if a = Obj.NODE_ID ∨ a = Obj.PARTITION_ID then !isMember s
  else if 0x7810 ≤ i ∧ i ≤ 0x784F then !isSet s (Obj.bslot_ENABLE (i - 0x7810))
  else true

/-! ### Tests of a write -/

/-- The ranges that take writes before READY and while scrubbing (R414, R444). -/
def earlyRange (a : Nat) : Bool :=
  let r := a / 256 / 0x800 * 0x800
  let i := a / 256
  r == 0x1000 || r == 0x1800 || decide (0x2000 ≤ i ∧ i < 0x2800) || r == 0x8000 || r == 0x8800

/-- What the chapter "Security and Tenancy" refuses: `v` is the value, `session` whether the request came in a session. -/
def denied (s : State) (a v : Nat) (session : Bool) : Bool :=
  (s.nv.tenant == 2 && !earlyRange a)
    || ((a == Obj.TENANT_TAG || a == Obj.BIND) && !(s.nv.tenant == 0 && isReady s))
    || (a == Obj.DIAG_EN && v != 0 && s.nv.tenant != 0)
    || (a == Obj.IDE_REQUIRED && v == 0 && s.nv.tenant == 1 && !session)
    || (a / 256 / 0x800 == 18 && !diagMode s)

/-- Whether R414 refuses a write: before READY only the early ranges, and RWS objects that are stopped. -/
def notReady (s : State) (r : ObjRow) (a : Nat) : Bool :=
  !isReady s && !earlyRange a && a / 256 / 0x800 != 18 && !(r.acc == .rws && stopped s a)

/-- Requester `req`. -/
def getReq (s : State) (req : Nat) : Requester := s.dict.reqs.getD req Requester.reset

/-- Change requester `req`. -/
def onReq (s : State) (req : Nat) (f : Requester → Requester) : State :=
  { s with dict := { s.dict with reqs := atIdx f req s.dict.reqs } }

/-- The code of a request that belongs to a transaction: none open, or one that another field-network source owns. -/
def txnCode (s : State) (req source : Nat) : Nat :=
  let q := getReq s req
  if !q.isOpen then codeTxnNone else if req = 0 ∧ q.source ≠ source then codeTxnBusy else codeOk

/-- The tests of a WRITE, in order; 0 where it passes. -/
def writeCode (s : State) (req source a : Nat) (r : ObjRow) (txn session : Bool) (v : Nat) : Nat :=
  if denied s a v session then codeDenied
  else if r.acc = .ro then codeReadOnly
  else if notReady s r a then codeNotReady
  else if r.acc = .rwt ∧ txn = false then codeNotInTxn
  else if txn = true ∧ txnCode s req source ≠ codeOk then txnCode s req source
  else if r.acc = .rws ∧ stopped s a = false then codeNotStopped
  else codeOk

/-! ### Clamps -/

/-- T1 left for services with other values of the two objects of R321. -/
def t1Left (s : State) (quota buf : Nat) : Nat :=
  t1ServiceMib s + 1024 * getObj s Obj.MODEL_QUOTA_GIB + getObj s Obj.BAZAAR_BUF_MIB - 1024 * quota - buf

/-- The largest value, from `v` down, that leaves 512 MiB of T1 (R321). -/
def fitT1 (ok : Nat → Bool) : Nat → Nat
  | 0 => 0
  | v + 1 => if ok (v + 1) then v + 1 else fitT1 ok v

/-- Whether a slot holds a ready image of a role (R150). -/
def slotServes (s : State) (n role : Nat) : Bool := decide (n < 16) && slotState s n == 2 && !slotFreeing s n && getObj s (Obj.slot_ROLE n) == role

/-- Whether the newest centroid set of a collection has a graph (R206). -/
def hasGraph (s : State) (c : Nat) : Bool :=
  match (getColl s c).cents with | [] => false | cs :: _ => !cs.edges.isEmpty

/-- Clamps that depend on more than other objects: R123, R150, R206, R276, R311, R321, R325. -/
def extraClamp (s : State) (a v : Nat) : Nat :=
  let i := a / 256
  let f := a % 16
  if 0x4C40 ≤ i ∧ i ≤ 0x4C7F ∧ a % 256 = 5 then
    (if collState s v ≠ 0 ∨ ((List.range 64).any fun t => t != i - 0x4C40 && getObj s (Obj.table_TABLE_COLLECTION t) == v) = true
     then 0xFFFF else v)
  else if 0x4100 ≤ i ∧ i ≤ 0x41FF ∧ f = 13 then (if v = 2 ∧ hasGraph s (ownerOf 0x4100 a) = false then 1 else v)
  else if 0x4E00 ≤ i ∧ i ≤ 0x4EFF ∧ f = 6 then (if slotServes s v 0 then v else 255)
  else if 0x4E00 ≤ i ∧ i ≤ 0x4EFF ∧ f = 7 then (if slotServes s v 1 && rescorerFits s (ownerOf 0x4E00 a) v then v else 255)
  else if 0x4500 ≤ i ∧ i ≤ 0x45FF ∧ f = 3 then (if isHamming s (ownerOf 0x4500 a) then 0 else v)
  else if a = Obj.MODEL_QUOTA_GIB then fitT1 (fun q => decide (512 ≤ t1Left s q (getObj s Obj.BAZAAR_BUF_MIB))) v
  else if a = Obj.BAZAAR_BUF_MIB then fitT1 (fun b => decide (512 ≤ t1Left s (getObj s Obj.MODEL_QUOTA_GIB) b)) v
  else if 0x5010 ≤ i ∧ i ≤ 0x501F ∧ a % 256 = 2 then min v (4096 - rangesOther s (i - 0x5010))
  else v

/-- A requester's view of an object: what its open transaction has staged, else the value in force (R412). -/
def viewVal (s : State) (req : Nat) (txn : Bool) (a : Nat) : Nat :=
  match (if txn then look (getReq s req).staged a else none) with
  | some b => leNat b
  | none => objVal s req a

/-- The entries of a soft repair table, cut to 512 (Tables 15.5 and 15.6). -/
def softWords (b : List Byte) : List Nat :=
  (List.range (min 512 (b.length / 4))).map fun i => repairWord (leNat (slice b (4 * i) 4))

/-- The bytes of a written value as accepted, after clamping (R410, R420). -/
def acceptBytes (s : State) (req : Nat) (txn : Bool) (r : ObjRow) (a : Nat) (data : List Byte) : List Byte :=
  match r.ty with
  | .domain n =>
    if 0x7810 ≤ a / 256 ∧ a / 256 ≤ 0x784F then clampMask s (data.take 32)
    else if a = Obj.TENANT_TAG then padTo 32 data
    else if a = Obj.ATT_REQUEST then padTo 40 data
    else if a = Obj.SOFT_REPAIR then (softWords data).flatMap (leBytes 4)
    else data.take n
  | t => leBytes t.size (extraClamp s a (clampObj (viewVal s req txn) (workWindowUs s) a (leNat (data.take t.size))))

/-! ### Application -/

/-- A value of a collection field at 0x4100 to 0x42FF: RUN, IMG_LOAD and DROP act on the collection, and the descriptor
fields are forwarded to the ledger (R182, R183, R211). -/
def applyColl (s : State) (a v : Nat) : State :=
  let f := a % 16
  if a / 256 < 0x4200 then
    let c := ownerOf 0x4100 a
    if f = 2 then (if v = 1 then doRun s c else doStop s c) else ledgerRequest s (.descriptor a v)
  else
    let c := ownerOf 0x4200 a
    if v = 0 then s else if f = 1 then doImgLoad s c else doDrop s c

/-- A value of a table object (R132). A new FORMAT clamps WIDTH again (R110). -/
def applyTable (s : State) (a v : Nat) : State :=
  let t := a / 256 - 0x4C40
  let f := a % 256
  if f = 8 then (if v = 1 then doTableLoad s t else s)
  else if f = 10 then (if v = 1 then doTableSwitch s t else s)
  else if f = 2 then
    let s := setObj s a v
    setObj s (a + 1) (clampWidth v (getObj s (a + 1)))
  else setObj s a v

/-- A value of an image slot object (R143, R152). -/
def applySlot (s : State) (a v : Nat) : State :=
  let n := a / 256 - 0x4D10
  let f := a % 256
  if f = 3 then (if v = 1 then doImageLoad s n else s)
  else if f = 6 then (if v = 1 then writeUnload s n else s)
  else setObj s a v

/-- A value of a barrier slot object (R397, R402). -/
def applyBslot (s : State) (a v : Nat) : State :=
  let n := a / 256 - 0x7810
  if a % 256 = 1 then applyBslotEnable s n v
  else if a % 256 = 7 then (if v = 1 then clearSlot s n else s)
  else setObj s a v

/-- A value of a host-tier range (R325, R326): BASE and SIZE_GIB of one transaction combine. -/
def applyRangeObj (s : State) (a v : Nat) : State :=
  let r := a / 256 - 0x5010
  let p := lookD s.place.ranges r (getObj s (Obj.range_BASE r), getObj s (Obj.range_SIZE_GIB r))
  if a % 256 = 1 then applyRange s r v p.2 false else applyRange s r p.1 v true

/-- A written frequency is stored, to act from the next reset (R463). -/
def storeFreq (s : State) (a v : Nat) : State :=
  { s with nv := { s.nv with freqs := atIdx (fun _ => v) (a % 256 - 1) s.nv.freqs } }

/-- Values of objects whose write does more than store them. TURN_PERIOD_US becomes a request to the leader; on a node of no
partition, which has none, the period stays (R30; DESIGN CHOICE, log entry 78). -/
def applyFixed (s : State) (req a v : Nat) : State :=
  if a = Obj.HOST_REGION_GIB then
    setObj (setObj s a v) Obj.HOST_REGION_BASE (if v = 0 then 0 else min (Config.hostRegionAt v) (767 - v) * 2 ^ 30)
  else if a = Obj.TURN_PERIOD_US then ledgerRequest s (.period v 0)
  else if a = Obj.STAT_EPOCH_TURNS then { setObj s a v with turn := { s.turn with statEnd := true } }
  else if a = Obj.sel_SEL_KIND then onReq s req fun q => { q with selKind := v, selId := if v = 3 then q.selId else min 4095 q.selId }
  else if a = Obj.sel_SEL_ID then onReq s req fun q => { q with selId := v }
  else if a = Obj.FOUND then (if v = 1 then doFound s else s)
  else if a = Obj.JOIN then (if v = 1 then doJoin s else setObj s a 0)
  else if a = Obj.PORT_EN then applyPortEn s v
  else if a = Obj.CACHE_LEND_GIB then ledgerRequest (trimCache (setObj s a v)) (.descriptor a v)
  else if a = Obj.DIAG_EN then
    (if v = 1 ∧ s.nv.tenant = 0 then { setObj s a 1 with sec := { s.sec with diagDue := boundary s } } else s)
  else if a = Obj.FW_ACTIVATE then (if v = 1 then doFwActivate s else s)
  else if a = Obj.IDE_REQUIRED then flushKept (setObj s a v)
  else if a = Obj.SWEEP_START then (if v = 1 then doSweepStart s else s)
  else if a = Obj.FMC_START then (if v = 1 then doFmcStart s else s)
  else setObj s a v

/-- A clamped value of a fixed-size object takes effect. -/
def applyVal (s : State) (req a v : Nat) : State :=
  let i := a / 256
  if 0x4100 ≤ i ∧ i ≤ 0x42FF then applyColl s a v
  else if partitionWide a then ledgerRequest s (.descriptor a v)
  else if 0x3A00 ≤ i ∧ i ≤ 0x3F01 then
    (if a % 16 = 1 then applyMeterEn s a v else if a % 16 = 6 then setObj s a v else applyMeterParam s a v)
  else if 0x4C40 ≤ i ∧ i ≤ 0x4C7F then applyTable s a v
  else if 0x4D10 ≤ i ∧ i ≤ 0x4D1F then applySlot s a v
  else if 0x4820 ≤ i ∧ i ≤ 0x482F ∧ a % 256 = 2 then applyPrecisionMode (setObj s a v) (i - 0x4820) v
  else if 0x4820 ≤ i ∧ i ≤ 0x482F ∧ a % 256 = 4 then setScaleN s a v fun k => k.1 == kLayer && k.2 / 1024 == i - 0x4820
  else if 0x4A00 ≤ i ∧ i ≤ 0x4AFF ∧ a % 16 = 2 then setScaleN s a v fun k => k.1 != kLayer && k.2 == ownerOf 0x4A00 a
  else if 0x5010 ≤ i ∧ i ≤ 0x501F then applyRangeObj s a v
  else if 0x7810 ≤ i ∧ i ≤ 0x784F then applyBslot s a v
  else if i = 0x2000 then storeFreq s a v
  else applyFixed s req a v

/-- Contents of a DOMAIN object take effect. -/
def applyDom (s : State) (req a : Nat) (b : List Byte) : State :=
  if a = Obj.SOFT_REPAIR then { s with nv := { s.nv with softRepair := softWords b } }
  else if a = Obj.ATT_REQUEST then doAttRequest (setDom s a (attRequest b)) req b
  else if 0x7810 ≤ a / 256 ∧ a / 256 ≤ 0x784F then setDom s a (clampMask s b)
  else setDom s a b

/-- One write takes effect, its value clamped again against the state of this moment (R421). -/
def applyWrite (s : State) (req a : Nat) (b : List Byte) : State :=
  match rowAt a with
  | none => s
  | some r =>
    if r.ty.isDomain then applyDom s req a b
    else applyVal s req a (extraClamp s a (clampObj (objVal s req) (workWindowUs s) a (leNat b)))

/-- One write of a transaction at P4. BIND acts only beside a write of TENANT_TAG; SWITCH waits for the end of the boundary's
writes (R431, R442). -/
def applyStaged (tagged : Bool) (req : Nat) (s : State) (w : Nat × List Byte) : State :=
  if w.1 = Obj.BIND then
    if leNat w.2 = 1 ∧ tagged = true ∧ s.nv.tenant = 0 then
      { setObj s Obj.BIND 1 with sec := { s.sec with bindDue := boundary s } }
    else setObj s Obj.BIND 0
  else if w.1 = Obj.SWITCH then setObj s Obj.SWITCH (leNat w.2)
  else applyWrite s req w.1 w.2

/-- The first RWS object of a transaction that is not stopped (R422). -/
def firstRunning (s : State) (ws : List (Nat × List Byte)) : Option Nat :=
  (ws.find? fun w => ((rowAt w.1).map fun r => r.acc == .rws && !stopped s w.1).getD false).map (·.1)

/-- Apply or reject one committed transaction at P4 (R421, R422, R425). -/
def applyJob (s : State) (j : CommitJob) : State :=
  match firstRunning s j.writes with
  | some a => bump (onReq s j.req fun q => { q with state := if j.shown then 5 else q.state, reject := a }) Obj.REJECTED_TXNS 1
  | none =>
    let tagged := j.writes.any fun w => w.1 == Obj.TENANT_TAG
    let on := (j.writes.map (·.1)).filter fun m => decide (0x3A00 ≤ m / 256 ∧ m / 256 ≤ 0x3F01) && m % 16 == 1 && !isSet s m
    let s := on.foldl fillMeter (j.writes.foldl (applyStaged tagged j.req) s)
    let s := if j.writes.any fun w => gateObject w.1 then pendGates s (boundary s) else s
    bump (onReq s j.req fun q => { q with state := if j.shown then 3 else q.state, applyTurn := boundary s }) Obj.COMMITS 1

/-- The commits counted at this boundary, in the order of acceptance. -/
def dueCommits (s : State) : List CommitJob := s.dict.commits.filter fun j => decide (j.due ≤ boundary s)

/-- Apply commits, and put their requests to the leader behind `old` but for those that a caravan carries already (R422). -/
def applyCommits (s : State) (due : List CommitJob) : State :=
  let old := s.ledger.outReqs
  let s := due.foldl applyJob { s with ledger := { s.ledger with outReqs := [] } }
  { s with ledger := { s.ledger with outReqs := old ++ s.ledger.forwarded.foldl List.erase s.ledger.outReqs, forwarded := [] } }

/-- What the commits counted at this boundary ask of the leader. -/
def dueRequests (s : State) : List LedgerRec :=
  ((dueCommits s).foldl applyJob { s with ledger := { s.ledger with outReqs := [] } }).ledger.outReqs

/-- The caravan that closes at P2 carries the requests of the commits counted at its boundary (R422, R382). -/
def forwardDue (s : State) : State :=
  if isMember s then
    { s with ledger := { s.ledger with outReqs := s.ledger.outReqs ++ dueRequests s, forwarded := dueRequests s } }
  else s

/-- TXN_APPLY at P4: every commit counted at this boundary, in the order of acceptance; then a SWITCH (R421, R442). -/
def doTxnApply (s : State) : State :=
  if s.turn.phase ≠ .p4 then s
  else
    let due := dueCommits s
    let s := { s with dict := { s.dict with commits := s.dict.commits.filter fun j => !decide (j.due ≤ boundary s) } }
    let s := applyCommits s due
    if !isSet s Obj.SWITCH || s.sec.switchDue != 0 then s
    else if s.nv.tenant = 2 then setObj s Obj.SWITCH 0
    else doSwitch s

/-- TXN_APPLY (R421). -/
def execTxnApply (s : State) : Host.Outcome State Fault Refusal := .next (doTxnApply s)

end Sys2Proof.Machine
end

