-- ==== Sys2Proof/Machine/Dictionary.lean ====
section
/-! DEFINITION. The Object Dictionary (chapter 19): messages, transactions, segmented transfers, and the carriers, with the
attestation and SECURED messages of chapter 20. -/

namespace Sys2Proof.Machine

/-- Address of the object that a message names. -/
def DictMsg.addr (m : DictMsg) : Nat := m.index * 256 + m.sub

/-- What a request gives: the new state, the code and the response data. -/
abbrev Reply := State × Nat × List Byte

/-- A refusal: nothing changes (R408). -/
def refuse (s : State) (code : Nat) : Reply := (s, code, [])

/-- Whether every access to an index is denied: range 0x9000 outside diagnostic mode (R446). -/
def hidden (s : State) (m : DictMsg) : Bool := m.index / 0x800 == 18 && !diagMode s

/-- Whether a DOMAIN moves only in segments (R410). -/
def segOnly (r : ObjRow) : Bool :=
  match r.ty with
  | .domain n => decide (1024 < n)
  | _ => false

/-! ### READ and WRITE (R410 to R412, R420, R423) -/

/-- READ. -/
def doRead (s : State) (req source : Nat) (m : DictMsg) : Reply :=
  let a := m.index * 256 + m.sub
  if hidden s m then refuse s codeDenied
  else if m.sub = 0 then
    (if subZero m.index = 0 then refuse s codeNoObject
     else if m.txn = true ∧ txnCode s req source ≠ codeOk then refuse s (txnCode s req source)
     else (s, codeOk, leBytes 1 (subZero m.index)))
  else
    match rowAt a with
    | none => refuse s codeNoObject
    | some r =>
      if m.txn = true ∧ txnCode s req source ≠ codeOk then refuse s (txnCode s req source)
      else if segOnly r then refuse s codeSegState
      else
        let staged := if m.txn && r.acc != .wo then look (getReq s req).staged a else none
        (s, codeOk, staged.getD (readBytesOf s req r a))

/-- Bytes staged by a transaction. -/
def stagedBytes (ws : List (Nat × List Byte)) : Nat := ws.foldl (fun n w => n + w.2.length) 0

/-- Stage a write at the end of the order; the object's earlier write is removed. None where a limit of R423 would be
exceeded. -/
def stageWriteOf (ws : List (Nat × List Byte)) (a : Nat) (b : List Byte) : Option (List (Nat × List Byte)) :=
  let ws := ws.filter (fun w => w.1 != a) ++ [(a, b)]
  if 4096 < ws.length ∨ 262144 < stagedBytes ws then none else some ws

/-- A later commit or transaction of a requester hides the outcome of its pending ones from TXN_STATE (R425). -/
def hideJobs (s : State) (req : Nat) : State :=
  { s with dict := { s.dict with commits := s.dict.commits.map fun j => if j.req == req then { j with shown := false } else j } }

/-- Hand writes on for application at the first boundary whose P2 tick follows (R421). -/
def pushCommit (s : State) (req : Nat) (ws : List (Nat × List Byte)) (shown : Bool) : State :=
  { s with dict := { s.dict with commits := s.dict.commits ++ [{ req := req, writes := ws, due := dueTurn s, shown := shown }] } }

/-- A single write applied as a transaction of its own (R412). -/
def commitOne (s : State) (req a : Nat) (b : List Byte) : State :=
  if (getReq s req).isOpen then pushCommit s req [(a, b)] false
  else pushCommit (onReq (hideJobs s req) req fun q => { q with state := 2 }) req [(a, b)] true

/-- WRITE. -/
def doWrite (s : State) (req source : Nat) (session : Bool) (m : DictMsg) : Reply :=
  let a := m.index * 256 + m.sub
  if hidden s m then refuse s codeDenied
  else if m.sub = 0 then refuse s (if subZero m.index = 0 then codeNoObject else codeReadOnly)
  else
    match rowAt a with
    | none => refuse s codeNoObject
    | some r =>
      let code := writeCode s req source a r m.txn session (leNat (m.data.take r.ty.size))
      if code ≠ codeOk then refuse s code
      else if segOnly r then refuse s codeSegState
      else
        let b := acceptBytes s req m.txn r a m.data
        if m.txn then
          match stageWriteOf (getReq s req).staged a b with
          | none => refuse s codeTxnFull
          | some ws => (onReq s req fun q => { q with staged := ws }, codeOk, b)
        else if r.acc = .rws then (commitOne s req a b, codeOk, b)
        else (applyWrite s req a b, codeOk, b)

/-! ### Transactions (R420, R424, R425) -/

/-- BEGIN. -/
def doBegin (s : State) (req source : Nat) : Reply :=
  if (getReq s req).isOpen then refuse s codeTxnBusy
  else
    (onReq (hideJobs s req) req fun q =>
      { q with isOpen := true, source := source, staged := [], beginTurn := dueTurn s, state := 1 }, codeOk, [])

/-- COMMIT. -/
def doCommit (s : State) (req source : Nat) : Reply :=
  let code := txnCode s req source
  if code ≠ codeOk then refuse s code
  else
    let ws := (getReq s req).staged
    (pushCommit (onReq (hideJobs s req) req fun q => { q with isOpen := false, staged := [], state := 2 }) req ws true, codeOk, [])

/-- ROLLBACK. -/
def doRollback (s : State) (req source : Nat) : Reply :=
  let code := txnCode s req source
  if code ≠ codeOk then refuse s code
  else (bump (onReq s req fun q => { q with isOpen := false, staged := [], state := 0 }) Obj.ROLLBACKS 1, codeOk, [])

/-! ### Segmented transfers (R427) -/

/-- The boundary at which a transfer that receives no further command is aborted. -/
def segDeadline (s : State) : Nat := dueTurn s + getObj s Obj.SEG_IDLE_TURNS

/-- Replace the transfer of a requester. -/
def setSeg (s : State) (req : Nat) (g : Option Seg) : State := onReq s req fun q => { q with seg := g }

/-- The open transfer, if a command of this source fits its direction and object. -/
def segFor (s : State) (req source : Nat) (write : Bool) (m : DictMsg) : Option Seg :=
  match (getReq s req).seg with
  | none => none
  | some g =>
    if (req = 0 ∧ g.source ≠ source) ∨ g.write ≠ write ∨ g.addr ≠ m.index * 256 + m.sub then none else some g

/-- SEG_READ_INIT: a snapshot of the DOMAIN; a WO object reads as nothing. -/
def doSegReadInit (s : State) (req source : Nat) (m : DictMsg) : Reply :=
  let a := m.index * 256 + m.sub
  if hidden s m then refuse s codeDenied
  else match rowAt a with
  | none => refuse s codeNoObject
  | some r =>
    if !r.ty.isDomain then refuse s codeNoObject
    else if (getReq s req).seg.isSome then refuse s codeSegState
    else if m.txn = true ∧ txnCode s req source ≠ codeOk then refuse s (txnCode s req source)
    else
      let staged := if m.txn then look (getReq s req).staged a else none
      let b := if r.acc = .wo then [] else staged.getD (readBytesOf s req r a)
      let g : Seg := { write := false, addr := a, size := b.length, content := b, sent := 0, source := source, txn := m.txn,
                       deadline := segDeadline s }
      (setSeg s req (some g), codeOk, leBytes 8 b.length)

/-- SEG_READ: bytes from OFFSET; the transfer closes with the last byte. -/
def doSegRead (s : State) (req source : Nat) (m : DictMsg) : Reply :=
  match segFor s req source false m with
  | none => refuse s codeSegState
  | some g =>
    let off := m.offset / 4 * 4
    let n := min (min (leNat (m.data.take 4)) (g.size - off)) (largestData req)
    let last := decide (0 < n ∧ off + n = g.size)
    let g := { g with sent := g.sent + n, deadline := segDeadline s }
    (setSeg s req (if last then none else some g), codeOk, slice g.content off n)

/-- SEG_WRITE_INIT: tested as a WRITE; the size is cut to the object's range. -/
def doSegWriteInit (s : State) (req source : Nat) (session : Bool) (m : DictMsg) : Reply :=
  let a := m.index * 256 + m.sub
  if hidden s m then refuse s codeDenied
  else match rowAt a with
  | none => refuse s codeNoObject
  | some r =>
    if !r.ty.isDomain then refuse s codeNoObject
    else if (getReq s req).seg.isSome then refuse s codeSegState
    else
      let code := writeCode s req source a r m.txn session 0
      if code ≠ codeOk then refuse s code
      else
        let g : Seg := { write := true, addr := a, size := min (leNat (m.data.take 8)) r.ty.size, content := [], sent := 0,
                         source := source, txn := m.txn, deadline := segDeadline s }
        (setSeg s req (some g), codeOk, [])

/-- SEG_WRITE. -/
def doSegWrite (s : State) (req source : Nat) (m : DictMsg) : Reply :=
  match segFor s req source true m with
  | none => refuse s codeSegState
  | some g =>
    let off := m.offset / 4 * 4
    let g' := { g with deadline := segDeadline s }
    if (m.data.length % 4 ≠ 0 ∧ off + m.data.length < g.size) ∨ g.sent < off then (setSeg s req (some g'), codeSegGap, [])
    else if off < g.sent then (setSeg s req (some g'), codeOk, [])
    else
      let b := g.content ++ m.data.take (g.size - off)
      (setSeg s req (some { g' with content := b, sent := b.length }), codeOk, [])

/-- SEG_WRITE_END: the CRC-32C of the whole content, then the tests of the WRITE again; FW_IMAGE is verified here (R434). -/
def doSegWriteEnd (s : State) (req source : Nat) (session : Bool) (m : DictMsg) : Reply :=
  match segFor s req source true m with
  | none => refuse s codeSegState
  | some g =>
    let keep := setSeg s req (some { g with deadline := segDeadline s })
    if g.sent < g.size then (keep, codeSegGap, [])
    else if crc32c g.content ≠ leNat (m.data.take 4) then (bump (setSeg s req none) Obj.SEG_CHECK_FAILS 1, codeSegCheck, [])
    else
      match rowAt g.addr with
      | none => refuse s codeNoObject
      | some r =>
        let code := writeCode s req source g.addr r m.txn session 0
        if code ≠ codeOk then (keep, code, [])
        else if g.addr = Obj.FW_IMAGE then
          let f := stageFirmware (setSeg s req none) g.content
          (f.1, if f.2 then codeOk else codeDenied, [])
        else
          let b := acceptBytes s req m.txn r g.addr g.content
          if m.txn then
            match stageWriteOf (getReq s req).staged g.addr b with
            | none => (keep, codeTxnFull, [])
            | some ws => (onReq (setSeg s req none) req fun q => { q with staged := ws }, codeOk, [])
          else (commitOne (setSeg s req none) req g.addr b, codeOk, [])

/-- SEG_ABORT. -/
def doSegAbort (s : State) (req source : Nat) : Reply :=
  match (getReq s req).seg with
  | none => refuse s codeSegState
  | some g => if req = 0 ∧ g.source ≠ source then refuse s codeSegState else (setSeg s req none, codeOk, [])

/-! ### One request (R405 to R409) -/

/-- Execute a request whose header is recognised. -/
def runCommand (s : State) (req source : Nat) (session : Bool) (m : DictMsg) : Reply :=
  if m.ver ≠ 1 then refuse s codeBadMessage
  else if m.cmd = 0x01 then doRead s req source m
  else if m.cmd = 0x02 then doWrite s req source session m
  else if m.cmd = 0x10 then doBegin s req source
  else if m.cmd = 0x11 then doCommit s req source
  else if m.cmd = 0x12 then doRollback s req source
  else if m.cmd = 0x20 then doSegReadInit s req source m
  else if m.cmd = 0x21 then doSegRead s req source m
  else if m.cmd = 0x22 then doSegWriteInit s req source session m
  else if m.cmd = 0x23 then doSegWrite s req source m
  else if m.cmd = 0x24 then doSegWriteEnd s req source session m
  else if m.cmd = 0x25 then doSegAbort s req source
  else refuse s codeBadMessage

/-- Whether a request is one that the boot ROM answers when no firmware copy passes (R433). -/
def romServes (m : DictMsg) : Bool :=
  (m.cmd == 0x01 && m.index == 0x1000)
    || (decide (0x22 ≤ m.cmd ∧ m.cmd ≤ 0x25) && (m.cmd == 0x25 || m.index * 256 + m.sub == Obj.FW_IMAGE))

/-- Whether a request is answered now: requester 3 always, the others once the Management Controller runs its firmware;
nothing while it resets (Table 19.1, R455, R433). -/
def serves (s : State) (req : Nat) (m : DictMsg) : Bool :=
  nodeOn s && !s.ras.mcDown
    && (s.dict.served || req == 3 || (req == 0 && s.clk.bootFailed && romServes m))

/-- Data cut to the carrier's largest and to LEN (R406). -/
def cutMsg (req : Nat) (m : DictMsg) : DictMsg := { m with data := m.data.take (min m.len (largestData req)) }

/-- Serve one request: a response that is stored answers a repeated request; a message with RESP = 1 is dropped. -/
def serve (s : State) (req source : Nat) (session : Bool) (msg : DictMsg) : State × Option DictResp :=
  let m := cutMsg req msg
  if m.resp || !serves s req m then (s, none)
  else
    let stored := match (getReq s req).last with
      | some (m', src, r) => if m' = m ∧ (req ≠ 0 ∨ src = source) then some r else none
      | none => none
    match stored with
    | some r => (bump s Obj.REPEATS 1, some r)
    | none =>
      let p := runCommand s req source session m
      let r : DictResp := { cmd := m.cmd, tag := m.tag, index := m.index, sub := m.sub, code := p.2.1, data := p.2.2 }
      (onReq p.1 req fun q => { q with last := some (m, source, r) }, some r)

/-- Serve a request and send its response to `source` on the requester's carrier. -/
def serveTo (s : State) (req source : Nat) (m : DictMsg) : State :=
  let p := serve s req source false m
  match p.2 with
  | some r => emit p.1 (.dictResp req source r)
  | none => p.1

/-! ### Commands: one per CMD of Table 19.3, for a request that reached the Management Controller -/

/-- READ (R407, R412). -/
def execRead (req : Nat) (msg : DictMsg) (s : State) : Host.Outcome State Fault Refusal := .next (serveTo s req 0 { msg with cmd := 0x01 })
/-- WRITE (R412). -/
def execWrite (req : Nat) (msg : DictMsg) (s : State) : Host.Outcome State Fault Refusal := .next (serveTo s req 0 { msg with cmd := 0x02 })
/-- BEGIN (R420). -/
def execTxnBegin (req : Nat) (msg : DictMsg) (s : State) : Host.Outcome State Fault Refusal := .next (serveTo s req 0 { msg with cmd := 0x10 })
/-- COMMIT (R420). -/
def execCommit (req : Nat) (msg : DictMsg) (s : State) : Host.Outcome State Fault Refusal := .next (serveTo s req 0 { msg with cmd := 0x11 })
/-- ROLLBACK (R420). -/
def execRollback (req : Nat) (msg : DictMsg) (s : State) : Host.Outcome State Fault Refusal := .next (serveTo s req 0 { msg with cmd := 0x12 })
/-- SEG_READ_INIT (R427). -/
def execSegReadInit (req : Nat) (msg : DictMsg) (s : State) : Host.Outcome State Fault Refusal := .next (serveTo s req 0 { msg with cmd := 0x20 })
/-- SEG_READ (R427). -/
def execSegRead (req : Nat) (msg : DictMsg) (s : State) : Host.Outcome State Fault Refusal := .next (serveTo s req 0 { msg with cmd := 0x21 })
/-- SEG_WRITE_INIT (R427). -/
def execSegWriteInit (req : Nat) (msg : DictMsg) (s : State) : Host.Outcome State Fault Refusal := .next (serveTo s req 0 { msg with cmd := 0x22 })
/-- SEG_WRITE (R427). -/
def execSegWrite (req : Nat) (msg : DictMsg) (s : State) : Host.Outcome State Fault Refusal := .next (serveTo s req 0 { msg with cmd := 0x23 })
/-- SEG_WRITE_END (R427). -/
def execSegWriteEnd (req : Nat) (msg : DictMsg) (s : State) : Host.Outcome State Fault Refusal := .next (serveTo s req 0 { msg with cmd := 0x24 })
/-- SEG_ABORT (R427). -/
def execSegAbort (req : Nat) (msg : DictMsg) (s : State) : Host.Outcome State Fault Refusal := .next (serveTo s req 0 { msg with cmd := 0x25 })

/-- TXN_WATCHDOG at P3: a transaction open for 65,536 turns is rolled back (R424). -/
def execTxnWatchdog (req : Nat) (s : State) : Host.Outcome State Fault Refusal :=
  .next (
    let q := getReq s req
    if s.turn.phase = .p3 ∧ q.isOpen = true ∧ q.beginTurn + 65536 ≤ boundary s then
      let s := onReq s req fun q => { q with isOpen := false, staged := [], state := 4 }
      postEvent (bump s Obj.WATCHDOG_ROLLBACKS 1) 0x2010 req
    else s)

/-- SEG_IDLE_TIMEOUT: a transfer without a command for SEG_IDLE_TURNS turns is aborted (R427). -/
def execSegIdleTimeout (req : Nat) (s : State) : Host.Outcome State Fault Refusal :=
  .next (
    match (getReq s req).seg with
    | some g => if s.turn.phase = .p3 ∧ g.deadline ≤ boundary s then setSeg s req none else s
    | none => s)

/-! ### Carriers (R415 to R419, R437 to R439) -/

/-- Whether the field-network port accepts a frame (R415). -/
def fnAccepts (s : State) (f : FnFrame) : Bool :=
  f.fcsOk && !f.vlan && f.ethertype == 0x88B5
    && (f.dst == getObj s Obj.MAC_ADDR || (f.dst == 2 ^ 48 - 1 && f.msg.cmd == 0x01 && f.msg.index == 0x1000))

/-- FN_FRAME (R415). -/
def execFnFrame (frame : FnFrame) (s : State) : Host.Outcome State Fault Refusal :=
  .next (
    if !nodeOn s then s
    else if fnAccepts s frame then serveTo (bump s Obj.FN_FRAMES_IN 1) 0 frame.src frame.msg
    else bump s Obj.FN_FRAMES_DROPPED 1)

/-- The request message in the mailbox's request area: its header and LEN bytes of data. -/
def mailboxMsg (mb : Mailbox) : DictMsg :=
  let at_ := fun (i : Nat) => BitVec.ofNat 8 (lookD mb.request i 0)
  let header := (List.range 16).map at_
  let len := min 16384 (bitsOf (leNat header) 64 16)
  parseMsg 16384 (header ++ (List.range len).map fun i => at_ (16 + i))

/-- Change the mailbox. -/
def onMb (s : State) (f : Mailbox → Mailbox) : State := { s with dict := { s.dict with mb := f s.dict.mb } }

/-- A GO that the mailbox takes: the request is executed, the response is written, DONE is set and BUSY clears, and the message
follows if EN is 1 (R418). While the Management Controller resets BUSY stays set (R455). -/
def mailboxGo (s : State) : State :=
  if s.dict.mb.busy then onMb s fun m => { m with ignored := true }
  else if s.ras.mcDown then onMb s fun m => { m with busy := true }
  else
    let p := serve s 1 0 false (mailboxMsg s.dict.mb)
    match p.2 with
    | none => p.1
    | some r =>
      let s := onMb p.1 fun m => { m with response := respBytes r, done := true }
      if s.dict.mb.irqEn then msixSend s s.dict.mb.vector else s

/-- A posted request that IDE_REQUIRED refuses: dropped and counted (R440). -/
def ideRefused (s : State) (secure : Bool) : Bool := isSet s Obj.IDE_REQUIRED && !secure

/-- MB_GO: a write of GO = 1 (R418, R440). -/
def execMbGo (secure : Bool) (s : State) : Host.Outcome State Fault Refusal :=
  .next (if ideRefused s secure then bump s Obj.IDE_REFUSED 1 else mailboxGo s)

/-- Whether the DOE mailbox is served (Table 19.1). -/
def doeServed (s : State) : Bool := nodeOn s && isReady s && !s.ras.mcDown && !s.host.perstLow

/-- The response stands in the DOE mailbox until the host's next request or an abort. -/
def doeAnswer (s : State) (r : DoeResp) : State := { s with host := { s.host with doeResp := some r } }

/-- DOE Discovery: vendor ID, protocol and next index, in the layout of PCI Express (PRESUMED, log entry 31). -/
def discoveryBytes (index : Nat) : List Byte :=
  match index with
  | 0 => leBytes 2 0x0001 ++ leBytes 1 0 ++ leBytes 1 1
  | 1 => leBytes 2 0x1F7E ++ leBytes 1 1 ++ leBytes 1 2
  | 2 => leBytes 2 0x1F7E ++ leBytes 1 2 ++ leBytes 1 0
  | _ => leBytes 2 0xFFFF ++ leBytes 1 0 ++ leBytes 1 0

/-- DOE_REQUEST: Discovery, or a dictionary message of requester 2 (R419). -/
def execDoeRequest (obj : DoeObj) (s : State) : Host.Outcome State Fault Refusal :=
  .next (
    if !doeServed s then s
    else
      match obj with
      | .discovery i => doeAnswer s (.discovery (discoveryBytes i))
      | .dict m =>
        let p := serve s 2 0 false m
        match p.2 with
        | some r => doeAnswer p.1 (.dict r)
        | none => p.1)

/-- DOE_ABORT: the response is discarded, the request's effect stands (R419). -/
def execDoeAbort (s : State) : Host.Outcome State Fault Refusal := .next { s with host := { s.host with doeResp := none } }

/-- GET_REPORT: NONCE, EK_LEN and an encapsulation key; with a key a fresh secret opens a session (R437). -/
def doGetReport (s : State) (data coins : List Byte) : State :=
  let nonce := padTo 32 data
  let ekLen := if leNat (slice data 32 2) = 1184 then 1184 else 0
  if ekLen = 0 then doeAnswer s (.report (reportOf s nonce []))
  else
    let e := Config.encapsulate (padTo 1184 (data.drop 40)) coins
    let ct := padTo 1088 e.2
    let keys := shake256 (e.1 ++ reportBody s nonce ct) 64
    let s' := doeAnswer s (.report (reportOf s nonce ct))
    { s' with host := { s'.host with session := some { keys := keys, lastSeq := none, mySeq := 0 } } }

/-- GET_REPORT (R437). -/
def execGetReport (data coins : List Byte) (s : State) : Host.Outcome State Fault Refusal :=
  .next (if doeServed s then doGetReport s data coins else s)

/-- A FAIL answer, counted in SESSION_FAILS. -/
def doeFail (s : State) (cause : Nat) : State := bump (doeAnswer s (.fail cause)) Obj.SESSION_FAILS 1

/-- Answer in SECURED form with the device's own SEQ. -/
def securedAnswer (s : State) (r : Option DictResp) : State :=
  match s.host.session with
  | none => s
  | some ss => doeAnswer { s with host := { s.host with session := some { ss with mySeq := ss.mySeq + 1 } } } (.secured ss.mySeq r)

/-- SECURED: the sequence, then the tag, then the plaintext (R438, R439). -/
def doSecured (s : State) (seq : Nat) (tagOk : Bool) (body : SecBody) : State :=
  match s.host.session with
  | none => doeFail s 1
  | some ss =>
    if (ss.lastSeq.map fun l => decide (seq ≤ l)).getD false then doeFail s 2
    else if !tagOk then postEvent (doeFail { s with host := { s.host with session := none } } 3) 0x5005 0
    else
      let s := { s with host := { s.host with session := some { ss with lastSeq := some seq } } }
      match body with
      | .malformed => doeFail s 4
      | .dict m =>
        let p := serve s 2 0 true m
        (match p.2 with
         | some r => securedAnswer p.1 (some r)
         | none => p.1)
      | .ideKm stream keySet secure =>
        let s := setIde s stream (if secure then 2 else 1)
        let s := { s with host := { s.host with ideSet := atIdx (fun _ => keySet % 2) stream s.host.ideSet } }
        securedAnswer (flushKept s) none

/-- SECURED (R438). -/
def execSecured (seq : Nat) (tagOk : Bool) (body : SecBody) (s : State) : Host.Outcome State Fault Refusal :=
  .next (if doeServed s then doSecured s seq tagOk body else s)

end Sys2Proof.Machine
end

