-- ==== Sys2Proof/Machine/HostIf.lean ====
section
/-! DEFINITION. The Host Interface as the host reaches it (chapter 03): the link, BAR0 registers, BAR2, the enabling of
queues, doorbells and the fetch of submission entries. -/

namespace Sys2Proof.Machine

/-- Whether requests of the host reach the node: it is powered and PERST# is high (R478). -/
def hostHears (s : State) : Bool := nodeOn s && !s.host.perstLow

/-- Change the Host Interface. -/
def onHost (s : State) (f : HostIf → HostIf) : State := { s with host := f s.host }

/-! ### The link (R58, R466) -/

/-- Whether a rate code and a width are those of R58. -/
def linkServes (rate width : Nat) : Bool := decide (1 ≤ rate ∧ rate ≤ 3) && (width == 4 || width == 8 || width == 16)

/-- The link settles: it is used at the trained rate and width; below ×16 at 64 GT/s DEGRADED is set and event 0x6002 posted.
Entries that were kept are written now (R466). -/
def settleLink (s : State) (rate width : Nat) : State :=
  let low := !(rate == 3 && width == 16)
  let s := onHost s fun h => { h with linkUp := true, rate := rate, width := width, degraded := low }
  flushKept (if low then postEvent s 0x6002 (rate + 8 * width) else s)

/-- PCIE_LINK_UP (R58). A link without its reference clock, or held by PERST#, stays down (R466, R478). -/
def execPcieLinkUp (rate width : Nat) (s : State) : Host.Outcome State Fault Refusal :=
  .next (if hostHears s && !s.clk.failed.contains 2 && linkServes rate width then settleLink s rate width else s)

/-- PCIE_LINK_DOWN (R466). -/
def execPcieLinkDown (s : State) : Host.Outcome State Fault Refusal := .next (hostLinkDown s)

/-- Bytes of the BAR2 aperture. -/
def aperture (s : State) : Nat := 2 ^ (34 + s.host.bar2Size)

/-- The clamp of R62. -/
def clampBase (s : State) (v : Nat) : Nat := min (v % 2 ^ 40 / aperture s * aperture s) (searchBytes - aperture s)

/-- Write BAR2_WINDOW_BASE. -/
def setBase (s : State) (v : Nat) : State := onHost s fun h => { h with bar2Base := clampBase s v }

/-- What a configuration register reads, in the places that the PCI Express base specification gives its fields (Table 3.1; log
entry 83). -/
def cfgRead (s : State) : CfgReg → Nat
  | .ids => 0x7440 * 2 ^ 16 + 0x1F7E
  | .classRev => 0x120000 * 2 ^ 8 + 0xA1
  | .devCtl => s.host.mps * 2 ^ 5 + s.host.mrrs * 2 ^ 12
  | .aer => s.host.aer
  | .rebar => (14 + s.host.bar2Size) * 2 ^ 8
  | .ideAssoc st b w => if st < 4 ∧ b < 2 ∧ w < 3 then lookD s.host.ideAssoc (6 * st + 3 * b + w) 0 else 0

/-- What an address association register keeps of a write: the first word its valid bit and the lower base and limit (R439). -/
def assocWord (w v : Nat) : Nat := if w = 0 then v % 2 ^ 32 / 2 ^ 8 * 2 ^ 8 + v % 2 else v % 2 ^ 32

/-- A write of a configuration register: sizes are cut to those supported, AER status bits are cleared by writing 1, and the base of
BAR2 follows a new aperture (Table 3.1, R61, R62). -/
def cfgWrite (s : State) (r : CfgReg) (v : Nat) : State :=
  match r with
  | .ids | .classRev => s
  | .devCtl => onHost s fun h => { h with mps := min 2 (bitsOf v 5 3), mrrs := min 5 (bitsOf v 12 3) }
  | .aer => onHost s fun h => { h with aer := h.aer - (h.aer &&& v) }
  | .rebar =>
    let s := onHost s fun h => { h with bar2Size := min 4 (bitsOf v 8 6 - 14) }
    setBase s s.host.bar2Base
  | .ideAssoc st b w =>
    if st < 4 ∧ b < 2 ∧ w < 3 then
      flushKept (onHost s fun h => { h with ideAssoc := sput 0 h.ideAssoc (6 * st + 3 * b + w) (assocWord w v) })
    else s

/-- CONFIG_REQUEST: Configuration Request Retry Status until the node is ready (R59, R479). -/
def execConfigRequest (req : CfgReq) (s : State) : Host.Outcome State Fault Refusal :=
  .next (
    if !hostHears s then s
    else if !isReady s then emit s .cfgRetry
    else match req with
      | .read r => emit s (.cfgData (cfgRead s r))
      | .write r v => emit (cfgWrite s r v) .cfgOk)

/-! ### RC registers (R3, Tables 3.3 and 15.2) -/

/-- The value of an RC register. -/
def rcValue (s : State) : RcReg → Nat
  | .doorbellDrops => s.host.doorbellDrops
  | .bar2Drops => s.host.bar2Drops
  | .fetchErrors => s.host.fetchErrors
  | .bankDrops b => (getScr s b).wdrops + 2 ^ 32 * (getScr s b).rzeros + 2 ^ 48 * (getScr s b).lastReq

/-- Bytes of an RC register. -/
def rcBytes : RcReg → Nat
  | .bankDrops _ => 8
  | .doorbellDrops | .bar2Drops | .fetchErrors => 4

/-- Clear an RC register. -/
def rcClear (s : State) : RcReg → State
  | .doorbellDrops => onHost s fun h => { h with doorbellDrops := 0 }
  | .bar2Drops => onHost s fun h => { h with bar2Drops := 0 }
  | .fetchErrors => onHost s fun h => { h with fetchErrors := 0 }
  | .bankDrops b => setScr s b { getScr s b with wdrops := 0, rzeros := 0 }

/-- RC_REGISTER_READ: the value is returned and cleared by the read. -/
def execRcRegisterRead (reg : RcReg) (s : State) : Host.Outcome State Fault Refusal :=
  .next (emit (rcClear s reg) (.readData (leBytes (rcBytes reg) (rcValue s reg))))

/-! ### BAR2 (R62 to R64, R248, R249) -/

/-- BAR2_WINDOW_BASE_WRITE (R62). -/
def execBar2WindowBaseWrite (value : Nat) (s : State) : Host.Outcome State Fault Refusal :=
  .next (if hostHears s then setBase s value else s)

/-- Whether BAR2 reaches memory at a search-memory address: the host region, and the operand and result rows of groups in
host mode (R63, R248). -/
def bar2Reads (s : State) (a : Nat) : Bool :=
  inRegion s a || ((hostGroup s (bankAt a)).isSome && (operandRow (rowNo a) || rowNo a == resultRow))

/-- Whether an access reaches a bank: the host region, or a group in host mode. -/
def reachesBank (s : State) (a : Nat) : Bool := inRegion s a || (hostGroup s (bankAt a)).isSome

/-- An access that meets a running operation in its bank is held until that ends, and counted (R256). -/
def heldAccess (s : State) (busy : Bool) (a : Nat) : State :=
  if busy && reachesBank s a then bump s Obj.READS_HELD 1 else s

/-- Log a Completer Abort in AER: bit 15 of the status (R64, log entry 83). -/
def logAbort (s : State) : State := onHost s fun h => { h with aer := h.aer ||| 2 ^ 15 }

/-- BAR2_READ: the bytes, zero where BAR2 reaches nothing; an uncorrectable error gives Completer Abort, logged in AER, and event
0x6003 with the address of the read's first byte (R63, R64; which byte's address is a DESIGN CHOICE, log entry 84), an insecure
request under IDE_REQUIRED gives Unsupported Request (R440). `busy` says that an operation runs in the bank as the read arrives (R256):
the operation is done in the model, so the data are those after it. -/
def execBar2Read (offset len : Nat) (uncorrectable secure busy : Bool) (s : State) : Host.Outcome State Fault Refusal :=
  .next (
    let a := s.host.bar2Base + offset
    let as := (List.range len).map (a + ·)
    if !hostHears s then s
    else if ideRefused s secure then emit s .unsupportedRequest
    else
      let s := heldAccess s busy a
      if uncorrectable && as.any (bar2Reads s) then emit (logAbort (postEvent s 0x6003 (a % 2 ^ 40))) .completerAbort
      else emit s (.readData (as.map (bar2Byte s))))

/-- The pieces of a write that no 16-byte boundary cuts; the first argument bounds their number. -/
def pieces : Nat → Nat → List Byte → List (Nat × List Byte)
  | 0, _, _ => []
  | _ + 1, _, [] => []
  | n + 1, a, d => (a, d.take (16 - a % 16)) :: pieces n (a + (16 - a % 16)) (d.drop (16 - a % 16))

/-- Write one piece: the host region and operand rows as memory, the command row as slots; false where it is dropped. -/
def writePiece (acc : State × Bool) (p : Nat × List Byte) : State × Bool :=
  let s := acc.1
  let b := bankAt p.1
  if inRegion s p.1 then (writeSmem s p.1 p.2, acc.2)
  else if (hostGroup s b).isNone then (s, false)
  else if operandRow (rowNo p.1) then (writeSmem s p.1 p.2, acc.2)
  else if rowNo p.1 = commandRow then (writeSlot s b (p.1 % 1024 / 16) (p.1 % 16) p.2, acc.2)
  else (s, false)

/-- A BAR2 write of `d` at search-memory address `a`. -/
def bar2Write (s : State) (a : Nat) (d : List Byte) : State :=
  let r := (pieces (d.length / 16 + 2) a d).foldl writePiece (s, true)
  if r.2 then r.1 else dropBar2 r.1

/-- BAR2_WRITE (R63). -/
def execBar2Write (offset : Nat) (data : List Byte) (secure busy : Bool) (s : State) : Host.Outcome State Fault Refusal :=
  .next (
    if !hostHears s then s
    else if ideRefused s secure then bump s Obj.IDE_REFUSED 1
    else bar2Write (heldAccess s busy (s.host.bar2Base + offset)) (s.host.bar2Base + offset) data)

/-! ### Queues (R67 to R70) -/

/-- A write of ENABLE = 1: it waits for the first boundary after it. While no tenant is bound ENABLE reads back 0
(Table 20.1). -/
def doQueueEnable (s : State) (qn : Nat) : State :=
  let q := getQ s qn
  if s.nv.tenant = 0 ∨ s.nv.tenant = 2 ∨ q.enable = true then s
  else setQ s qn { q with enable := true, enableDue := dueTurn s }

/-- QUEUE_ENABLE (R69). -/
def execQueueEnable (q : Nat) (s : State) : Host.Outcome State Fault Refusal := .next (if hostHears s then doQueueEnable s q else s)

/-- A write of ENABLE = 0: it cancels a waiting enable, or disables the queue at the first boundary after it. -/
def doQueueDisable (s : State) (qn : Nat) : State :=
  let q := getQ s qn
  if !q.enable then s
  else if q.enableDue ≠ 0 then setQ s qn { q with enable := false, enableDue := 0 }
  else setQ s qn { q with enable := false, disableDue := dueTurn s }

/-- QUEUE_DISABLE (R69). -/
def execQueueDisable (q : Nat) (s : State) : Host.Outcome State Fault Refusal := .next (if hostHears s then doQueueDisable s q else s)

/-- Reduce RING_LOG2 until the ring lies inside the host region; none where not even 64 slots fit. -/
def fitRing (s : State) (q : Queue) : Nat → Option Nat
  | 0 => none
  | n + 1 => if n < 6 then none else if q.base + q.ringBytes n ≤ regionBytes s then some n else fitRing s q n

/-- RING_LOG2 of a queue as enabled. -/
def enabledLog (s : State) (q : Queue) : Option Nat := if q.loc = 0 then some q.log2 else fitRing s q (q.log2 + 1)

/-- Whether the wait of an enable ends at boundary `n` (R69). -/
def enableFalls (q : Queue) (n : Nat) : Bool :=
  q.enable && decide (q.enableDue ≠ 0) && decide (q.enableDue ≤ n) && !q.active &&
    (!q.enabled || decide (q.disableDue ≠ 0 ∧ q.disableDue ≤ n))

/-- Whether result slots may be reserved in a queue (R70). -/
def resultReady (q : Queue) : Bool := q.enabled && decide (q.ty = .result) && q.enable && decide (q.disableDue = 0)

/-- The test of RESULT_Q at the boundary at which an enable takes effect: a RESULT queue that is enabled at the same boundary
counts (R70). -/
def bindOk (s : State) (q : Queue) (n : Nat) : Bool :=
  let r := getQ s q.resultQ
  !submits q.ty || resultReady r || (decide (r.ty = .result) && enableFalls r n && (enabledLog s r).isSome)

/-- QUEUE_ENABLE_APPLY at P4 of boundary `n`. -/
def applyEnable (s : State) (qn n : Nat) : State :=
  let q := getQ s qn
  if q.enabled || !enableFalls q n then s
  else
    match enabledLog s q with
    | none => setQ s qn { q with enable := false, enableDue := 0 }
    | some l =>
      if bindOk s q n then
        setQ s qn { q with enabled := true, enableDue := 0, log2 := l, hostTally := 0, snapTally := 0, devTally := 0, work := 0,
                           lost := 0, bells := [] }
      else setQ s qn { q with enable := false, enableDue := 0 }

/-- QUEUE_ENABLE_APPLY (R69, R70). -/
def execQueueEnableApply (q : Nat) (s : State) : Host.Outcome State Fault Refusal :=
  .next (if s.turn.phase = .p4 then applyEnable s q (boundary s) else s)

/-- QUEUE_DISABLE_APPLY at P4 of boundary `n`: the queue is disabled and what was fetched of it is forgotten. -/
def applyDisable (s : State) (qn n : Nat) : State :=
  let q := getQ s qn
  if q.disableDue = 0 ∨ n < q.disableDue then s
  else onHost (setQ s qn { q with enabled := false, disableDue := 0 }) fun h => { h with fetched := h.fetched.filter (·.q != qn) }

/-- QUEUE_DISABLE_APPLY (R69). -/
def execQueueDisableApply (q : Nat) (s : State) : Host.Outcome State Fault Refusal :=
  .next (if s.turn.phase = .p4 then applyDisable s q (boundary s) else s)

/-! ### Doorbells (R72, R73) -/

/-- The clamp of R73. -/
def acceptTally (old req limit : Tally) : Tally :=
  let d := req - old
  if d ≤ limit - old then req else if 0x8000000000000000 ≤ d then old else limit

/-- The limit of a queue's host tally. -/
def tallyLimit (q : Queue) : Tally := if submits q.ty then q.devTally + BitVec.ofNat 64 q.slots else q.devTally

/-- A doorbell write that is dropped is counted. -/
def dropDoorbell (s : State) : State := onHost s fun h => { h with doorbellDrops := min (2 ^ 32 - 1) (h.doorbellDrops + 1) }

/-- A write of HOST_TALLY, `tick` ticks after B(n). -/
def doDoorbell (s : State) (qn size : Nat) (value : Tally) (tick : Nat) : State :=
  let q := getQ s qn
  if size ≠ 8 ∨ q.enabled = false then dropDoorbell s
  else
    let v := acceptTally q.hostTally value (tallyLimit q)
    let s := if v = value then s else bump s Obj.TALLY_CLAMPS 1
    setQ s qn { q with hostTally := v, bells := if submits q.ty then q.bells ++ [(v, tick)] else q.bells }

/-- DOORBELL_WRITE (R72, R73). -/
def execDoorbellWrite (q size : Nat) (value : Tally) (tick : Nat) (secure : Bool) (s : State) :
    Host.Outcome State Fault Refusal :=
  .next (
    if !hostHears s then s
    else if ideRefused s secure then bump s Obj.IDE_REFUSED 1
    else doDoorbell s q size value tick)

/-! ### Register writes (R60, Tables 3.2, 3.3, 3.5 and 19.7) -/

/-- One 32-bit word of a queue descriptor, ENABLE apart: fields that the table does not list are ignored, and PARAM is reserved in
a submission queue. -/
def descWord (q : Queue) (w v : Nat) : Queue :=
  match w with
  | 0 => { q with ty := match bitsOf v 1 2 with | 0 => .query | 1 => .ingest | 2 => .result | _ => .event,
                  param := if bitsOf v 1 2 < 2 then 0 else q.param, loc := bitsOf v 3 1, log2 := min 16 (max 6 (bitsOf v 4 5)) }
  | 1 => { q with resultQ := bitsOf v 0 14, msix := bitsOf v 16 11 }
  | 2 => { q with base := q.base / 2 ^ 32 * 2 ^ 32 + v / 2 ^ 12 * 2 ^ 12 }
  | 3 => { q with base := q.base % 2 ^ 32 + v * 2 ^ 32 }
  | 4 => { q with shadow := q.shadow / 2 ^ 32 * 2 ^ 32 + v / 8 * 8 }
  | 5 => { q with shadow := q.shadow % 2 ^ 32 + v * 2 ^ 32 }
  | 6 => { q with param := if submits q.ty then 0 else bitsOf v 0 16 }
  | _ => q

/-- The 32-bit words of an aligned access of 4 or 8 bytes: word number and value. -/
def words (off size v : Nat) : List (Nat × Nat) :=
  if size = 8 then [(off / 4, v % 2 ^ 32), (off / 4 + 1, v / 2 ^ 32 % 2 ^ 32)] else [(off / 4, v % 2 ^ 32)]

/-- A write to a descriptor: while ENABLE or ACTIVE reads 1 only ENABLE is written (R68). -/
def writeDesc (s : State) (qn : Nat) (ws : List (Nat × Nat)) : State :=
  let q := getQ s qn
  let s := if q.enable || q.active then s else setQ s qn (ws.foldl (fun q w => descWord q w.1 w.2) q)
  match look ws 0 with
  | none => s
  | some v => if v % 2 = 1 then doQueueEnable s qn else doQueueDisable s qn

/-- One byte of the mailbox's request area. -/
def setReqByte (m : Mailbox) (i b : Nat) : Mailbox := { m with request := sput 0 m.request i b }

/-- One 32-bit word of the mailbox region at `o` (Table 19.7). -/
def writeMailbox (s : State) (o v : Nat) : State :=
  if o = 0 then (if v % 2 = 1 then mailboxGo s else s)
  else if o = 4 then
    onMb s fun m => { m with done := m.done && bitsOf v 1 1 == 0, ignored := m.ignored && bitsOf v 2 1 == 0 }
  else if o = 8 then onMb s fun m => { m with vector := bitsOf v 0 11, irqEn := bitsOf v 31 1 == 1 }
  else if 0x1000 ≤ o ∧ o < 0x5010 then
    onMb s fun m => (List.range 4).foldl (fun m i => setReqByte m (o - 0x1000 + i) (bitsOf v (8 * i) 8)) m
  else s

/-- One 32-bit word of the MSI-X table: address, data and the mask bit (log entry 2). An unmasked vector whose bit is pending
sends its message. -/
def writeMsix (s : State) (o v : Nat) : State :=
  let old := fun i => if i % 16 = 12 then 1 else 0
  let bytes := fun (l : List (Nat × Nat)) => (List.range 4).foldl (fun l i => sput (old (o + i)) l (o + i) (bitsOf v (8 * i) 8)) l
  let s := onHost s fun h => { h with msixBytes := bytes h.msixBytes }
  let n := o / 16
  if s.host.pba.contains n && !vectorMasked s n then
    toHost (onHost s fun h => { h with pba := h.pba.filter (· != n) }) (.msix n)
  else s

/-- One 32-bit word of BAR0 at `o`, descriptors and doorbells apart. -/
def writeWord (s : State) (o v : Nat) : State :=
  if o = 0x18 then setBase s (s.host.bar2Base / 2 ^ 32 * 2 ^ 32 + v)
  else if o = 0x1C then setBase s (s.host.bar2Base % 2 ^ 32 + v % 256 * 2 ^ 32)
  else if 0x10000 ≤ o ∧ o < 0x20000 then writeMailbox s (o - 0x10000) v
  else if 0x30000 ≤ o ∧ o < 0x38000 then writeMsix s (o - 0x30000) v
  else s

/-- An aligned write of 4 or 8 bytes. A write to a register that has a row of its own has that row's effect; a HOST_TALLY
written so counts as written at the boundary (log entry 32). -/
def writeReg (s : State) (o size v : Nat) : State :=
  if 0x100000 ≤ o ∧ o < 0x200000 then writeDesc s ((o - 0x100000) / 64) (words (o % 64) size v)
  else if 0x200000 ≤ o ∧ o < 0x300000 then
    (if o % 64 < 8 then doDoorbell s ((o - 0x200000) / 64) size (BitVec.ofNat 64 v) 0 else s)
  else (words o size v).foldl (fun s w => writeWord s (4 * w.1) w.2) s

/-- REGISTER_WRITE: 4-byte and 8-byte writes aligned to their size; others and those to reserved ranges are ignored (R60), but a
write of HOST_TALLY narrower than 8 bytes, of whatever size, is dropped and counted (R72; log entry 84). -/
def execRegisterWrite (offset size value : Nat) (secure : Bool) (s : State) : Host.Outcome State Fault Refusal :=
  .next (
    if !hostHears s then s
    else if 0x10000 ≤ offset && ideRefused s secure then bump s Obj.IDE_REFUSED 1
    else if 0x200000 ≤ offset ∧ offset < 0x300000 ∧ offset % 64 < 8 ∧ size < 8 then dropDoorbell s
    else if (size ≠ 4 ∧ size ≠ 8) ∨ offset % size ≠ 0 then s
    else writeReg s offset size value)

/-! ### Register reads without an effect (Tables 3.2, 3.3, 3.5, 3.6 and 19.7) -/

/-- One 32-bit word of a descriptor. -/
def descRead (q : Queue) (w : Nat) : Nat :=
  match w with
  | 0 => qctlWord q
  | 1 => q.resultQ + 2 ^ 16 * q.msix
  | 2 => q.base % 2 ^ 32
  | 3 => q.base / 2 ^ 32 % 2 ^ 32
  | 4 => q.shadow % 2 ^ 32
  | 5 => q.shadow / 2 ^ 32 % 2 ^ 32
  | 6 => q.param
  | 7 => q.reserved
  | _ => 0

/-- One 32-bit word of the mailbox region. -/
def mailboxRead (s : State) (o : Nat) : Nat :=
  let m := s.dict.mb
  if o = 4 then mbStatus s
  else if o = 8 then m.vector + (if m.irqEn then 2 ^ 31 else 0)
  else if 0x1000 ≤ o ∧ o < 0x5010 then leNat ((List.range 4).map fun i => BitVec.ofNat 8 (lookD m.request (o - 0x1000 + i) 0))
  else if 0x8000 ≤ o ∧ o < 0xC010 then leNat (slice m.response (o - 0x8000) 4)
  else 0

/-- One 32-bit word of BAR0; an RC register is read by RC_REGISTER_READ. -/
def regRead (s : State) (o : Nat) : Nat :=
  if o = 0x000 then 0x7440 + 0xA1 * 2 ^ 16
  else if o = 0x008 then hiStatus s
  else if o = 0x010 then s.turn.no % 2 ^ 32
  else if o = 0x014 then s.turn.no / 2 ^ 32
  else if o = 0x018 then s.host.bar2Base % 2 ^ 32
  else if o = 0x01C then s.host.bar2Base / 2 ^ 32
  else if o = 0x020 then s.host.bar2Size
  else if o = 0x028 then s.host.doorbellDrops
  else if o = 0x02C then s.host.bar2Drops
  else if o = 0x030 then s.host.fetchErrors
  else if 0x10000 ≤ o ∧ o < 0x20000 then mailboxRead s (o - 0x10000)
  else if 0x30000 ≤ o ∧ o < 0x38000 then leNat ((List.range 4).map fun i => BitVec.ofNat 8 (msixByte s (o - 0x30000 + i)))
  else if 0x38000 ≤ o ∧ o < 0x38100 then
    ((List.range 32).filter fun i => s.host.pba.contains (8 * (o - 0x38000) + i)).foldl (fun n i => n + 2 ^ i) 0
  else if 0x100000 ≤ o ∧ o < 0x200000 then descRead (getQ s ((o - 0x100000) / 64)) (o % 64 / 4)
  else if 0x200000 ≤ o ∧ o < 0x300000 then
    let q := getQ s ((o - 0x200000) / 64)
    (match o % 64 / 4 with
     | 0 => q.hostTally.toNat % 2 ^ 32
     | 1 => q.hostTally.toNat / 2 ^ 32
     | 2 => q.devTally.toNat % 2 ^ 32
     | 3 => q.devTally.toNat / 2 ^ 32
     | _ => 0)
  else 0

/-- What a read of BAR0 returns: 4 or 8 bytes aligned to their size, anything else zero (R60). -/
def barRead (s : State) (offset size : Nat) : Nat :=
  if (size ≠ 4 ∧ size ≠ 8) ∨ offset % size ≠ 0 then 0
  else regRead s offset + (if size = 8 then 2 ^ 32 * regRead s (offset + 4) else 0)

/-! ### The fetch of submission entries (R85, R67) -/

/-- Bytes of the host region, none where they do not lie wholly inside it (R67). -/
def regionFetch (s : State) (off len : Nat) : Option (List Byte) :=
  if off + len ≤ regionBytes s then some (readBytes s.smem.cells (regionAddr s off) len) else none

/-- What a fetch of `len` bytes gave: none where it failed, in host memory or on uncorrectable data of the host region (R85,
Table 21.2), or brought less; the bytes of the host region are those that stand there. -/
def fetched (s : State) (q : Queue) (addr len : Nat) (f : Fetch) : Option (List Byte) :=
  match f with
  | .failed => none
  | .bytes b => if q.loc = 1 then regionFetch s addr len else if b.length < len then none else some (b.take len)

/-- Address and length of the pointed payload of an entry, cut under R77; none where the payload is inline. -/
def pointed (s : State) (q : Queue) (b : List Byte) : Option (Nat × Nat) :=
  match q.ty with
  | .query =>
    let e := parseQuery b
    if e.inl then none else some (e.payloadAddr, min e.payloadLen (getObj s (Obj.coll_MAX_INPUT e.coll)))
  | _ =>
    let e := parseIngest b
    if e.inl then none else some (e.payloadAddr, min e.payloadLen (getObj s (Obj.coll_MAX_INPUT e.coll)))

/-- The payload of a fetched entry, empty where it is inline. -/
def fetchPayload (s : State) (q : Queue) (b : List Byte) (f : Fetch) : Option (List Byte) :=
  match pointed s q b with
  | none => some []
  | some p => if p.2 = 0 then some [] else fetched s q p.1 p.2 f

/-- Whether an entry has been fetched whole. -/
def Fetched.whole (f : Fetched) : Bool := f.entry.isSome && f.payload.isSome

/-- Whether a failed entry may be tried again in turn `n`: once per boundary, FETCH_RETRY_LIMIT times in all. -/
def mayFetch (s : State) (old : Option Fetched) : Bool :=
  match old with
  | none => true
  | some f => !f.whole && f.turn != s.turn.no && decide (f.attempts < getObj s Obj.FETCH_RETRY_LIMIT)

/-- Whether the node may fetch an entry: the link is up and a stream covers it, or it lies in the host region (R440, R466). -/
def fetchReach (s : State) (q : Queue) (tally : Tally) : Bool :=
  q.loc == 1 || (s.host.linkUp && ideCovers s (q.base + ringSlot q tally) 64)

/-- Whether the node may fetch the payload that an entry points to (R440). -/
def payloadReach (s : State) (q : Queue) (b : List Byte) : Bool :=
  q.loc == 1 || (pointed s q b).all fun p => p.2 == 0 || ideCovers s p.1 p.2

/-- The fetch of one entry has ended. -/
def doFetch (s : State) (qn : Nat) (tally : Tally) (entry payload : Fetch) : State :=
  let q := getQ s qn
  let old := s.host.fetched.find? fun f => f.q == qn && f.tally == tally
  if !q.enabled || !submits q.ty || decide (tallyDiff q.hostTally q.work ≤ tallyDiff tally q.work) || !mayFetch s old then s
  else
    let b := fetched s q (q.base + ringSlot q tally) 64 entry
    if b.any fun b => !payloadReach s q b then s
    else
    let p := b.bind fun b => fetchPayload s q b payload
    let f : Fetched := { q := qn, tally := tally, entry := b, payload := p,
                         attempts := ((old.map (·.attempts)).getD 0) + 1, turn := s.turn.no }
    let s := if f.whole then s else bump s Obj.FETCH_RETRIES 1
    onHost s fun h => { h with fetched := h.fetched.filter (fun x => !(x.q == qn && x.tally == tally)) ++ [f] }

/-- ENTRY_FETCH_COMPLETE (R85). Nothing is fetched over a link that is down or that no stream covers (R440, R466). -/
def execEntryFetchComplete (q : Nat) (tally : Tally) (entry payload : Fetch) (s : State) : Host.Outcome State Fault Refusal :=
  .next (if fetchReach s (getQ s q) tally then doFetch s q tally entry payload else s)

end Sys2Proof.Machine
end

