-- ==== Sys2Proof/Machine/Admission.lean ====
section
/-! DEFINITION. Admission (chapters 03 and 04): the rounds of R89 and the checks of Table 4.1. -/

namespace Sys2Proof.Machine

/-- What the rounds build up: the state, and the INGEST entries taken, with the preparation of those that create a vector. -/
structure Adm1 where
  s : State
  news : List (Write × Option Prepared)
  deriving DecidableEq, Repr

/-! ### Result slots (R79) -/

/-- Whether one more result slot can be reserved in the bound RESULT queue. Its host tally is the one of the P2 tick (R34). -/
def resultFree (s : State) (q : Queue) : Bool :=
  let r := getQ s q.resultQ
  resultReady r && decide (tallyDiff r.work r.snapTally + r.reserved < r.slots)

/-- Take the entry at the front of a submission queue: its result slot is reserved, and it is in flight. -/
def takeEntry (s : State) (qn : Nat) : State :=
  let q := getQ s qn
  let s := setQ s qn { q with work := q.work + 1, inflight := q.inflight + 1 }
  let r := getQ s q.resultQ
  let s := setQ s q.resultQ { r with reserved := r.reserved + 1 }
  onHost s fun h => { h with fetched := h.fetched.filter fun f => !(f.q == qn && f.tally == q.work) }

/-- k of a QUERY entry, clamped to the SLOT_IDS of the bound RESULT queue (Table 3.7). -/
def clampedK (s : State) (q : Queue) (e : QueryEntry) : Nat := min (e.kM1 + 1) (getQ s q.resultQ).slotIds

/-- The answer of an entry that is taken and not carried into the pipeline. -/
def shortRes (s : State) (q : Queue) (qn : Nat) (tag : BitVec 64) (st : Status) (yellow : Bool) (slots : Nat) : Res :=
  { rq := q.resultQ, sq := qn, sqTally := q.work, userTag := tag, status := st, yellow := yellow, widened := false,
    replica := false, count := 0, ids := [], slots := slots, postTurn := s.turn.no, taken := s.turn.no }

/-! ### QUERY entries -/

/-- The colours that the three meters of a QUERY entry return (Table 4.2). -/
def queryColours (s : State) (qn c : Nat) : Colour × Colour × Colour :=
  let a := mark s (subMeter qn) .green
  let b := mark s (svcMeter c) a
  (a, b, mark s (portMeter 0) b)

/-- Debit what each meter returned (R94). -/
def debitQuery (s : State) (qn c : Nat) (k : Colour × Colour × Colour) : State :=
  debit (debit (debit s (subMeter qn) k.1) (svcMeter c) k.2.1) (portMeter 0) k.2.2

/-- Nominal path length in turns (R51). -/
def nominal (s : State) (c : Nat) : Nat := 5 + encoderNodes s (getObj s (Obj.coll_ENCODER_IMAGE c))

/-- The deadline of a query (R51). -/
def deadlineOf (s : State) (e : QueryEntry) : Nat :=
  let d := if e.deadline ≠ 0 then e.deadline
    else if getObj s (Obj.coll_DEADLINE e.coll) ≠ 0 then getObj s (Obj.coll_DEADLINE e.coll) else getObj s Obj.DEADLINE_DEFAULT
  min 40 (max (nominal s e.coll) d)

/-- nprobe after clamping (Table 3.7). -/
def nprobeOf (s : State) (e : QueryEntry) : Nat :=
  let lim := getObj s (Obj.coll_NPROBE_MAX e.coll)
  if e.nprobe = 0 then min lim (getObj s (Obj.coll_NPROBE_DEFAULT e.coll)) else min lim (max 1 e.nprobe)

/-- Fields of a QUERY entry that were clamped. -/
def queryClamps (s : State) (q : Queue) (e : QueryEntry) (b : List Byte) : Nat :=
  let n := leNat (b.take 64)
  (if e.deadline ≠ 0 ∧ deadlineOf s e ≠ e.deadline then 1 else 0) + (if clampedK s q e ≠ e.kM1 + 1 then 1 else 0)
    + (if e.nprobe ≠ 0 ∧ nprobeOf s e ≠ e.nprobe then 1 else 0)
    + (if e.filter = true ∧ bitsOf n 480 32 < bitsOf n 448 32 then 1 else 0)

/-- Whether the queries of a collection are held whatever the boards carry: a reload of its centroids or of an image's layer, a
node that is out of step or still loads (R449, R154, R385, R458). -/
def collHeld (s : State) (c : Nat) : Bool :=
  (getColl s c).centLoading || s.ledger.outOfStep || getObj s Obj.MEMBER_LOAD == 1
    || slotBad s (getObj s (Obj.coll_ENCODER_IMAGE c)) || slotBad s (getObj s (Obj.coll_RESCORER_IMAGE c))

/-- Whether the host port of the boards carries one more entry (Table 2.2). -/
def hostSlotFree (s : State) : Bool :=
  decide (s.turn.takenQ.foldl (· + ·) 0 + s.turn.takenI < (s.turn.cur.getD 0 Board.empty).hostSlots)

/-- The lowest free query context (R80); the first argument bounds the search. -/
def freeCtx (qs : List Query) : Nat → Nat → Nat
  | 0, n => n
  | f + 1, n => if qs.any (·.qh == n) then freeCtx qs f (n + 1) else n

/-- The query that an entry becomes (R80, R97, R98). -/
def queryOf (s : State) (qn : Nat) (q : Queue) (e : QueryEntry) (payload : List Byte) (c : Colour) (h : Nat) : Query :=
  let k := clampedK s q e
  let d := deadlineOf s e
  let n := nprobeOf s e
  let p := if c = .yellow then max 1 (n / 2) else n
  let enc := getObj s (Obj.coll_ENCODER_IMAGE e.coll)
  let pr : Pred := if e.filter then e.pred else { Pred.zero with attrHi := 2 ^ 32 - 1 }
  let key := if isSet s (Obj.coll_MEMO_EN e.coll) then memoKeyOf e.coll k p d e.filter e.pred payload else 0
  { qh := freeCtx s.queries s.queries.length 0, sq := qn, tally := q.work, userTag := e.userTag, coll := e.coll, k := k, d := d,
    probesCfg := p, colour := c, pred := pr, filter := e.filter, payload := payload, t0 := s.turn.no, half := h,
    m := encoderNodes s enc, encoder := enc, input := [], vec := none, sketch := [], route := [], probes := 0, round := 0,
    matched := 0, reports := 0, reportsDue := 0, waiting := [], awaited := 0, lists := [], widened := false, unheld := false,
    error := false, retired := false, timedOut := false, memoKey := key, memoHit := none, seg := 0, shards := [], slip := false,
    ready := 0, routeTurn := none, rounds := [] }

/-- Rows that a payload gives an encoder: its tokens, or one. -/
def inputRows (s : State) (c : Nat) (payload : List Byte) : Nat :=
  if getObj s (Obj.coll_INPUT_MODE c) = 1 then (lookupsOf s c payload).length else 1

/-- Matrix cycles that a query adds to the batch of its encoder on its half (R136). -/
def encoderOps (s : State) (x : Query) : Nat :=
  match getImg s x.encoder with
  | none => 0
  | some img =>
    let batch := (s.queries.filter fun q => q.encoder == x.encoder && q.half == x.half && q.t0 == x.t0).foldl
      (fun n q => n + inputRows s q.coll q.payload) 0
    let cycles := fun (b : Nat) => ((homeLayers img).filter (·.op == 1)).foldl (fun n l => n + denseCycles l.inW l.outW b l.wfmt) 0
    cycles (batch + inputRows s x.coll x.payload) - (if batch = 0 then 0 else cycles batch)

/-- What the nominal path of a query needs of its home half: turns from t0, engine and operations (R43, Table 9.1). -/
def pathNeeds (s : State) (x : Query) : List (Nat × Engine × Nat) :=
  [(0, .composer, 1 + encoderOps s x), (x.m, .router, routeOps s x.coll x.t0),
   (x.m + 4, .bazaar, fullMerge x.k (candCount s x) (firstUnits s x.probesCfg))]

/-- Bytes that a query takes across the bridge on its way in, if its half is not that of the Host Interface (R17). -/
def queryCrossing (x : Query) : Nat := 64 + x.payload.length

/-- Whether the half of a query can carry it, with gathers that cost `cost`: a context, the gathers, what its nominal path needs
up to t5, the Bazaar's buffer for its first round, and the bridge (R43, R119, R292, R17). -/
def halfCarries (s : State) (cost : Nat) (x : Query) : Bool :=
  let b := boardOf s x.half
  !halfStalled s x.half && decide (nth s.turn.takenQ x.half < b.contexts)
    && decide (nth s.turn.gathersUsed x.half + cost ≤ min b.gathers (composeCap s))
    && (pathNeeds s x).all (fun n => decide (n.2.2 ≤ aheadLeft s x.half n.1 n.2.1))
    && decide (bufferUsed s + firstUnits s x.probesCfg * unitBuffer s x ≤ getObj s Obj.BAZAAR_BUF_MIB * 2 ^ 20)
    && (x.half == 0 || bridgeFits s (queryCrossing x))

/-- Step 4 for a QUERY entry: the query that a half carries, if one does (R43, R119, R121, R99). -/
def queryHalf (s : State) (qn : Nat) (q : Queue) (e : QueryEntry) (payload : List Byte) (c : Colour) : Option Query :=
  let ls := lookupsOf s e.coll payload
  let cap := s.turn.cur.foldl (fun n b => n + b.contexts) 0
  if collHeld s e.coll ∨ 2 ^ 20 ≤ s.queries.length ∨ hostSlotFree s = false
      ∨ (c = .yellow ∧ getObj s Obj.YELLOW_SHARE * cap < 64 * (s.turn.yellowQ + 1))
      ∨ rowsStaged s (t5Rows s ls) qn q.work s.turn.no = false then none
  else ([0, 1].map (queryOf s qn q e payload c)).find? (halfCarries s (gatherCost s ls))

/-- Hold what a query's path needs on the boards of its turns. -/
def holdPath (s : State) (x : Query) : State :=
  (pathNeeds s x).foldl (fun s n => holdAhead s x.half n.1 n.2.1 n.2.2) (crossBridge s x.half (queryCrossing x))

/-- Count the colour of a taken entry. -/
def countColour (s : State) (c : Colour) : State :=
  match c with
  | .green => bump s Obj.ADMIT_GREEN 1
  | .yellow => bump s Obj.ADMIT_YELLOW 1
  | .red => bump s Obj.ADMIT_SHED 1

/-- Take a QUERY entry and answer it in this turn (R91). -/
def answerNow (s : State) (qn : Nat) (q : Queue) (e : QueryEntry) (st : Status) (yellow : Bool) : State :=
  postResult (takeEntry s qn) (shortRes s q qn e.userTag st yellow (clampedK s q e))

/-- Step 5: take a QUERY entry as query `x`. A predicate that no entry can match is answered at once (R196). -/
def admitQuery (s : State) (qn : Nat) (q : Queue) (e : QueryEntry) (k : Colour × Colour × Colour) (x : Query) : State :=
  let c := k.2.2
  let s := useStaged (debitQuery (countColour s c) qn e.coll k) qn q.work
  let cost := gatherCost s (lookupsOf s e.coll x.payload)
  let s := { s with turn := { s.turn with
      takenQ := atIdx (· + 1) x.half s.turn.takenQ, yellowQ := s.turn.yellowQ + (if c = .yellow then 1 else 0),
      gathersUsed := atIdx (· + cost) x.half s.turn.gathersUsed } }
  if e.filter = true ∧ e.pred.must &&& e.pred.mustNot ≠ 0 then
    answerNow (bump s Obj.FILTER_EMPTY 1) qn q e .fewer (decide (c = .yellow))
  else
    let s := takeEntry (holdPath s x) qn
    { s with queries := s.queries ++ [x] }

/-- Offer one QUERY entry; the answer says whether it was taken. -/
def offerQuery (s : State) (qn : Nat) (b payload : List Byte) : State × Bool :=
  let q := getQ s qn
  let e := parseQuery b
  if s.turn.withdrawn then (s, false)
  else if !gateOpen s (gateClass s e.coll) then (bump s Obj.GATE_HOLDS 1, false)
  else if !resultFree s q then (bump s Obj.RESULT_WAITS (tallyDiff q.snapTally q.work), false)
  else
    let t := bump s Obj.ENTRY_CLAMPS (queryClamps s q e b)
    if (getColl s e.coll).life ≠ 2 then (bump (answerNow t qn q e .noService false) Obj.NO_SERVICE_ANSWERS 1, true)
    else
      let k := queryColours s qn e.coll
      if k.2.2 = .red then (countColour (answerNow t qn q e .shed false) .red, true)
      else
        match queryHalf s qn q e (queryPayload s e b (some payload)) k.2.2 with
        | none => (bump s Obj.CONTEXT_WAITS 1, false)
        | some x => (admitQuery t qn q e k x, true)

/-! ### INGEST entries -/

/-- The cut payload of an INGEST entry (R77). -/
def ingestPayload (e : IngestEntry) (b payload : List Byte) : List Byte :=
  if e.inl then (ingestInline b).take e.payloadLen else payload

/-- A write that has not been prepared. -/
def writeOf (s : State) (qn : Nat) (q : Queue) (tag : BitVec 64) (c : Colour) : Write :=
  { wid := 0, sq := qn, tally := q.work, userTag := tag, op := .nop, coll := 0, table := none, id := 0, noid := false,
    taken := s.turn.no, colour := c,
    prep := { wid := 0, origin := selfNode s, coll := 0, key := 0, id := 0, tag := 0, attr := 0, sketch := [], codes := [], full := [] },
    resid := [], payload := [], holders := [], acked := [], sentTurn := 0, ready := false, committed := false,
    minTurn := nextTurn s.turn.no, refused := none }

/-- An INGEST entry that is taken and answered `st` in the order of its queue (R83). -/
def refuseIngest (a : Adm1) (qn : Nat) (q : Queue) (tag : BitVec 64) (st : Status) : Adm1 :=
  { s := takeEntry a.s qn, news := a.news ++ [({ writeOf a.s qn q tag .green with refused := some st }, none)] }

/-- Ingest capacity of the boards in force (R298). -/
def ingestRoom (s : State) : Nat := min (s.turn.cur.foldl (fun n b => n + b.ingestCap) 0) (ingestCap s)

/-- Whether step 4 carries one more INGEST entry of colour `c`. -/
def ingestCarries (s : State) (c : Colour) : Bool :=
  decide (s.turn.takenI < ingestRoom s) && hostSlotFree s
    && !(c == .yellow && decide (getObj s Obj.YELLOW_SHARE * ingestRoom s < 64 * (s.turn.yellowI + 1)))

/-- Whether a directory shard of a collection is being rebuilt (R491). -/
def rebuilding (s : State) (c : Nat) : Bool := s.ing.rebuilds.any fun r => r.1.1 == c

/-- Whether every holder of a list grants room, and none is short of delta space for it (R298, R300). -/
def stagingRoom (s : State) (key : Nat) (hs : List Nat) : Bool :=
  hs.all fun h => decide (0 < grantLeft s .ingest h) && !s.ing.short.contains (h, key)

/-- Take an INGEST entry whose checks have passed. -/
def acceptIngest (a : Adm1) (qn : Nat) (k : Colour × Colour) (w : Write) (p : Option Prepared) : Adm1 :=
  let s := debit (debit (countColour a.s k.2) (subMeter qn) k.1) (portMeter 17) k.2
  let s := { s with turn := { s.turn with takenI := s.turn.takenI + 1, yellowI := s.turn.yellowI + (if k.2 = .yellow then 1 else 0) } }
  let s := if p.isSome then w.holders.foldl (fun s h => useGrant s .ingest h 1) s else s
  { s := takeEntry s qn, news := a.news ++ [(w, p)] }

/-- The write of an entry to a bound table: a row replacement (R124), with its row index clamped. -/
def offerRow (a : Adm1) (qn t : Nat) (k : Colour × Colour) (w : Write) : Adm1 × Bool :=
  match (getTable a.s t).active with
  | none => (acceptIngest a qn k { w with table := some t, minTurn := w.taken } none, true)
  | some v =>
    let s := cancelDemotion a.s t (min w.id.toNat (v.rows - 1) / 256)
    let s := if v.rows ≤ w.id.toNat then bump s Obj.ENTRY_CLAMPS 1 else s
    (acceptIngest { a with s := s } qn k { w with table := some t, minTurn := w.taken } none, true)

/-- An entry to a vector collection: preparation, then the staging room of its list (R297 to R300). A node that is in no
partition, or out of step with it, holds it. -/
def offerVector (a : Adm1) (qn : Nat) (k : Colour × Colour) (w : Write) (attr : Nat) (tag : BitVec 64) : Adm1 × Bool :=
  let s := a.s
  if !isMember s || s.ledger.outOfStep then (a, false)
  else if w.op = .delete then (acceptIngest a qn k w none, true)
  else
    match prepareVec s w.coll w.payload with
    | none => (a, false)
    | some p =>
      let key := listKey w.coll p.cent
      let hs := stagingHolders s key
      if !stagingRoom s key hs then (a, false)
      else
        let prep : StageEntry :=
          { wid := 0, origin := selfNode s, coll := w.coll, key := key, id := w.id, tag := tag, attr := attr, sketch := p.sketch,
            codes := p.codes, full := [] }
        (acceptIngest a qn k { w with prep := prep, resid := p.resid, holders := hs, minTurn := w.taken } (some p), true)

/-- Offer one INGEST entry. -/
def offerIngest (a : Adm1) (qn : Nat) (b payload : List Byte) : Adm1 × Bool :=
  let s := a.s
  let q := getQ s qn
  let e := parseIngest b
  let table := boundTable s e.coll
  if !gateOpen s 8 then ({ a with s := bump s Obj.GATE_HOLDS 1 }, false)
  else if !resultFree s q then ({ a with s := bump s Obj.RESULT_WAITS (tallyDiff q.snapTally q.work) }, false)
  else if table.isNone ∧ (getColl s e.coll).life ≠ 2 then
    (refuseIngest { a with s := bump s Obj.NO_SERVICE_ANSWERS 1 } qn q e.userTag .noService, true)
  else
    let c1 := mark s (subMeter qn) .green
    let c2 := mark s (portMeter 17) c1
    let held : Adm1 × Bool := ({ a with s := bump s Obj.CONTEXT_WAITS 1 }, false)
    if c2 = .red then (refuseIngest { a with s := countColour s .red } qn q e.userTag .shed, true)
    else if !ingestCarries s c2 then held
    else
      let w := { writeOf s qn q e.userTag c2 with op := e.op, coll := e.coll, id := e.id, payload := ingestPayload e b payload }
      let noid := (e.op = .insert ∨ e.op = .upsert) ∧ e.id = noId
      if table.isNone ∧ rebuilding s e.coll = true then held
      else if noid then (acceptIngest a qn (c1, c2) { w with noid := true } none, true)
      else if e.op = .nop then (acceptIngest a qn (c1, c2) w none, true)
      else
        let r := match table with
          | some t => offerRow a qn t (c1, c2) w
          | none => offerVector a qn (c1, c2) w e.attr e.tag
        if r.2 then r else held

/-! ### Rounds (R89, R90) -/

/-- An entry whose last fetch attempt has failed: taken and answered DATA_ERROR, past every gate and meter (R85). -/
def failFetch (a : Adm1) (qn : Nat) (f : Fetched) : Adm1 :=
  let q := getQ a.s qn
  let s := onHost a.s fun h => { h with fetchErrors := min (2 ^ 32 - 1) (h.fetchErrors + 1) }
  let s := postEvent s 0x6001 (qn + 2 ^ 14 * (q.work.toNat % 2 ^ 50))
  match q.ty, f.entry with
  | .query, some b =>
    let e := parseQuery b
    { a with s := answerNow (bump s Obj.ENTRY_CLAMPS (queryClamps s q e b)) qn q e .dataError false }
  | .query, none => { a with s := postResult (takeEntry s qn) (shortRes s q qn 0 .dataError false 0) }
  | _, some b => refuseIngest { a with s := s } qn q (parseIngest b).userTag .dataError
  | _, none => refuseIngest { a with s := s } qn q 0 .dataError

/-- Offer the next entry of a queue. -/
def offer (a : Adm1) (qn : Nat) : Adm1 × Bool :=
  let s := a.s
  let q := getQ s qn
  if q.work = q.snapTally then (a, false)
  else
    match s.host.fetched.find? fun f => f.q == qn && f.tally == q.work with
    | none => (a, false)
    | some f =>
      match f.entry, f.payload with
      | some b, some p =>
        if q.ty = .ingest then offerIngest a qn b p
        else
          let r := offerQuery s qn b p
          ({ a with s := r.1 }, r.2)
      | _, _ =>
        if f.attempts < getObj s Obj.FETCH_RETRY_LIMIT then (a, false)
        else if resultFree s q then (failFetch a qn f, true)
        else ({ a with s := bump s Obj.RESULT_WAITS (tallyDiff q.snapTally q.work) }, false)

/-- One round: the queues that had an entry taken are offered again in the next. -/
def oneRound (a : Adm1) (qs : List Nat) : Adm1 × List Nat :=
  qs.foldl (fun (p : Adm1 × List Nat) qn =>
    let r := offer p.1 qn
    (r.1, if r.2 then p.2 ++ [qn] else p.2)) (a, [])

/-- Rounds until no queue has an entry left that can be taken; the first argument bounds their number. -/
def rounds : Nat → List Nat → Adm1 → Adm1
  | 0, _, a => a
  | _ + 1, [], a => a
  | n + 1, q :: qs, a =>
    let r := oneRound a (q :: qs)
    rounds n r.2 r.1

/-- The submission queues with eligible entries, in the order of R89. -/
def offerOrder (s : State) : List Nat :=
  let qs := (s.host.queues.filter fun p => p.2.enabled && submits p.2.ty && decide (p.2.work ≠ p.2.snapTally)).map (·.1)
  let qs := sortBy (fun a b => decide (a ≤ b)) qs
  let start := s.turn.no % 16384
  qs.filter (fun q => decide (start ≤ q)) ++ qs.filter (fun q => decide (q < start))

/-- The most entries that one queue may have taken. -/
def mostEligible (s : State) (qs : List Nat) : Nat := qs.foldl (fun n q => max n (tallyDiff (getQ s q).snapTally (getQ s q).work)) 0

/-! ### The ingest batch of a turn (R84, R297) -/

/-- The vectors of one collection that were taken in this turn: one batch. -/
def batchOf (news : List (Write × Option Prepared)) (c : Nat) : List Flt :=
  news.flatMap fun x => match x.2 with
    | some p => if x.1.coll = c then p.vec else []
    | none => []

/-- Hand one entry to the Ingest Engine under the next write number. -/
def handIngest (news : List (Write × Option Prepared)) (s : State) (x : Write × Option Prepared) : State :=
  let n := s.ing.nextWid
  let r : State × List Byte := match x.2 with
    | some p => convertOne x.1.coll (batchOf news x.1.coll) s p
    | none => (s, [])
  let w := { x.1 with wid := n, prep := { x.1.prep with wid := n, full := r.2 } }
  { r.1 with ing := { r.1.ing with writes := r.1.ing.writes ++ [w], nextWid := n + 1 } }

/-- The entries taken in the turn reach the Ingest Engine in ascending queue number, and within a queue in tally order; those
that were refused are answered where no earlier entry of their queue is open (R83, R84). -/
def handAll (s : State) (news : List (Write × Option Prepared)) : State :=
  let news := sortBy (fun a b => decide (a.1.sq ≤ b.1.sq)) news
  let s := news.foldl (handIngest news) s
  (nub (news.map fun x => x.1.sq)).foldl (fun s q => postRefused q s.ing.writes.length s) s

/-- Whether the node takes entries at all: not while the link is down, and not from B(s) of a tenant switch on (R466, R442). -/
def takesEntries (s : State) : Bool := s.host.linkUp && decide (s.sec.switchDue = 0) && decide (s.nv.tenant ≠ 2)

/-- Whether the node may fetch the next entry of a queue: it lies in the host region, or a stream covers it (R440). -/
def ringReach (s : State) (qn : Nat) : Bool :=
  let q := getQ s qn
  q.loc == 1 || ideCovers s (q.base + ringSlot q q.work) 64

/-- The eligible entries of queues whose next entry no stream covers wait as at step 2 (R440). -/
def holdAll (s : State) (qs : List Nat) : State :=
  qs.foldl (fun s q => bump s Obj.RESULT_WAITS (tallyDiff (getQ s q).snapTally (getQ s q).work)) s

/-- The admission of one turn. -/
def doAdmission (s : State) : State :=
  let s := { s with turn := { s.turn with admitted := true } }
  let qs := offerOrder s
  if !takesEntries s then s
  else
    let s := holdAll s (qs.filter fun q => !ringReach s q)
    let qs := qs.filter (ringReach s)
    let a := rounds (mostEligible s qs + 1) qs { s := s, news := [] }
    handAll a.s a.news

/-- ENTRY_ADMISSION, once in the work window of a turn (R89). -/
def execEntryAdmission (s : State) : Host.Outcome State Fault Refusal :=
  .next (if s.turn.phase = .p6 ∧ s.turn.admitted = false then doAdmission s else s)

end Sys2Proof.Machine
end

