-- ==== Sys2Proof/Machine/Scan.lean ====
section
/-! DEFINITION. The sketch scan of t2 (R225 to R227, R261, R262): where its work runs (R155, R156), what row logic does to the
banks on the way, the survivors and the candidates. -/

namespace Sys2Proof.Machine

/-- What a unit reads of one list: the entries that take part, with their distances, or why it reads nothing. -/
inductive ListScan where
  | noCopy
  | bad
  | hits (es : List (Nat × Entry × Nat × Bool)) (n : Nat)    -- entry number, entry, distance, hot; entries read
  deriving DecidableEq, Repr

/-- Scan one list for a probe (R195, R199, R203, R225). -/
def scanList (s : State) (p : ProbeRec) (badKeys : List Nat) (key : Nat) : ListScan :=
  match getList s key with
  | none => .noCopy
  | some l =>
    match l.setAt p.pin with
    | none => .noCopy
    | some g =>
      let rd := l.reads g
      if badKeys.contains key || rd.any (fun i => l.bad.contains i) then .bad
      else
        let base := g.bases.flatten
        .hits (rd.filterMap fun i => (l.entries[i]?).bind fun (e : Entry) =>
          if e.visible p.pin && predMatch p.pred e.tag e.attr then
            some (i, e, hammingDist p.sketch e.sketch, g.hot || !base.contains i)
          else none) rd.length

/-- The threshold θ and the survivors of a unit (R226); `rank` orders entries at θ where they must be cut. -/
def survivors {α : Type} (cap : Nat) (rank : Nat → Nat) (es : List (α × Nat)) : List (α × Nat) :=
  if es.length ≤ cap then es
  else
    let ds := sortBy (fun a b => decide (a ≤ b)) (nub (es.map (·.2)))
    let count := fun d => (es.filter fun e => decide (e.2 ≤ d)).length
    match (ds.filter fun d => decide (count d ≤ cap)).getLast? with
    | some θ => es.filter fun e => decide (e.2 ≤ θ)
    | none =>
      let θ := ds.headD 0
      let at' := es.filter fun e => e.2 == θ
      ((sortBy (fun a b => decide (rank a.2 ≤ rank b.2)) at'.zipIdx).map (·.1)).take cap

/-! ### Stripes (R241) -/

/-- The bank group that holds the stripes of a list: the Planner's choice (log entry 76). -/
def listGroup (key : Nat) : Nat := key % 64

/-- Cut a list into pieces of `n`; the first argument bounds them. -/
def chunks {α : Type} (n : Nat) : Nat → List α → List (List α)
  | 0, _ => []
  | _, [] => []
  | f + 1, a :: l => (a :: l).take n :: chunks n f ((a :: l).drop n)

/-- The stripes of 32 entries of a pinned set: of each base segment and of the delta. -/
def stripesOf (l : ListCopy) (g : SegSet) : List (List Nat) :=
  (g.bases ++ [l.delta.drop g.cut ++ g.adopted]).flatMap fun es => chunks 32 es.length es

/-- Sketch rows of the stripes of `n` entries: two stripes share a row of 128-bit sketches (Table 10.1). -/
def sketchRows (bits n : Nat) : Nat := (n + 31) / 32 * bits * 32 / 8192 + (if (n + 31) / 32 * bits * 32 % 8192 = 0 then 0 else 1)

/-- A bit string as bytes, bit 0 first. -/
def packBits (b : List Bool) : List Byte :=
  (chunks 8 b.length b).map fun x => BitVec.ofNat 8 (x.foldr (fun v n => 2 * n + (if v then 1 else 0)) 0)

/-- The row of a query's sketch, replicated (R261). -/
def operandBytes (sk : List Bool) : List Byte := ((List.replicate (8192 / max 1 sk.length) (packBits sk)).flatten).take rowBytes

/-- The result rows of XOR over the sketch rows of one stripe; sketches that no entry fills are zero. -/
def xorBytes (l : ListCopy) (sk : List Bool) (stripe : List Nat) : List Byte :=
  let q := packBits sk
  let row := fun (b : List Byte) => (q.zip b).map fun p => p.1 ^^^ p.2
  (stripe.flatMap fun i => row (packBits ((l.entries[i]?).map (·.sketch) |>.getD [])))
    ++ (List.replicate (32 - stripe.length) q).flatten

/-- Bytes that one unit puts on the result bus of a group: the histogram, and at most `n` survivors (R262). -/
def busCost (bits n : Nat) : Nat := (bits + 1) * 4 + 16 * n

/-- Row logic serves one list of a unit in both passes: the operand rows are written, XOR and the tails run over every stripe, and
the group keeps the predicate and the histogram of the hits (R261). `dists` are the distances of the entries that take part, and
`out` survivors leave the stack. -/
def driveRows (s : State) (p : ProbeRec) (key out : Nat) (dists : List Nat) : State :=
  match getList s key, pinnedSet s key p.pin with
  | some l, some g =>
    let bits := sketchBitsOf s p.coll
    let bank := fun (j : Nat) => ({ stack := l.stack, group := listGroup key, bank := j % 16 } : BankId)
    let st := stripesOf l g
    let n := tailRows ((bits / 128).log2)
    let s := st.zipIdx.foldl (fun s x =>
      writeSmem (writeSmem s (rowAddr (bank x.2) 0x17FF0) (operandBytes p.sketch)) (rowAddr (bank x.2) 0x17FF1)
        ((xorBytes l p.sketch x.1).take rowBytes)) s
    let s := setHist (setPred s (bank 0) p.pred) (bank 0) (dists.foldl histAdd [])
    bump (bump (bump s Obj.ROW_OPS (2 * n * st.length)) Obj.TAIL_ROWS (2 * n * st.length)) Obj.BUS_BYTES (busCost bits out)
  | _, _ => s

/-! ### Where the work runs (R155, R156) -/

/-- The tile lent to the Sketch Scanner that reads a stack: of the quarter nearest the stack, else of another quarter of the same
half, and never of the other half (R17, R156). -/
def scanTile (s : State) (stack : Nat) : Option Nat :=
  let ts := ((boardOf s (stack / 4)).loans.filter fun l => decide (l.engine = .scanner)).map (·.tile)
  (ts.filter (fun t => t / 16 == stack) ++ ts.filter (fun t => t / 16 != stack)).head?

/-- Whether the board gives a list's group its row-logic window, with room on the result bus for one more unit of `cap`
survivors (R246, R262). -/
def rowWindow (s : State) (stack key bits cap : Nat) : Bool :=
  hasWindow s { stack := stack, group := listGroup key, bank := 0 }
    && decide (lookD s.turn.busUsed stack 0 + busCost bits cap ≤ lookD (boardOf s (stack / 4)).busBytes stack 0)

/-- Where the thin work of a list's scan runs: row logic (true) or tiles (false), none where it slips (R155, R156, R259). -/
def scanPath (s : State) (p : ProbeRec) (cap key : Nat) : Option Bool :=
  match getList s key with
  | none => some false
  | some l =>
    let bits := sketchBitsOf s p.coll
    let n := ((l.setAt p.pin).map fun g => (l.reads g).length).getD 0
    let win := rowWindow s l.stack key bits cap
    let tile := (scanTile s l.stack).isSome
    if !isHamming s p.coll && !tile then none
    else if s.turn.cuts.contains (l.stack, listGroup key) then none
    else if getObj s Obj.ROWLOGIC_MIN_ROWS ≤ sketchRows bits n then (if win then some true else if tile then some false else none)
    else if tile then some false else if win then some true else none

/-- Account for where the thin work of one list runs: a stack whose thin work runs on tiles counts once a turn (R156). -/
def countPath (s : State) (p : ProbeRec) (cap key : Nat) (row : Bool) : State :=
  match getList s key with
  | none => s
  | some l =>
    let bits := sketchBitsOf s p.coll
    let long := decide (getObj s Obj.ROWLOGIC_MIN_ROWS ≤ sketchRows bits (((l.setAt p.pin).map fun g => (l.reads g).length).getD 0))
    let s := if row then { s with turn := { s.turn with busUsed := addUse s.turn.busUsed l.stack (busCost bits cap) } } else s
    if long && !row && !s.turn.fallbacks.contains l.stack then
      bump { s with turn := { s.turn with fallbacks := l.stack :: s.turn.fallbacks } } Obj.STACK_FALLBACKS 1
    else if !long && row then bump s Obj.SMALL_TO_STACK 1
    else s

/-! ### The scan -/

/-- Survivor cap of a unit (R226). -/
def survivorCap (s : State) (p : ProbeRec) : Nat := min (getObj s (Obj.coll_SURVIVOR_FACTOR p.coll) * p.c) 65536

/-- The role in which this node serves a list (R230). -/
def servesAsReplica (s : State) (key : Nat) : Bool := primaryOf (holdersOf s key) != some (selfNode s)

/-- A list that this node holds for pin turn `pin` and that no entry has reached yet is an empty list (R384, R210). -/
def openHeld (pin : Nat) (s : State) (key : Nat) : State :=
  if (getList s key).isNone && (holdersOf s key).any fun h => h.node == selfNode s && eligible h pin then
    setList s { ListCopy.reset key with stack := chooseStack s }
  else s

/-- SKETCH_SCAN of unit `n`, whose place on the board the Scanner has issued: visible matching entries are counted, the
survivors re-scored and the best C kept; `badKeys` are lists whose read met uncorrectable data. -/
def doSketchScan (s : State) (n : Nat) (badKeys : List Nat) : State :=
  match getUnit s n with
  | none => s
  | some u =>
    let p := u.probe
    if u.scanned ∨ s.turn.no < u.arrived ∨ s.ledger.outOfStep = true ∨ mayIssue s .scanner n = false then s
    else if scanReady s p.coll p.pin = false then bump (unplace s .scanner n) Obj.SCAN_GUARD_SLIPS 1
    else if !(p.keys.all fun k => copyReady s k p.pin) then unplace s .scanner n
    else
      let s := p.keys.foldl (openHeld p.pin) (unplace s .scanner n)
      let rs := p.keys.map fun k => (k, scanList s p badKeys k)
      let bads := rs.filterMap fun r => match r.2 with | .bad => some r.1 | .noCopy | .hits _ _ => none
      let gone := (rs.filter fun r => match r.2 with | .noCopy => true | .bad | .hits _ _ => false).length
      let hits := rs.flatMap fun r => match r.2 with | .hits es _ => es.map fun e => ((r.1, e), e.2.2.1) | .noCopy | .bad => []
      let s := rs.foldl (fun s r => match r.2 with
        | .hits _ _ => heatList s r.1 16
        | .noCopy | .bad => s) s
      let s := bads.foldl quarantine s
      let s := bump s Obj.RETIRED_PROBES gone
      let cap := survivorCap s p
      let s := if cap < hits.length then bump s Obj.SURVIVOR_CAPPED 1 else s
      let d1 := drawFree s
      let d2 := drawFree d1.1
      let s := d2.1
      let sv := survivors cap (Config.tieRank d1.2) hits
      let s := rs.foldl (fun s r => match r.2 with
        | .hits es _ => if lookD u.paths r.1 false then driveRows s p r.1 (sv.filter fun e => e.1.1 == r.1).length (es.map (·.2.2.1)) else s
        | .noCopy | .bad => s) s
      let ham := isHamming s p.coll
      let scored := sv.map fun e => (e.1, if ham then fnat e.2 else noNan (lutDist p.luts e.1.2.2.1.codes))
      let best := ((sortBy (fun a b => flt a.1.2 b.1.2 || (!flt b.1.2 a.1.2 && decide (Config.tieRank d2.2 a.2 ≤ Config.tieRank d2.2 b.2)))
        scored.zipIdx).map (·.1)).take p.c
      let mk : ((Nat × Nat × Entry × Nat × Bool) × Flt) × Nat → Cand := fun x =>
        { ctag := min x.2 8191, id := x.1.1.2.2.1.id, key := x.1.1.1, entry := x.1.1.2.1, hot := x.1.1.2.2.2.2,
          based := basedAt s x.1.1.1 p.pin x.1.1.2.1,
          loc := if x.1.1.2.2.2.2 then Config.recordAt x.1.1.1 x.1.1.2.1 % 2 ^ 40 else mediaAt s x.1.1.1 p.pin x.1.1.2.1 x.1.1.2.2.1,
          dist := x.1.2, done := false, failed := false, retries := 0, rescored := false }
      let served := rs.filterMap fun r => match r.2 with | .hits _ _ => some r.1 | .noCopy | .bad => none
      let s := onUnit s n fun u =>
        { u with scanned := true, ready := countedTurn s + 1, replica := served.any (servesAsReplica s), served := served, retired := gone,
                 matchCount := min hits.length (2 ^ 32 - 1), cands := best.zipIdx.map mk, error := u.error || !bads.isEmpty }
      sendStage s p.home (.matchRep p.qh p.pin p.round (min hits.length (2 ^ 32 - 1)))

/-- SKETCH_SCAN (R261). -/
def execSketchScan (unit : Nat) (uncorrectable : List Nat) (s : State) : Host.Outcome State Fault Refusal :=
  .next (doSketchScan s unit uncorrectable)


end Sys2Proof.Machine
end

