-- ==== Sys2Proof/Machine/Slots.lean ====
section
/-! DEFINITION. The work that the boards of a turn place at P6 on the stages of the query path (R41, R46, R47, R215): what
asks for a place, what it costs, and the slip of what finds none. -/

namespace Sys2Proof.Machine

/-- Operations of one half, for a capacity of both halves. -/
def onHalf (h n : Nat) : List Nat := if h = 0 then [n, 0] else [0, n]

/-! ### t1 -/

/-- Queries that ask the Router for a place: those that are to be routed, and those whose probes wait for a grant (R45, R215). -/
def routerWork (s : State) : List Work :=
  (s.queries.filter fun q => q.vec.isSome && !q.error && !q.timedOut && decide (t1Of q ≤ s.turn.no) && decide (q.ready ≤ s.turn.no)
      && (unrouted q || !q.waiting.isEmpty)).map fun q =>
    { engine := .router, id := q.qh, pin := q.t0, green := decide (q.colour = .green),
      late := decide (t1Of q < s.turn.no) || !unrouted q,
      ops := onHalf q.half (if unrouted q then routeOps s q.coll q.t0 else 0) }

/-- Place the routing of the turn: a query that finds no place slips, and the step of its routing stream is the turn's (R166). -/
def placeRouting (s : State) : State :=
  let ws := routerWork s
  let placed := (placeAll s [engineCap s .router 0, engineCap s .router 1] ws).filter fun w =>
    !halfStalled s (((getQuery s w.id).map (·.half)).getD 0)
  let ids := placed.map (·.id)
  let s := (ws.filter fun w => !ids.contains w.id).foldl (fun s w => slipQuery s w.id) (addPlaced s placed)
  ids.foldl (fun s n => onQuery s n fun q => if unrouted q then { q with routeTurn := some s.turn.no } else q) s

/-! ### t2 -/

/-- Four-bit re-scores and row passes of a unit on each half: one pass and C re-scores for each probed list (Table 9.1). -/
def scanOps (s : State) (u : SUnit) : List Nat :=
  [0, 1].map fun h => (u.probe.keys.filter fun k => ((getList s k).map fun l => l.stack / 4).getD 0 == h).length * (1 + u.probe.c)

/-- Units that ask the Scanner for a place. -/
def scannerWork (s : State) : List Work :=
  if s.ledger.outOfStep then []
  else
    (s.units.filter fun u => !u.scanned && decide (u.arrived ≤ s.turn.no)).map fun u =>
      { engine := .scanner, id := u.num, pin := u.probe.pin, green := decide (u.probe.colour = .green),
        late := decide (u.arrived < s.turn.no), ops := scanOps s u }

/-- The paths of a unit's lists, none where one of them slips (R155, R156); each list takes its share of the result bus. -/
def unitPaths (s : State) (p : ProbeRec) : List Nat → Option (State × List (Nat × Bool))
  | [] => some (s, [])
  | k :: ks =>
    match scanPath s p (survivorCap s p) k with
    | none => none
    | some b => (unitPaths (countPath s p (survivorCap s p) k b) p ks).map fun r => (r.1, (k, b) :: r.2)

/-- Place one unit's scan where every list of it has its path; one that has none slips. -/
def placeScan (s : State) (w : Work) : State :=
  match getUnit s w.id with
  | none => s
  | some u =>
    match unitPaths s u.probe u.probe.keys with
    | none => s
    | some r => onUnit (addPlaced r.1 [w]) w.id fun u => { u with paths := r.2 }

/-- Place the scans of the turn. -/
def placeScans (s : State) : State :=
  (placeAll s [engineCap s .scanner 0, engineCap s .scanner 1] (scannerWork s)).foldl placeScan s

/-! ### t4 and t5 -/

/-- Units that ask the Selector for a place, each at the steps of C candidates (R284). -/
def selectorWork (s : State) : List Work :=
  (s.units.filter fun u => u.scanned && !u.sent && !u.error && decide (u.ready ≤ s.turn.no) && unitRanked s u).map fun u =>
    { engine := .selector, id := u.num, pin := u.probe.pin, green := decide (u.probe.colour = .green),
      late := decide (u.arrived + 2 < s.turn.no), ops := [selectSteps u.probe.c u.probe.k] }

/-- Place the selections of the turn; one that does not fit slips (R284). -/
def placeSelections (s : State) : State :=
  let ws := selectorWork s
  let placed := placeAll s [selectCap s] ws
  bump (addPlaced s placed) Obj.SELECT_SLIPS (ws.length - placed.length)

/-- Whether a query's merge belongs to its deadline turn (R291). -/
def mergeDue (s : State) (q : Query) : Bool := decide (deadlineTurn q ≤ s.turn.no)

/-- Whether a query asks the Bazaar for a merge. -/
def mergesNow (s : State) (q : Query) : Bool := answerDue s q && !q.error && !q.lists.any (·.error)

/-- Lend slack tiles beyond BAZAAR_TILES until the Bazaar has `n` steps (R291). -/
def bazaarSlack (s : State) (n : Nat) : State :=
  let more := (n - bazaarCap s + stepsPerTile s - 1) / max 1 (stepsPerTile s)
  { s with turn := { s.turn with cur := lendSlack (tilesHeld s) .bazaar more s.turn.cur } }

/-- Place the merges of the turn: first those of a deadline turn, always, then the others in order; one that does not fit slips
(R291). -/
def placeMerges (s : State) : State :=
  let of := fun (q : Query) => ({ engine := .bazaar, id := q.qh, pin := q.t0, green := decide (q.colour = .green),
                                  late := false, ops := [(mergeSteps q).1] } : Work)
  let firsts := (s.queries.filter fun q => mergesNow s q && mergeDue s q).map of
  let rest := sortBy workLe ((s.queries.filter fun q => mergesNow s q && !mergeDue s q && !halfStalled s q.half
    && (q.half == 0 || bridgeFits s (resultBytes q))).map of)
  let need := firsts.foldl (fun n w => n + w.ops.headD 0) 0
  let s := bazaarSlack s need
  let r := placeIn [bazaarCap s - need] rest
  let out := rest.filter fun w => !(r.1.map (·.id)).contains w.id
  out.foldl (fun s w => slipQuery s w.id) (bump (addPlaced s (firsts ++ r.1)) Obj.BAZAAR_SLIPS out.length)

/-- The board of the turn places the work that is due on the stages (R41, R46). -/
def placeWork (s : State) : State := placeMerges (placeSelections (placeScans (placeRouting s)))

end Sys2Proof.Machine
end

