-- ==== Sys2Proof/Machine/Sections.lean ====
section
/-! DEFINITION. Caravans (R48, R375, R395): their arrival, the counting of their sections, and the closing of a boundary's
caravans. -/

namespace Sys2Proof.Machine

/-! ### Sections (Table 17.3) -/

/-- TYPE of a section. -/
def sectType : Sect → Nat
  | .probe _ => 0x01
  | .matchRep .. => 0x02
  | .partialList _ => 0x03
  | .cancel .. => 0x04
  | .activation .. => 0x05
  | .stage _ => 0x06
  | .ack .. => 0x07
  | .commit .. => 0x08
  | .stamp .. => 0x09
  | .moveLog .. => 0x0A
  | .drift .. => 0x0B
  | .heat _ => 0x0C
  | .grant _ => 0x0D
  | .ledgerReq _ => 0x0E
  | .epoch _ => 0x0F
  | .stats .. => 0x10
  | .resend .. => 0x11
  | .copy _ => 0x12
  | .malformed t => t
  | .unlisted t => t

/-- A unit of shard work opens in the turn in which its caravan is counted, or one turn later where the meter of its port
returns red (R96, R216). -/
def openUnit (s : State) (p : ProbeRec) (due : Nat) : State :=
  let u : SUnit := { num := s.nextUnit, probe := p, arrived := due, ready := due + 2, paths := [], scanned := false, replica := false, served := [],
                     retired := 0, matchCount := 0, cands := [], error := false, ranked := false, sent := false, dropDue := 0 }
  { s with units := s.units ++ [u], nextUnit := s.nextUnit + 1 }

/-- The colour that a Wenmen port meter gives a query's shard work: one request for all of it in one caravan (R96). -/
def meterProbe (s : State) (src : Nat) (p : ProbeRec) : Colour × State :=
  match look s.fab.metered (p.qh, p.pin) with
  | some c => (c, s)
  | none =>
    let m := portMeter (arrivalPort s src + 1)
    let c := mark s m p.colour
    (c, { debit s m c with fab := { (debit s m c).fab with metered := s.fab.metered ++ [((p.qh, p.pin), c)] } })

/-- A PROBE section is counted: work of another node passes the meter of the Wenmen port at which it arrived (R96). -/
def countProbe (s : State) (src : Nat) (p : ProbeRec) : State :=
  if src = selfNode s then openUnit s p s.turn.no
  else
    let r := meterProbe s src p
    let s := r.2
    match r.1 with
    | .red => openUnit (bump s Obj.PORT_DEFERS 1) p (nextTurn s.turn.no)
    | .yellow => openUnit s { p with colour := .yellow } s.turn.no
    | .green => openUnit s p s.turn.no

/-- A MATCH section is counted at the home node (R225, R232). -/
def countMatch (s : State) (qh pin round count : Nat) : State :=
  match getQuery s qh with
  | none => s
  | some q =>
    if q.t0 ≠ pin then s
    else onQuery s qh fun q =>
      { q with matched := q.matched + count, reports := if round = q.round then q.reports + 1 else q.reports }

/-- The turn in which a partial list of a round is due: t5 of the first round, and four turns after a widening round was sent
(R215, R234). -/
def listDue (q : Query) (round : Nat) : Nat :=
  match round with
  | 0 => t1Of q + 4
  | n + 1 => q.rounds.getD n (t1Of q) + 4

/-- A PARTIAL section is counted at the home node: kept for the merge, or discarded as late (R54, R285, R286). -/
def countPartial (s : State) (src : Nat) (p : PartialList) : State :=
  match getQuery s p.qh with
  | none => bump s Obj.LATE_PARTIALS 1
  | some q =>
    if p.error = true ∧ p.pin = q.t0 ∧ q.vec.isNone = true ∧ q.m ≠ 1 then onQuery s p.qh fun q => { q with error := true }
    else if p.pin ≠ q.t0 ∨ q.shards.contains src = false ∨ q.awaited ≤ q.lists.length ∨ deadlineTurn q < s.turn.no then
      bump s Obj.LATE_PARTIALS 1
    else
      let s := onQuery s p.qh fun q => { q with lists := q.lists ++ [p] }
      if listDue q p.round < s.turn.no then slipQuery s p.qh else s

/-- A CANCEL section is counted: the query's work is dropped at the first turn boundary after this (R54). -/
def countCancel (s : State) (src qh pin : Nat) : State :=
  let hit := fun (u : SUnit) => u.probe.home == src && u.probe.qh == qh && u.probe.pin == pin
  { s with units := s.units.map fun u => if hit u then { u with dropDue := nextTurn s.turn.no } else u }

/-- An ACTIVATION section is counted: the encoder output at the home node, or what a segment reads (R147). -/
def countActivation (s : State) (home qh pin slot seg layer : Nat) (rows : List (List Flt)) : State :=
  if seg = 255 then
    match getQuery s qh with
    | none => s
    | some q =>
      if home ≠ selfNode s ∨ q.t0 ≠ pin then s
      else onQuery s qh fun q => { q with vec := some (encoderVec (dimsOf s q.coll) rows) }
  else
    { s with acts := s.acts ++ [{ home := home, qh := qh, pin := pin, slot := slot, seg := seg, layer := layer, rows := rows,
                                  turn := s.turn.no }] }

/-- A GRANT section is counted: it replaces the grant of its kind that its node gave to the same member, and takes effect now
(R44). A member that is loading takes none (R458). -/
def countGrant (s : State) (g : Grant) : State :=
  if getObj s Obj.MEMBER_LOAD = 1 then s
  else
    let same := fun (x : Grant) => decide (x.kind = g.kind) && x.granter == g.granter && x.grantee == g.grantee
    { s with fab := { s.fab with grants := s.fab.grants.filter (fun x => !same x) ++ [g] } }

/-- A RESEND section is counted: the section of that TYPE and TURN goes again (R379); a centroid set and graph is sent from
this node's newest set (R449). -/
def countResend (s : State) (src ty turn : Nat) : State :=
  if ty = 0x112 then
    match (getColl s turn).cents with
    | [] => s
    | cs :: _ => send s src (.copy (centroidCopy turn cs))
  else
    (s.fab.closed.filter fun c => c.1 == src && c.2.1 == turn).foldl (fun s c =>
      (c.2.2.filter fun x => sectType x == ty).foldl (fun s x => send s src x) s) s

/-- Whether a remote segment comes with another SCALE_N than the one held for its slot (R166). -/
def newScaleN (s : State) (r : RemoteSeg) : Bool :=
  match s.remotes.find? fun x => remoteSlot x == remoteSlot r with
  | none => false
  | some x => x.settings.getD 3 4 != r.settings.getD 3 4

/-- A segment of a spread encoder arrives with its image and watch settings (R146, R178). -/
def countSegment (s : State) (src slot seg first count : Nat) (b : List Byte) (settings : List Nat) : State :=
  match parseImage b with
  | .error _ => s
  | .ok (_, img) =>
    let img := { img with layers := modeLayers (settings.getD 1 0) img.layers }
    let r : RemoteSeg := { home := src, slot := slot, seg := seg, first := first, count := count, image := img, settings := settings }
    let s := if newScaleN s r then clearHists s fun k => k.1 == kLayer && k.2 / 1024 == remoteSlot r else s
    { s with remotes := s.remotes.filter (fun x => !(x.home == src && x.slot == slot && x.seg == seg)) ++ [r] }

/-- A COPY section is counted. -/
def countCopy (s : State) (src : Nat) : CopyBody → State
  | .listPart key mib last hot es => countListPart s key mib last hot es
  | .dirRecords c sh done rs => if done = 0 then countDirRecords s src c sh rs else takeShard s c sh done rs
  | .centroids c v rows es edges => countCentroids s c v rows es edges
  | .image c b => countImageCopy s src c b
  | .segment slot seg first count b st => countSegment s src slot seg first count b st
  | .ledger rs => countLedgerCopy s rs

/-- One section of the caravan of boundary `t` from `src` becomes visible. -/
def countSect (src t : Nat) (s : State) : Sect → State
  | .probe p => countProbe s src p
  | .matchRep qh pin round n => countMatch s qh pin round n
  | .partialList p => countPartial s src p
  | .cancel qh pin => countCancel s src qh pin
  | .activation home qh pin slot seg layer rows => countActivation s home qh pin slot seg layer rows
  | .stage e => stageEntry s e
  | .ack wids refused short => countAck s src wids refused short
  | .commit turn rs => countCommit s src turn rs
  | .stamp turn sh c xs => countStamp s turn sh c xs
  | .moveLog key turn rs => countMoveLog s key turn rs
  | .drift c e rs => countDrift s src c e rs
  | .heat hs => countHeat s hs
  | .grant g => countGrant s g
  | .ledgerReq r => countLedgerReq s r
  | .epoch e => countEpoch s e
  | .stats slot layer p => { s with remoteStats := put s.remoteStats (slot, layer) p }
  | .resend ty turn => countResend s src ty turn
  | .copy b => countCopy s src b
  | .malformed ty => send (bump s Obj.HX_MALFORMED 1) src (.resend ty t)
  | .unlisted _ => { s with fab := { s.fab with badFrames := s.fab.badFrames + 1 } }

/-! ### Arrival and counting -/

/-- Whether this node takes sections from `src`: a member from a member, and a node that waits to join from any, of which it
counts epochs only (R29, R387). -/
def hearsCaravan (s : State) (src : Nat) : Bool :=
  if isMember s then s.ledger.members.contains src else s.ledger.joinSent

/-- Whether the caravan of boundary `t` is late now: P6 of its departure boundary has passed (R48). -/
def caravanLate (s : State) (t : Nat) : Bool :=
  decide (t < s.turn.no) || (t == s.turn.no && decide (s.turn.phase ≠ .p5))

/-- Whether the caravan of `src` for boundary `t` has come before. -/
def caravanKnown (s : State) (src t : Nat) : Bool :=
  (s.fab.inbox.any fun c => c.1 == src && c.2.1 == t)
    || (match look s.fab.consumed src with | none => false | some n => decide (t ≤ n))

/-- CARAVAN_COMPLETE: `frames` is what the trailer counts and `counted` the frames that have arrived. A complete caravan waits
for the next P6; a late one is counted once in LATE_CARAVANS. -/
def doCaravan (s : State) (src t frames counted : Nat) (xs : List Sect) : State :=
  if counted < frames ∨ hearsCaravan s src = false ∨ caravanKnown s src t = true then s
  else
    let s := if caravanLate s t then bump s Obj.LATE_CARAVANS 1 else s
    { s with fab := { s.fab with inbox := s.fab.inbox ++ [(src, t, xs)] } }

/-- CARAVAN_COMPLETE (R48, R375). -/
def execCaravanComplete (src turn frames counted : Nat) (sections : List Sect) (s : State) : Host.Outcome State Fault Refusal :=
  .next (doCaravan s src turn frames counted sections)

/-- Count one complete caravan: at a node that waits to join, its epochs alone. -/
def countCaravan (s : State) (c : Nat × Nat × List Sect) : State :=
  let xs := if isMember s then c.2.2 else c.2.2.filter fun x => sectType x == 0x0F
  let s := { s with fab := { s.fab with metered := [], consumed := put s.fab.consumed c.1 c.2.1,
                                        inbox := s.fab.inbox.filter fun x => !(x.1 == c.1 && x.2.1 == c.2.1) } }
  xs.foldl (countSect c.1 c.2.1) s

/-- Whether a caravan is the next of its source (R395: in TURN order). -/
def caravanNext (s : State) (c : Nat × Nat × List Sect) : Bool :=
  !isMember s || (match look s.fab.consumed c.1 with | none => true | some n => c.2.1 == nextTurn n)

/-- Count the complete caravans at P6: by source, and of one source in TURN order. -/
def countCaravans (s : State) : State :=
  let le := fun (a b : Nat × Nat × List Sect) => decide (a.1 < b.1) || (a.1 == b.1 && decide (a.2.1 ≤ b.2.1))
  (sortBy le (s.fab.inbox.filter fun c => decide (c.2.1 ≤ s.turn.no) || !isMember s)).foldl (fun s c =>
    if caravanNext s c then countCaravan s c else s) s

/-! ### Closing the caravans of a boundary (R375) -/

/-- The commit batch of the turn to every member, in the order in which entries were taken, even where it is empty (R302). -/
def closeCommits (s : State) : State :=
  let recs := (sortBy (fun (a b : Nat × CommitRec) => decide (a.1 ≤ b.1)) s.ing.commitOut).map (·.2)
  let s := sendAll s s.ledger.members (.commit s.turn.no recs)
  { s with ing := { s.ing with commitOut := [], lostOut := (recs.filter fun r => !r.abort).length } }

/-- The acknowledgement batch to every member (R300). -/
def closeAcks (s : State) : State :=
  let short := shortLists s
  let of := fun (l : List (Nat × Nat)) (d : Nat) => (l.filter fun p => p.1 == d).map (·.2)
  let s := s.ledger.members.foldl (fun s d => send s d (.ack (of s.ing.ackOut d) (of s.ing.refuseOut d) short)) s
  { s with ing := { s.ing with ackOut := [], refuseOut := [] } }

/-- Requests to the leader (R382). -/
def closeRequests (s : State) : State :=
  let me := selfNode s
  let s := s.ledger.outReqs.foldl (fun s r => send s s.ledger.leader (.ledgerReq { node := me, body := r })) s
  { s with ledger := { s.ledger with outReqs := [] } }

/-- Turns for which closed caravans are kept for a RESEND. -/
def keptTurns : Nat := 8

/-- Bytes of a section of the query path as it leaves: its header and its body, before compression (R377, Tables 9.2, 12.1 and
12.2). -/
def sectBytes : Sect → Nat
  | .probe p => 56 + 8 * p.keys.length + (p.sketch.length + 7) / 8 + 32 * p.luts.length + 4 * p.vec.length
  | .matchRep .. => 24
  | .partialList p => 24 + 20 * p.entries.length
  | .cancel .. => 24
  | .activation _ _ _ _ _ _ rows => 24 + 4 * (rows.map (·.length)).sum
  | _ => 0

/-- Whether a section carries work of the query path. -/
def querySect (x : Sect) : Bool := decide (1 ≤ sectType x ∧ sectType x ≤ 5)

/-- Bytes of a stream of `n` bytes on a port, counting frame headers and their CRC (R374, R376). -/
def lineBytes (n : Nat) : Nat := n + 28 * ((n + 16383) / 16384)

/-- The sections to one member that leave at this boundary, within `room` bytes of the port for the query path, and what is left
of it; those that do not fit wait (R41). -/
def fitSections : Nat → List Sect → List Sect × List Sect × Nat
  | room, [] => ([], [], room)
  | room, x :: xs =>
    if querySect x = true ∧ room < lineBytes (sectBytes x) then
      let r := fitSections room xs
      (r.1, x :: r.2.1, r.2.2)
    else
      let r := fitSections (if querySect x then room - lineBytes (sectBytes x) else room) xs
      (x :: r.1, r.2.1, r.2.2)

/-- What the board in force reserves of a port and this boundary's caravans have not used (R41, R376). -/
def portRoom (s : State) (p : Nat) : Nat := lookD (boardOf s (p / 8)).portBytes p 0 - lookD s.turn.portUsed p 0

/-- Close the caravan to one member: with 4 unconsumed it goes without sections, which wait (R395), as do sections of the query
path beyond what the board reserves of the port (R41). -/
def closeOne (s : State) (d : Nat) : State :=
  let n := nextTurn s.turn.no
  let me := selfNode s
  let full := decide (4 ≤ lookD s.fab.unconsumed d 0)
  let mine := fun (p : Nat × Sect) => p.1 == d
  let all := (s.fab.out.filter mine).map (·.2)
  let port := (portTo s d).getD 0
  let room := portRoom s port
  let r := if full then ([], all, room) else if d = me then (all, [], room) else fitSections room all
  let xs := r.1
  let s := { s with turn := { s.turn with portUsed := addUse s.turn.portUsed port (room - r.2.2) } }
  let s := { s with fab := { s.fab with
    out := s.fab.out.filter (fun p => !mine p) ++ r.2.1.map fun x => (d, x)
    closed := (s.fab.closed.filter fun c => decide (s.turn.no < c.2.1 + keptTurns)) ++ [(d, n, xs)] } }
  if d = me then { s with fab := { s.fab with inbox := s.fab.inbox ++ [(me, n, xs)] } }
  else
    let s := emit s (.caravan d n xs)
    let s := sendFrame s { dst := d, src := me, part := getObj s Obj.PARTITION_ID, cls := 0, last := true, len := 16, turn := n,
                           hops := 0, seq := 0, good := true }
    { s with fab := { s.fab with unconsumed := put s.fab.unconsumed d (lookD s.fab.unconsumed d 0 + 1) } }

/-- Whether the node withdraws at this boundary, so that its caravans of the boundary do not go (R29, R307). -/
def withdrawing (s : State) : Bool := match s.turn.withdraw with | none => false | some t => decide (t ≤ boundary s)

/-- Close every caravan of the boundary: to each member, and to a node that an epoch in it admits. -/
def closeCaravans (s : State) : State :=
  if !isMember s || withdrawing s then s
  else
    let s := s.ing.owed.foldl sendOwed (sendLogs s)
    let s := if boundary s % 64 = 0 then sendHeats s else s
    let s := closeRequests (closeAcks (closeCommits s))
    let s := (nub (s.ledger.members ++ s.fab.out.map (·.1))).foldl closeOne s
    { s with fab := { s.fab with out := s.fab.out ++ s.fab.nextOut, nextOut := [] } }

end Sys2Proof.Machine
end

