-- ==== Sys2Proof/Machine/Turns.lean ====
section
/-! DEFINITION. The turn grid (chapter 02): the phases of a boundary, the boards, grants, deadlines and the period. Each
phase follows the one before it in Table 2.1, and none runs while the grid is still. -/

namespace Sys2Proof.Machine

/-- Whether the phase after `p` may begin now (R33). -/
def phaseFollows (s : State) (p : Phase) : Bool := gridOn s && decide (s.turn.phase = p)

/-- Enter a phase. -/
def setPhase (s : State) (p : Phase) : State := { s with turn := { s.turn with phase := p } }

/-! ### P0 to P3 -/

/-- What HOST_GROUPS of a stack will read once the transactions that are due are applied. -/
def hostGroupsNext (s : State) (st : Nat) : Nat :=
  let ws := (s.dict.commits.filter fun j => decide (j.due ≤ boundary s)).flatMap (·.writes)
  match (ws.filter fun w => w.1 == Obj.HOST_GROUPS st).getLast? with
  | none => getObj s (Obj.HOST_GROUPS st)
  | some w => leNat w.2

/-- The groups that a stack will have in host mode. -/
def groupsNext (s : State) (st : Nat) : List Nat := (List.range 64).filter fun g => bitsOf (hostGroupsNext s st) g 1 == 1

/-- From P0 a group that leaves host mode accepts no host command (R247). -/
def markLeaving (s : State) : State :=
  let mark := fun (p : (Nat × Nat) × HostGroup) => (p.1, { p.2 with leaving := !(groupsNext s p.1.1).contains p.1.2 })
  { s with smem := { s.smem with running := false, groups := s.smem.groups.map mark } }

/-- WORK_CUTOFF, P0: every reservation ends, no further operation issues, and what the turn has written to the rings has been
published (R33, R75, R82). -/
def doWorkCutoff (s : State) : State :=
  if phaseFollows s .p6 then
    let s := (s.host.queues.map (·.1)).foldl publishQueue s
    setPhase (markLeaving s) .p0
  else s

/-- WORK_CUTOFF (R33). -/
def execWorkCutoff (s : State) : Host.Outcome State Fault Refusal := .next (doWorkCutoff s)

/-- Whether work of an engine that this turn's boards placed has not completed (R34): for the Composer a query without its vector,
for the others what was placed. The work of the background engines is not on the boards. -/
def outstanding (s : State) (e : Engine) : Bool :=
  match e with
  | .composer => s.queries.any fun q => q.vec.isNone && !q.error && !q.timedOut && decide (q.t0 ≤ s.turn.no)
  | .router | .scanner | .selector | .bazaar => s.turn.placed.any fun p => decide (p.engine = e)
  | .ingest | .compactor | .adapter => true

/-- The completion tallies of P1: the engines whose work of the turn is not complete, and for how many boundaries; a query whose
routing or merge did not complete in its turn slips (R34, R37, R46). -/
def countTallies (s : State) : State :=
  let es := [Engine.composer, .router, .scanner, .selector, .bazaar].filter (outstanding s)
  let left := s.turn.placed.filter fun p => decide (p.engine = .router) || decide (p.engine = .bazaar)
  let s := { s with turn := { s.turn with unmet := es.map fun e => (e, lookD s.turn.unmet e 0 + 1) } }
  left.foldl (fun s p => slipQuery s p.id) s

/-- COMPLETION_SNAPSHOT, P1: the completion tallies are captured, and the candidates of the units whose scan has completed are
assigned to waystations (R33, R34, R267). -/
def execCompletionSnapshot (s : State) : Host.Outcome State Fault Refusal :=
  .next (if phaseFollows s .p0 then setPhase (assignCandidates (countTallies s)) .p1 else s)

/-- Capture the host tallies of every queue (R34). -/
def snapTallies (s : State) : State :=
  onHost s fun h => { h with queues := h.queues.map fun p => (p.1, { p.2 with snapTally := p.2.hostTally }) }

/-- ARRIVAL_SNAPSHOT, P2: doorbell tallies are captured, and every outbound caravan of this boundary is closed, with the
requests of the commits counted at it (R34, R375, R422). -/
def execArrivalSnapshot (s : State) : Host.Outcome State Fault Refusal :=
  .next (if phaseFollows s .p1 then setPhase (closeCaravans (forwardDue (countBeat (snapTallies s)))) .p2 else s)

/-- Whether a query lacks a partial list that it awaits. -/
def lacksLists (q : Query) : Bool := !q.waiting.isEmpty || decide (q.lists.length < q.awaited) || q.shards.isEmpty

/-- TIMEOUT_EVALUATION, P3: the queries whose deadline boundary this is and that still lack partial lists (R33, R52). -/
def execTimeoutEvaluation (s : State) : Host.Outcome State Fault Refusal :=
  .next (
    if phaseFollows s .p2 then
      let late := (s.queries.filter fun q => decide (deadlineTurn q ≤ boundary s) && lacksLists q).map (·.qh)
      setPhase { s with turn := { s.turn with due := late } } .p3
    else s)

/-! ### Boards (R41, R42, R259, R473) -/

/-- Keep the first loan of each tile (R41). -/
def firstLoans : List Loan → List Loan
  | [] => []
  | a :: l => a :: (firstLoans l).filter fun b => b.tile != a.tile

/-- Bytes that a stack's result bus carries in a work window: 64 GB/s (R262). -/
def busBytesOf (s : State) : Nat := 64000 * workWindowUs s

/-- A board as a half can hold it: the resources attached to the half (Table 1.3), each port within PORT_TURN_BYTES (R376), no
window on a stack whose reservation its result bus does not fit (R262), its gather capacity, host port slots on H0 alone. -/
def trimBoard (s : State) (half : Nat) (b : Board) : Board :=
  { b with loans := firstLoans (b.loans.filter fun l => l.tile / 64 == half)
           issue := b.issue.filter fun x => x.1 / 4 == half
           windows := nub (b.windows.filter fun w => w.1 / 4 == half && decide (w.2 < 64)
             && decide (lookD b.busBytes w.1 0 ≤ busBytesOf s))
           waySlots := b.waySlots.filter fun x => x.1 / 16 == half
           portBytes := (b.portBytes.filter fun x => x.1 / 8 == half).map fun x => (x.1, min x.2 (portTurnBytes s))
           busBytes := b.busBytes.filter fun x => x.1 / 4 == half && decide (x.2 ≤ busBytesOf s)
           hostSlots := if half = 0 then b.hostSlots else 0
           gathers := min b.gathers (composeCap s) }

/-- Whether the boards of both halves stay within the package limit (R473). -/
def withinPower (s : State) (half : Nat) (b : Board) : Bool :=
  let other := match s.turn.next.getD (1 - half) none with | none => 0 | some x => x.energy
  decide (b.energy + other ≤ getObj s Obj.PKG_LIMIT_W * periodUs s)

/-- A tile buffer that nothing uses. -/
def TileBuf.reset : TileBuf := { half := 0, active := none, standby := none }

/-- The first operands of each loan of the next turn go into the standby half of its tile's buffer, against the board just written
(R333). -/
def loadStandby (s : State) (half : Nat) (ls : List Loan) : State :=
  let old := s.turn.buffers.map fun p => (p.1, if p.1 / 64 = half then { p.2 with standby := none } else p.2)
  let put1 := fun (bs : List (Nat × TileBuf)) (l : Loan) =>
    put bs l.tile { (look bs l.tile).getD TileBuf.reset with standby := some l.engine }
  { s with turn := { s.turn with buffers := ls.foldl put1 old } }

/-- At P5 the halves of the buffers that were loaded exchange (R333). -/
def exchangeBuffers (bs : List (Nat × TileBuf)) : List (Nat × TileBuf) :=
  bs.map fun p => (p.1, if p.2.standby.isSome then { half := 1 - p.2.half, active := p.2.standby, standby := none } else p.2)

/-- PLANNER_BOARD_WRITE: the board of the next turn, until P4 latches it (R42). -/
def doBoardWrite (s : State) (half : Nat) (b : Board) : State :=
  if s.turn.phase = .p4 ∨ withinPower s half b = false then s
  else
    let b := trimBoard s half b
    loadStandby { s with turn := { s.turn with next := atIdx (fun _ => some b) half s.turn.next } } half b.loans

/-- PLANNER_BOARD_WRITE (R42). -/
def execPlannerBoardWrite (half : Nat) (board : Board) (s : State) : Host.Outcome State Fault Refusal :=
  .next (doBoardWrite s half board)

/-- The board that a half repeats: no new query and no ingest (R42). -/
def repeatBoard (b : Board) : Board := { b with contexts := 0, ingestCap := 0 }

/-- Latch the board of one half: the one written, or the present one again (R42); the tiles held are removed and the windows
cut (R259). -/
def latchHalf (s : State) (h : Nat) : State :=
  let new := s.turn.next.getD h none
  let b := match new with | some b => b | none => repeatBoard (s.turn.cur.getD h Board.empty)
  let b := { b with loans := b.loans.filter fun l => !(tilesHeld s).contains l.tile }
  let r := cutWindows s (groupsNext s) b
  let s := bump s Obj.WINDOW_CUTS r.2
  let s := if new.isNone then bump s Obj.BOARD_REPEATS 1 else s
  { s with turn := { s.turn with latched := atIdx (fun _ => r.1) h s.turn.latched,
                                 repeated := atIdx (fun _ => new.isNone) h s.turn.repeated,
                                 cuts := s.turn.cuts ++ b.windows.filter fun w => !r.1.windows.contains w } }

/-- The parts of the boards written that the Planner fills by P4: what they hold for the queries carried into t0 (R43), at least
SELECT_TILES tiles while units are in t4 (R284), and BAZAAR_TILES while queries are open (R291). -/
def fillBoards (s : State) (bs : List Board) : List Board :=
  let t := boundary s
  let again := fun h => s.turn.repeated.getD h false
  let held := tilesHeld s ++ (List.range 128).filter fun t => again (t / 64)
  let bs := [0, 1].foldl (fun bs h => if again h then bs else coverPlan s held t h bs) bs
  let bs := if s.units.any fun u => u.scanned && !u.sent && decide (u.ready ≤ t)
    then lendAtLeast held .selector (getObj s Obj.SELECT_TILES) bs else bs
  if s.queries.isEmpty then bs else lendAtLeast held .bazaar (getObj s Obj.BAZAAR_TILES) bs

/-- Latch both boards, and count consecutive repeats for the Planner's watchdog (R42, R453). -/
def latchBoards (s : State) : State :=
  let s := latchHalf (latchHalf { s with turn := { s.turn with cuts := [] } } 0) 1
  let again := s.turn.repeated.contains true
  { s with turn := { s.turn with next := [none, none], latched := fillBoards s s.turn.latched, tileIdle := [],
                                 repeats := if again then s.turn.repeats + 1 else 0 } }

/-! ### P4 -/

/-- Whether a row flips, or its group moves, at boundary `n` (R120, R125, R128). -/
def rowChanges (s : State) (n t i : Nat) : Bool :=
  match (getTable s t).active with
  | none => false
  | some v =>
    let r := v.row i
    (r.flipDue != 0 && decide (r.flipDue ≤ n)) || ((v.group (i / 256)).copied && !(v.group (i / 256)).cancel)

/-- What falls due at boundary `n` with the latch, beside the commands of their own that follow. -/
def applyDue (s : State) (n : Nat) : State :=
  let s := rangesAtBoundary (hotAtBoundary (heatAtBoundary (latchOwners (refillMeters (endSteps s)) n)) n) n
  let s := applyRewrites (copiesAtBoundary s n) n
  let s := flipRows (discardStaged s n (rowChanges s n)) n
  sendJoin (clearsAtBoundary (electAtBoundary (flashAtBoundary (modelsAtBoundary s n) n) n) n)

/-- LATCH, P4: the boards are latched and the changes due are applied to the shadow state; until P5 the objects read as before
(R33, R35). -/
def doLatch (s : State) : State :=
  if phaseFollows s .p3 then
    let s := setPhase { s with dict := { s.dict with was := some (shownNow s) } } .p4
    applyDue (holdNext (latchBoards s) (groupsNext s)) (boundary s)
  else s

/-- LATCH (R33). -/
def execLatch (s : State) : Host.Outcome State Fault Refusal := .next (doLatch s)

/-- PERIOD_SWITCH: at B(switch TURN_NO) the pending period comes into force (R30). -/
def execPeriodSwitch (s : State) : Host.Outcome State Fault Refusal :=
  .next (
    let p := getObj s Obj.PERIOD_PENDING
    if s.turn.phase = .p4 ∧ p ≠ 0 ∧ getObj s Obj.PERIOD_SWITCH_TURN ≤ boundary s then
      setObj (setObj (setObj s Obj.TURN_PERIOD_US p) Obj.PERIOD_PENDING 0) Obj.PERIOD_SWITCH_TURN 0
    else s)

/-! ### P5 -/

/-- One change of the shadow state becomes active. -/
def activate1 (n : Nat) (s : State) (c : Shadow) : State :=
  match c with
  | .owner b code => handOver s b code
  | .pageMap d l p due =>
    if due ≤ n then remap s d l p n else shadowPush s c

/-- The shadow state becomes active at B(n) (R33, R35). -/
def activateShadow (s : State) (n : Nat) : State :=
  s.turn.shadow.foldl (activate1 n) { s with turn := { s.turn with shadow := [] } }

/-- Remove units of shard work with the reads that they wait for. -/
def dropUnits (s : State) (gone : SUnit → Bool) : State :=
  let nums := (s.units.filter gone).map (·.num)
  let s := clearWay s nums.contains
  { s with units := s.units.filter fun u => !gone u,
           way := { s.way with queues := s.way.queues.map (fun q => (q.1, q.2.filter fun r => !nums.contains r.unit)),
                               coming := s.way.coming.filter fun p => !nums.contains p.2.unit } }

/-- The counts of a turn begin anew. -/
def freshTurn (s : State) : State :=
  let t := { s.turn with
    admitted := false, yellowQ := 0, yellowI := 0, takenQ := [0, 0], takenI := 0, gathersUsed := [0, 0], selSteps := 0,
    bazSteps := 0, fallbacks := [], placed := [], plan := s.turn.plan.filter (fun p => decide (s.turn.no < p.turn)), bridgeUsed := 0,
    busUsed := [], portUsed := [], seqMissed := s.turn.seqMissed.filter fun m => decide (s.turn.no ≤ m.2),
    trips := s.turn.trips.filter fun x => decide (s.turn.no < x.turn + 1024) }
  let host := { s.host with queues := s.host.queues.map fun p => (p.1, { p.2 with bells := [], told := false }) }
  { s with turn := t, host := host, dict := { s.dict with was := none }, fab := { s.fab with grantUsed := [] },
           ras := { s.ras with sweepUsed := [] }, clk := { s.clk with throttled := false }, ing := { s.ing with lostOut := 0 } }

/-- Withdraw where a withdrawal falls due at this boundary (R29). -/
def withdrawDue (s : State) : State :=
  match s.turn.withdraw with
  | none => s
  | some t => if t ≤ s.turn.no then withdrawNow s else s

/-- TURN_NO_INCREMENT, P5: TURN_NO counts on, and what P4 latched becomes active (R26, R33). -/
def doIncrement (s : State) : State :=
  if phaseFollows s .p4 then
    let n := nextTurn s.turn.no
    let t := { s.turn with no := n, phase := .p5, cur := s.turn.latched, buffers := exchangeBuffers s.turn.buffers }
    let s := withdrawDue { s with turn := t }
    let s := dropUnits (writeRequests (activateShadow s n)) fun u => decide (u.dropDue ≠ 0) && decide (u.dropDue ≤ n)
    let s := testUnloads (freshTurn s)
    let s := if s.ledger.outOfStep then bump s Obj.OUT_OF_STEP_TURNS 1 else s
    let s := countRefresh (holdGroups (hostGroupsAtP5 s))
    foldCounters (marksAtP5 (applyGateState (readingsAtBoundary s n)))
  else s

/-- TURN_NO_INCREMENT (R26). -/
def execTurnNoIncrement (s : State) : Host.Outcome State Fault Refusal := .next (doIncrement s)

/-- UNIT_DEADLINE_DROP: at P5 of the deadline boundary of its probe record a unit's remaining work is dropped (R54). -/
def execUnitDeadlineDrop (unit : Nat) (s : State) : Host.Outcome State Fault Refusal :=
  .next (
    if s.turn.phase = .p5 then dropUnits s fun u => u.num == unit && decide (u.probe.deadline ≤ s.turn.no) else s)

/-! ### P6 -/

/-- ARRIVAL_ALLOWANCE_END, P6: the complete caravans are counted, and the work of the turn begins to issue (R36, R48). -/
def doAllowanceEnd (s : State) : State :=
  if phaseFollows s .p5 then
    let s := sendSegments (placeWork (sendHeartbeats (countCaravans (setPhase s .p6))))
    { s with smem := { s.smem with running := true } }
  else s

/-- ARRIVAL_ALLOWANCE_END (R36). -/
def execArrivalAllowanceEnd (s : State) : Host.Outcome State Fault Refusal := .next (doAllowanceEnd s)

/-- DEADLINE_BOUNDARY: a query whose lists are not all counted at its deadline boundary is answered from those counted; a
list counted at that boundary has arrived first (R38, R52). -/
def execDeadlineBoundary (qh : Nat) (s : State) : Host.Outcome State Fault Refusal :=
  .next (
    match getQuery s qh with
    | none => s
    | some q =>
      if s.turn.phase = .p6 ∧ s.turn.due.contains qh = true ∧ lacksLists q = true then
        slipQuery (onQuery s qh fun q => { q with timedOut := true }) qh
      else s)

/-! ### Grants (R44, R148, R298) -/

/-- Shares of members within `room`, each as far as the ones before it leave it (R298). -/
def fitShares : Nat → List (Nat × Nat) → List (Nat × Nat)
  | _, [] => []
  | room, x :: l => (x.1, min x.2 room) :: fitShares (room - x.2) l

/-- The shares of STAGE_CAP after a refresh: a member that it does not name keeps its share, as far as STAGE_CAP goes, and the others
get theirs of what is left. -/
def newShares (s : State) (gs : List Grant) : List (Nat × Nat) :=
  let asked := gs.map fun g => (g.grantee, g.amount)
  fitShares (stageCap s) ((s.fab.given.filter fun p => !(asked.any fun a => a.1 == p.1)) ++ asked)

/-- The nodes that draw a segment grant to home node `h` of this node's segments: the home node, and the node of the segment before
each of them (R148; log entry 79). -/
def segFeeders (s : State) (h : Nat) : List Nat :=
  let mine := s.ledger.segs.filter fun g => g.1.1 / 16 == h && g.2.1 == selfNode s && decide (1 < g.1.2)
  nub (h :: mine.filterMap fun g => (look s.ledger.segs (g.1.1, g.1.2 - 1)).map (·.1))

/-- GRANT_REFRESH: every 64 turns this node's grants go to the members in the next caravans (R44, R148, R298). -/
def doGrantRefresh (s : State) (gs : List Grant) : State :=
  if s.turn.phase ≠ .p6 ∨ s.turn.no % 64 ≠ 0 ∨ isMember s = false then s
  else
    let me := selfNode s
    let mine := gs.filter fun g => g.granter == me && s.ledger.members.contains g.grantee
    let shares := newShares s (mine.filter fun g => decide (g.kind = .ingest))
    let s := (mine.filter fun g => decide (g.kind = .shard)).foldl (fun s g => send s g.grantee (.grant g)) s
    let s := (mine.filter fun g => decide (g.kind = .segment)).foldl (fun s g =>
      (segFeeders s g.grantee).foldl (fun s d => send s d (.grant g)) s) s
    let s := (shares.filter fun p => !s.fab.given.contains p || mine.any fun g => decide (g.kind = .ingest) && g.grantee == p.1).foldl (fun s p =>
      send s p.1 (.grant { kind := .ingest, granter := me, grantee := p.1, amount := p.2 })) s
    { s with fab := { s.fab with given := shares } }

/-- GRANT_REFRESH (R44). -/
def execGrantRefresh (grants : List Grant) (s : State) : Host.Outcome State Fault Refusal := .next (doGrantRefresh s grants)

end Sys2Proof.Machine
end

