-- ==== Sys2Proof/Machine/Dispatch.lean ====
section
/-! DEFINITION. One arm per command. -/

namespace Sys2Proof.Machine

def exec (i : Instr) (s : State) : Host.Outcome State Fault Refusal :=
  match i with
  | .workCutoff => Sys2Proof.Machine.execWorkCutoff s
  | .completionSnapshot => Sys2Proof.Machine.execCompletionSnapshot s
  | .arrivalSnapshot => Sys2Proof.Machine.execArrivalSnapshot s
  | .timeoutEvaluation => Sys2Proof.Machine.execTimeoutEvaluation s
  | .latch => Sys2Proof.Machine.execLatch s
  | .turnNoIncrement => Sys2Proof.Machine.execTurnNoIncrement s
  | .arrivalAllowanceEnd => Sys2Proof.Machine.execArrivalAllowanceEnd s
  | .plannerBoardWrite half board => Sys2Proof.Machine.execPlannerBoardWrite half board s
  | .alignmentWithdrawal => Sys2Proof.Machine.execAlignmentWithdrawal s
  | .periodSwitch => Sys2Proof.Machine.execPeriodSwitch s
  | .grantRefresh grants => Sys2Proof.Machine.execGrantRefresh grants s
  | .deadlineBoundary qh => Sys2Proof.Machine.execDeadlineBoundary qh s
  | .unitDeadlineDrop unit => Sys2Proof.Machine.execUnitDeadlineDrop unit s
  | .caravanComplete src turn frames counted sections => Sys2Proof.Machine.execCaravanComplete src turn frames counted sections s
  | .pcieLinkUp rate width => Sys2Proof.Machine.execPcieLinkUp rate width s
  | .pcieLinkDown => Sys2Proof.Machine.execPcieLinkDown s
  | .configRequest req => Sys2Proof.Machine.execConfigRequest req s
  | .registerWrite offset size value secure => Sys2Proof.Machine.execRegisterWrite offset size value secure s
  | .rcRegisterRead reg => Sys2Proof.Machine.execRcRegisterRead reg s
  | .bar2WindowBaseWrite value => Sys2Proof.Machine.execBar2WindowBaseWrite value s
  | .bar2Read offset len uncorrectable secure busy => Sys2Proof.Machine.execBar2Read offset len uncorrectable secure busy s
  | .bar2Write offset data secure busy => Sys2Proof.Machine.execBar2Write offset data secure busy s
  | .queueEnable q => Sys2Proof.Machine.execQueueEnable q s
  | .queueDisable q => Sys2Proof.Machine.execQueueDisable q s
  | .queueEnableApply q => Sys2Proof.Machine.execQueueEnableApply q s
  | .queueDisableApply q => Sys2Proof.Machine.execQueueDisableApply q s
  | .doorbellWrite q size value tick secure => Sys2Proof.Machine.execDoorbellWrite q size value tick secure s
  | .entryFetchComplete q tally entry payload => Sys2Proof.Machine.execEntryFetchComplete q tally entry payload s
  | .entryAdmission => Sys2Proof.Machine.execEntryAdmission s
  | .queueTallyPublish q => Sys2Proof.Machine.execQueueTallyPublish q s
  | .gateTakeover => Sys2Proof.Machine.execGateTakeover s
  | .compose qh bad => Sys2Proof.Machine.execCompose qh bad s
  | .readAhead q tally => Sys2Proof.Machine.execReadAhead q tally s
  | .groupPromotionComplete table group => Sys2Proof.Machine.execGroupPromotionComplete table group s
  | .groupDescriptorSwitch table group => Sys2Proof.Machine.execGroupDescriptorSwitch table group s
  | .tableLoad table => Sys2Proof.Machine.execTableLoad table s
  | .tableBuildComplete table image => Sys2Proof.Machine.execTableBuildComplete table image s
  | .tableSwitch table => Sys2Proof.Machine.execTableSwitch table s
  | .tableVersionSwitch table => Sys2Proof.Machine.execTableVersionSwitch table s
  | .imageLoad slot => Sys2Proof.Machine.execImageLoad slot s
  | .imageLoadComplete slot image peers => Sys2Proof.Machine.execImageLoadComplete slot image peers s
  | .segmentPlacementComplete slot => Sys2Proof.Machine.execSegmentPlacementComplete slot s
  | .encoderSegment slot seg bad => Sys2Proof.Machine.execEncoderSegment slot seg bad s
  | .layerReloadComplete slot layer => Sys2Proof.Machine.execLayerReloadComplete slot layer s
  | .unload slot => Sys2Proof.Machine.execUnload slot s
  | .slotFree slot => Sys2Proof.Machine.execSlotFree slot s
  | .precisionChange slot layer => Sys2Proof.Machine.execPrecisionChange slot layer s
  | .statEpochEnd => Sys2Proof.Machine.execStatEpochEnd s
  | .imgLoad coll => Sys2Proof.Machine.execImgLoad coll s
  | .collectionImageLoadComplete coll image => Sys2Proof.Machine.execCollectionImageLoadComplete coll image s
  | .run coll => Sys2Proof.Machine.execRun coll s
  | .collectionStop coll => Sys2Proof.Machine.execCollectionStop coll s
  | .drop coll => Sys2Proof.Machine.execDrop coll s
  | .stateFree => Sys2Proof.Machine.execStateFree s
  | .coarseRoute qh => Sys2Proof.Machine.execCoarseRoute qh s
  | .sketchScan unit uncorrectable => Sys2Proof.Machine.execSketchScan unit uncorrectable s
  | .widen qh => Sys2Proof.Machine.execWiden qh s
  | .exactRerank unit uncorrectable => Sys2Proof.Machine.execExactRerank unit uncorrectable s
  | .candidateRequest way dieBusy => Sys2Proof.Machine.execCandidateRequest way dieBusy s
  | .candidateReadComplete way outcome => Sys2Proof.Machine.execCandidateReadComplete way outcome s
  | .rescore coll bad => Sys2Proof.Machine.execRescore coll bad s
  | .localSelect unit => Sys2Proof.Machine.execLocalSelect unit s
  | .bazaarMerge qh => Sys2Proof.Machine.execBazaarMerge qh s
  | .nop src bank cmd => Sys2Proof.Machine.execNop src bank cmd s
  | .and src bank cmd => Sys2Proof.Machine.execAnd src bank cmd s
  | .or src bank cmd => Sys2Proof.Machine.execOr src bank cmd s
  | .xor src bank cmd => Sys2Proof.Machine.execXor src bank cmd s
  | .not src bank cmd => Sys2Proof.Machine.execNot src bank cmd s
  | .pred src bank cmd => Sys2Proof.Machine.execPred src bank cmd s
  | .count src bank cmd badRow => Sys2Proof.Machine.execCount src bank cmd badRow s
  | .select src bank cmd badRow => Sys2Proof.Machine.execSelect src bank cmd badRow s
  | .hclear src bank cmd => Sys2Proof.Machine.execHclear src bank cmd s
  | .hdump src bank cmd => Sys2Proof.Machine.execHdump src bank cmd s
  | .stackBandChange stack temp => Sys2Proof.Machine.execStackBandChange stack temp s
  | .insert wid => Sys2Proof.Machine.execInsert wid s
  | .upsert wid => Sys2Proof.Machine.execUpsert wid s
  | .delete wid => Sys2Proof.Machine.execDelete wid s
  | .ingestNop wid => Sys2Proof.Machine.execIngestNop wid s
  | .ingestCommit wid => Sys2Proof.Machine.execIngestCommit wid s
  | .ackWaitExpiry wid => Sys2Proof.Machine.execAckWaitExpiry wid s
  | .directoryOrdering coll shard turn => Sys2Proof.Machine.execDirectoryOrdering coll shard turn s
  | .directoryRebuildComplete coll shard => Sys2Proof.Machine.execDirectoryRebuildComplete coll shard s
  | .compactionStart key => Sys2Proof.Machine.execCompactionStart key s
  | .compactionComplete key => Sys2Proof.Machine.execCompactionComplete key s
  | .segmentSetSwitch key => Sys2Proof.Machine.execSegmentSetSwitch key s
  | .adaptationEpochEnd coll => Sys2Proof.Machine.execAdaptationEpochEnd coll s
  | .reshapeBuildComplete key => Sys2Proof.Machine.execReshapeBuildComplete key s
  | .centroidDriftApply coll epoch => Sys2Proof.Machine.execCentroidDriftApply coll epoch s
  | .placementReview heatPct members modules eyes lifePct health => Sys2Proof.Machine.execPlacementReview heatPct members modules eyes lifePct health s
  | .hotCopyComplete key mirrorBad => Sys2Proof.Machine.execHotCopyComplete key mirrorBad s
  | .copyDrop coll => Sys2Proof.Machine.execCopyDrop coll s
  | .rangeDrainComplete range => Sys2Proof.Machine.execRangeDrainComplete range s
  | .copyStart key => Sys2Proof.Machine.execCopyStart key s
  | .copySnapshotTransfer key mirrorBad => Sys2Proof.Machine.execCopySnapshotTransfer key mirrorBad s
  | .logReplay key => Sys2Proof.Machine.execLogReplay key s
  | .copyAbort key cause => Sys2Proof.Machine.execCopyAbort key cause s
  | .scratchRead addr len code fault work => Sys2Proof.Machine.execScratchRead addr len code fault work s
  | .scratchWrite addr data code fault => Sys2Proof.Machine.execScratchWrite addr data code fault s
  | .add32 addr operand code fault work => Sys2Proof.Machine.execAdd32 addr operand code fault work s
  | .add64 addr operand code fault work => Sys2Proof.Machine.execAdd64 addr operand code fault work s
  | .swap32 addr operand code fault work => Sys2Proof.Machine.execSwap32 addr operand code fault work s
  | .swap64 addr operand code fault work => Sys2Proof.Machine.execSwap64 addr operand code fault work s
  | .nextOwnerWrite bank code => Sys2Proof.Machine.execNextOwnerWrite bank code s
  | .relocationCopyComplete die lpn phys => Sys2Proof.Machine.execRelocationCopyComplete die lpn phys s
  | .programFailure die block pages => Sys2Proof.Machine.execProgramFailure die block pages s
  | .linkUp port peerNode peerPort peerPart delayPs modKind => Sys2Proof.Machine.execLinkUp port peerNode peerPort peerPart delayPs modKind s
  | .laneLockLoss port => Sys2Proof.Machine.execLaneLockLoss port s
  | .dataFlit port flit => Sys2Proof.Machine.execDataFlit port flit s
  | .nakFlit port flit => Sys2Proof.Machine.execNakFlit port flit s
  | .idleFlit port flit => Sys2Proof.Machine.execIdleFlit port flit s
  | .pingFlit port flit hold => Sys2Proof.Machine.execPingFlit port flit hold s
  | .pongFlit port flit arrival => Sys2Proof.Machine.execPongFlit port flit arrival s
  | .discFlit port peerNode peerPort peerPart now => Sys2Proof.Machine.execDiscFlit port peerNode peerPort peerPart now s
  | .replayTimeout port => Sys2Proof.Machine.execReplayTimeout port s
  | .pingTimer now => Sys2Proof.Machine.execPingTimer now s
  | .frameReceive frame => Sys2Proof.Machine.execFrameReceive frame s
  | .e2eAckTimer => Sys2Proof.Machine.execE2eAckTimer s
  | .transportAck dst cls next resend => Sys2Proof.Machine.execTransportAck dst cls next resend s
  | .boundaryMark port mark hold offset => Sys2Proof.Machine.execBoundaryMark port mark hold offset s
  | .markLossWithdrawal => Sys2Proof.Machine.execMarkLossWithdrawal s
  | .ledgerEpochForm withdrawn => Sys2Proof.Machine.execLedgerEpochForm withdrawn s
  | .epochStore leader epoch => Sys2Proof.Machine.execEpochStore leader epoch s
  | .epochCommit acks => Sys2Proof.Machine.execEpochCommit acks s
  | .epochApply => Sys2Proof.Machine.execEpochApply s
  | .heartbeat leader => Sys2Proof.Machine.execHeartbeat leader s
  | .leaderTimeout => Sys2Proof.Machine.execLeaderTimeout s
  | .vote cands votes => Sys2Proof.Machine.execVote cands votes s
  | .found => Sys2Proof.Machine.execFound s
  | .join => Sys2Proof.Machine.execJoin s
  | .memberRequest node tag state => Sys2Proof.Machine.execMemberRequest node tag state s
  | .get src key => Sys2Proof.Machine.execGet src key s
  | .put src key value => Sys2Proof.Machine.execPut src key value s
  | .del src key => Sys2Proof.Machine.execDel src key s
  | .arrive slot tile => Sys2Proof.Machine.execArrive slot tile s
  | .bslotArrive slot => Sys2Proof.Machine.execBslotArrive slot s
  | .arriveMessage src slot gen => Sys2Proof.Machine.execArriveMessage src slot gen s
  | .releaseMessage src slot gen => Sys2Proof.Machine.execReleaseMessage src slot gen s
  | .abortMessage src slot gen cause => Sys2Proof.Machine.execAbortMessage src slot gen cause s
  | .barrierTimeout slot => Sys2Proof.Machine.execBarrierTimeout slot s
  | .clear slot => Sys2Proof.Machine.execClear slot s
  | .read req msg => Sys2Proof.Machine.execRead req msg s
  | .write req msg => Sys2Proof.Machine.execWrite req msg s
  | .txnBegin req msg => Sys2Proof.Machine.execTxnBegin req msg s
  | .commit req msg => Sys2Proof.Machine.execCommit req msg s
  | .rollback req msg => Sys2Proof.Machine.execRollback req msg s
  | .segReadInit req msg => Sys2Proof.Machine.execSegReadInit req msg s
  | .segRead req msg => Sys2Proof.Machine.execSegRead req msg s
  | .segWriteInit req msg => Sys2Proof.Machine.execSegWriteInit req msg s
  | .segWrite req msg => Sys2Proof.Machine.execSegWrite req msg s
  | .segWriteEnd req msg => Sys2Proof.Machine.execSegWriteEnd req msg s
  | .segAbort req msg => Sys2Proof.Machine.execSegAbort req msg s
  | .fnFrame frame => Sys2Proof.Machine.execFnFrame frame s
  | .mbGo secure => Sys2Proof.Machine.execMbGo secure s
  | .doeRequest obj => Sys2Proof.Machine.execDoeRequest obj s
  | .doeAbort => Sys2Proof.Machine.execDoeAbort s
  | .txnApply => Sys2Proof.Machine.execTxnApply s
  | .txnWatchdog req => Sys2Proof.Machine.execTxnWatchdog req s
  | .segIdleTimeout req => Sys2Proof.Machine.execSegIdleTimeout req s
  | .bind nonce => Sys2Proof.Machine.execBind nonce s
  | .tenantSwitch => Sys2Proof.Machine.execTenantSwitch s
  | .scrubStart => Sys2Proof.Machine.execScrubStart s
  | .scrubComplete ms => Sys2Proof.Machine.execScrubComplete ms s
  | .scrubEndBoundary => Sys2Proof.Machine.execScrubEndBoundary s
  | .diagEn nonce => Sys2Proof.Machine.execDiagEn nonce s
  | .fwActivate => Sys2Proof.Machine.execFwActivate s
  | .attRequest req data => Sys2Proof.Machine.execAttRequest req data s
  | .getReport data coins => Sys2Proof.Machine.execGetReport data coins s
  | .secured seq tagOk body => Sys2Proof.Machine.execSecured seq tagOk body s
  | .ideIntegrityFailure stream => Sys2Proof.Machine.execIdeIntegrityFailure stream s
  | .tileWatchdog tile work => Sys2Proof.Machine.execTileWatchdog tile work s
  | .stageEngineWatchdog quarter engine work => Sys2Proof.Machine.execStageEngineWatchdog quarter engine work s
  | .turnSequencerWatchdog half late => Sys2Proof.Machine.execTurnSequencerWatchdog half late s
  | .plannerWatchdog => Sys2Proof.Machine.execPlannerWatchdog s
  | .mcWatchdog unservicedMs => Sys2Proof.Machine.execMcWatchdog unservicedMs s
  | .mcResetComplete => Sys2Proof.Machine.execMcResetComplete s
  | .ledgerHolderWatchdog => Sys2Proof.Machine.execLedgerHolderWatchdog s
  | .salvageComplete key unreadable => Sys2Proof.Machine.execSalvageComplete key unreadable s
  | .centroidReloadComplete coll => Sys2Proof.Machine.execCentroidReloadComplete coll s
  | .patrolRead hit => Sys2Proof.Machine.execPatrolRead hit s
  | .sweepStart => Sys2Proof.Machine.execSweepStart s
  | .sweepStep stack channel result => Sys2Proof.Machine.execSweepStep stack channel result s
  | .droopEvent half => Sys2Proof.Machine.execDroopEvent half s
  | .memberLoadComplete => Sys2Proof.Machine.execMemberLoadComplete s
  | .clockMonitorWindow w => Sys2Proof.Machine.execClockMonitorWindow w s
  | .fmcStart => Sys2Proof.Machine.execFmcStart s
  | .fmcGateEnd count => Sys2Proof.Machine.execFmcGateEnd count s
  | .powerSample rails tj0 tj1 scratch => Sys2Proof.Machine.execPowerSample rails tj0 tj1 scratch s
  | .thermalTrip => Sys2Proof.Machine.execThermalTrip s
  | .por level => Sys2Proof.Machine.execPor level s
  | .powerLoss => Sys2Proof.Machine.execPowerLoss s
  | .perstAssert => Sys2Proof.Machine.execPerstAssert s
  | .perstRelease => Sys2Proof.Machine.execPerstRelease s
  | .bootComplete copyA copyB ms => Sys2Proof.Machine.execBootComplete copyA copyB ms s
  | .memoryTrainingComplete failed ms => Sys2Proof.Machine.execMemoryTrainingComplete failed ms s
  | .repairFuseLoadComplete fuses badBanks badTiles ms => Sys2Proof.Machine.execRepairFuseLoadComplete fuses badBanks badTiles ms s
  | .flashTranslationMount present trained differ margins targets luns rawGb ms => Sys2Proof.Machine.execFlashTranslationMount present trained differ margins targets luns rawGb ms s
  | .indexVersionsSwitch ms => Sys2Proof.Machine.execIndexVersionsSwitch ms s
  | .ready ms => Sys2Proof.Machine.execReady ms s
  | .retainedMediaDiscard => Sys2Proof.Machine.execRetainedMediaDiscard s
  | .edgeRewriteComplete coll centroid => Sys2Proof.Machine.execEdgeRewriteComplete coll centroid s

end Sys2Proof.Machine
end

