-- ==== Sys2Proof/Safety.lean ====
section
/-! DEFINITION. What a good run of the block is, in the words the statements use: a command completes; a command writes
only its own parts of the state; the invariant that every step keeps. -/

namespace Sys2Proof.Machine

open Sys2Proof

/-- The command answers a next state, and that state has the property. -/
def Completes (c : Instr) (s : State) (P : State → Prop) : Prop := ∃ t, exec c s = .next t ∧ P t

/-- What waits for P5 to be folded into a counter that R57 governs (R445). -/
def waitingCount (s : State) (a : Nat) : Nat := (look s.dict.ctrPend a).getD 0

/-- The two states give every object outside `l` the same value. -/
def ObjectsKeptBut (l : List Nat) (s t : State) : Prop := ∀ a, l.contains a = false → getObj t a = getObj s a

/-- The event has been entered in ERROR_LOG of `s`, which keeps the last 65,536 (R460), and that is all the log shows in `t`. -/
def Logged (s t : State) (code detail : Nat) : Prop :=
  t.nv.errorLog = keepLast 65536 (s.nv.errorLog ++ [(s.nv.logTally, { code := code, turn := s.turn.no, detail := detail })])

/-- The row command of an operation; `bad` is the row that the tail could not read. -/
def rowInstr (op : RowOp) (src : RowSrc) (b : BankId) (cmd : RowCmd) (bad : Option Nat) : Instr :=
  match op with
  | .nop => .nop src b cmd
  | .and => .and src b cmd
  | .or => .or src b cmd
  | .xor => .xor src b cmd
  | .not => .not src b cmd
  | .pred => .pred src b cmd
  | .count => .count src b cmd bad
  | .select => .select src b cmd bad
  | .hclear => .hclear src b cmd
  | .hdump => .hdump src b cmd

/-- A dictionary request that the Management Controller takes now, and that repeats none whose response is kept. -/
def Served (s : State) (req : Nat) (m : DictMsg) : Prop :=
  nodeOn s = true ∧ s.ras.mcDown = false ∧ s.dict.served = true ∧ m.resp = false ∧ m.ver = 1 ∧ req < s.dict.reqs.length ∧
    ∀ x, (getReq s req).last = some x → x.1.tag ≠ m.tag

/-- The response with a code and data leaves on the requester's carrier, and nothing else does. -/
def Answered (s t : State) (req cmd : Nat) (m : DictMsg) (code : Nat) (data : List Byte) : Prop :=
  t.out = s.out ++ [Output.dictResp req 0 { cmd := cmd, tag := m.tag, index := m.index, sub := m.sub, code := code, data := data }]

/-! ### Parts of the state -/

/-- The parts of the state: one or more fields each. -/
inductive Part where
  /-- The stored values of the dictionary objects. -/
  | objs
  /-- The contents of the DOMAIN objects. -/
  | doms
  /-- Counts waiting for P5 (R445). -/
  | counters
  /-- The requesters' transactions and segmented transfers, and committed transactions. -/
  | txns
  /-- The mailbox registers. -/
  | mailbox
  /-- What the objects read before P4, requests served, READY. -/
  | dictMisc
  /-- The PCIe link and PERST#. -/
  | link
  /-- BAR2, the doorbell and fetch counts, the MSI-X table. -/
  | hostRegs
  /-- The queues. -/
  | queues
  /-- Entries fetched, results, events and outputs kept for the host. -/
  | rings
  /-- IDE streams, the session and the DOE mailbox. -/
  | doe
  /-- TURN_NO. -/
  | turnNo
  /-- The phase of the turn boundary. -/
  | phase
  /-- The Planner's boards. -/
  | boards
  /-- The other state of the turn sequencer. -/
  | turnMisc
  /-- Admission. -/
  | adm
  /-- Bound tables. -/
  | comp
  /-- Model images. -/
  | images
  /-- Layer segments held for other nodes. -/
  | remotes
  /-- Activations waiting. -/
  | acts
  /-- Quantiser streams. -/
  | streams
  /-- Statistics of remote segments. -/
  | remoteStats
  /-- Collections. -/
  | colls
  /-- Lists. -/
  | lists
  /-- Contexts of queries. -/
  | queries
  /-- Work units. -/
  | units
  /-- The next work unit number. -/
  | nextUnit
  /-- The bytes of search memory. -/
  | smemCells
  /-- Row-logic state and clocking of the stacks. -/
  | smemMisc
  /-- Wayfinder read queues. -/
  | way
  /-- Writes in progress. -/
  | ing
  /-- Placement. -/
  | place
  /-- The bytes of the Scratch Banks. -/
  | scrCells
  /-- Owners, marks and repair of the Scratch Banks. -/
  | scrMisc
  /-- The flash translation. -/
  | flash
  /-- The Transit fabric. -/
  | fab
  /-- The Ledger. -/
  | ledger
  /-- Barrier slots. -/
  | bslots
  /-- The tenant, its tag and nonce, the switch count. -/
  | tenancy
  /-- ERROR_LOG. -/
  | errorLog
  /-- The other non-volatile state. -/
  | nvMisc
  /-- The Security Unit. -/
  | sec
  /-- Reliability. -/
  | ras
  /-- Power, clocks and start-up. -/
  | clk
  /-- What leaves the node. -/
  | out
  /-- The free counter. -/
  | free
  /-- The command queue. -/
  | pending
  deriving DecidableEq, Repr

/-- Whether a part is the same in two states. -/
def Part.same (s t : State) : Part → Prop
  | .objs => t.dict.objs = s.dict.objs
  | .doms => t.dict.doms = s.dict.doms
  | .counters => t.dict.ctrPend = s.dict.ctrPend
  | .txns => t.dict.reqs = s.dict.reqs ∧ t.dict.commits = s.dict.commits
  | .mailbox => t.dict.mb = s.dict.mb
  | .dictMisc => t.dict.was = s.dict.was ∧ t.dict.served = s.dict.served ∧ t.dict.readyObj = s.dict.readyObj
  | .link => t.host.linkUp = s.host.linkUp ∧ t.host.rate = s.host.rate ∧ t.host.width = s.host.width ∧
      t.host.degraded = s.host.degraded ∧ t.host.perstLow = s.host.perstLow
  | .hostRegs => t.host.bar2Base = s.host.bar2Base ∧ t.host.bar2Size = s.host.bar2Size ∧ t.host.mps = s.host.mps ∧
      t.host.mrrs = s.host.mrrs ∧ t.host.aer = s.host.aer ∧ t.host.doorbellDrops = s.host.doorbellDrops ∧
      t.host.bar2Drops = s.host.bar2Drops ∧ t.host.fetchErrors = s.host.fetchErrors ∧ t.host.msixBytes = s.host.msixBytes ∧
      t.host.pba = s.host.pba
  | .queues => t.host.queues = s.host.queues
  | .rings => t.host.fetched = s.host.fetched ∧ t.host.results = s.host.results ∧ t.host.events = s.host.events ∧
      t.host.kept = s.host.kept ∧ t.host.tries = s.host.tries
  | .doe => t.host.ide = s.host.ide ∧ t.host.ideSet = s.host.ideSet ∧ t.host.ideAssoc = s.host.ideAssoc ∧
      t.host.session = s.host.session ∧ t.host.doeResp = s.host.doeResp
  | .turnNo => t.turn.no = s.turn.no
  | .phase => t.turn.phase = s.turn.phase
  | .boards => t.turn.cur = s.turn.cur ∧ t.turn.latched = s.turn.latched ∧ t.turn.next = s.turn.next ∧
      t.turn.repeats = s.turn.repeats ∧ t.turn.repeated = s.turn.repeated
  | .turnMisc => t.turn.buffers = s.turn.buffers ∧ t.turn.shadow = s.turn.shadow ∧ t.turn.tileIdle = s.turn.tileIdle ∧
      t.turn.tileRetired = s.turn.tileRetired ∧ t.turn.trips = s.turn.trips ∧ t.turn.seqMissed = s.turn.seqMissed ∧
      t.turn.due = s.turn.due ∧ t.turn.alignBad = s.turn.alignBad ∧ t.turn.alignOff = s.turn.alignOff ∧
      t.turn.steer = s.turn.steer ∧ t.turn.marksMissed = s.turn.marksMissed ∧ t.turn.markTurn = s.turn.markTurn ∧
      t.turn.markSeen = s.turn.markSeen ∧ t.turn.withdraw = s.turn.withdraw ∧ t.turn.withdrawn = s.turn.withdrawn ∧
      t.turn.escalated = s.turn.escalated ∧ t.turn.admitted = s.turn.admitted ∧ t.turn.yellowQ = s.turn.yellowQ ∧
      t.turn.yellowI = s.turn.yellowI ∧ t.turn.takenQ = s.turn.takenQ ∧ t.turn.takenI = s.turn.takenI ∧
      t.turn.gathersUsed = s.turn.gathersUsed ∧ t.turn.placed = s.turn.placed ∧ t.turn.unmet = s.turn.unmet ∧
      t.turn.plan = s.turn.plan ∧ t.turn.selSteps = s.turn.selSteps ∧ t.turn.bazSteps = s.turn.bazSteps ∧
      t.turn.bridgeUsed = s.turn.bridgeUsed ∧ t.turn.fallbacks = s.turn.fallbacks ∧ t.turn.cuts = s.turn.cuts ∧
      t.turn.busUsed = s.turn.busUsed ∧ t.turn.portUsed = s.turn.portUsed ∧ t.turn.statStart = s.turn.statStart ∧
      t.turn.statPub = s.turn.statPub ∧ t.turn.statEnd = s.turn.statEnd
  | .adm => t.adm = s.adm
  | .comp => t.comp = s.comp
  | .images => t.images = s.images
  | .remotes => t.remotes = s.remotes
  | .acts => t.acts = s.acts
  | .streams => t.streams = s.streams
  | .remoteStats => t.remoteStats = s.remoteStats
  | .colls => t.colls = s.colls
  | .lists => t.lists = s.lists
  | .queries => t.queries = s.queries
  | .units => t.units = s.units
  | .nextUnit => t.nextUnit = s.nextUnit
  | .smemCells => t.smem.cells = s.smem.cells
  | .smemMisc => t.smem.banks = s.smem.banks ∧ t.smem.groups = s.smem.groups ∧ t.smem.preds = s.smem.preds ∧
      t.smem.hists = s.smem.hists ∧ t.smem.clears = s.smem.clears ∧ t.smem.hostHeld = s.smem.hostHeld ∧
      t.smem.running = s.smem.running ∧ t.smem.low = s.smem.low
  | .way => t.way = s.way
  | .ing => t.ing = s.ing
  | .place => t.place = s.place
  | .scrCells => t.scratch.cells = s.scratch.cells
  | .scrMisc => t.scratch.banks = s.scratch.banks ∧ t.scratch.bad = s.scratch.bad ∧ t.scratch.fuses = s.scratch.fuses ∧
      t.scratch.soft = s.scratch.soft ∧ t.scratch.steered = s.scratch.steered
  | .flash => t.flash = s.flash
  | .fab => t.fab = s.fab
  | .ledger => t.ledger = s.ledger
  | .bslots => t.bslots = s.bslots
  | .tenancy => t.nv.tenant = s.nv.tenant ∧ t.nv.tag = s.nv.tag ∧ t.nv.nonce = s.nv.nonce ∧
      t.nv.scrubPending = s.nv.scrubPending ∧ t.nv.switches = s.nv.switches
  | .errorLog => t.nv.errorLog = s.nv.errorLog ∧ t.nv.logTally = s.nv.logTally
  | .nvMisc => t.nv.freqs = s.nv.freqs ∧ t.nv.softRepair = s.nv.softRepair ∧ t.nv.fwA = s.nv.fwA ∧ t.nv.fwB = s.nv.fwB ∧
      t.nv.activateB = s.nv.activateB ∧ t.nv.minSvn = s.nv.minSvn ∧ t.nv.retained = s.nv.retained
  | .sec => t.sec = s.sec
  | .ras => t.ras = s.ras
  | .clk => t.clk = s.clk
  | .out => t.out = s.out
  | .free => t.free = s.free
  | .pending => t.pending = s.pending

/-- Every part outside `w` is the same in `t` as in `s`. -/
structure Frame (w : List Part) (s t : State) : Prop where
  keep : ∀ p, w.contains p = false → p.same s t

/-- Whether every part of `a` is among `b`. -/
def subParts (a b : List Part) : Bool := a.all fun p => b.contains p

/-- The parts of the state that a command may write, whatever its operands and whatever the state. Every other part is
the same after it. The queue of commands is in none of them. -/
def footprint : Instr → List Part
  | .workCutoff => [.hostRegs, .queues, .rings, .phase, .smemCells, .smemMisc, .out]
  | .completionSnapshot => [.counters, .phase, .turnMisc, .queries, .way]
  | .arrivalSnapshot => [.queues, .phase, .turnMisc, .ing, .place, .fab, .ledger, .out]
  | .timeoutEvaluation => [.phase, .turnMisc]
  | .latch => [.objs, .counters, .dictMisc, .queues, .rings, .phase, .boards, .turnMisc, .adm, .comp, .images, .remotes,
      .streams, .colls, .lists, .smemMisc, .place, .scrMisc, .flash, .ledger, .bslots, .errorLog, .out]
  | .turnNoIncrement => [.objs, .counters, .dictMisc, .queues, .rings, .turnNo, .phase, .boards, .turnMisc, .images, .units,
      .smemCells, .smemMisc, .way, .ing, .scrMisc, .flash, .fab, .errorLog, .ras, .clk, .out, .free]
  | .arrivalAllowanceEnd => [.objs, .counters, .queues, .rings, .phase, .boards, .turnMisc, .adm, .images, .remotes, .acts,
      .streams, .remoteStats, .colls, .lists, .queries, .units, .nextUnit, .smemMisc, .ing, .place, .flash, .fab, .ledger,
      .errorLog, .nvMisc, .out]
  | .plannerBoardWrite _ _ => [.boards, .turnMisc]
  | .alignmentWithdrawal => [.counters, .queues, .rings, .turnMisc, .fab, .errorLog]
  | .periodSwitch => [.objs]
  | .grantRefresh _ => [.fab]
  | .deadlineBoundary _ => [.counters, .queries]
  | .unitDeadlineDrop _ => [.units, .way]
  | .caravanComplete _ _ _ _ _ => [.counters, .fab]
  | .pcieLinkUp _ _ => [.counters, .link, .queues, .rings, .errorLog, .out]
  | .pcieLinkDown => [.link]
  | .configRequest _ => [.hostRegs, .queues, .rings, .doe, .out]
  | .registerWrite _ _ _ _ => [.objs, .doms, .counters, .txns, .mailbox, .hostRegs, .queues, .rings, .turnMisc, .adm, .comp,
      .images, .remotes, .acts, .streams, .colls, .lists, .queries, .units, .ing, .place, .flash, .fab, .ledger, .bslots,
      .errorLog, .nvMisc, .sec, .ras, .clk, .out]
  | .rcRegisterRead _ => [.hostRegs, .scrMisc, .out]
  | .bar2WindowBaseWrite _ => [.hostRegs]
  | .bar2Read _ _ _ _ _ => [.counters, .hostRegs, .queues, .rings, .errorLog, .out]
  | .bar2Write _ _ _ _ => [.counters, .hostRegs, .smemCells, .smemMisc]
  | .queueEnable _ => [.queues]
  | .queueDisable _ => [.queues]
  | .queueEnableApply _ => [.queues]
  | .queueDisableApply _ => [.queues, .rings]
  | .doorbellWrite _ _ _ _ _ => [.counters, .hostRegs, .queues]
  | .entryFetchComplete _ _ _ _ => [.counters, .rings]
  | .entryAdmission => [.counters, .hostRegs, .queues, .rings, .turnMisc, .adm, .comp, .streams, .queries, .ing, .fab,
      .errorLog]
  | .queueTallyPublish _ => [.hostRegs, .queues, .rings, .smemCells, .out]
  | .gateTakeover => [.adm]
  | .compose _ _ => [.counters, .queues, .rings, .comp, .streams, .queries, .fab, .errorLog, .out]
  | .readAhead _ _ => [.counters, .comp, .way, .flash]
  | .groupPromotionComplete _ _ => [.counters, .rings, .comp, .colls, .ing]
  | .groupDescriptorSwitch _ _ => [.counters, .comp, .flash]
  | .tableLoad _ => [.objs, .counters, .comp, .flash]
  | .tableBuildComplete _ _ => [.objs, .counters, .queues, .rings, .comp, .flash, .errorLog]
  | .tableSwitch _ => [.objs, .comp]
  | .tableVersionSwitch _ => [.objs, .counters, .comp, .ing, .flash]
  | .imageLoad _ => [.objs]
  | .imageLoadComplete _ _ _ => [.objs, .counters, .queues, .rings, .images, .flash, .fab, .errorLog, .out]
  | .segmentPlacementComplete _ => [.ledger]
  | .encoderSegment _ _ _ => [.counters, .queues, .rings, .images, .remotes, .acts, .streams, .queries, .fab, .errorLog, .out,
      .free]
  | .layerReloadComplete _ _ => [.images, .remotes]
  | .unload _ => [.objs, .images, .flash]
  | .slotFree _ => [.objs, .images, .flash, .ledger]
  | .precisionChange _ _ => [.counters, .queues, .rings, .images, .remotes, .errorLog]
  | .statEpochEnd => [.objs, .counters, .queues, .rings, .turnMisc, .images, .remotes, .streams, .remoteStats, .fab, .errorLog,
      .ras]
  | .imgLoad _ => [.objs, .colls]
  | .collectionImageLoadComplete _ _ => [.objs, .counters, .queues, .rings, .colls, .fab, .ledger, .errorLog]
  | .run _ => [.objs, .colls, .ledger]
  | .collectionStop _ => [.colls, .ledger]
  | .drop _ => [.objs, .colls, .ledger]
  | .stateFree => [.counters, .colls, .lists, .ing, .place, .flash, .ledger]
  | .coarseRoute _ => [.counters, .rings, .turnMisc, .streams, .queries, .fab]
  | .sketchScan _ _ => [.counters, .queues, .rings, .turnMisc, .lists, .units, .smemCells, .smemMisc, .fab, .ledger, .errorLog,
      .free]
  | .widen _ => [.counters, .turnMisc, .queries, .fab]
  | .exactRerank _ _ => [.counters, .queues, .rings, .lists, .units, .ledger, .errorLog]
  | .candidateRequest _ _ => [.counters, .way, .flash, .out, .free]
  | .candidateReadComplete _ _ => [.counters, .queues, .rings, .lists, .units, .way, .flash, .ledger, .errorLog, .free]
  | .rescore _ _ => [.counters, .queues, .rings, .images, .streams, .units, .fab, .errorLog, .out, .free]
  | .localSelect _ => [.turnMisc, .units, .way, .fab, .free]
  | .bazaarMerge _ => [.counters, .rings, .turnMisc, .queries, .fab, .out, .free]
  | .nop _ _ _ => [.counters, .queues, .rings, .smemCells, .smemMisc, .errorLog]
  | .and _ _ _ => [.counters, .queues, .rings, .smemCells, .smemMisc, .errorLog]
  | .or _ _ _ => [.counters, .queues, .rings, .smemCells, .smemMisc, .errorLog]
  | .xor _ _ _ => [.counters, .queues, .rings, .smemCells, .smemMisc, .errorLog]
  | .not _ _ _ => [.counters, .queues, .rings, .smemCells, .smemMisc, .errorLog]
  | .pred _ _ _ => [.counters, .queues, .rings, .smemCells, .smemMisc, .errorLog]
  | .count _ _ _ _ => [.counters, .queues, .rings, .smemCells, .smemMisc, .errorLog]
  | .select _ _ _ _ => [.counters, .queues, .rings, .smemCells, .smemMisc, .errorLog]
  | .hclear _ _ _ => [.counters, .queues, .rings, .smemCells, .smemMisc, .errorLog]
  | .hdump _ _ _ => [.counters, .queues, .rings, .smemCells, .smemMisc, .errorLog]
  | .stackBandChange _ _ => [.objs, .counters, .queues, .rings, .errorLog, .clk]
  | .insert _ => [.counters, .comp, .ing, .fab]
  | .upsert _ => [.counters, .comp, .ing, .fab]
  | .delete _ => [.counters, .comp, .ing, .fab]
  | .ingestNop _ => [.counters, .comp, .ing, .fab]
  | .ingestCommit _ => [.counters, .rings, .comp, .colls, .ing]
  | .ackWaitExpiry _ => [.counters, .rings, .comp, .colls, .ing, .fab, .ledger]
  | .directoryOrdering _ _ _ => [.counters, .ing, .fab]
  | .directoryRebuildComplete _ _ => [.counters, .queues, .rings, .ing, .errorLog]
  | .compactionStart _ => [.counters, .lists]
  | .compactionComplete _ => [.counters, .lists, .place, .flash]
  | .segmentSetSwitch _ => [.counters, .lists]
  | .adaptationEpochEnd _ => [.counters, .streams, .colls, .fab, .ledger]
  | .reshapeBuildComplete _ => [.ing, .ledger]
  | .centroidDriftApply _ _ => [.counters, .colls, .ledger]
  | .placementReview _ _ _ _ _ _ => [.objs, .doms, .counters, .queues, .rings, .comp, .lists, .place, .fab, .ledger, .errorLog]
  | .hotCopyComplete _ _ => [.objs, .counters, .queues, .rings, .lists, .place, .errorLog]
  | .copyDrop _ => [.counters, .queues, .rings, .lists, .place, .fab, .ledger, .errorLog]
  | .rangeDrainComplete _ => [.place]
  | .copyStart _ => [.counters, .lists, .place, .flash]
  | .copySnapshotTransfer _ _ => [.objs, .counters, .queues, .rings, .place, .fab, .errorLog]
  | .logReplay _ => [.counters, .lists, .place, .ledger]
  | .copyAbort _ _ => [.counters, .queues, .rings, .lists, .place, .flash, .ledger, .errorLog]
  | .scratchRead _ _ _ _ _ => [.counters, .queues, .rings, .queries, .units, .scrMisc, .errorLog, .out]
  | .scratchWrite _ _ _ _ => [.counters, .scrCells, .scrMisc]
  | .add32 _ _ _ _ _ => [.counters, .queues, .rings, .queries, .units, .scrCells, .scrMisc, .errorLog, .out]
  | .add64 _ _ _ _ _ => [.counters, .queues, .rings, .queries, .units, .scrCells, .scrMisc, .errorLog, .out]
  | .swap32 _ _ _ _ _ => [.counters, .queues, .rings, .queries, .units, .scrCells, .scrMisc, .errorLog, .out]
  | .swap64 _ _ _ _ _ => [.counters, .queues, .rings, .queries, .units, .scrCells, .scrMisc, .errorLog, .out]
  | .nextOwnerWrite _ _ => [.turnMisc, .scrMisc]
  | .relocationCopyComplete _ _ _ => [.counters, .turnMisc, .flash]
  | .programFailure _ _ _ => [.objs, .counters, .queues, .rings, .flash, .errorLog]
  | .linkUp _ _ _ _ _ _ => [.objs, .counters, .queues, .rings, .fab, .ledger, .errorLog, .out]
  | .laneLockLoss _ => [.objs, .counters, .queues, .rings, .fab, .ledger, .errorLog, .out]
  | .dataFlit _ _ => [.counters, .fab, .out]
  | .nakFlit _ _ => [.objs, .counters, .queues, .rings, .fab, .ledger, .errorLog, .out]
  | .idleFlit _ _ => [.counters, .fab, .out]
  | .pingFlit _ _ _ => [.counters, .fab, .out]
  | .pongFlit _ _ _ => [.objs, .counters, .queues, .rings, .fab, .errorLog, .out]
  | .discFlit _ _ _ _ _ => [.objs, .counters, .queues, .rings, .fab, .ledger, .errorLog, .out]
  | .replayTimeout _ => [.objs, .counters, .queues, .rings, .fab, .ledger, .errorLog, .out]
  | .pingTimer _ => [.out]
  | .frameReceive _ => [.counters, .fab, .out]
  | .e2eAckTimer => [.out]
  | .transportAck _ _ _ _ => [.counters, .fab, .out]
  | .boundaryMark _ _ _ _ => [.turnMisc, .fab, .out]
  | .markLossWithdrawal => [.counters, .queues, .rings, .turnMisc, .fab, .errorLog]
  | .ledgerEpochForm _ => [.fab, .ledger, .out]
  | .epochStore _ _ => [.ledger, .out]
  | .epochCommit _ => [.counters, .fab, .ledger]
  | .epochApply => [.objs, .counters, .txns, .queues, .rings, .turnNo, .turnMisc, .comp, .images, .remotes, .acts, .colls,
      .lists, .queries, .units, .ing, .place, .scrMisc, .flash, .fab, .ledger, .bslots, .errorLog, .sec, .ras, .clk, .out]
  | .heartbeat _ => [.ledger]
  | .leaderTimeout => [.ledger, .out]
  | .vote _ _ => [.ledger, .out]
  | .found => [.objs, .turnMisc, .remotes, .acts, .colls, .lists, .queries, .units, .ing, .place, .fab, .ledger, .ras]
  | .join => [.objs, .ledger, .out]
  | .memberRequest _ _ _ => [.ledger]
  | .get _ _ => [.fab, .out]
  | .put _ _ _ => [.fab]
  | .del _ _ => [.fab]
  | .arrive _ _ => [.counters, .bslots, .out]
  | .bslotArrive _ => [.counters, .bslots, .out]
  | .arriveMessage _ _ _ => [.counters, .bslots, .out]
  | .releaseMessage _ _ _ => [.counters, .bslots, .out]
  | .abortMessage _ _ _ _ => [.objs, .counters, .queues, .rings, .bslots, .errorLog, .out]
  | .barrierTimeout _ => [.objs, .counters, .queues, .rings, .bslots, .errorLog, .out]
  | .clear _ => [.bslots]
  | .read _ _ => [.objs, .doms, .counters, .txns, .queues, .rings, .turnMisc, .adm, .comp, .images, .remotes, .acts, .streams,
      .colls, .lists, .queries, .units, .ing, .place, .flash, .fab, .ledger, .bslots, .errorLog, .nvMisc, .sec, .ras, .clk,
      .out]
  | .write _ _ => [.objs, .doms, .counters, .txns, .queues, .rings, .turnMisc, .adm, .comp, .images, .remotes, .acts, .streams,
      .colls, .lists, .queries, .units, .ing, .place, .flash, .fab, .ledger, .bslots, .errorLog, .nvMisc, .sec, .ras, .clk,
      .out]
  | .txnBegin _ _ => [.objs, .doms, .counters, .txns, .queues, .rings, .turnMisc, .adm, .comp, .images, .remotes, .acts,
      .streams, .colls, .lists, .queries, .units, .ing, .place, .flash, .fab, .ledger, .bslots, .errorLog, .nvMisc, .sec, .ras,
      .clk, .out]
  | .commit _ _ => [.objs, .doms, .counters, .txns, .queues, .rings, .turnMisc, .adm, .comp, .images, .remotes, .acts,
      .streams, .colls, .lists, .queries, .units, .ing, .place, .flash, .fab, .ledger, .bslots, .errorLog, .nvMisc, .sec, .ras,
      .clk, .out]
  | .rollback _ _ => [.objs, .doms, .counters, .txns, .queues, .rings, .turnMisc, .adm, .comp, .images, .remotes, .acts,
      .streams, .colls, .lists, .queries, .units, .ing, .place, .flash, .fab, .ledger, .bslots, .errorLog, .nvMisc, .sec, .ras,
      .clk, .out]
  | .segReadInit _ _ => [.objs, .doms, .counters, .txns, .queues, .rings, .turnMisc, .adm, .comp, .images, .remotes, .acts,
      .streams, .colls, .lists, .queries, .units, .ing, .place, .flash, .fab, .ledger, .bslots, .errorLog, .nvMisc, .sec, .ras,
      .clk, .out]
  | .segRead _ _ => [.objs, .doms, .counters, .txns, .queues, .rings, .turnMisc, .adm, .comp, .images, .remotes, .acts,
      .streams, .colls, .lists, .queries, .units, .ing, .place, .flash, .fab, .ledger, .bslots, .errorLog, .nvMisc, .sec, .ras,
      .clk, .out]
  | .segWriteInit _ _ => [.objs, .doms, .counters, .txns, .queues, .rings, .turnMisc, .adm, .comp, .images, .remotes, .acts,
      .streams, .colls, .lists, .queries, .units, .ing, .place, .flash, .fab, .ledger, .bslots, .errorLog, .nvMisc, .sec, .ras,
      .clk, .out]
  | .segWrite _ _ => [.objs, .doms, .counters, .txns, .queues, .rings, .turnMisc, .adm, .comp, .images, .remotes, .acts,
      .streams, .colls, .lists, .queries, .units, .ing, .place, .flash, .fab, .ledger, .bslots, .errorLog, .nvMisc, .sec, .ras,
      .clk, .out]
  | .segWriteEnd _ _ => [.objs, .doms, .counters, .txns, .queues, .rings, .turnMisc, .adm, .comp, .images, .remotes, .acts,
      .streams, .colls, .lists, .queries, .units, .ing, .place, .flash, .fab, .ledger, .bslots, .errorLog, .nvMisc, .sec, .ras,
      .clk, .out]
  | .segAbort _ _ => [.objs, .doms, .counters, .txns, .queues, .rings, .turnMisc, .adm, .comp, .images, .remotes, .acts,
      .streams, .colls, .lists, .queries, .units, .ing, .place, .flash, .fab, .ledger, .bslots, .errorLog, .nvMisc, .sec, .ras,
      .clk, .out]
  | .fnFrame _ => [.objs, .doms, .counters, .txns, .queues, .rings, .turnMisc, .adm, .comp, .images, .remotes, .acts, .streams,
      .colls, .lists, .queries, .units, .ing, .place, .flash, .fab, .ledger, .bslots, .errorLog, .nvMisc, .sec, .ras, .clk,
      .out]
  | .mbGo _ => [.objs, .doms, .counters, .txns, .mailbox, .hostRegs, .queues, .rings, .turnMisc, .adm, .comp, .images,
      .remotes, .acts, .streams, .colls, .lists, .queries, .units, .ing, .place, .flash, .fab, .ledger, .bslots, .errorLog,
      .nvMisc, .sec, .ras, .clk, .out]
  | .doeRequest _ => [.objs, .doms, .counters, .txns, .queues, .rings, .doe, .turnMisc, .adm, .comp, .images, .remotes, .acts,
      .streams, .colls, .lists, .queries, .units, .ing, .place, .flash, .fab, .ledger, .bslots, .errorLog, .nvMisc, .sec, .ras,
      .clk, .out]
  | .doeAbort => [.doe]
  | .txnApply => [.objs, .doms, .counters, .txns, .queues, .rings, .turnMisc, .adm, .comp, .images, .remotes, .acts, .streams,
      .colls, .lists, .queries, .units, .ing, .place, .flash, .fab, .ledger, .bslots, .errorLog, .nvMisc, .sec, .ras, .clk,
      .out]
  | .txnWatchdog _ => [.counters, .txns, .queues, .rings, .errorLog]
  | .segIdleTimeout _ => [.txns]
  | .bind _ => [.counters, .queues, .rings, .tenancy, .errorLog, .sec]
  | .tenantSwitch => [.objs, .counters, .hostRegs, .queues, .rings, .turnMisc, .lists, .queries, .smemCells, .ing, .place,
      .flash, .ledger, .errorLog, .out]
  | .scrubStart => [.objs, .doms, .counters, .txns, .queues, .rings, .doe, .turnMisc, .adm, .comp, .images, .remotes, .acts,
      .streams, .remoteStats, .colls, .lists, .queries, .units, .smemCells, .smemMisc, .way, .ing, .place, .scrCells, .scrMisc,
      .flash, .fab, .bslots, .tenancy, .nvMisc, .sec, .ras]
  | .scrubComplete _ => [.sec]
  | .scrubEndBoundary => [.objs, .tenancy, .errorLog, .sec]
  | .diagEn _ => [.tenancy, .sec]
  | .fwActivate => [.objs, .nvMisc, .sec]
  | .attRequest _ _ => [.doms, .txns]
  | .getReport _ _ => [.doe]
  | .secured _ _ _ => [.objs, .doms, .counters, .txns, .queues, .rings, .doe, .turnMisc, .adm, .comp, .images, .remotes, .acts,
      .streams, .colls, .lists, .queries, .units, .ing, .place, .flash, .fab, .ledger, .bslots, .errorLog, .nvMisc, .sec, .ras,
      .clk, .out]
  | .ideIntegrityFailure _ => [.counters, .queues, .rings, .doe, .errorLog]
  | .tileWatchdog _ _ => [.objs, .counters, .queues, .rings, .turnMisc, .queries, .errorLog]
  | .stageEngineWatchdog _ _ _ => [.objs, .counters, .queues, .rings, .turnMisc, .queries, .fab, .errorLog, .out]
  | .turnSequencerWatchdog _ _ => [.objs, .counters, .queues, .rings, .turnMisc, .fab, .errorLog, .out]
  | .plannerWatchdog => [.objs, .counters, .queues, .rings, .boards, .turnMisc, .fab, .errorLog, .out]
  | .mcWatchdog _ => [.counters, .txns, .dictMisc, .doe, .ras]
  | .mcResetComplete => [.counters, .mailbox, .dictMisc, .queues, .rings, .errorLog, .sec, .ras]
  | .ledgerHolderWatchdog => [.counters, .queues, .rings, .ledger, .errorLog]
  | .salvageComplete _ _ => [.counters, .lists, .flash, .ledger]
  | .centroidReloadComplete _ => [.colls]
  | .patrolRead _ => [.counters, .queues, .rings, .comp, .images, .colls, .lists, .ing, .scrMisc, .fab, .ledger, .errorLog,
      .out]
  | .sweepStart => [.objs, .ras]
  | .sweepStep _ _ _ => [.objs, .doms, .counters, .queues, .rings, .errorLog, .ras]
  | .droopEvent _ => [.ras]
  | .memberLoadComplete => [.ledger]
  | .clockMonitorWindow _ => [.objs, .counters, .link, .queues, .rings, .turnMisc, .fab, .ledger, .errorLog, .clk, .out]
  | .fmcStart => [.objs, .clk]
  | .fmcGateEnd _ => [.objs, .clk]
  | .powerSample _ _ _ _ => [.objs, .counters, .queues, .rings, .errorLog, .clk]
  | .thermalTrip => [.errorLog, .clk, .out, .free]
  | .por _ => [.objs, .doms, .counters, .txns, .mailbox, .dictMisc, .link, .hostRegs, .queues, .rings, .doe, .turnNo, .phase,
      .boards, .turnMisc, .adm, .comp, .images, .remotes, .acts, .streams, .remoteStats, .colls, .lists, .queries, .units,
      .nextUnit, .smemCells, .smemMisc, .way, .ing, .place, .scrCells, .scrMisc, .flash, .fab, .ledger, .bslots, .nvMisc, .sec,
      .ras, .clk]
  | .powerLoss => [.objs, .doms, .counters, .txns, .mailbox, .dictMisc, .link, .hostRegs, .queues, .rings, .doe, .turnNo,
      .phase, .boards, .turnMisc, .adm, .comp, .images, .remotes, .acts, .streams, .remoteStats, .colls, .lists, .queries,
      .units, .nextUnit, .smemCells, .smemMisc, .way, .ing, .place, .scrCells, .scrMisc, .flash, .fab, .ledger, .bslots,
      .nvMisc, .sec, .ras, .clk]
  | .perstAssert => [.mailbox, .link, .hostRegs, .queues, .rings, .doe, .comp, .queries, .ing]
  | .perstRelease => [.link]
  | .bootComplete _ _ _ => [.dictMisc, .sec, .clk]
  | .memoryTrainingComplete _ _ => [.ras, .clk]
  | .repairFuseLoadComplete _ _ _ _ => [.objs, .scrMisc, .ras, .clk]
  | .flashTranslationMount _ _ _ _ _ _ _ _ => [.objs, .counters, .queues, .rings, .flash, .errorLog, .nvMisc, .ras, .clk]
  | .indexVersionsSwitch _ => [.flash, .nvMisc, .sec, .clk]
  | .ready _ => [.dictMisc, .tenancy, .errorLog, .nvMisc, .clk]
  | .retainedMediaDiscard => [.counters, .flash, .nvMisc]
  | .edgeRewriteComplete _ _ => [.colls]

/-! ### The invariant -/

/-- Both memories are in their canonical form, TENANT_STATE is one of its four values (Table 20.1) and TURN_NO is a 48-bit
count (R26). -/
structure Inv (s : State) : Prop where
  smem : Memory.wf s.smem.cells = true
  scratch : Memory.wf s.scratch.cells = true
  tenant : s.nv.tenant < 4
  turn : s.turn.no < turnMod

end Sys2Proof.Machine
end

