-- ==== Sys2Proof/Certificates/Slice0/Obligations.lean ====
section
/-! DEFINITION. The statements about this model, in the order of OBLIGATIONS.json: the whole machine first, then the families
of commands in the order of the table. Beside each stands what it says and the rules of spec/ it comes from. -/

open Sys2Proof Sys2Proof.Machine

/-! ### The whole machine -/

/-- A step takes the command at the front of the queue and runs it on the state with the queue's rest. With nothing
waiting the block idles (the model's choice, log entry 6). -/
def Obligations.StepRunsFrontCommand : Prop :=
  (∀ (c : Instr) (rest : List Instr) (s : State), s.pending = c :: rest → step s = exec c { s with pending := rest }) ∧
  (∀ s : State, s.pending = [] → step s = .next s)

/-- No command of the table is refused or faults, whatever its operands and whatever the state: each answers a next
state, and none touches the queue of the commands that wait. -/
def Obligations.EveryCommandAnswersNext : Prop :=
  ∀ (c : Instr) (s : State), ∃ t, exec c s = .next t ∧ t.pending = s.pending

/-- Every command writes only the parts of the state in its footprint: every other part is the same after it. -/
def Obligations.CommandsWriteOnlyTheirFootprint : Prop :=
  ∀ (c : Instr) (s t : State), exec c s = .next t → Frame (footprint c) s t

/-- The state after reset meets the invariant. -/
def Obligations.ResetMeetsInvariant : Prop := Inv State.reset

/-- Every step keeps the invariant: both memories stay canonical, TENANT_STATE stays one of its four values and
TURN_NO stays a 48-bit count. -/
def Obligations.StepKeepsInvariant : Prop := ∀ s t : State, Inv s → step s = .next t → Inv t

/-- TURN_NO changes only at P5 of a boundary, where the node adopts the grid of the partition it enters, and where
volatile state is lost; the phase of the boundary moves only by the seven phase commands and where volatile state is
lost. TENANT_STATE, the tenant tag and the vault nonce change only by the binding, by diagnostic mode, at the start
and at the end of a scrub, and at ready. The IDE streams and the attested session change only by the security
commands, by the DOE mailbox and by resets. -/
def Obligations.OnlyTheseMoveTurnAndTenant : Prop :=
  ((∀ (c : Instr) (s t : State), exec c s = .next t → t.turn.no ≠ s.turn.no →
      c = .turnNoIncrement ∨ c = .epochApply ∨ (∃ held, c = .por held) ∨ c = .powerLoss) ∧
   (∀ (c : Instr) (s t : State), exec c s = .next t → t.turn.phase ≠ s.turn.phase →
      c = .workCutoff ∨ c = .completionSnapshot ∨ c = .arrivalSnapshot ∨ c = .timeoutEvaluation ∨ c = .latch ∨
      c = .turnNoIncrement ∨ c = .arrivalAllowanceEnd ∨ (∃ held, c = .por held) ∨ c = .powerLoss)) ∧
  ((∀ (c : Instr) (s t : State), exec c s = .next t →
      t.nv.tenant ≠ s.nv.tenant ∨ t.nv.tag ≠ s.nv.tag ∨ t.nv.nonce ≠ s.nv.nonce →
      (∃ n, c = .bind n) ∨ (∃ n, c = .diagEn n) ∨ c = .scrubStart ∨ c = .scrubEndBoundary ∨ (∃ ms, c = .ready ms)) ∧
   (∀ (c : Instr) (s t : State), exec c s = .next t →
      t.host.session ≠ s.host.session ∨ t.host.ide ≠ s.host.ide ∨ t.host.ideSet ≠ s.host.ideSet →
      (∃ o, c = .doeRequest o) ∨ c = .doeAbort ∨ (∃ a b, c = .getReport a b) ∨ (∃ a b d, c = .secured a b d) ∨
      (∃ n, c = .ideIntegrityFailure n) ∨ c = .scrubStart ∨ (∃ ms, c = .mcWatchdog ms) ∨ c = .perstAssert ∨
      (∃ held, c = .por held) ∨ c = .powerLoss))

/-- Bytes of search memory change only by row commands, by a scan, by writes of the host, by what the turn publishes to the rings
of the host region, as groups enter host mode at P5, by a scrub, and where volatile state is lost. Bytes of the
Scratch Banks change only by a write or an atomic of the bank, by a scrub, and where volatile state is lost. -/
def Obligations.OnlyTheseWriteMemory : Prop :=
  (∀ (c : Instr) (s t : State), exec c s = .next t → (∃ a, byteAt t.smem.cells a ≠ byteAt s.smem.cells a) →
     (∃ r b o, c = .nop r b o) ∨ (∃ r b o, c = .and r b o) ∨ (∃ r b o, c = .or r b o) ∨ (∃ r b o, c = .xor r b o) ∨
     (∃ r b o, c = .not r b o) ∨ (∃ r b o, c = .pred r b o) ∨ (∃ r b o x, c = .count r b o x) ∨
     (∃ r b o x, c = .select r b o x) ∨ (∃ r b o, c = .hclear r b o) ∨ (∃ r b o, c = .hdump r b o) ∨
     (∃ o n d e, c = .bar2Write o n d e) ∨ (∃ n l, c = .sketchScan n l) ∨ (∃ q, c = .queueTallyPublish q) ∨ c = .workCutoff ∨
     c = .turnNoIncrement ∨
     c = .tenantSwitch ∨ c = .scrubStart ∨ (∃ held, c = .por held) ∨ c = .powerLoss) ∧
  (∀ (c : Instr) (s t : State), exec c s = .next t → (∃ a, byteAt t.scratch.cells a ≠ byteAt s.scratch.cells a) →
     (∃ a d k f, c = .scratchWrite a d k f) ∨ (∃ a o k f w, c = .add32 a o k f w) ∨ (∃ a o k f w, c = .add64 a o k f w) ∨
     (∃ a o k f w, c = .swap32 a o k f w) ∨ (∃ a o k f w, c = .swap64 a o k f w) ∨ c = .scrubStart ∨
     (∃ held, c = .por held) ∨ c = .powerLoss)

/-! ### The turn grid -/

/-- While the grid runs, each phase command carries the boundary from the phase before it to its own: P0 ends the work
window, P2 captures the host tallies, P3 finds the queries due, P5 counts TURN_NO on and puts the latched boards in
force, P6 begins the work window. A phase command that does not follow the present phase in Table 2.1, or comes while
the grid is still, changes nothing (the model's choice, log entry 7). -/
def Obligations.PhasesOfABoundary : Prop :=
  (∀ s : State, gridOn s = true →
     (s.turn.phase = .p6 → Completes .workCutoff s fun t => t.turn.phase = .p0 ∧ t.smem.running = false) ∧
     (s.turn.phase = .p0 → Completes .completionSnapshot s fun t => t.turn.phase = .p1) ∧
     (s.turn.phase = .p1 → Completes .arrivalSnapshot s fun t =>
       t.turn.phase = .p2 ∧ ∀ q, (getQ t q).snapTally = (getQ s q).hostTally) ∧
     (s.turn.phase = .p2 → Completes .timeoutEvaluation s fun t =>
       t.turn.phase = .p3 ∧
         ∀ qh, qh ∈ t.turn.due ↔ ∃ q ∈ s.queries, q.qh = qh ∧ deadlineTurn q ≤ boundary s ∧ lacksLists q = true) ∧
     (s.turn.phase = .p3 → Completes .latch s fun t => t.turn.phase = .p4 ∧ t.turn.next = [none, none]) ∧
     (s.turn.phase = .p4 → Completes .turnNoIncrement s fun t =>
       t.turn.phase = .p5 ∧ t.turn.no = (s.turn.no + 1) % 2 ^ 48 ∧ t.turn.cur = s.turn.latched) ∧
     (s.turn.phase = .p5 → Completes .arrivalAllowanceEnd s fun t => t.turn.phase = .p6 ∧ t.smem.running = true)) ∧
  (∀ s : State,
     (gridOn s = false ∨ s.turn.phase ≠ .p6 → exec .workCutoff s = .next s) ∧
     (gridOn s = false ∨ s.turn.phase ≠ .p0 → exec .completionSnapshot s = .next s) ∧
     (gridOn s = false ∨ s.turn.phase ≠ .p1 → exec .arrivalSnapshot s = .next s) ∧
     (gridOn s = false ∨ s.turn.phase ≠ .p2 → exec .timeoutEvaluation s = .next s) ∧
     (gridOn s = false ∨ s.turn.phase ≠ .p3 → exec .latch s = .next s) ∧
     (gridOn s = false ∨ s.turn.phase ≠ .p4 → exec .turnNoIncrement s = .next s) ∧
     (gridOn s = false ∨ s.turn.phase ≠ .p5 → exec .arrivalAllowanceEnd s = .next s))

/-- The work window lasts the turn period less 5 µs, 195 µs at the period that holds after reset; a stack's row logic
runs from P6 of the starting boundary to P0 of the ending one. -/
def Obligations.WorkWindowOfATurn : Prop :=
  (∀ s : State, workWindowUs s = periodUs s - 5) ∧ workWindowUs State.reset = 195 ∧
  (∀ s : State, getObj s Obj.TURN_PERIOD_US = 64 → workWindowUs s = 59) ∧
  (∀ s : State, gridOn s = true → s.turn.phase = .p5 → Completes .arrivalAllowanceEnd s fun t => t.smem.running = true) ∧
  (∀ s : State, gridOn s = true → s.turn.phase = .p6 → Completes .workCutoff s fun t => t.smem.running = false)

/-- Before P4 a board within the package limit becomes the half's board of the next turn, cut to the tiles, stacks and ports
of its half; no two of its loans name one tile and no two of its windows one bank group, a port reserves no more than
PORT_TURN_BYTES, and the first operands of each loan go into the standby half of its tile's buffer. At P4, or above the
limit, nothing changes. -/
def Obligations.BoardWriteReservesOwnResources : Prop :=
  ∀ (half : Nat) (b : Board) (s : State), half < 2 → s.turn.next.length = 2 →
    (s.turn.phase ≠ .p4 → withinPower s half b = true →
      Completes (.plannerBoardWrite half b) s fun t =>
        t = { s with turn := { s.turn with next := t.turn.next, buffers := t.turn.buffers } } ∧
        t.turn.next.getD (1 - half) none = s.turn.next.getD (1 - half) none ∧
        ∃ k, t.turn.next.getD half none = some k ∧ k.energy = b.energy ∧ k.gathers = min b.gathers (composeCap s) ∧
          (∀ l ∈ k.loans, l ∈ b.loans ∧ l.tile / 64 = half) ∧ (k.loans.map Loan.tile).Nodup ∧
          (∀ w ∈ k.windows, w ∈ b.windows ∧ w.1 / 4 = half) ∧ k.windows.Nodup ∧ (half = 1 → k.hostSlots = 0) ∧
          (∀ x ∈ k.portBytes, x.1 / 8 = half ∧ x.2 ≤ portTurnBytes s) ∧
          ∀ l ∈ k.loans, ((look t.turn.buffers l.tile).bind TileBuf.standby) = some l.engine) ∧
    (s.turn.phase = .p4 ∨ withinPower s half b = false → exec (.plannerBoardWrite half b) s = .next s)

/-- A period change that is due comes into force at P4, and no other object changes. -/
def Obligations.PeriodSwitchTakesThePending : Prop :=
  ∀ s : State, s.turn.phase = .p4 → getObj s Obj.PERIOD_PENDING ≠ 0 → getObj s Obj.PERIOD_SWITCH_TURN ≤ boundary s →
    Completes .periodSwitch s fun t =>
      getObj t Obj.TURN_PERIOD_US = getObj s Obj.PERIOD_PENDING ∧ getObj t Obj.PERIOD_PENDING = 0 ∧
      getObj t Obj.PERIOD_SWITCH_TURN = 0 ∧
      ObjectsKeptBut [Obj.TURN_PERIOD_US, Obj.PERIOD_PENDING, Obj.PERIOD_SWITCH_TURN] s t

/-- At the deadline boundary of a query its arrived lists win over the timeout: with a list still missing it is marked
timed out, it has slipped, and nothing else changes; with every list counted nothing changes. At P5 of the deadline boundary of its
probe record a unit and the reads it waits for are dropped, and every other unit stays. -/
def Obligations.DeadlinesDropTheLate : Prop :=
  (∀ (qh : Nat) (q : Query) (s : State), getQuery s qh = some q → s.turn.phase = .p6 → s.turn.due.contains qh = true →
     (lacksLists q = true →
       Completes (.deadlineBoundary qh) s fun t =>
         getQuery t qh = some { q with timedOut := true, slip := true } ∧
         waitingCount t Obj.SLIPPED_QUERIES = waitingCount s Obj.SLIPPED_QUERIES + (if q.slip = true then 0 else 1) ∧
         t = { s with queries := t.queries, dict := { s.dict with ctrPend := t.dict.ctrPend } }) ∧
     (lacksLists q = false → exec (.deadlineBoundary qh) s = .next s)) ∧
  (∀ (n : Nat) (s : State), s.turn.phase = .p5 →
     Completes (.unitDeadlineDrop n) s fun t =>
       (∀ u, u ∈ t.units ↔ u ∈ s.units ∧ ¬ (u.num = n ∧ u.probe.deadline ≤ s.turn.no)) ∧
       ((∃ u ∈ s.units, u.num = n ∧ u.probe.deadline ≤ s.turn.no) → ∀ p ∈ t.way.queues, ∀ r ∈ p.2, r.unit ≠ n) ∧
       t = { s with units := t.units, way := t.way })

/-- A whole caravan that is new and from a node whose caravans this node hears waits for the boundary, its sections
unread; one that comes after its boundary counts in LATE_CARAVANS. One that lacks frames is not taken. -/
def Obligations.CaravanWaitsForItsBoundary : Prop :=
  ∀ (src turn frames counted : Nat) (xs : List Sect) (s : State),
    (frames ≤ counted → hearsCaravan s src = true → caravanKnown s src turn = false →
      Completes (.caravanComplete src turn frames counted xs) s fun t =>
        t.fab = { s.fab with inbox := s.fab.inbox ++ [(src, turn, xs)] } ∧
        waitingCount t Obj.LATE_CARAVANS =
          waitingCount s Obj.LATE_CARAVANS + (if caravanLate s turn = true then 1 else 0)) ∧
    (counted < frames → exec (.caravanComplete src turn frames counted xs) s = .next s)

/-- In a turn whose number is a multiple of 64 a member sends each grant that it gives another member in its next
caravan; the shares of STAGE_CAP that it has given never add up to more, and a share that changes is sent. -/
def Obligations.GrantsRefreshEvery64Turns : Prop :=
  ∀ (gs : List Grant) (s : State), s.turn.phase = .p6 → s.turn.no % 64 = 0 → isMember s = true →
    Completes (.grantRefresh gs) s fun t =>
      (∀ g ∈ gs, g.granter = selfNode s → g.grantee ∈ s.ledger.members → g.kind ≠ .ingest →
        (g.grantee, Sect.grant g) ∈ t.fab.out) ∧
      (t.fab.given.map Prod.snd).sum ≤ stageCap s ∧
      (∀ p ∈ t.fab.given, p ∉ s.fab.given →
        (p.1, Sect.grant { kind := .ingest, granter := selfNode s, grantee := p.1, amount := p.2 }) ∈ t.fab.out) ∧
      ∃ l, t = { s with fab := { s.fab with out := s.fab.out ++ l, given := t.fab.given } }

/-- Four boundaries in a row above the alignment limit, or 64 without a mark from the turn master, and the member
withdraws: it is no member any more and sends, holds and counts no caravan. -/
def Obligations.LossOfAlignmentWithdraws : Prop :=
  ∀ s : State, isMember s = true →
    (4 ≤ s.turn.alignBad → Completes .alignmentWithdrawal s fun t =>
      t.turn.withdrawn = true ∧ isMember t = false ∧ t.fab.out = [] ∧ t.fab.closed = [] ∧ t.fab.grants = []) ∧
    (64 ≤ s.turn.marksMissed → isLeader s = false → Completes .markLossWithdrawal s fun t =>
      t.turn.withdrawn = true ∧ isMember t = false ∧ t.fab.out = [] ∧ t.fab.closed = [] ∧ t.fab.grants = [])

/-! ### The host interface -/

/-- The link trains at a rate and width that R58 allows, is marked degraded below ×16 at 64 GT/s with event 0x6002,
and falls. A configuration request is retried until the node is ready; then a read gives the register and a write is
taken, the sizes cut to those supported, and the window of BAR2 stays within search memory. An RC register returns its
value and is cleared by that read, and the read touches no other RC register; of a bank's DROPS the two counts are
cleared and LAST_REQ, which is no RC field, stays. -/
def Obligations.LinkAndRegisterReads : Prop :=
  (∀ (s : State) (rate width : Nat),
     (hostHears s = true → s.clk.failed.contains 2 = false → linkServes rate width = true →
       Completes (.pcieLinkUp rate width) s fun t =>
         t.host.linkUp = true ∧ t.host.rate = rate ∧ t.host.width = width ∧
         t.host.degraded = !(rate == 3 && width == 16) ∧
         (rate = 3 ∧ width = 16 → t.nv.errorLog = s.nv.errorLog) ∧
         (¬(rate = 3 ∧ width = 16) → Logged s t 0x6002 (rate + 8 * width))) ∧
     (hostHears s = false ∨ s.clk.failed.contains 2 = true ∨ linkServes rate width = false →
       exec (.pcieLinkUp rate width) s = .next s) ∧
     Completes .pcieLinkDown s (fun t => t = { s with host := { s.host with linkUp := false } }) ∧
     (∀ q, hostHears s = true → isReady s = false →
       Completes (.configRequest q) s fun t => t = { s with out := s.out ++ [Output.cfgRetry] }) ∧
     (∀ r, hostHears s = true → isReady s = true →
       Completes (.configRequest (.read r)) s fun t => t = { s with out := s.out ++ [Output.cfgData (cfgRead s r)] }) ∧
     (∀ r v, hostHears s = true → isReady s = true →
       Completes (.configRequest (.write r v)) s fun t =>
         t.out.getLast? = some Output.cfgOk ∧
         (r = .ids ∨ r = .classRev → t = { s with out := s.out ++ [Output.cfgOk] }) ∧
         (r = .devCtl → t.host.mps = min 2 (bitsOf v 5 3) ∧ t.host.mrrs = min 5 (bitsOf v 12 3)) ∧
         (r = .aer → t.host.aer = s.host.aer - (s.host.aer &&& v)) ∧
         (r = .rebar → t.host.bar2Size = min 4 (bitsOf v 8 6 - 14) ∧
           t.host.bar2Base + 2 ^ (34 + t.host.bar2Size) ≤ 768 * 2 ^ 30))) ∧
  (∀ (r : RcReg) (s : State),
     Completes (.rcRegisterRead r) s fun t =>
       t.out = s.out ++ [Output.readData (leBytes (rcBytes r) (rcValue s r))] ∧
       ((∀ b, r ≠ .bankDrops b) → rcValue t r = 0) ∧
       (∀ b, r = .bankDrops b → rcValue t r = 2 ^ 48 * (getScr s b).lastReq) ∧
       ∀ x, x ≠ r → rcValue t x = rcValue s x)

/-- A written BASE is cleared below the aperture size and lowered to 768 GiB minus the aperture, so the window ends within
search memory, at 0, 256 GiB or 512 GiB with a 256 GiB aperture; a BAR2 read that comes after it at offset o reads from
BASE + o. -/
def Obligations.Bar2WindowStaysInside : Prop :=
  ∀ (v : Nat) (s : State), hostHears s = true →
    let a := 2 ^ (34 + s.host.bar2Size)
    Completes (.bar2WindowBaseWrite v) s fun t =>
      t = { s with host := { s.host with bar2Base := min (v % 2 ^ 40 / a * a) (768 * 2 ^ 30 - a) } } ∧
      (a ≤ 768 * 2 ^ 30 → t.host.bar2Base + a ≤ 768 * 2 ^ 30) ∧
      (s.host.bar2Size = 4 →
        t.host.bar2Base = 0 ∨ t.host.bar2Base = 256 * 2 ^ 30 ∨ t.host.bar2Base = 512 * 2 ^ 30) ∧
      (∀ (o n : Nat) (secure : Bool), ideRefused t secure = false →
        Completes (.bar2Read o n false secure false) t fun u =>
          u.out = t.out ++ [Output.readData ((List.range n).map fun k => bar2Byte t (t.host.bar2Base + o + k))])

/-- Aligned writes of 4 bytes to a queue descriptor: while ENABLE or ACTIVE reads 1 nothing but ENABLE is written;
else the word's fields take what was written and no other field or queue changes. Writes that are misaligned or of
another size are ignored, but for one narrower than 8 bytes at a HOST_TALLY: that is dropped and counted. A queue's
ENABLE waits for the first boundary after its write, and reads back 0 while no tenant is bound; at P4 of that boundary
the queue is enabled with its tallies at zero. ENABLE = 0 disables it at the first boundary after that write, and what
was fetched of it is forgotten. -/
def Obligations.QueuesAreSetUpAndEnabled : Prop :=
  (∀ (q w v : Nat) (secure : Bool) (s : State), q < 16384 → 1 ≤ w → w < 16 → v < 2 ^ 32 → hostHears s = true →
     ideRefused s secure = false →
     ((getQ s q).enable = true ∨ (getQ s q).active = true →
       exec (.registerWrite (0x100000 + 64 * q + 4 * w) 4 v secure) s = .next s) ∧
     ((getQ s q).enable = false → (getQ s q).active = false →
       Completes (.registerWrite (0x100000 + 64 * q + 4 * w) 4 v secure) s fun t =>
         t = setQ s q (descWord (getQ s q) w v)) ∧
     (∀ o size, (size ≠ 4 ∧ size ≠ 8) ∨ o % size ≠ 0 → ¬(0x200000 ≤ o ∧ o < 0x300000 ∧ o % 64 < 8 ∧ size < 8) →
       exec (.registerWrite o size v secure) s = .next s) ∧
     (∀ o size, 0x200000 ≤ o → o < 0x300000 → o % 64 < 8 → size < 8 →
       Completes (.registerWrite o size v secure) s fun t =>
         t = { s with host := { s.host with doorbellDrops := min (2 ^ 32 - 1) (s.host.doorbellDrops + 1) } })) ∧
  (∀ (q : Nat) (s : State),
     (hostHears s = true → (getQ s q).enable = false → s.nv.tenant ≠ 0 → s.nv.tenant ≠ 2 →
       Completes (.queueEnable q) s fun t => t = setQ s q { getQ s q with enable := true, enableDue := dueTurn s }) ∧
     (s.nv.tenant = 0 ∨ s.nv.tenant = 2 → exec (.queueEnable q) s = .next s) ∧
     (hostHears s = true → (getQ s q).enable = true → (getQ s q).enableDue = 0 →
       Completes (.queueDisable q) s fun t => t = setQ s q { getQ s q with enable := false, disableDue := dueTurn s }) ∧
     (∀ l, s.turn.phase = .p4 → (getQ s q).enabled = false → enableFalls (getQ s q) (boundary s) = true →
       enabledLog s (getQ s q) = some l → bindOk s (getQ s q) (boundary s) = true →
       Completes (.queueEnableApply q) s fun t =>
         (getQ t q).enabled = true ∧ (getQ t q).log2 = l ∧ (getQ t q).hostTally = 0 ∧ (getQ t q).devTally = 0 ∧
         (getQ t q).work = 0 ∧ ∀ p, p ≠ q → getQ t p = getQ s p) ∧
     (s.turn.phase = .p4 → (getQ s q).disableDue ≠ 0 → (getQ s q).disableDue ≤ boundary s →
       Completes (.queueDisableApply q) s fun t =>
         (getQ t q).enabled = false ∧ (∀ f ∈ t.host.fetched, f.q ≠ q) ∧ ∀ p, p ≠ q → getQ t p = getQ s p))

/-- A BAR2 read answers the bytes that BAR2 reaches and changes nothing else, but that one which waits for its bank counts
in READS_HELD; where an uncorrectable error lies in them it answers Completer Abort, logged in AER, and posts event
0x6003, and no byte is returned. A BAR2 write within one 16-byte line of the host region stores its bytes there and
nowhere else; one that reaches neither the region nor a group in host mode stores nothing and is counted. -/
def Obligations.Bar2ReadsAndWrites : Prop :=
  (∀ (o n : Nat) (bad secure busy : Bool) (s : State), hostHears s = true → ideRefused s secure = false →
     let as := (List.range n).map (s.host.bar2Base + o + ·)
     let held := if busy && reachesBank s (s.host.bar2Base + o) then 1 else 0
     (bad = false ∨ as.any (bar2Reads s) = false →
       Completes (.bar2Read o n bad secure busy) s fun t =>
         t = { s with out := s.out ++ [Output.readData (as.map (bar2Byte s))], dict := { s.dict with ctrPend := t.dict.ctrPend } } ∧
         waitingCount t Obj.READS_HELD = waitingCount s Obj.READS_HELD + held ∧
         ∀ x, x ≠ Obj.READS_HELD → waitingCount t x = waitingCount s x) ∧
     (bad = true → as.any (bar2Reads s) = true →
       Completes (.bar2Read o n bad secure busy) s fun t =>
         t.out = s.out ++ [Output.completerAbort] ∧ Logged s t 0x6003 ((s.host.bar2Base + o) % 2 ^ 40) ∧
         t.host.aer = s.host.aer ||| 2 ^ 15 ∧ t.smem.cells = s.smem.cells)) ∧
  (∀ (o : Nat) (d : List Byte) (secure busy : Bool) (s : State), hostHears s = true → ideRefused s secure = false → d ≠ [] →
     d.length ≤ 16 - (s.host.bar2Base + o) % 16 →
     (inRegion s (s.host.bar2Base + o) = true →
       Completes (.bar2Write o d secure busy) s fun t =>
         t = { s with smem := { s.smem with cells := writeBytes s.smem.cells (s.host.bar2Base + o) d },
                      dict := { s.dict with ctrPend := t.dict.ctrPend } } ∧
         waitingCount t Obj.READS_HELD = waitingCount s Obj.READS_HELD + (if busy then 1 else 0) ∧
         (∀ a, a < s.host.bar2Base + o ∨ s.host.bar2Base + o + d.length ≤ a → byteAt t.smem.cells a = byteAt s.smem.cells a) ∧
         (Memory.wf s.smem.cells = true → readBytes t.smem.cells (s.host.bar2Base + o) d.length = d)) ∧
     (inRegion s (s.host.bar2Base + o) = false → hostGroup s (bankAt (s.host.bar2Base + o)) = none →
       Completes (.bar2Write o d secure busy) s fun t =>
         t = { s with host := { s.host with bar2Drops := min (2 ^ 32 - 1) (s.host.bar2Drops + 1) } }))

/-- Only a single 8-byte write of an enabled queue updates HOST_TALLY: a value in the legal range is taken, one behind it
leaves the tally, one beyond it becomes the limit, and every clamp is counted; a narrower write, or one to a queue that is
not enabled, is dropped and counted in DOORBELL_DROPS. -/
def Obligations.DoorbellsMoveTheTally : Prop :=
  ∀ (q size : Nat) (v : Tally) (tick : Nat) (secure : Bool) (s : State), hostHears s = true → ideRefused s secure = false →
    let old := (getQ s q).hostTally
    let limit := if (getQ s q).ty = .query ∨ (getQ s q).ty = .ingest then (getQ s q).devTally + BitVec.ofNat 64 (2 ^ (getQ s q).log2)
      else (getQ s q).devTally
    (size = 8 → (getQ s q).enabled = true →
      Completes (.doorbellWrite q size v tick secure) s fun t =>
        (getQ t q).hostTally = (if v - old ≤ limit - old then v else if 0x8000000000000000 ≤ v - old then old else limit) ∧
        waitingCount t Obj.TALLY_CLAMPS = waitingCount s Obj.TALLY_CLAMPS + (if (getQ t q).hostTally = v then 0 else 1) ∧
        tallyDiff (getQ t q).hostTally old ≤ tallyDiff limit old ∧
        ∀ p, p ≠ q → getQ t p = getQ s p) ∧
    (size ≠ 8 ∨ (getQ s q).enabled = false →
      Completes (.doorbellWrite q size v tick secure) s fun t =>
        t = { s with host := { s.host with doorbellDrops := min (2 ^ 32 - 1) (s.host.doorbellDrops + 1) } })

/-- The fetch of an eligible entry from host memory that reaches it keeps its 64 bytes for admission; a failed fetch is
kept as failed and counted. In the work window an EVENT, RESULT or submission queue with something to publish advances
DEVICE_TALLY to what it has consumed or written, and nothing of it waits any more; once published, a queue publishes no
more in that turn. -/
def Obligations.RingsAreFetchedAndPublished : Prop :=
  (∀ (q : Nat) (tally : Tally) (b : List Byte) (p : Fetch) (s : State), fetchReach s (getQ s q) tally = true → (getQ s q).enabled = true →
     submits (getQ s q).ty = true → (getQ s q).loc = 0 →
     tallyDiff tally (getQ s q).work < tallyDiff (getQ s q).hostTally (getQ s q).work →
     (s.host.fetched.find? fun f => f.q == q && f.tally == tally) = none →
     (64 ≤ b.length → payloadReach s (getQ s q) (b.take 64) = true → Completes (.entryFetchComplete q tally (.bytes b) p) s fun t =>
       ∃ f ∈ t.host.fetched, f.q = q ∧ f.tally = tally ∧ f.entry = some (b.take 64) ∧ f.attempts = 1 ∧ f.turn = s.turn.no) ∧
     Completes (.entryFetchComplete q tally .failed p) s fun t =>
       (∃ f ∈ t.host.fetched, f.q = q ∧ f.tally = tally ∧ f.entry = none ∧ f.attempts = 1) ∧
       waitingCount t Obj.FETCH_RETRIES = waitingCount s Obj.FETCH_RETRIES + 1) ∧
  (∀ (q : Nat) (s : State), (getQ s q).told = true → exec (.queueTallyPublish q) s = .next s) ∧
  (∀ (q : Nat) (s : State), s.turn.phase = .p6 → (getQ s q).told = false →
     (submits (getQ s q).ty = true → (getQ s q).work ≠ (getQ s q).devTally →
       Completes (.queueTallyPublish q) s fun t =>
         (getQ t q).devTally = (getQ s q).work ∧ (getQ t q).work = (getQ s q).work) ∧
     ((getQ s q).ty = .event → (∃ e ∈ s.host.events, e.q = q) →
       Completes (.queueTallyPublish q) s fun t =>
         (getQ t q).devTally = (getQ s q).work ∧ t.host.events = s.host.events.filter (·.q != q)) ∧
     ((getQ s q).ty = .result → (∃ r ∈ s.host.results, r.rq = q) →
       Completes (.queueTallyPublish q) s fun t =>
         (getQ t q).devTally = (getQ t q).work ∧
         (getQ t q).work = (getQ s q).work + BitVec.ofNat 64 (s.host.results.filter (·.rq == q)).length ∧
         t.host.results = s.host.results.filter (·.rq != q)))

/-! ### Admission and gates -/

/-- The one admission of a turn, with one eligible QUERY entry offered: a closed gate holds it and counts it; a
collection that is not running answers it NO_SERVICE; a green or yellow entry that no half can carry waits and is
counted, and one that a half can carry becomes a query of this turn, with a result slot reserved. An admission that
takes nothing only marks the turn. -/
def Obligations.AdmissionFollowsItsSteps : Prop :=
  ∀ (qn : Nat) (f : Fetched) (b p : List Byte) (s : State), s.turn.phase = .p6 → s.turn.admitted = false →
    let a : State := { s with turn := { s.turn with admitted := true } }
    let q := getQ s qn
    let e := parseQuery b
    let k := queryColours a qn e.coll
    (takesEntries a = false ∨ offerOrder a = [] → Completes .entryAdmission s fun t => t = a) ∧
    (takesEntries a = true → ringReach a qn = true → offerOrder a = [qn] → qn < 16384 → q.ty = .query → tallyDiff q.snapTally q.work = 1 →
      (a.host.fetched.find? fun f => f.q == qn && f.tally == q.work) = some f → f.entry = some b → f.payload = some p →
      s.turn.withdrawn = false →
      (gateOpen a (gateClass a e.coll) = false →
        Completes .entryAdmission s fun t => t = bump a Obj.GATE_HOLDS 1) ∧
      (gateOpen a (gateClass a e.coll) = true → resultFree a q = true → (getColl a e.coll).life ≠ 2 →
        Completes .entryAdmission s fun t =>
          t.queries = s.queries ∧ (getQ t qn).work = q.work + 1 ∧ (getQ t q.resultQ).reserved = (getQ s q.resultQ).reserved + 1 ∧
          (∃ r, t.host.results = s.host.results ++ [r] ∧ r.rq = q.resultQ ∧ r.sq = qn ∧ r.userTag = e.userTag ∧
            r.status = .noService ∧ r.count = 0) ∧
          waitingCount t Obj.NO_SERVICE_ANSWERS = waitingCount s Obj.NO_SERVICE_ANSWERS + 1) ∧
      (gateOpen a (gateClass a e.coll) = true → resultFree a q = true → (getColl a e.coll).life = 2 → k.2.2 ≠ .red →
        queryHalf a qn q e (queryPayload a e b (some p)) k.2.2 = none →
        Completes .entryAdmission s fun t => t = bump a Obj.CONTEXT_WAITS 1) ∧
      (∀ x, gateOpen a (gateClass a e.coll) = true → resultFree a q = true → (getColl a e.coll).life = 2 → k.2.2 ≠ .red →
        queryHalf a qn q e (queryPayload a e b (some p)) k.2.2 = some x →
        ¬(e.filter = true ∧ e.pred.must &&& e.pred.mustNot ≠ 0) →
        Completes .entryAdmission s fun t =>
          (getQ t qn).work = q.work + 1 ∧ (getQ t q.resultQ).reserved = (getQ s q.resultQ).reserved + 1 ∧
          t.host.results = s.host.results ∧
          t.queries = s.queries ++ [x] ∧ x.sq = qn ∧ x.tally = q.work ∧ x.userTag = e.userTag ∧ x.coll = e.coll ∧
            x.t0 = s.turn.no ∧ x.half < 2 ∧ x.colour = k.2.2 ∧ x.k = clampedK s q e))

/-- At P4 of its takeover turn the pending gate list becomes operational with that turn as its base; before that turn
nothing changes. A list without entries opens every class, and at its base turn a list opens what its first entry
opens. -/
def Obligations.GateListTakesOver : Prop :=
  (∀ (es : List Nat) (turn : Nat) (s : State), s.adm.gates.pend = some (es, turn) → s.turn.phase = .p4 →
     (turn ≤ boundary s → Completes .gateTakeover s fun t =>
       t = { s with adm := { s.adm with gates := { oper := es, base := turn, pend := none } } }) ∧
     (boundary s < turn → exec .gateTakeover s = .next s)) ∧
  ((∀ n b, gatesAt n b [] = 0xFFF) ∧
   (∀ e es b, b < turnMod → gatesAt b b (e :: es) = gateMask e))

/-! ### The Composer -/

/-- The queries composed in a turn: a half that composes nothing in this turn, its sequencer having missed it or its
board lending the Composer no tile, slips its query once; an uncorrectable row marks the query; else the composed
input, vector or sketch is stored in the query. -/
def Obligations.ComposeStoresTheInput : Prop :=
  ∀ (qh : Nat) (bad : List (Nat × Nat)) (q : Query) (s : State), getQuery s qh = some q → q.t0 ≤ s.turn.no → q.vec = none →
    q.input = [] → q.error = false →
    let g := gatherRows (bump s Obj.RECORDS_IGNORED (ignoredRecords s q.coll q.payload)) bad (lookupsOf s q.coll q.payload)
    let x := composeOf s q.coll q.encoder q.payload
    (composes s q.half = false → q.slip = false →
      Completes (.compose qh bad) s fun t =>
        getQuery t qh = some { q with slip := true } ∧
        waitingCount t Obj.SLIPPED_QUERIES = waitingCount s Obj.SLIPPED_QUERIES + 1) ∧
    (composes s q.half = true → g.2 = true →
      Completes (.compose qh bad) s fun t => getQuery t qh = some { q with error := true }) ∧
    (composes s q.half = true → g.2 = false →
      Completes (.compose qh bad) s fun t =>
        ∃ k, getQuery t qh = some k ∧ k.input = x.rows ∧ k.vec = x.vec ∧ k.sketch = x.sketch ∧ k.error = false)

/-- The read-ahead of a fetched QUERY entry stages the T5 rows that its lookups name for the next turn, each once,
when COMPOSE_FLASH_CAP and the read caps of their waystations and dies take them all, and counts them. -/
def Obligations.ReadAheadStagesRows : Prop :=
  ∀ (q : Nat) (tally : Tally) (f : Fetched) (b : List Byte) (s : State),
    (s.host.fetched.find? fun f => f.q == q && f.tally == tally) = some f → f.entry = some b → (getQ s q).ty = .query →
    doorbellTick (getQ s q) tally ≤ (periodUs s - 4 - getObj s Obj.PREFETCH_LEAD_US) * ticksPerUs →
    let e := parseQuery b
    let rows := t5Rows s (lookupsOf s e.coll (queryPayload s e b f.payload))
    s.comp.staged = [] → rows ≠ [] → s.comp.flashUsed + rows.length ≤ getObj s Obj.COMPOSE_FLASH_CAP →
    (holdReads s rows).isSome = true →
    Completes (.readAhead q tally) s fun t =>
      (∀ r ∈ rows, ∃ x ∈ t.comp.staged, x.q = q ∧ x.tally = tally ∧ x.table = r.1 ∧ x.index = r.2 ∧ x.turn = nextTurn s.turn.no) ∧
      t.comp.staged.length = rows.length ∧ t.comp.flashUsed = s.comp.flashUsed + rows.length ∧
      waitingCount t Obj.STAGED_ROWS = waitingCount s Obj.STAGED_ROWS + rows.length

/-- When a promotion copy is complete the group is marked copied, and a replacement that waited for it, at the head of
its queue, is staged in the inactive slot of its row and answered OK in that turn. A group that is not being promoted,
or is copied already, is left as it is. At the next P4 the descriptor switch takes effect: the group is at home in its
new tier, unless a replacement has cancelled its demotion, and a T1 read copy that a review asked for is added or
dropped; a group at home in T5 has none. No other group of the table changes. -/
def Obligations.GroupsMoveAtABoundary : Prop :=
  ∀ (table group : Nat) (v : TableVer) (s : State), (getTable s table).active = some v →
    let g := v.group group
    (g.moving = some false → g.copied = false →
      Completes (.groupPromotionComplete table group) s fun t =>
        ∃ w, (getTable t table).active = some w ∧ (w.group group).copied = true ∧ (w.group group).moving = some false) ∧
    (∀ (wid i : Nat) (x : Write), g.moving = some false → g.copied = false → g.waiting = [wid] → getWrite s wid = some x →
      x.refused = none → x.creates = false → x.op ≠ .delete → x.sq < 16384 → queueHead s x = true →
      (getQ s (getQ s x.sq).resultQ).told = false → x.minTurn ≤ s.turn.no → rowTarget s x = some (table, v, i) → i / 256 = group →
      Completes (.groupPromotionComplete table group) s fun t =>
        (∃ w, (getTable t table).active = some w ∧ w.row i = (v.row i).stage (rowPayload v x.payload) (nextTurn s.turn.no) wid) ∧
        getWrite t wid = none ∧
        ∃ r ∈ t.host.results, r.sq = x.sq ∧ r.sqTally = x.tally ∧ r.userTag = x.userTag ∧ r.status = .ok ∧ r.postTurn = s.turn.no) ∧
    (g.moving ≠ some false ∨ g.copied = true → exec (.groupPromotionComplete table group) s = .next s) ∧
    (s.turn.phase = .p4 →
      Completes (.groupDescriptorSwitch table group) s fun t =>
        ∃ w, (getTable t table).active = some w ∧ (∀ k, k ≠ group → w.group k = v.group k) ∧
          (∀ t5, g.moving = some t5 → g.copied = true → g.cancel = false →
            (w.group group).t5 = t5 ∧ (w.group group).moving = none ∧ (t5 = true → (w.group group).t1 = false)) ∧
          (∀ t5, g.moving = some t5 → g.cancel = true → (w.group group).t5 = g.t5 ∧ (w.group group).moving = none) ∧
          (g.moving = none → (w.group group).t5 = g.t5 ∧ (w.group group).t1 = g.t1Next.getD g.t1)) ∧
    (s.turn.phase ≠ .p4 → exec (.groupDescriptorSwitch table group) s = .next s)

/-- LOAD = 1 of a table builds an inactive version from its image; SWITCH makes it the active one at P4 and VERSION
counts on. A build whose source cannot be reached waits. An image that cannot be fetched is tried again, each failure
counted, until the last try leaves LOAD_STATE 3 and posts event 0x3010. -/
def Obligations.TablesBuildAndSwitch : Prop :=
  ∀ (n : Nat) (s : State),
    (getObj s (Obj.table_LOAD_STATE n) ≠ 1 →
      Completes (.tableLoad n) s fun t =>
        getObj t (Obj.table_LOAD_STATE n) = 1 ∧ getObj t (Obj.table_LOAD n) = 1 ∧
        (getTable t n).buildGeo = some (getObj s (Obj.table_FORMAT n), getObj s (Obj.table_WIDTH n), getObj s (Obj.table_ROWS n)) ∧
        (getTable t n).active = (getTable s n).active) ∧
    (∀ fmt w rows b, (getTable s n).buildGeo = some (fmt, w, rows) → getObj s (Obj.table_SRC_LOC n) = 0 →
      sourceReach s 0 (getObj s (Obj.table_SRC_ADDR n)) (.bytes b) = true → rows * slotBytes fmt w ≤ b.length →
      Completes (.tableBuildComplete n (.bytes b)) s fun t =>
        getObj t (Obj.table_LOAD_STATE n) = 2 ∧ getObj t (Obj.table_LOAD n) = 0 ∧
        (getTable t n).built = some (buildVersion s n fmt w rows b) ∧ (getTable t n).active = (getTable s n).active) ∧
    ((getTable s n).buildGeo ≠ none → sourceReach s (getObj s (Obj.table_SRC_LOC n)) (getObj s (Obj.table_SRC_ADDR n)) .failed = true →
      let tries := lookD s.host.tries (Obj.table_LOAD n) 0 + 1
      (getObj s Obj.FETCH_RETRY_LIMIT ≤ tries →
        Completes (.tableBuildComplete n .failed) s fun t =>
          getObj t (Obj.table_LOAD_STATE n) = 3 ∧ getObj t (Obj.table_LOAD n) = 0 ∧ Logged s t 0x3010 n ∧
          waitingCount t Obj.FETCH_RETRIES = waitingCount s Obj.FETCH_RETRIES + 1) ∧
      (tries < getObj s Obj.FETCH_RETRY_LIMIT →
        Completes (.tableBuildComplete n .failed) s fun t =>
          lookD t.host.tries (Obj.table_LOAD n) 0 = tries ∧ t.comp = s.comp ∧ t.dict.objs = s.dict.objs ∧
          waitingCount t Obj.FETCH_RETRIES = waitingCount s Obj.FETCH_RETRIES + 1)) ∧
    (∀ f, sourceReach s (getObj s (Obj.table_SRC_LOC n)) (getObj s (Obj.table_SRC_ADDR n)) f = false →
      exec (.tableBuildComplete n f) s = .next s) ∧
    (getObj s (Obj.table_LOAD_STATE n) = 2 →
      Completes (.tableSwitch n) s fun t =>
        (getTable t n).switchDue = boundary s ∧ getObj t (Obj.table_SWITCH n) = 1) ∧
    (∀ v, s.turn.phase = .p4 → (getTable s n).built = some v → (getTable s n).switchDue ≠ 0 →
      (getTable s n).switchDue ≤ boundary s → (getTable s n).active = none →
      Completes (.tableVersionSwitch n) s fun t =>
        (getTable t n).active = some v ∧ (getTable t n).built = none ∧ getObj t (Obj.table_LOAD_STATE n) = 0 ∧
        getObj t (Obj.table_VERSION n) = (getObj s (Obj.table_VERSION n) + 1) % 2 ^ 32)

/-! ### Models -/

/-- A load of an image slot begins, waits while its source cannot be reached, fails with its cause where the last try of
the fetch or the image fails or a layer is larger than the quota, and is placed whole where the quota has room. -/
def Obligations.ImagesLoad : Prop :=
  ∀ (n : Nat) (s : State),
    (slotState s n = 0 ∨ slotState s n = 3 →
      Completes (.imageLoad n) s fun t =>
        slotState t n = 1 ∧ getObj t (Obj.slot_LOAD n) = 1 ∧ getObj t (Obj.slot_FAIL_CAUSE n) = 0) ∧
    (∀ f peers, slotState s n ≠ 1 ∨ (getImg s n).isSome = true ∨
        sourceReach s (getObj s (Obj.slot_SRC_LOC n)) (getObj s (Obj.slot_SRC_ADDR n)) f = false →
      exec (.imageLoadComplete n f peers) s = .next s) ∧
    (slotState s n = 1 → getImg s n = none →
      (∀ peers, sourceReach s (getObj s (Obj.slot_SRC_LOC n)) (getObj s (Obj.slot_SRC_ADDR n)) .failed = true →
        getObj s Obj.FETCH_RETRY_LIMIT ≤ lookD s.host.tries (Obj.slot_LOAD n) 0 + 1 →
        Completes (.imageLoadComplete n .failed peers) s fun t =>
          slotState t n = 3 ∧ getObj t (Obj.slot_FAIL_CAUSE n) = 1 ∧ getImg t n = none ∧ Logged s t 0x3013 (n + 16)) ∧
      (∀ peers b, getObj s (Obj.slot_SRC_LOC n) = 0 → sourceReach s 0 (getObj s (Obj.slot_SRC_ADDR n)) (.bytes b) = true →
        (∀ c, parseImage b = .error c →
          Completes (.imageLoadComplete n (.bytes b) peers) s fun t =>
            slotState t n = 3 ∧ getObj t (Obj.slot_FAIL_CAUSE n) = c ∧ Logged s t 0x3013 (n + 16 * c)) ∧
        (∀ role img, parseImage b = .ok (role, img) →
          let k := { img with layers := modeLayers (getObj s (Obj.slot_PRECISION_MODE n)) img.layers }
          ((k.layers.any fun l => decide (modelQuota s < l.wBytes + l.altBytes)) = true →
            Completes (.imageLoadComplete n (.bytes b) peers) s fun t =>
              slotState t n = 3 ∧ getObj t (Obj.slot_FAIL_CAUSE n) = 5 ∧ Logged s t 0x3013 (n + 16 * 5)) ∧
          ((k.layers.any fun l => decide (modelQuota s < l.wBytes + l.altBytes)) = false →
            layersBytes k.layers + 65536 ≤ modelQuota s - quotaUsed s →
            Completes (.imageLoadComplete n (.bytes b) peers) s fun t =>
              getImg t n = some { k with readyDue := dueTurn s } ∧ getObj t (Obj.slot_ROLE n) = role ∧
              getObj t (Obj.slot_LAYERS n) = img.layers.length ∧ look t.flash.images n = some b ∧
              getObj t (Obj.slot_BYTES_LOCAL n) = layersBytes k.layers + 65536))))

/-- When every segment of a spread encoder has been copied its placement is asked of the ledger, segment by segment, with
the watch settings of its slot. While a copy is under way nothing is asked. -/
def Obligations.PlacementIsProposed : Prop :=
  ∀ (n : Nat) (img : Image) (s : State), getImg s n = some img →
    let asks := (img.segs.filter fun g => !g.placed).map fun g => LedgerRec.segment n g.seg g.primary g.replica (watchSettings s n)
    ((∀ g ∈ img.segs, g.unsent = []) →
      Completes (.segmentPlacementComplete n) s fun t =>
        t = { s with ledger := { s.ledger with outReqs := s.ledger.outReqs ++ asks } }) ∧
    ((∃ g ∈ img.segs, g.unsent ≠ []) → exec (.segmentPlacementComplete n) s = .next s)

/-- The home segment of an encoder that is not spread gives every ready query its vector, once in a turn; queries whose
half lends the Composer no tile in this turn slip; a layer whose weights are bad marks the others and posts event
0x3014. While a layer is bad, nothing runs. -/
def Obligations.EncoderGivesVectors : Prop :=
  ∀ (slot : Nat) (img : Image) (bad : Option Nat) (s : State), getImg s slot = some img → slotState s slot = 2 → img.segs = [] →
    (img.ranAt = s.turn.no + 1 ∨ slotBad s slot = true → exec (.encoderSegment slot 0 bad) s = .next s) ∧
    (img.ranAt ≠ s.turn.no + 1 → slotBad s slot = false →
      let all := segmentReady s slot
      let u := (all.filter fun q => !composes s q.half).foldl (fun u q => slipQuery u q.qh) s
      let ready := all.filter fun q => composes s q.half
      let sample := sampleRows u .composer (getObj u (Obj.slot_PRECISION_MODE slot)) (getObj u (Obj.slot_SAMPLE_ROWS slot))
      let run := runLayers slot img (fun _ _ _ => f0) bad sample img.layers 0 u [(0xFFFF, ready.map (·.input))]
      (ready = [] → Completes (.encoderSegment slot 0 bad) s fun t => t = u) ∧
      (ready ≠ [] →
        (∀ r, run = .ok r →
          Completes (.encoderSegment slot 0 bad) s fun t =>
            ∀ q ∈ u.queries, ∀ p, ((ready.zip ((look r.outs (img.layers.length - 1)).getD [])).find? fun x => x.1.qh == q.qh) = some p →
              ∃ k ∈ t.queries, k = { q with vec := some (encoderVec (dimsOf s q.coll) p.2), seg := 1, ready := countedTurn s }) ∧
        (∀ li, run = .error li →
          Completes (.encoderSegment slot 0 bad) s fun t =>
            Logged s t 0x3014 (slot + 16 * li) ∧ ∀ q ∈ ready, ∃ k ∈ t.queries, k.qh = q.qh ∧ k.error = true)))

/-- A reloaded layer takes effect at the next boundary; a slot that no collection names is unloaded, and its storage
is freed at P4 once no query and no result that is still to be written holds it; a slot whose load failed is freed at
once; a pending precision change is made at the end of an epoch. -/
def Obligations.SlotsReloadUnloadAndFree : Prop :=
  (∀ (n : Nat) (s : State), getImg s n = none → slotState s n ≠ 0 →
     Completes (.unload n) s fun t => slotState t n = 0 ∧ getObj t (Obj.slot_UNLOAD n) = 0) ∧
  ∀ (n layer : Nat) (img : Image) (s : State), getImg s n = some img →
    (∀ l, img.layers[layer]? = some l → l.bad = true →
      Completes (.layerReloadComplete n layer) s fun t =>
        ∃ i k, getImg t n = some i ∧ i.layers[layer]? = some k ∧ k = { l with reloadDue := dueTurn s }) ∧
    (slotNamed s n = false →
      Completes (.unload n) s fun t =>
        getImg t n = some { img with testDue := false, freeing := true } ∧ getObj t (Obj.slot_UNLOAD n) = 1) ∧
    (slotNamed s n = true → Completes (.unload n) s fun t =>
      getObj t (Obj.slot_UNLOAD n) = 0 ∧ getImg t n = some { img with testDue := false }) ∧
    (img.freeing = true → slotHolders s n = 0 → s.turn.phase = .p4 →
      Completes (.slotFree n) s fun t => getImg t n = none ∧ slotState t n = 0 ∧ getObj t (Obj.slot_BYTES_LOCAL n) = 0) ∧
    (∀ l, img.layers[layer]? = some l → l.pending = true → s.turn.phase = .p4 → boundary s % statEpoch s = 0 →
      Completes (.precisionChange n layer) s fun t =>
        ∃ i k, getImg t n = some i ∧ i.layers[layer]? = some k ∧
          k = { l with eightBit := !l.eightBit, pending := false, count := 0 })

/-- At the end of a statistics epoch every layer's noted event is forgotten, and the next epoch begins with the
present turn; the count of droop events is published and begins anew. -/
def Obligations.StatisticsEpochEnds : Prop :=
  ∀ s : State, s.turn.phase = .p5 → s.turn.no % statEpoch s = 0 ∨ s.turn.statEnd = true →
    Completes .statEpochEnd s fun t =>
      t.turn.statStart = s.turn.no ∧ t.turn.statEnd = false ∧ t.ras.droop = [] ∧
      getObj t Obj.DROOP_H0 = (s.ras.droop.filter (· == 0)).length ∧
      getObj t Obj.DROOP_H1 = (s.ras.droop.filter (· == 1)).length ∧
      ∀ p ∈ t.images, ∀ l ∈ p.2.layers, l.noted = false

/-! ### Collections -/

/-- IMG_LOAD = 1 while STATE reads 0 starts a load, and in any other state reads back 0; a source that cannot be reached
is waited for; the last try of a fetch that fails, an image that does not check, lists past the limit and a member
without room each end the load with its cause and event 0x3015; an image that checks goes to every other member and to
the ledger. -/
def Obligations.CollectionImagesLoad : Prop :=
  ∀ (c : Nat) (s : State),
    (collState s c = 0 → (getColl s c).dropDue = 0 →
      Completes (.imgLoad c) s fun t =>
        getObj t (Obj.coll_IMG_STATE c) = 1 ∧ getObj t (Obj.coll_IMG_CAUSE c) = 0 ∧ getObj t (Obj.coll_IMG_LOAD c) = 1 ∧
        (getColl t c).pend = some 3 ∧ collState t c = 3) ∧
    (collState s c ≠ 0 → Completes (.imgLoad c) s fun t =>
      getObj t (Obj.coll_IMG_LOAD c) = 0 ∧ ObjectsKeptBut [Obj.coll_IMG_LOAD c] s t ∧ t.colls = s.colls) ∧
    ((getColl s c).pend = some 3 → getObj s (Obj.coll_IMG_STATE c) = 1 → getObj s (Obj.coll_IMG_LOAD c) ≠ 0 →
      (∀ f, sourceReach s (getObj s (Obj.coll_IMG_LOC c)) (getObj s (Obj.coll_IMG_ADDR c)) f = false →
        exec (.collectionImageLoadComplete c f) s = .next s) ∧
      (sourceReach s (getObj s (Obj.coll_IMG_LOC c)) (getObj s (Obj.coll_IMG_ADDR c)) .failed = true →
        getObj s Obj.FETCH_RETRY_LIMIT ≤ lookD s.host.tries (Obj.coll_IMG_LOAD c) 0 + 1 →
        Completes (.collectionImageLoadComplete c .failed) s fun t =>
        getObj t (Obj.coll_IMG_STATE c) = 3 ∧ getObj t (Obj.coll_IMG_CAUSE c) = 1 ∧ getObj t (Obj.coll_IMG_LOAD c) = 0 ∧
        (getColl t c).pend = none ∧ Logged s t 0x3015 (c + 2 ^ 12)) ∧
      (∀ b e, getObj s (Obj.coll_IMG_LOC c) = 0 → sourceReach s 0 (getObj s (Obj.coll_IMG_ADDR c)) (.bytes b) = true →
        parseColl s c b = .error e ∨ (∃ x, parseColl s c b = .ok x ∧
          (e = 5 ∧ pastLists s x = true ∨ e = 6 ∧ pastLists s x = false ∧ noRoom s c x = true)) →
        Completes (.collectionImageLoadComplete c (.bytes b)) s fun t =>
          getObj t (Obj.coll_IMG_STATE c) = 3 ∧ getObj t (Obj.coll_IMG_CAUSE c) = e ∧ Logged s t 0x3015 (c + 2 ^ 12 * e)) ∧
      (∀ b x, getObj s (Obj.coll_IMG_LOC c) = 0 → sourceReach s 0 (getObj s (Obj.coll_IMG_ADDR c)) (.bytes b) = true →
        parseColl s c b = .ok x → pastLists s x = false → noRoom s c x = false →
        Completes (.collectionImageLoadComplete c (.bytes b)) s fun t =>
          getObj t (Obj.coll_IMG_LOAD c) = 0 ∧ (getColl t c).pend = some 3 ∧
          t.fab.out = s.fab.out ++ (otherMembers s).map (fun n => (n, Sect.copy (.image c b))) ∧
          t.ledger.outReqs = s.ledger.outReqs ++ [LedgerRec.descriptor (Obj.coll_STATE c) 1]))

/-- A stopped collection is asked to run or to be dropped and a running one to stop: the change goes to the leader and
STATE reads 3 until its epoch; with 1,024 collections running RUN reads back 0. At P4 of B(n) nothing that was
superseded at B(n - 41) or before is kept, and a dropped collection whose boundary has come is gone with its lists. -/
def Obligations.CollectionsRunStopAndDrop : Prop :=
  (∀ (c : Nat) (s : State),
     (collState s c = 1 → (s.colls.filter fun p => p.2.life == 2 || p.2.pend == some 1).length < 1024 →
       Completes (.run c) s fun t =>
         collState t c = 3 ∧ getObj t (Obj.coll_RUN c) = 1 ∧
         t.ledger.outReqs = s.ledger.outReqs ++ [LedgerRec.descriptor (Obj.coll_RUN c) 1]) ∧
     (collState s c = 1 → 1024 ≤ (s.colls.filter fun p => p.2.life == 2 || p.2.pend == some 1).length →
       Completes (.run c) s fun t => getObj t (Obj.coll_RUN c) = 0 ∧ t.ledger = s.ledger ∧ t.colls = s.colls) ∧
     (collState s c = 2 → Completes (.collectionStop c) s fun t =>
       collState t c = 3 ∧ (getColl t c).life = 2 ∧
       t.ledger.outReqs = s.ledger.outReqs ++ [LedgerRec.descriptor (Obj.coll_RUN c) 0]) ∧
     (collState s c = 1 → Completes (.drop c) s fun t =>
       collState t c = 3 ∧ getObj t (Obj.coll_DROP c) = 1 ∧
       t.ledger.outReqs = s.ledger.outReqs ++ [LedgerRec.descriptor (Obj.coll_DROP c) 1]) ∧
     (∀ k, ((getColl s c).cents.headD default).edges.any (·.1 == k) = true →
       Completes (.edgeRewriteComplete c k) s fun t => look (getColl t c).rewrites k = some (dueTurn s))) ∧
  (∀ s : State, s.turn.phase = .p4 → (s.lists.map (·.key)).Nodup →
     Completes .stateFree s fun t =>
       (∀ l ∈ t.lists, ∀ g ∈ l.sets, retired g.stop (boundary s) = false) ∧
       (∀ c, (getColl s c).dropDue ≠ 0 → (getColl s c).dropDue ≤ boundary s →
         getColl t c = Coll.reset ∧ ∀ l ∈ t.lists, keyColl l.key ≠ c))

/-! ### The search pipeline -/

/-- A query is routed only in a turn in which the board places it; the other turns change nothing. In its t1 a query with
a valid memo is answered and counted in MEMO_HITS. One without a memo is routed: at most
NPROBE_MAX lists, of which its first probes are sent or wait for grants. Without a centroid set of its turn it is marked
unheld. -/
def Obligations.CoarseRouteRanksLists : Prop :=
  ∀ (qh : Nat) (q : Query) (s : State), getQuery s qh = some q → q.vec.isSome = true → q.error = false → t1Of q ≤ s.turn.no →
    s.ledger.outOfStep = false → (getColl s q.coll).centLoading = false → unrouted q = true →
    0 < getObj s (Obj.coll_NPROBE_MAX q.coll) →
    (mayIssue s .router qh = false → exec (.coarseRoute qh) s = .next s) ∧
    (mayIssue s .router qh = true →
    (∀ m, memoOf s q = some m → t1Of q = s.turn.no → memoValid s q (parseMemo m) = true →
      Completes (.coarseRoute qh) s fun t => waitingCount t Obj.MEMO_HITS = waitingCount s Obj.MEMO_HITS + 1) ∧
    (memoOf s q = none → centSetAt (getColl s q.coll) q.t0 = none →
      Completes (.coarseRoute qh) s fun t => getQuery t qh = some { q with unheld := true, slip := q.slip || !inTime s }) ∧
    (∀ cs, memoOf s q = none → centSetAt (getColl s q.coll) q.t0 = some cs →
      Completes (.coarseRoute qh) s fun t =>
        ∃ k, getQuery t qh = some k ∧ k.route.length ≤ getObj s (Obj.coll_NPROBE_MAX q.coll) ∧
          k.probes = min k.route.length q.probesCfg ∧ k.awaited = q.awaited + k.reportsDue - q.reportsDue ∧
          (isHamming s q.coll = true →
            k.route = (routeOf s q.coll (min (if q.colour = .yellow then max 1 (getObj s (Obj.coll_NPROBE_MAX q.coll) / 2)
              else getObj s (Obj.coll_NPROBE_MAX q.coll)) cs.live.length) cs (routedVec s q) (querySketch s q)).1.map
              (listKey q.coll))))

/-- In the work window, once every match report of a round is counted and R232 lets the query widen within the merge
buffer, its probes double up to its route and one more round counts; a yellow query lets the green ones of the turn go
first. A half whose sequencer misses the turn slips the query. -/
def Obligations.WideningDoublesTheProbes : Prop :=
  ∀ (qh : Nat) (q : Query) (s : State), getQuery s qh = some q → s.turn.phase = .p6 →
    (q.colour = .yellow → greensDone s .router = true) →
    (halfStalled s q.half = true → exec (.widen qh) s = .next (slipQuery s qh)) ∧
    (halfStalled s q.half = false → q.waiting = [] → q.shards ≠ [] →
    q.reportsDue ≤ q.reports → mayWiden q s.turn.no = true → q.timedOut = false →
    let nxt := min (2 * q.probes) q.route.length
    let units := (placeProbes s q [] (slice q.route q.probes (nxt - q.probes))).2.units.length
    (bufferUsed s + units * unitBuffer s q ≤ getObj s Obj.BAZAAR_BUF_MIB * 2 ^ 20 →
      Completes (.widen qh) s fun t =>
        (∃ k, getQuery t qh = some k ∧ k.probes = nxt ∧ k.round = q.round + 1 ∧ k.widened = true ∧ k.reports = 0) ∧
        waitingCount t Obj.WIDEN_ROUNDS = waitingCount s Obj.WIDEN_ROUNDS + 1) ∧
    (getObj s Obj.BAZAAR_BUF_MIB * 2 ^ 20 < bufferUsed s + units * unitBuffer s q →
      Completes (.widen qh) s fun t => t = bump s Obj.BUFFER_WAITS 1))

/-- A unit that the board places and whose batches are counted is scanned: it keeps at most C candidates and reports its
matches to the query's home. Before every commit and stamp batch is counted it loses its place and the slip counts;
before the log of a copy is counted it loses its place. A unit without a place waits. -/
def Obligations.ScanKeepsTheBest : Prop :=
  ∀ (n : Nat) (bad : List Nat) (u : SUnit) (s : State), getUnit s n = some u → u.scanned = false → u.arrived ≤ s.turn.no →
    s.ledger.outOfStep = false →
    (mayIssue s .scanner n = false → exec (.sketchScan n bad) s = .next s) ∧
    (mayIssue s .scanner n = true → scanReady s u.probe.coll u.probe.pin = true →
      (u.probe.keys.all fun k => copyReady s k u.probe.pin) = true →
      Completes (.sketchScan n bad) s fun t =>
        ∃ k, getUnit t n = some k ∧ k.scanned = true ∧ k.cands.length ≤ u.probe.c ∧ k.probe = u.probe ∧
          t.fab = (sendStage s u.probe.home (.matchRep u.probe.qh u.probe.pin u.probe.round k.matchCount)).fab) ∧
    (mayIssue s .scanner n = true → scanReady s u.probe.coll u.probe.pin = false →
      exec (.sketchScan n bad) s = .next (bump (unplace s .scanner n) Obj.SCAN_GUARD_SLIPS 1)) ∧
    (mayIssue s .scanner n = true → scanReady s u.probe.coll u.probe.pin = true →
      (u.probe.keys.all fun k => copyReady s k u.probe.pin) = false →
      exec (.sketchScan n bad) s = .next (unplace s .scanner n))

/-- Re-ranking in a Hamming collection gives every candidate its exact distance at once, in a turn whose boards lend the
Selector a tile; elsewhere the unit is ranked once every candidate has its rank key. In the work window a waystation
starts its next read: from the hot copy, or from flash with the program of the die suspended where one runs, up to 8
times, after which the read spills; a read that ends gives its candidate the exact distance, leaves the queue and its
record for the half's tiles. -/
def Obligations.RerankGivesExactDistances : Prop :=
  (∀ (n : Nat) (bad : Bool) (u : SUnit) (s : State), getUnit s n = some u → u.scanned = true → u.ready ≤ s.turn.no + 1 →
     (isHamming s u.probe.coll = true → u.ranked = false → issuing s = true → 0 < tilesLent s .selector →
       (Completes (.exactRerank n false) s fun t =>
         ∃ k, getUnit t n = some k ∧ k.ranked = true ∧ (∀ c ∈ k.cands, c.done = true) ∧ k.cands.length = u.cands.length) ∧
       Completes (.exactRerank n true) s fun t => ∃ k, getUnit t n = some k ∧ k.ranked = true ∧ k.error = true) ∧
     (isHamming s u.probe.coll = true → u.ranked = true ∨ issuing s = false ∨ tilesLent s .selector = 0 →
       exec (.exactRerank n bad) s = .next s) ∧
     (isHamming s u.probe.coll = false →
       Completes (.exactRerank n bad) s fun t => getUnit t n = some { u with ranked := unitRanked s u })) ∧
  (∀ (w : Nat) (busy : Option Nat) (s : State), s.turn.phase ≠ .p6 → exec (.candidateRequest w busy) s = .next s) ∧
  (∀ (w : Nat) (r : WayReq) (s : State),
     let d := (dieNum s w (addrDie r.loc)).getD 4096
     let page := physPage s d (addrLpn r.loc)
     let begun := updFirst (fun (x : WayReq) => !x.started) (fun x => { x with started := true }) (wayQ s w)
     (s.turn.phase = .p6 → (wayQ s w).find? (fun r => !r.started) = some r →
       (r.hot = true → ∀ busy, Completes (.candidateRequest w busy) s fun t =>
         waitingCount t Obj.HOT_READS = waitingCount s Obj.HOT_READS + 1 ∧ t.out = s.out ∧ wayQ t w = begun) ∧
       (r.hot = false → Completes (.candidateRequest w none) s fun t =>
         t.out = s.out ++ [Output.flashRead d page r.soft] ∧
         waitingCount t Obj.CAND_READS = waitingCount s Obj.CAND_READS + 1 ∧ wayQ t w = begun) ∧
       (∀ op, r.hot = false →
         let n := match look s.way.suspends d with | some (o, n) => if o = op then n else 0 | none => 0
         (n < 8 → Completes (.candidateRequest w (some op)) s fun t =>
           t.out = s.out ++ [Output.flashSuspend d, Output.flashRead d page r.soft] ∧
           look t.way.suspends d = some (op, n + 1) ∧
           waitingCount t Obj.SUSPENDS = waitingCount s Obj.SUSPENDS + 1 ∧ wayQ t w = begun) ∧
         (8 ≤ n → Completes (.candidateRequest w (some op)) s fun t =>
           t.out = s.out ∧ waitingCount t Obj.DIE_SPILLS = waitingCount s Obj.DIE_SPILLS + 1 ∧
           ∀ y ∈ wayQ t w, ¬(y.unit = r.unit ∧ y.ctag = r.ctag)))) ∧
     (∀ u c e, (wayQ s w).find? (·.started) = some r → getUnit s r.unit = some u → u.num = r.unit →
       u.cands.find? (·.ctag == r.ctag) = some c → candEntry s c = some e →
       let q := ((wayTable s w).find? (·.unit == u.num)).getD (descOf s u 0)
       let dist := exactDist q.metric q.vec (decodeRecord (fmtOf q.fmt) q.dims e.full)
       Completes (.candidateReadComplete w 0) s fun t =>
         (∀ y ∈ wayQ t w, ¬(y.unit = r.unit ∧ y.ctag = r.ctag)) ∧
         lookD t.way.results (w / 16) [] = lookD s.way.results (w / 16) [] ++
           [{ unit := u.num, id := c.id, dist := dist, ctag := c.ctag, wst := 0 }] ∧
         ∃ k, getUnit t r.unit = some k ∧ k.cands.find? (·.ctag == r.ctag) = some { c with dist := dist, done := true }))

/-- In a turn whose boards lend the Selector a tile the re-scorer takes the collection's candidates as one batch and
counts them; a layer whose weights are found bad ends their units with an error and posts event 0x3014. While a layer of
the re-scorer is bad nothing is re-scored. -/
def Obligations.RescorerTakesTheBatch : Prop :=
  ∀ (c slot : Nat) (img : Image) (bad : Option Nat) (s : State), rescorerOf s c = some slot → getImg s slot = some img →
    let b := rescoreBatch s c
    let rows := b.map fun t => [fitTo img.inWidth (rescoreRow s t.1 t.2.1 t.2.2)]
    let sample := sampleRows s .selector (getObj s (Obj.slot_PRECISION_MODE slot)) (getObj s (Obj.slot_SAMPLE_ROWS slot))
    let run := runLayers slot img (rescoreLut s c b) bad sample img.layers 0 s [(0xFFFF, rows)]
    (b = [] ∨ issuing s = false ∨ tilesLent s .selector = 0 ∨ slotBad s slot = true → exec (.rescore c bad) s = .next s) ∧
    (b ≠ [] → issuing s = true → 0 < tilesLent s .selector → slotBad s slot = false →
      (∀ r, run = .ok r → Completes (.rescore c bad) s fun t =>
        waitingCount t Obj.RESCORED = waitingCount s Obj.RESCORED + b.length ∧ t.units.length = s.units.length) ∧
      (∀ li, run = .error li → Completes (.rescore c bad) s fun t =>
        Logged s t 0x3014 (slot + 16 * li) ∧ ∀ x ∈ b, ∃ k ∈ t.units, k.num = x.1.num ∧ k.error = true))

/-- In its t4 a ranked unit that the board places sends its home one partial list of at most k entries, no vector ID
twice; a unit that met an error sends an error list. A query whose lists are all counted is answered once, in a turn in
which its merge is placed or at its deadline: its result carries at most k IDs, none twice, with the status of R9, and
its context is released; a list with an error ends it with DATA_ERROR. -/
def Obligations.SelectAndMergeAnswerTheQuery : Prop :=
  (∀ (n : Nat) (u : SUnit) (s : State), getUnit s n = some u → u.scanned = true → u.sent = false → u.ready ≤ s.turn.no →
     issuing s = true →
     (u.error = true → Completes (.localSelect n) s fun t =>
       ∃ pl : PartialList, t.fab = (sendStage s u.probe.home (.partialList pl)).fab ∧ pl.error = true ∧ pl.entries = [] ∧
         pl.qh = u.probe.qh ∧ getUnit t n = some { u with sent := true }) ∧
     (u.error = false → unitRanked s u = false ∨ mayIssue s .selector n = false → exec (.localSelect n) s = .next s) ∧
     (u.error = false → unitRanked s u = true → mayIssue s .selector n = true →
       Completes (.localSelect n) s fun t =>
         ∃ pl : PartialList, t.fab = (sendStage s u.probe.home (.partialList pl)).fab ∧ pl.error = false ∧
           pl.qh = u.probe.qh ∧ pl.pin = u.probe.pin ∧ pl.src = selfNode s ∧ pl.entries.length ≤ u.probe.k ∧
           pl.retired = u.retired ∧ (pl.entries.map (·.id)).Nodup ∧ getUnit t n = some { u with sent := true } ∧
           t.turn.selSteps = s.turn.selSteps + selectSteps u.probe.c u.probe.k)) ∧
  (∀ (qh : Nat) (q : Query) (s : State), getQuery s qh = some q → q.sq < 16384 → answerDue s q = true → s.turn.phase = .p6 →
     (halfStalled s q.half = true → exec (.bazaarMerge qh) s = .next (slipQuery s qh)) ∧
     (halfStalled s q.half = false →
       (q.error = true ∨ q.lists.any (·.error) = true →
         Completes (.bazaarMerge qh) s fun t =>
           ∃ r, t.host.results = s.host.results ++ [r] ∧ r.status = .dataError ∧ r.ids = [] ∧ r.sq = q.sq ∧ r.userTag = q.userTag ∧
             ∀ x ∈ t.queries, x.qh ≠ qh) ∧
       (q.error = false → q.lists.any (·.error) = false → mayIssue s .bazaar qh = false → s.turn.no < deadlineTurn q →
         exec (.bazaarMerge qh) s = .next s) ∧
       (q.error = false → q.lists.any (·.error) = false → mayIssue s .bazaar qh = true ∨ deadlineTurn q ≤ s.turn.no →
         Completes (.bazaarMerge qh) s fun t =>
           ∃ r, t.host.results = s.host.results ++ [r] ∧ r.status = mergeStatus q r.ids.length ∧ r.ids.length ≤ q.k ∧ r.ids.Nodup ∧
             r.count = r.ids.length ∧ r.sq = q.sq ∧ r.sqTally = q.tally ∧ r.userTag = q.userTag ∧
             r.postTurn = (if (getQ s r.rq).told = true then nextTurn s.turn.no else s.turn.no) ∧
             (∀ x ∈ t.queries, x.qh ≠ qh) ∧ (∀ x ∈ s.queries, x.qh ≠ qh → x ∈ t.queries))))


/-! ### Row logic -/

/-- In a group with a row-logic window AND, OR, XOR and NOT of the Planner write the row of the destination bit by bit
and change no other byte, and one row operation counts; NOP changes nothing. In a group without a window no command of
the Planner has an effect. -/
def Obligations.RowOperationsCombineRows : Prop :=
  ∀ (b : BankId) (cmd : RowCmd) (s : State), Memory.wf s.smem.cells = true →
    let done := fun (f : Byte → Byte → Byte) (t : State) =>
      (∀ i, i < 1024 → byteAt t.smem.cells (rowAddr b cmd.rowD + i)
        = f (byteAt s.smem.cells (rowAddr b cmd.rowA + i)) (byteAt s.smem.cells (rowAddr b cmd.rowB + i))) ∧
      (∀ a, a < rowAddr b cmd.rowD ∨ rowAddr b cmd.rowD + 1024 ≤ a → byteAt t.smem.cells a = byteAt s.smem.cells a) ∧
      waitingCount t Obj.ROW_OPS = waitingCount s Obj.ROW_OPS + 1
    (hasWindow s b = true →
      Completes (.and .planner b cmd) s (done fun x y => x &&& y) ∧
      Completes (.or .planner b cmd) s (done fun x y => x ||| y) ∧
      Completes (.xor .planner b cmd) s (done fun x y => x ^^^ y) ∧
      Completes (.not .planner b cmd) s (done fun x _ => ~~~x) ∧
      Completes (.nop .planner b cmd) s fun t => t = s) ∧
    (hasWindow s b = false → ∀ op bad, exec (rowInstr op .planner b cmd bad) s = .next s)

/-- The row tail of the Planner: PRED loads a predicate; COUNT adds each entry that takes part to the bin of its
distance, up to 2^32 - 1; SELECT returns the survivors over the bus; HDUMP writes the histogram to four rows; HCLEAR
empties it. A tail that cannot read its index or stamp row counts its rows and leaves the histogram. -/
def Obligations.RowTailFillsTheHistogram : Prop :=
  ∀ (b : BankId) (cmd : RowCmd) (s : State), hasWindow s b = true → Memory.wf s.smem.cells = true →
    let key := (b.stack, b.group)
    let hist := lookD s.smem.hists key []
    let hits := fun (op : RowOp) => tailHits s b (clampCmd { cmd with op := op }) ((look s.smem.preds key).getD Pred.zero)
    (Completes (.pred .planner b cmd) s fun t =>
      look t.smem.preds key = some (parsePred (readRow s b cmd.rowA)) ∧ t.smem.cells = s.smem.cells) ∧
    (Completes (.count .planner b cmd none) s fun t =>
      t.smem.cells = s.smem.cells ∧
      waitingCount t Obj.TAIL_ROWS = waitingCount s Obj.TAIL_ROWS + tailRows cmd.width ∧
      ∀ d, lookD hist d 0 < 2 ^ 32 → lookD (lookD t.smem.hists key []) d 0
        = min (2 ^ 32 - 1) (lookD hist d 0 + ((hits .count).filter fun x => x.2.1 == d).length)) ∧
    (∀ a, Completes (.count .planner b cmd (some a)) s fun t =>
      t.smem = s.smem ∧ waitingCount t Obj.TAIL_ROWS = waitingCount s Obj.TAIL_ROWS + tailRows cmd.width) ∧
    (((hits .select).filter fun x => decide (x.2.1 ≤ min (widthBits cmd.width) cmd.theta)) ≠ [] →
      Completes (.select .planner b cmd none) s fun t =>
        t.smem = s.smem ∧ waitingCount t Obj.TAIL_ROWS = waitingCount s Obj.TAIL_ROWS + tailRows cmd.width ∧
        waitingCount t Obj.BUS_BYTES = waitingCount s Obj.BUS_BYTES
          + 16 * ((hits .select).filter fun x => decide (x.2.1 ≤ min (widthBits cmd.width) cmd.theta)).length) ∧
    (Completes (.hdump .planner b cmd) s fun t =>
      (∀ r, r < 4 → readRow t b (cmd.rowD + r) = histRow hist r) ∧
      waitingCount t Obj.BUS_BYTES = waitingCount s Obj.BUS_BYTES + 4 * (widthBits cmd.width + 1)) ∧
    (Completes (.hclear .planner b cmd) s fun t => lookD t.smem.hists key [] = [] ∧ t.smem.cells = s.smem.cells)

/-- A command of the host runs when it is at the front of its bank's queue and the group may run it: it leaves the
queue, DONE counts on, and one that names a row the host may not name runs as NOP, counted in REJECTS. Before that
nothing changes. -/
def Obligations.HostRowCommandsComplete : Prop :=
  ∀ (op : RowOp) (b : BankId) (cmd : RowCmd) (bad : Option Nat) (s : State),
    let c := clampCmd { cmd with op := op }
    let k := getBank s b
    (k.queue.head? = some c → canRun s b (asExecuted s b c) = true →
      Completes (rowInstr op .host b cmd bad) s fun t =>
        getBank t b = { k with queue := k.queue.tail, seen := (getBank t b).seen, done := k.done + 1,
                               rejects := if cmdOk s b c then k.rejects else min 0xFFFF (k.rejects + 1) } ∧
        waitingCount t Obj.HOST_CMDS = waitingCount s Obj.HOST_CMDS + 1 ∧
        (cmdOk s b c = false → t.smem.cells = s.smem.cells)) ∧
    (k.queue.head? ≠ some c ∨ canRun s b (asExecuted s b c) = false → exec (rowInstr op .host b cmd bad) s = .next s)

/-! ### Ingest, the directory, compaction and adaptation -/

/-- An entry taken up: INSERT and UPSERT send their vector to every holder of its list, DELETE and INGEST_NOP send
nothing, and one without an ID is discarded and counted. An entry that may commit joins the batch of its turn and is
answered OK. When ACK_WAIT turns have passed the silent holders are reported stale, or, where none has acknowledged,
the vector is staged anew. -/
def Obligations.IngestStagesAndCommits : Prop :=
  ∀ (wid : Nat) (w : Write) (s : State), getWrite s wid = some w →
    let sent := fun (t : State) => t.fab.out = s.fab.out ++ w.holders.map (fun h => (h, Sect.stage w.prep)) ∧
      getWrite t wid = some { w with ready := true, sentTurn := s.turn.no }
    let taken := fun (t : State) => t.fab = s.fab ∧ getWrite t wid = some { w with ready := true }
    (w.ready = false → w.refused = none →
      (w.noid = false → w.table = none →
        (w.op = .insert → Completes (.insert wid) s sent) ∧ (w.op = .upsert → Completes (.upsert wid) s sent) ∧
        (w.op = .delete → Completes (.delete wid) s taken)) ∧
      (w.noid = false → w.op = .nop → Completes (.ingestNop wid) s taken) ∧
      (w.noid = true → w.op = .insert → Completes (.insert wid) s fun t =>
        taken t ∧ waitingCount t Obj.NOID_DISCARDS = waitingCount s Obj.NOID_DISCARDS + 1)) ∧
    (s.turn.phase = .p6 → mayCommit s w = true → w.table = none → w.noid = false → w.op ≠ .nop → w.sq < 16384 →
      Completes (.ingestCommit wid) s fun t =>
        (w.wid, ({ wid := w.prep.wid, coll := w.coll, op := w.op, id := w.id, key := w.prep.key, abort := false, seq := w.wid } : CommitRec))
          ∈ t.ing.commitOut ∧
        (∃ l, t.host.results = s.host.results ++ ingestRes s w .ok :: l) ∧ getWrite t wid = none ∧
        waitingCount t Obj.INGEST_COMMITS = waitingCount s Obj.INGEST_COMMITS + 1) ∧
    (s.turn.phase = .p6 → w.refused = none → ackExpired s w = true →
      let silent := w.holders.filter fun h => !w.acked.contains h
      ((w.holders.filter fun h => w.acked.contains h) ≠ [] →
        Completes (.ackWaitExpiry wid) s fun t =>
          waitingCount t Obj.STALE_REPLICAS = waitingCount s Obj.STALE_REPLICAS + silent.length ∧
          ∃ hs, t.ledger.outReqs = s.ledger.outReqs ++ [LedgerRec.list w.prep.key hs] ∧
            ∀ h ∈ hs, silent.contains h.node = true → h.role ≠ .primary ∧ h.role ≠ .replica) ∧
      ((w.holders.filter fun h => w.acked.contains h) = [] → stagingHolders s w.prep.key ≠ [] →
        Completes (.ackWaitExpiry wid) s fun t =>
          t.fab.out = s.fab.out
            ++ (stagingHolders s w.prep.key).map (fun h => (h, Sect.stage { w.prep with wid := s.ing.nextWid })) ∧
          t.ing.nextWid = s.ing.nextWid + 1 ∧ waitingCount t Obj.RESTAGES = waitingCount s Obj.RESTAGES + 1))

/-- A directory shard orders the commits of its next turn once every member's batch is counted, keeps at most one
record of an ID, and its primary sends every member the stamps of its lists; a rebuilt shard posts event 0x7033 at its
boundary. A list that is due is compacted, while class 9 is open in a work window: its new segment set stands ready at
the next boundary and comes into force there. At P5 of an adaptation boundary a collection sends its drift records to
every other member and begins new accumulators. With every member's records counted the new centroid set is computed
and reported, a dead centroid unmoved. A holder's build of a split or a merge is kept and reported. -/
def Obligations.ListsAreMaintained : Prop :=
  ((∀ (c sh turn : Nat) (d : DirShard) (s : State), (s.ing.shards.find? fun d => d.coll == c && d.shard == sh) = some d →
     turn = d.done + 1 → d.missing = [] → (s.ledger.members.all fun n => decide (turn ≤ lookD s.ing.batchThrough n 0)) = true →
     let o := (shardCommits s c sh turn).foldl (orderOne turn) { recs := d.recs, stamps := [], overs := 0, misses := 0 }
     Completes (.directoryOrdering c sh turn) s fun t =>
       (∃ k, (t.ing.shards.find? fun d => d.coll == c && d.shard == sh) = some k ∧ k.done = turn ∧ k.recs = o.recs ∧
         ((d.recs.map (·.1)).Nodup → (k.recs.map (·.1)).Nodup)) ∧
       (d.primary = true → t.fab.out = s.fab.out
         ++ s.ledger.members.map fun m => (m, Sect.stamp turn sh c (o.stamps.filter (stampFor s m))))) ∧
   (∀ (c sh r due : Nat) (s : State), look s.ing.rebuilds (c, sh) = some (r, due) → s.turn.phase = .p4 → due ≠ 0 →
     due ≤ boundary s → Completes (.directoryRebuildComplete c sh) s fun t => Logged s t 0x7033 (c + 2 ^ 12 * sh)) ∧
   (∀ (key : Nat) (l : ListCopy) (s : State), getList s key = some l →
     (slackOpen s 9 = false → exec (.compactionStart key) s = .next s) ∧
    (slackOpen s 9 = true → s.flash.stopped = false → l.compacting = none → l.built = none → l.quarantined = false →
       copySource s key = false → reshaping s key = false → isHamming s (keyColl key) = true → l.newest.hot = false →
       l.newest.bases.length < 4 →
       (compactionDue s l = true →
         Completes (.compactionStart key) s fun t =>
           ∃ taken, getList t key = some { l with compacting := some (s.turn.no, l.newCut, taken) }) ∧
       (compactionDue s l = false → exec (.compactionStart key) s = .next s)) ∧
     (∀ st cut taken, l.compacting = some (st, cut, taken) →
       Completes (.compactionComplete key) s fun t =>
         ∃ k bases media, getList t key = some k ∧ k.compacting = none ∧ k.built = some (bases, cut, media) ∧
           k.switchDue = dueTurn s ∧
           ∀ i ∈ bases.flatten, i ∈ l.newest.bases.flatten ∨
             (i ∈ foldEntries l cut taken ∧ st ≤ (l.entry i).delTurn ∧ (l.entry i).aborted = false)) ∧
     (∀ bases cut media, l.built = some (bases, cut, media) → s.turn.phase = .p4 → l.switchDue ≠ 0 → l.switchDue ≤ boundary s →
       Completes (.segmentSetSwitch key) s fun t =>
         (∃ k, getList t key = some k ∧ k.newest.bases = bases ∧ k.newest.cut = cut ∧ k.newest.start = boundary s ∧
           k.built = none ∧ k.switchDue = 0) ∧
         waitingCount t Obj.COMPACTIONS = waitingCount s Obj.COMPACTIONS + 1))) ∧
  ((∀ (c : Nat) (s : State), s.turn.phase = .p5 → (getColl s c).life ≠ 0 → isSet s (Obj.coll_ADAPT_EN c) = true →
     (getColl s c).epochDone ≠ s.turn.no → s.turn.no % max 1 (getObj s (Obj.coll_ADAPT_EPOCH c)) = 0 →
     Completes (.adaptationEpochEnd c) s fun t =>
       (getColl t c).driftN = [] ∧ (getColl t c).driftSum = [] ∧ (getColl t c).epochDone = s.turn.no ∧
       ∃ rs, (s.turn.no, selfNode s, rs) ∈ (getColl t c).driftIn ∧
         t.fab.out = s.fab.out ++ (otherMembers s).map fun m => (m, Sect.drift c s.turn.no rs)) ∧
   (∀ (c epoch : Nat) (cs : CentSet) (old : List CentSet) (s : State),
     ((getColl s c).driftPend.any fun p => decide (epoch ≤ p.1)) = false → s.ledger.members ≠ [] →
     (s.ledger.members.all fun n => ((getColl s c).driftIn.filter fun r => r.1 == epoch).any fun r => r.2.1 == n) = true →
     (getColl s c).cents = cs :: old →
     Completes (.centroidDriftApply c epoch) s fun t =>
       t.ledger.outReqs = s.ledger.outReqs ++ [LedgerRec.report .drift c epoch] ∧
       ∃ new, (getColl t c).driftPend = some (epoch, new) ∧ new.cents.length = cs.cents.length ∧
         (∀ x ∈ cs.cents, x.dead = true → x ∈ new.cents) ∧ (getColl t c).cents = cs :: old) ∧
   (∀ (key : Nat) (r : Reshape) (s : State), (s.ing.reshapes.find? (·.key == key)) = some r → r.built = none →
     servesList s key = true →
     Completes (.reshapeBuildComplete key) s fun t =>
       t.ledger.outReqs = s.ledger.outReqs ++ [LedgerRec.report .reshape key r.other] ∧
       ∃ k b, (t.ing.reshapes.find? (·.key == key)) = some k ∧ k = { r with built := some b }))

/-! ### Placement and the copying of lists -/

/-- A review takes place in the turn that a review boundary starts and in no other: the flash life reads as measured,
the heats of the period are used up and the reserves may be reported anew. A completed hot copy joins at the next
boundary, a drained range changes at the next boundary. Within every quota and reserve no copy is dropped; over the T4
quota the mirror that comes first is. The copying of a list (Table 14.6): at its boundary the source fixes its
snapshot and the target begins anew; in a work window with class 10 open the snapshot leaves in parts within
MOVE_CAP_MIB, and the target replays its log and reports; a cause of R337 ends the copy. -/
def Obligations.CopiesArePlacedAndMoved : Prop :=
  ((∀ heat ms mods eyes life health (s : State),
     (s.turn.no % 64 = 0 → s.turn.phase = .p6 → Completes (.placementReview heat ms mods eyes life health) s fun t =>
       getObj t Obj.LIFE_USED_PCT = min 255 life ∧ t.place.listHeat = [] ∧ t.place.fillPosted = false ∧
       t.place.reservePosted = false) ∧
     (s.turn.no % 64 ≠ 0 ∨ s.turn.phase ≠ .p6 → exec (.placementReview heat ms mods eyes life health) s = .next s)) ∧
   (∀ (key : Nat) (l : ListCopy) (s : State), getList s key = some l → l.hotBuild = true → l.hotDue = 0 →
     ∀ bad, Completes (.hotCopyComplete key bad) s fun t => getList t key = some { l with hotDue := dueTurn s }) ∧
   (∀ (r : Nat) (s : State), getObj s (Obj.range_STATE r) = 2 →
     Completes (.rangeDrainComplete r) s fun t => look t.place.drained r = some (dueTurn s)) ∧
   (∀ (c : Nat) (s : State), collT2 s c ≤ getObj s (Obj.coll_T2_QUOTA_GIB c) * 2 ^ 30 →
     collT5 s c ≤ getObj s (Obj.coll_T5_QUOTA_GB c) * 10 ^ 9 → getObj s Obj.T2_RESERVE_GIB * 2 ^ 30 ≤ t2Free s →
     (collT4 s c ≤ getObj s (Obj.coll_T4_QUOTA_GIB c) * 2 ^ 30 → exec (.copyDrop c) s = .next s) ∧
     (∀ o, optionals s (· == c) = [o] → o.kind = .mirror → getObj s (Obj.coll_T4_QUOTA_GIB c) * 2 ^ 30 < collT4 s c →
       Completes (.copyDrop c) s fun t =>
         t.place.mirrors = s.place.mirrors.filter (fun m => !(m.key == o.key && m.base == o.base)) ∧
         waitingCount t Obj.COPIES_DROPPED = waitingCount s Obj.COPIES_DROPPED + 1))) ∧
  (∀ (key : Nat) (j : CopyJob) (s : State), getJob s key = some j →
     (s.turn.phase = .p4 → j.start = 0 → j.requested ≤ boundary s →
       (∀ l, j.source = selfNode s → getList s key = some l → l.compacting = none → l.built = none →
         Completes (.copyStart key) s fun t => ∃ k, getJob t key = some k ∧
           k = { j with start := boundary s, snap := snapOf l, total := k.total }) ∧
       (j.source ≠ selfNode s →
         Completes (.copyStart key) s fun t =>
           getJob t key = some { j with start := boundary s, logThrough := boundary s - 1 } ∧
           ∀ l ∈ t.lists, l.key ≠ key)) ∧
     (j.source = selfNode s → j.start ≠ 0 → j.copied < j.total → s.place.moved < getObj s Obj.MOVE_CAP_MIB → slackOpen s 10 = true →
       let n := min (getObj s Obj.MOVE_CAP_MIB - s.place.moved) (j.total - j.copied)
       let last := decide (j.total ≤ j.copied + n)
       Completes (.copySnapshotTransfer key none) s fun t =>
         getJob t key = some { j with copied := j.copied + n } ∧ t.place.moved = s.place.moved + n ∧
         waitingCount t Obj.MOVE_BYTES = waitingCount s Obj.MOVE_BYTES + n * 2 ^ 20 ∧
         ∃ hot, t.fab.out = s.fab.out ++ [(j.target, Sect.copy (.listPart key n last hot (if last then j.snap else [])))]) ∧
     (j.target = selfNode s → j.ready = false → (getList s key).isSome = true → j.total ≠ 0 → slackOpen s 10 = true →
       Completes (.logReplay key) s fun t =>
         (∃ k, getJob t key = some k ∧ k.ready = true ∧ k.logIn = [] ∧ k.kept = [] ∧
           k.replayed = j.replayed + j.logIn.length) ∧
         t.ledger.outReqs = s.ledger.outReqs ++ [LedgerRec.report .copyReady key j.start]) ∧
     (slackOpen s 10 = false → exec (.copySnapshotTransfer key none) s = .next s ∧ exec (.logReplay key) s = .next s) ∧
     (∀ cause, abortCause s j cause = true →
       Completes (.copyAbort key cause) s fun t =>
         getJob t key = none ∧ Logged s t 0x7041 (key + 2 ^ 36 * cause) ∧
         waitingCount t Obj.MOVES_ABORTED = waitingCount s Obj.MOVES_ABORTED + 1 ∧
         t.ledger.outReqs = s.ledger.outReqs
           ++ [LedgerRec.list key ((holdersOf s key).filter fun h => !(h.node == j.target && decide (h.role = .incoming)))]))

/-! ### Scratch Banks -/

/-- An access of the owner: a read returns the bytes, a write stores them and nothing else, an atomic returns the old
word, stores the new one modulo its width and counts. A code that does not own the bank reads zeros and changes no
byte, and is counted. A read or an atomic that meets an uncorrectable word answers the error and posts event 0x3018
with the address. NEXT_OWNER of a bank that is not retired takes the nearest owner code, and the handover is due at
the boundary after the next P2 tick unless it names the owner that the bank already has or takes at the boundary in
progress; a change whose P2 tick has come is not replaced. A retired bank
ignores the write. -/
def Obligations.ScratchAccesses : Prop :=
  (∀ (addr operand code fault : Nat) (work : Option (Nat × Nat)) (s : State), Memory.wf s.scratch.cells = true →
     let bank := getScr s (scrBankOf (scrAddr addr))
     let old := fun w => readBytes s.scratch.cells (scrAddr addr / w * w) w
     let sets := fun (w : Nat) (v : Nat) (t : State) =>
       t.out = s.out ++ [Output.scratchData (old w)] ∧ readBytes t.scratch.cells (scrAddr addr / w * w) w = leBytes w (v % 2 ^ (8 * w)) ∧
       (∀ a, a < scrAddr addr / w * w ∨ scrAddr addr / w * w + w ≤ a → byteAt t.scratch.cells a = byteAt s.scratch.cells a) ∧
       waitingCount t Obj.ATOMICS = waitingCount s Obj.ATOMICS + 1
     let refused := fun (w : Nat) (t : State) =>
       t.out = s.out ++ [Output.scratchData (List.replicate w 0)] ∧ t.scratch.cells = s.scratch.cells ∧
       (getScr t (scrBankOf (scrAddr addr))).lastReq = code % 256 ∧
       waitingCount t Obj.NONOWNER_WRITES = waitingCount s Obj.NONOWNER_WRITES + 1
     let failed := fun (t : State) => Logged s t 0x3018 (scrAddr (scrAddr addr / 8 * 8)) ∧ t.out = s.out ++ [Output.scratchError] ∧
       t.scratch.cells = s.scratch.cells
     (ownerTakes bank.owner code = true → fault ≤ 1 → s.scratch.bad.contains (scrAddr addr / 8) = false →
       Completes (.add32 addr operand code fault work) s (sets 4 (leNat (old 4) + operand)) ∧
       Completes (.add64 addr operand code fault work) s (sets 8 (leNat (old 8) + operand)) ∧
       Completes (.swap32 addr operand code fault work) s (sets 4 operand) ∧
       Completes (.swap64 addr operand code fault work) s (sets 8 operand)) ∧
     (ownerTakes bank.owner code = true → s.scratch.bad.contains (scrAddr addr / 8) = true → fault = 0 →
       Completes (.add64 addr operand code fault work) s failed ∧ Completes (.swap64 addr operand code fault work) s failed) ∧
     (ownerTakes bank.owner code = false →
       Completes (.add32 addr operand code fault work) s (refused 4) ∧ Completes (.add64 addr operand code fault work) s (refused 8) ∧
       Completes (.swap32 addr operand code fault work) s (refused 4) ∧
       Completes (.swap64 addr operand code fault work) s (refused 8) ∧
       (∀ d, Completes (.scratchWrite addr d code fault) s fun t => t.scratch.cells = s.scratch.cells ∧ t.out = s.out) ∧
       (∀ n, Completes (.scratchRead addr n code fault work) s fun t =>
         t.out = s.out ++ [Output.scratchData (List.replicate (scrLen (scrAddr addr) n) 0)] ∧ t.scratch.cells = s.scratch.cells)) ∧
     (ownerTakes bank.owner code = true → s.scratch.bad = [] → fault ≤ 1 →
       (∀ n, Completes (.scratchRead addr n code fault work) s fun t =>
         t.out = s.out ++ [Output.scratchData (readBytes s.scratch.cells (scrAddr addr) (scrLen (scrAddr addr) n))] ∧
         t.scratch.cells = s.scratch.cells) ∧
       (∀ d, scrAddr addr % 2 ^ 26 + d.length ≤ 2 ^ 26 →
         Completes (.scratchWrite addr d code fault) s fun t =>
           readBytes t.scratch.cells (scrAddr addr) d.length = d ∧
           ∀ a, a < scrAddr addr ∨ scrAddr addr + d.length ≤ a → byteAt t.scratch.cells a = byteAt s.scratch.cells a))) ∧
  (∀ (b code : Nat) (s : State),
     ((getScr s b).retired = false → Completes (.nextOwnerWrite b code) s fun t =>
       (getScr t b).next = clampOwner code ∧ (getScr t b).owner = (getScr s b).owner ∧
       (getScr t b).due = (if clampOwner code = ownerLatched (latchOwner s b) b then 0 else dueTurn s) ∧
       ∀ k, k ≠ b → getScr t k = getScr s k) ∧
     ((getScr s b).retired = true → exec (.nextOwnerWrite b code) s = .next s))

/-! ### Wenmen -/

/-- LINK_UP notes the peer and the delay and brings a port up that may train; a foreign partition or the node's own
number fences it. Loss of lane lock takes an up port down to train again, with event 0x4001; DISC fences or notes
likewise, and measures the delay of a port that trains with a PING. A port that was up goes down, with event 0x4001,
before it is fenced. -/
def Obligations.PortsComeUpAndGoDown : Prop :=
  ∀ (p : Nat) (s : State), p < 16 →
    (∀ node port part delay kind, mayTrain s p = true → kind < 3 → part = getObj s Obj.PARTITION_ID → node ≠ selfNode s →
      Completes (.linkUp p node port part delay kind) s fun t =>
        linkState t p = linkIsUp ∧ getObj t (Obj.port_PEER_NODE p) = node ∧ getObj t (Obj.port_PEER_PORT p) = port ∧
        getObj t (Obj.port_LINK_DELAY_PS p) = delay ∧ getPort t p = Port.reset) ∧
    (∀ node port part delay kind, mayTrain s p = true → kind < 3 → linkState s p ≠ linkIsUp →
      part ≠ getObj s Obj.PARTITION_ID ∨ node = selfNode s →
      Completes (.linkUp p node port part delay kind) s fun t =>
        linkState t p = linkFenced ∧ t.out = s.out ++ [Output.portIdle p] ∧ Logged s t 0x4003 (p + 16 * node + 2 ^ 12 * part)) ∧
    (∀ node port part delay kind, mayTrain s p = false → exec (.linkUp p node port part delay kind) s = .next s) ∧
    (linkState s p = linkIsUp →
      Completes (.laneLockLoss p) s fun t => linkState t p = linkTraining ∧ Logged s t 0x4001 p) ∧
    (∀ node port part now, part = getObj s Obj.PARTITION_ID → node ≠ selfNode s →
      (linkState s p = linkIsUp ∨ linkState s p = linkTraining →
        Completes (.discFlit p node port part now) s fun t =>
          linkState t p = linkState s p ∧ getObj t (Obj.port_PEER_NODE p) = node ∧ getObj t (Obj.port_PEER_PORT p) = port ∧
          getObj t (Obj.port_PEER_PART p) = part ∧
          t.out = s.out ++ (if linkState s p = linkIsUp then [] else
            [Output.flitOut p { ty := 3, seq := 0, ack := (getPort s p).rxSeq, vl := 0, credVl := 0, credits := 0,
                                time := now % 2 ^ 64, fec := 0 }]))) ∧
    (∀ node port part now, part ≠ getObj s Obj.PARTITION_ID ∨ node = selfNode s →
      (linkState s p = linkTraining → Completes (.discFlit p node port part now) s fun t =>
        linkState t p = linkFenced ∧ Logged s t 0x4003 (p + 16 * node + 2 ^ 12 * part)) ∧
      (linkState s p = linkIsUp → Completes (.discFlit p node port part now) s fun t =>
        linkState t p = linkFenced ∧ ∃ u : State, u.turn.no = s.turn.no ∧ u.nv.logTally = s.nv.logTally + 1 ∧
          Logged s u 0x4001 p ∧ Logged u t 0x4003 (p + 16 * node + 2 ^ 12 * part))) ∧
    (∀ node port part now, linkState s p ≠ linkIsUp → linkState s p ≠ linkTraining →
      exec (.discFlit p node port part now) s = .next s)

/-- On an up port with no flit waiting: the SEQ expected is taken and its credit returned, any other draws one NAK;
ACK releases what it names; NAK and a replay timeout send every unacknowledged flit again, counted; PING is answered
with PONG, and PONG gives half the round trip; every 64 turns a PING leaves. A flit whose FEC fails is counted and
answered with NAK. -/
def Obligations.FlitsAreTakenInSequence : Prop :=
  ∀ (p : Nat) (f : Flit) (s : State), linkState s p = linkIsUp → (getPort s p).wait = [] → f.ty ≤ 5 →
    let v := getPort s p
    let ack := fun (seq : Nat) => ({ ty := 0, seq := 0, ack := seq, vl := 0, credVl := f.vl, credits := 1, time := 0, fec := 0 } : Flit)
    let nak := ({ ty := 2, seq := 0, ack := v.rxSeq, vl := 0, credVl := 0, credits := 0, time := 0, fec := 0 } : Flit)
    (f.fec = 0 → f.seq = v.rxSeq → Completes (.dataFlit p f) s fun t =>
      (getPort t p).rxSeq = (v.rxSeq + 1) % 4096 ∧ (getPort t p).nakked = false ∧
      t.out = s.out ++ [Output.flitOut p (ack ((v.rxSeq + 1) % 4096))]) ∧
    (f.fec = 0 → f.seq ≠ v.rxSeq → v.nakked = false → Completes (.dataFlit p f) s fun t =>
      (getPort t p).rxSeq = v.rxSeq ∧ (getPort t p).nakked = true ∧ t.out = s.out ++ [Output.flitOut p nak]) ∧
    (f.fec = 3 → v.nakked = false → Completes (.dataFlit p f) s fun t =>
      (getPort t p).rxSeq = v.rxSeq ∧ t.out = s.out ++ [Output.flitOut p nak] ∧
      waitingCount t (Obj.port_FEC_UNCORRECTABLE p) = waitingCount s (Obj.port_FEC_UNCORRECTABLE p) + 1) ∧
    (f.fec = 0 → (∀ r ∈ v.replay, (r.1 + 1) % 4096 ≠ f.ack) → Completes (.idleFlit p f) s fun t =>
      (getPort t p).replay = v.replay ∧ t.out = s.out) ∧
    (∀ old r new, f.fec = 0 → v.replay = old ++ r :: new → (r.1 + 1) % 4096 = f.ack → (∀ x ∈ old, (x.1 + 1) % 4096 ≠ f.ack) →
      Completes (.idleFlit p f) s fun t => (getPort t p).replay = new ∧ (getPort t p).resends = 0 ∧ t.out = s.out) ∧
    (f.fec = 0 → v.replay ≠ [] → v.resends < 64 → (∀ r ∈ v.replay, (r.1 + 1) % 4096 ≠ f.ack) →
      Completes (.nakFlit p f) s fun t =>
        (getPort t p).resends = v.resends + 1 ∧ (getPort t p).replay = v.replay ∧ t.out.length = s.out.length + v.replay.length ∧
        waitingCount t (Obj.port_FLIT_RETRIES p) = waitingCount s (Obj.port_FLIT_RETRIES p) + v.replay.length) ∧
    (v.replay ≠ [] → v.resends < 64 → Completes (.replayTimeout p) s fun t =>
      (getPort t p).resends = v.resends + 1 ∧ (getPort t p).replay = v.replay ∧ t.out.length = s.out.length + v.replay.length) ∧
    (∀ hold, f.fec = 0 → Completes (.pingFlit p f hold) s fun t =>
      t.out = s.out ++ [Output.flitOut p { ty := 4, seq := 0, ack := v.rxSeq, vl := 0, credVl := 0, credits := 0,
                                            time := (f.time + hold) % 2 ^ 64, fec := 0 }]) ∧
    (∀ arrival, f.fec = 0 → Completes (.pongFlit p f arrival) s fun t =>
      getObj t (Obj.port_LINK_DELAY_PS p) = min (2 ^ 32 - 1) ((arrival - f.time) * 25)) ∧
    (∀ now, s.turn.no % 64 = 0 → p < 16 → Completes (.pingTimer now) s fun t =>
      Output.flitOut p { ty := 3, seq := 0, ack := v.rxSeq, vl := 0, credVl := 0, credits := 0, time := now % 2 ^ 64, fec := 0 }
        ∈ t.out) ∧
    (∀ now, s.turn.no % 64 ≠ 0 → exec (.pingTimer now) s = .next s)

/-- Frames: a bad one draws a resend request, one of another partition is counted and dropped; one for this node is
delivered when its SEQ is next; others go on with one hop more, three at the most. Acknowledgements leave for every
stream, and one that comes releases the frames below it. The first boundary mark steers by at most 40 ticks and goes
on. The reply to a GET is kept, to be counted at the boundary whose P2 tick follows. The slot's lender answers a GET with
the entry and stores a new one of 64 bytes to 64 KiB where it fits; any other node answers with none and stores nothing;
DEL removes the entry. -/
def Obligations.FramesAndCacheAnswer : Prop :=
  ((∀ (f : Frame) (s : State),
     (f.good = false → f.part = getObj s Obj.PARTITION_ID → s.ledger.members.contains f.dst = true → f.dst = selfNode s →
       Completes (.frameReceive f) s fun t =>
         ∃ next, t.out = s.out ++ [Output.streamAck f.src f.cls next true] ∧ t.fab = s.fab) ∧
     (f.part = getObj s Obj.PARTITION_ID → s.ledger.members.contains f.dst = false → exec (.frameReceive f) s = .next s) ∧
     (f.part ≠ getObj s Obj.PARTITION_ID → Completes (.frameReceive f) s fun t =>
       t.fab = s.fab ∧ waitingCount t Obj.FRAMES_WRONG_PART = waitingCount s Obj.FRAMES_WRONG_PART + 1) ∧
     (∀ st, f.good = true → f.part = getObj s Obj.PARTITION_ID → s.ledger.members.contains f.dst = true → f.dst = selfNode s →
       (s.fab.inStreams.find? fun t => t.peer == f.src && t.cls == f.cls) = some st → st.held = [] →
       (f.seq = st.next → Completes (.frameReceive f) s fun t =>
         ∃ k ∈ t.fab.inStreams, k.peer = f.src ∧ k.cls = f.cls ∧ k.next = st.next + 1 ∧ k.held = []) ∧
       (∀ key v, f.seq = st.next → f.cls = 3 → f.reply = some (key, some v) → s.fab.replies = [] →
         (s.fab.kept.any (·.2.key == key)) = false →
         Completes (.frameReceive f) s fun t => (dueTurn s, { key := key, value := v }) ∈ t.fab.kept) ∧
       (f.seq ≠ st.next → (f.seq - st.next).toNat < 2 ^ 63 → Completes (.frameReceive f) s fun t =>
         ∃ k ∈ t.fab.inStreams, k.peer = f.src ∧ k.cls = f.cls ∧ k.next = st.next ∧ k.held = [f.seq])) ∧
     (∀ p, f.part = getObj s Obj.PARTITION_ID → s.ledger.members.contains f.dst = true → f.dst ≠ selfNode s →
       s.turn.escalated = false →
       (f.hops < 3 → portTo s f.dst = some p → Completes (.frameReceive f) s fun t =>
         Output.frameOut p { f with hops := f.hops + 1 } ∈ t.out) ∧
       (3 ≤ f.hops → Completes (.frameReceive f) s fun t => t.out = s.out ∧ t.fab.badFrames = s.fab.badFrames + 1))) ∧
   (∀ s : State, Completes .e2eAckTimer s fun t =>
     t.out = s.out ++ s.fab.inStreams.map fun x => Output.streamAck x.peer x.cls x.next false) ∧
   (∀ (dst cls : Nat) (next : Tally) (st : TStream) (s : State),
     (s.fab.streams.find? fun t => t.peer == dst && t.cls == cls) = some st → st.out.length ≤ streamWindow →
     Completes (.transportAck dst cls next false) s fun t =>
       t.out = s.out ∧ ∃ k ∈ t.fab.streams, k.peer = dst ∧ k.cls = cls ∧ (∀ f ∈ k.out, f ∈ st.out) ∧
         ∀ f ∈ st.out, (f ∈ k.out ↔ (next - f.seq).toNat = 0 ∨ 2 ^ 63 ≤ (next - f.seq).toNat)) ∧
   (∀ (p hold : Nat) (m : Mark) (off : Int) (s : State), isMember s = true → isLeader s = false → m.hops ≤ 3 →
     carries s p = true → m.turn < s.turn.markTurn →
     Completes (.boundaryMark p m hold off) s fun t =>
       t = { s with fab := { s.fab with memberPorts := t.fab.memberPorts } } ∧ p ∈ t.fab.memberPorts) ∧
   (∀ (p hold : Nat) (m : Mark) (off : Int) (s : State), carries s p = false ∨ 3 < m.hops →
     exec (.boundaryMark p m hold off) s = .next s) ∧
   (∀ (p hold : Nat) (m : Mark) (off : Int) (s : State), isMember s = true → isLeader s = false → m.hops ≤ 3 →
     s.turn.markTurn ≤ m.turn → carries s p = true →
     Completes (.boundaryMark p m hold off) s fun t =>
       t.turn.markSeen = true ∧ t.turn.alignOff = off ∧ t.turn.steer.natAbs ≤ 40 ∧
       t.turn.alignBad = (if 1000 < off.natAbs then s.turn.alignBad + 1 else 0) ∧
       ∀ q ∈ upPorts s, q ≠ p →
         Output.markOut q { turn := m.turn, hops := m.hops + 1,
                            corr := m.corr + getObj s (Obj.port_LINK_DELAY_PS p) / 50 + hold } ∈ t.out)) ∧
  (∀ (src key : Nat) (s : State),
     (lenderOf s key = some (selfNode s) → Completes (.get src key) s fun t =>
       t.out = s.out ++ [Output.cacheReply src key (cacheFind s key)] ∧ ∀ k, cacheFind t k = cacheFind s k) ∧
     (lenderOf s key ≠ some (selfNode s) → Completes (.get src key) s fun t =>
       t.out = s.out ++ [Output.cacheReply src key none] ∧ t.fab = s.fab) ∧
     (∀ v, lenderOf s key = some (selfNode s) → 64 ≤ v.length → v.length ≤ 65536 → cacheFind s key = none →
       16 + v.length ≤ getObj s Obj.CACHE_LEND_GIB * 2 ^ 30 →
       Completes (.put src key v) s fun t => cacheFind t key = some v ∧
         cacheBytes t.fab.cache ≤ getObj s Obj.CACHE_LEND_GIB * 2 ^ 30) ∧
     (∀ v, lenderOf s key ≠ some (selfNode s) ∨ (cacheFind s key).isSome = true ∨ v.length < 64 ∨ 65536 < v.length →
       exec (.put src key v) s = .next s) ∧
     (Completes (.del src key) s fun t => cacheFind t key = none ∧ ∀ k, k ≠ key → cacheFind t k = cacheFind s k))

/-! ### The ledger -/

/-- The leader forms at most one epoch at a time, numbered on and in effect two turns later, and sends it to the other
holders; a holder stores and acknowledges it. With a majority of the holders it is published to every member, else its
records wait for the next attempt, counted. At its boundary a member applies it: a period is set pending, holders and
leader change with event 0x4005. -/
def Obligations.EpochsFormCommitAndApply : Prop :=
  (∀ s : State, isLeader s = true → s.ledger.forming = none → s.turn.phase = .p6 →
    Completes (.ledgerEpochForm []) s fun t =>
      t.ledger.reqs = s.ledger.reqs.drop (getObj s Obj.EPOCH_MAX) ∧
      (∀ e, t.ledger.forming = some e → e.num = nextEpoch s ∧ e.effect = (s.turn.no + 2) % turnMod ∧ e.leader = selfNode s ∧
        e.recs ≠ [] ∧ ∀ h ∈ s.ledger.holders, h ≠ selfNode s → Output.epochOut h e ∈ t.out) ∧
      ((∃ r ∈ s.ledger.reqs.take (getObj s Obj.EPOCH_MAX), recordable s r = true ∧ recKey r.body = none) →
        t.ledger.forming ≠ none)) ∧
  (∀ s : State, isLeader s = false ∨ s.turn.phase ≠ .p6 → ∀ gone, exec (.ledgerEpochForm gone) s = .next s) ∧
  (∀ (e : Epoch) (s : State), isHolder s = true → s.ledger.leader ≠ selfNode s →
    Completes (.epochStore s.ledger.leader e) s fun t =>
      e ∈ t.ledger.stored ∧ t.ledger.noStore = 0 ∧ t.out = s.out ++ [Output.epochAck s.ledger.leader e.num]) ∧
  (∀ (acks : List Nat) (e : Epoch) (s : State), s.ledger.forming = some e → isLeader s = true → s.turn.phase = .p6 →
    let n := 1 + (nub (acks.filter fun a => s.ledger.holders.contains a && a != selfNode s)).length
    (s.ledger.holders.length < 2 * n → Completes (.epochCommit acks) s fun t =>
      t.ledger.forming = none ∧
      t.fab.out = s.fab.out ++ (nodeSort (s.ledger.members ++ epochJoins e)).map fun m => (m, Sect.epoch e)) ∧
    (2 * n ≤ s.ledger.holders.length → Completes (.epochCommit acks) s fun t =>
      t.ledger.forming = none ∧ t.ledger.reqs = e.recs.filter retried ++ s.ledger.reqs ∧ t.fab = s.fab ∧
      waitingCount t Obj.EPOCH_RETRIES = waitingCount s Obj.EPOCH_RETRIES + 1)) ∧
  (∀ (e : Epoch) (s : State), s.turn.phase = .p4 → isMember s = true →
    s.ledger.epochs.filter (fun e => decide (e.effect ≤ boundary s)) = [e] →
    (Completes .epochApply s fun t => t.ledger.applied = e.num ∧ t.ledger.outOfStep = false ∧ ∀ x ∈ t.ledger.epochs, x.num ≠ e.num) ∧
    (∀ node us turn, e.recs = [{ node := node, body := .period us turn }] → Completes .epochApply s fun t =>
      getObj t Obj.PERIOD_PENDING = us ∧ getObj t Obj.PERIOD_SWITCH_TURN = turn) ∧
    (∀ node hs l term, e.recs = [{ node := node, body := .holders hs l term }] → s.ledger.leader ≠ l →
      Completes .epochApply s fun t =>
        t.ledger.holders = hs ∧ t.ledger.leader = l ∧ t.ledger.term = max term s.ledger.term ∧ Logged s t 0x4005 l)) ∧
  (∀ s : State, s.turn.phase ≠ .p4 → exec .epochApply s = .next s)

/-- A holder counts the leader's heartbeat; without one for LEADER_TIMEOUT boundaries it stands with the next term,
votes once per term, and leads from the next boundary with a majority. FOUND makes a partition of one, but on a member
and on a node that has escalated; JOIN sends the request of a node that passed its self-test and has not withdrawn, over
the lowest up port whose peer is known to be a member (DEDUCED, log entry 90), and a member hands it on to the leader. -/
def Obligations.HoldersElectAndNodesJoin : Prop :=
  (∀ s : State, isHolder s = true →
    (Completes (.heartbeat s.ledger.leader) s fun t => t = { s with ledger := { s.ledger with beatSeen := true } }) ∧
    (∀ n, n ≠ s.ledger.leader → exec (.heartbeat n) s = .next s) ∧
    (isLeader s = false → getObj s Obj.LEADER_TIMEOUT ≤ s.ledger.beats → Completes .leaderTimeout s fun t =>
      t.ledger.term = s.ledger.term + 1 ∧ t.ledger.standing = s.ledger.term + 1 ∧
      t.out = s.out ++ [Output.electOut (s.ledger.term + 1) s.ledger.applied]) ∧
    (s.ledger.beats < getObj s Obj.LEADER_TIMEOUT → exec .leaderTimeout s = .next s) ∧
    (s.turn.phase = .p6 → s.ledger.beats ≠ 0 → s.ledger.standing = 0 →
      ∀ n term last, n ≠ selfNode s → s.ledger.holders.contains n = true →
        (s.ledger.votedTerm < term → Completes (.vote [(n, term, last)] []) s fun t =>
          t.ledger.votedTerm = term ∧ t.out = s.out ++ [Output.voteOut n term] ∧ t.ledger.electDue = s.ledger.electDue) ∧
        (term ≤ s.ledger.votedTerm → exec (.vote [(n, term, last)] []) s = .next s)) ∧
    (s.turn.phase = .p6 → s.ledger.standing ≠ 0 →
      ∀ votes, s.ledger.holders.length < 2 * (nub (votes.filter fun v => s.ledger.holders.contains v && v != selfNode s)).length →
        Completes (.vote [] votes) s fun t => t.ledger.electDue = boundary s)) ∧
  (∀ s : State, isMember s = false →
    (s.turn.escalated = false → Completes .found s fun t => t.ledger.members = [selfNode s] ∧ t.ledger.holders = [selfNode s] ∧
      t.ledger.leader = selfNode s ∧ t.ledger.term = 1 ∧ t.colls = [] ∧ t.lists = [] ∧ getObj t Obj.FOUND = 0) ∧
    (s.turn.escalated = true → Completes .found s fun t => getObj t Obj.FOUND = 0 ∧ t.ledger = s.ledger) ∧
    (∀ p, isSet s Obj.SELFTEST_PASS = true → s.turn.withdrawn = false →
      ((upPorts s).filter s.fab.memberPorts.contains).head? = some p → Completes .join s fun t =>
        getObj t Obj.JOIN = 1 ∧ t.ledger.joinSent = true ∧ t.out = s.out ++ [Output.joinReq p]) ∧
    (isSet s Obj.SELFTEST_PASS = true → s.turn.withdrawn = false → (upPorts s).filter s.fab.memberPorts.contains = [] →
      Completes .join s fun t => getObj t Obj.JOIN = 1 ∧ t.ledger.joinSent = false ∧ t.out = s.out) ∧
    (isSet s Obj.SELFTEST_PASS = false ∨ s.turn.withdrawn = true → Completes .join s fun t => getObj t Obj.JOIN = 0 ∧ t.out = s.out) ∧
    (∀ n tag st, exec (.memberRequest n tag st) s = .next s)) ∧
  (∀ s : State, isMember s = true →
    (Completes .found s fun t => getObj t Obj.FOUND = 0 ∧ t.ledger = s.ledger) ∧
    (Completes .join s fun t => getObj t Obj.JOIN = 0 ∧ t.ledger = s.ledger) ∧
    (∀ n tag st, Completes (.memberRequest n tag st) s fun t =>
      t.ledger.outReqs = s.ledger.outReqs ++ [LedgerRec.member n true tag st]))

/-! ### Barriers -/

/-- Arrivals are held until the slot is complete, and the last one releases it: GEN counts on and nobody waits.
Messages of another generation are stray and counted; a release ends the wait at a node that is not the root, which,
without a member of its own, tells the root at once that it is complete in the next generation; an abort
or the timer fails the slot with its cause and event 0x2041; CLEAR readies a failed slot for the next boundary. -/
def Obligations.BarrierSlotsGatherAndRelease : Prop :=
  ∀ (n : Nat) (s : State),
    let b := getBslot s n
    let released := fun (t : State) =>
      getBslot t n = { b with gen := (b.gen + 1) % 2 ^ 32, state := bsIdle, tiles := [], mc := false,
                              remote := [], timer := false, failFlag := (getBslot t n).failFlag } ∧
      waitingCount t Obj.BARRIERS_RELEASED = waitingCount s Obj.BARRIERS_RELEASED + 1
    let fails := fun (cause : Nat) (t : State) => (getBslot t n).state = bsFailed ∧ (getBslot t n).gen = b.gen ∧
      (getBslot t n).tiles = [] ∧ (∀ x ∈ b.tiles, x ∈ (getBslot t n).failFlag) ∧ getObj t (Obj.bslot_CAUSE n) = cause ∧
      Logged s t 0x2041 (n + 2 ^ 6 * b.gen + 2 ^ 38 * cause) ∧
      waitingCount t Obj.BARRIERS_FAILED = waitingCount s Obj.BARRIERS_FAILED + 1
    (∀ tile, (slotTiles s n).contains tile = true → b.state = bsIdle ∨ b.state = bsGathering → b.tiles.contains tile = false →
      ((∃ u ∈ slotTiles s n, u ≠ tile ∧ b.tiles.contains u = false) → Completes (.arrive n tile) s fun t =>
        (getBslot t n).tiles = b.tiles ++ [tile] ∧ (getBslot t n).state = bsGathering ∧ (getBslot t n).timer = true ∧
        (getBslot t n).gen = b.gen ∧ t.out = s.out) ∧
      ((∀ u ∈ slotTiles s n, u = tile ∨ b.tiles.contains u = true) → slotNodes s n = [selfNode s] →
        b.mc = true ∨ isSet s (Obj.bslot_MC_MEMBER n) = false → Completes (.arrive n tile) s released)) ∧
    (∀ tile, (slotTiles s n).contains tile = true → b.state = bsFailed → Completes (.arrive n tile) s fun t =>
      tile ∈ (getBslot t n).failFlag ∧ (getBslot t n).state = bsFailed) ∧
    (isSet s (Obj.bslot_MC_MEMBER n) = true → b.state = bsIdle ∨ b.state = bsGathering →
      (b.mc = false → (∃ u ∈ slotTiles s n, b.tiles.contains u = false) → Completes (.bslotArrive n) s fun t =>
        (getBslot t n).mc = true ∧ (getBslot t n).state = bsGathering ∧ t.out = s.out) ∧
      (b.mc = true → Completes (.bslotArrive n) s fun t =>
        t.bslots = s.bslots ∧ waitingCount t Obj.MC_EXTRA_ARRIVALS = waitingCount s Obj.MC_EXTRA_ARRIVALS + 1)) ∧
    (∀ src gen, strayMsg s src n gen = true →
      (Completes (.arriveMessage src n gen) s fun t => t = bump s Obj.STRAY_MESSAGES 1) ∧
      (Completes (.releaseMessage src n gen) s fun t => t = bump s Obj.STRAY_MESSAGES 1) ∧
      (∀ cause, Completes (.abortMessage src n gen cause) s fun t => t = bump s Obj.STRAY_MESSAGES 1)) ∧
    (∀ src gen, strayMsg s src n gen = false → b.state ≠ bsFailed →
      (slotRoot s n = selfNode s → locallyComplete s n = false → Completes (.arriveMessage src n gen) s fun t =>
        src ∈ (getBslot t n).remote ∧ (getBslot t n).state = bsGathering ∧ (getBslot t n).gen = b.gen) ∧
      (slotRoot s n ≠ selfNode s → Completes (.releaseMessage src n gen) s released ∧
        (slotTiles s n = [] → isSet s (Obj.bslot_MC_MEMBER n) = false → Completes (.releaseMessage src n gen) s fun t =>
          t.out = s.out ++ [Output.barrierMsg (slotRoot s n) kArrive n ((b.gen + 1) % 2 ^ 32) 0])) ∧
      (∀ cause, Completes (.abortMessage src n gen cause) s fun t => fails (min 2 (cause % 4)) t ∧ t.out = s.out)) ∧
    (b.state = bsGathering → b.timer = true → Completes (.barrierTimeout n) s fun t => fails 1 t ∧
      ∀ d, d ∈ (if slotRoot s n = selfNode s then slotOthers s n else [slotRoot s n]) →
        Output.barrierMsg d kAbort n b.gen 1 ∈ t.out) ∧
    (b.state = bsFailed → Completes (.clear n) s fun t =>
      getBslot t n = { b with clearDue := dueTurn s } ∧ ObjectsKeptBut [] s t) ∧
    (b.state ≠ bsFailed → exec (.clear n) s = .next s)

/-! ### The Object Dictionary -/

/-- READ answers the object's bytes and changes no object; WRITE is refused with its code, or staged in the open
transaction, or handed on for the next boundary as a transaction of its own; BEGIN, COMMIT and ROLLBACK open, hand on
and discard. A repeated request draws the kept response again. -/
def Obligations.RequestsAreAnswered : Prop :=
  ∀ (req : Nat) (m : DictMsg) (s : State), Served s req m →
    let a := m.index * 256 + m.sub
    let d := (cutMsg req m).data
    let q := getReq s req
    (m.sub ≠ 0 → hidden s m = false → rowAt a = none →
      (Completes (.read req m) s fun t => Answered s t req 0x01 m codeNoObject [] ∧ ObjectsKeptBut [] s t) ∧
      (Completes (.write req m) s fun t => Answered s t req 0x02 m codeNoObject [] ∧ ObjectsKeptBut [] s t)) ∧
    (∀ r, m.sub ≠ 0 → hidden s m = false → rowAt a = some r → segOnly r = false → m.txn = false →
      (Completes (.read req m) s fun t => Answered s t req 0x01 m codeOk (readBytesOf s req r a) ∧ ObjectsKeptBut [] s t) ∧
      (writeCode s req 0 a r false false (leNat (d.take r.ty.size)) ≠ codeOk → Completes (.write req m) s fun t =>
        Answered s t req 0x02 m (writeCode s req 0 a r false false (leNat (d.take r.ty.size))) [] ∧
        t.dict.commits = s.dict.commits ∧ ObjectsKeptBut [] s t) ∧
      (writeCode s req 0 a r false false (leNat (d.take r.ty.size)) = codeOk → r.acc = .rws → q.isOpen = false →
        Completes (.write req m) s fun t => Answered s t req 0x02 m codeOk (acceptBytes s req false r a d) ∧
          ({ req := req, writes := [(a, acceptBytes s req false r a d)], due := dueTurn s, shown := true } : CommitJob)
            ∈ t.dict.commits ∧
          (getReq t req).state = 2 ∧ ObjectsKeptBut [] s t)) ∧
    (∀ r ws, m.sub ≠ 0 → hidden s m = false → rowAt a = some r → segOnly r = false → m.txn = true →
      writeCode s req 0 a r true false (leNat (d.take r.ty.size)) = codeOk →
      stageWriteOf q.staged a (acceptBytes s req true r a d) = some ws → Completes (.write req m) s fun t =>
        Answered s t req 0x02 m codeOk (acceptBytes s req true r a d) ∧ (getReq t req).staged = ws ∧
        t.dict.commits = s.dict.commits ∧ ObjectsKeptBut [] s t) ∧
    (q.isOpen = false →
      (Completes (.txnBegin req m) s fun t => Answered s t req 0x10 m codeOk [] ∧ (getReq t req).isOpen = true ∧
        (getReq t req).staged = [] ∧ (getReq t req).beginTurn = dueTurn s ∧ (getReq t req).state = 1) ∧
      (Completes (.commit req m) s fun t => Answered s t req 0x11 m codeTxnNone [] ∧ t.dict.commits = s.dict.commits) ∧
      (Completes (.rollback req m) s fun t => Answered s t req 0x12 m codeTxnNone [] ∧ t.dict.commits = s.dict.commits)) ∧
    (q.isOpen = true → req ≠ 0 ∨ q.source = 0 →
      (Completes (.txnBegin req m) s fun t => Answered s t req 0x10 m codeTxnBusy [] ∧ (getReq t req).staged = q.staged) ∧
      (Completes (.commit req m) s fun t => Answered s t req 0x11 m codeOk [] ∧ (getReq t req).isOpen = false ∧
        (getReq t req).staged = [] ∧ ObjectsKeptBut [] s t ∧
        ({ req := req, writes := q.staged, due := dueTurn s, shown := true } : CommitJob) ∈ t.dict.commits) ∧
      (Completes (.rollback req m) s fun t => Answered s t req 0x12 m codeOk [] ∧ (getReq t req).isOpen = false ∧
        (getReq t req).staged = [] ∧ (getReq t req).state = 0 ∧ t.dict.commits = s.dict.commits ∧ ObjectsKeptBut [] s t ∧
        waitingCount t Obj.ROLLBACKS = waitingCount s Obj.ROLLBACKS + 1))

/-- At P4 a committed transaction that is due is applied whole and counted; one that writes an object which must be
stopped and is not is rejected whole. A transaction open for 65,536 turns is rolled back with event 0x2010. A request
that repeats the last one is answered with the response kept, and changes nothing else but a count. -/
def Obligations.TransactionsApplyWhole : Prop :=
  (∀ (j : CommitJob) (s : State), s.turn.phase = .p4 → s.dict.commits = [j] → j.due ≤ boundary s → isSet s Obj.SWITCH = false →
    (∀ a, firstRunning s j.writes = some a → Completes .txnApply s fun t =>
      t.dict.commits = [] ∧ ObjectsKeptBut [] s t ∧ waitingCount t Obj.REJECTED_TXNS = waitingCount s Obj.REJECTED_TXNS + 1) ∧
    (∀ v, j.writes = [(Obj.HEAT_SHIFT, [v])] → Completes .txnApply s fun t =>
      t.dict.commits = [] ∧ getObj t Obj.HEAT_SHIFT = min 12 (max 1 v.toNat) ∧ ObjectsKeptBut [Obj.HEAT_SHIFT] s t ∧
      waitingCount t Obj.COMMITS = waitingCount s Obj.COMMITS + 1) ∧
    (j.writes = [] → j.req < s.dict.reqs.length → j.shown = true → Completes .txnApply s fun t =>
      (getReq t j.req).state = 3 ∧ (getReq t j.req).applyTurn = boundary s ∧ ObjectsKeptBut [] s t)) ∧
  (∀ s : State, s.turn.phase ≠ .p4 → exec .txnApply s = .next s) ∧
  (∀ (req : Nat) (s : State), s.turn.phase = .p3 → (getReq s req).isOpen = true → req < s.dict.reqs.length →
    (getReq s req).beginTurn + 65536 ≤ boundary s → Completes (.txnWatchdog req) s fun t =>
      (getReq t req).isOpen = false ∧ (getReq t req).staged = [] ∧ (getReq t req).state = 4 ∧ Logged s t 0x2010 req ∧
      waitingCount t Obj.WATCHDOG_ROLLBACKS = waitingCount s Obj.WATCHDOG_ROLLBACKS + 1) ∧
  (∀ (req : Nat) (s : State), boundary s < (getReq s req).beginTurn + 65536 → exec (.txnWatchdog req) s = .next s) ∧
  (∀ (req : Nat) (m : DictMsg) (r : DictResp) (s : State), nodeOn s = true → s.ras.mcDown = false → s.dict.served = true →
    m.resp = false → (getReq s req).last = some (cutMsg req { m with cmd := 0x01 }, 0, r) →
    Completes (.read req m) s fun t => t = emit (bump s Obj.REPEATS 1) (.dictResp req 0 r))

/-- A DOMAIN moves in segments: INIT opens one transfer, SEG_READ gives bytes of the snapshot and closes with the
last, SEG_WRITE takes bytes in sequence, END checks the CRC-32C and hands the content on, ABORT and idleness close the
transfer. The carriers: a field-network frame is served or counted as dropped; GO runs the mailbox's request, or is
ignored while busy, or refused without a Secure stream where IDE is required; DOE answers Discovery and dictionary
requests, and an abort discards the response. A transfer without a command for SEG_IDLE_TURNS turns is aborted. -/
def Obligations.SegmentsAndCarriersServe : Prop :=
  (∀ (req : Nat) (m : DictMsg) (s : State), Served s req m →
     let a := m.index * 256 + m.sub
     let d := (cutMsg req m).data
     let off := m.offset / 4 * 4
     (∀ r, hidden s m = false → rowAt a = some r → r.ty.isDomain = true → (getReq s req).seg = none → m.txn = false →
       (Completes (.segReadInit req m) s fun t =>
         let b := if r.acc = .wo then [] else readBytesOf s req r a
         Answered s t req 0x20 m codeOk (leBytes 8 b.length) ∧
         ∃ g, (getReq t req).seg = some g ∧ g.write = false ∧ g.addr = a ∧ g.content = b ∧ g.size = b.length) ∧
       (writeCode s req 0 a r false false 0 = codeOk → Completes (.segWriteInit req m) s fun t =>
         Answered s t req 0x22 m codeOk [] ∧
         ∃ g, (getReq t req).seg = some g ∧ g.write = true ∧ g.addr = a ∧ g.content = [] ∧ g.sent = 0 ∧
           g.size = min (leNat (d.take 8)) r.ty.size)) ∧
     ((getReq s req).seg = none →
       (Completes (.segRead req m) s fun t => Answered s t req 0x21 m codeSegState []) ∧
       (Completes (.segWrite req m) s fun t => Answered s t req 0x23 m codeSegState []) ∧
       (Completes (.segWriteEnd req m) s fun t => Answered s t req 0x24 m codeSegState []) ∧
       (Completes (.segAbort req m) s fun t => Answered s t req 0x25 m codeSegState [])) ∧
     (∀ g, (getReq s req).seg = some g → req ≠ 0 ∨ g.source = 0 →
       (Completes (.segAbort req m) s fun t => Answered s t req 0x25 m codeOk [] ∧ (getReq t req).seg = none ∧
         ObjectsKeptBut [] s t) ∧
       (g.addr = a → g.write = false →
         let n := min (min (leNat (d.take 4)) (g.size - off)) (largestData req)
         Completes (.segRead req m) s fun t => Answered s t req 0x21 m codeOk (slice g.content off n) ∧
           (0 < n → off + n = g.size → (getReq t req).seg = none) ∧
           (off + n < g.size → (getReq t req).seg = some { g with sent := g.sent + n, deadline := segDeadline s })) ∧
       (g.addr = a → g.write = true → off = g.sent → d.length % 4 = 0 ∨ g.size ≤ off + d.length →
         Completes (.segWrite req m) s fun t => Answered s t req 0x23 m codeOk [] ∧ ObjectsKeptBut [] s t ∧
           ∃ k, (getReq t req).seg = some k ∧ k.content = g.content ++ d.take (g.size - off) ∧ k.sent = k.content.length) ∧
       (g.addr = a → g.write = true → g.sent < off → Completes (.segWrite req m) s fun t =>
         Answered s t req 0x23 m codeSegGap [] ∧ ∃ k, (getReq t req).seg = some k ∧ k.content = g.content ∧ k.sent = g.sent) ∧
       (g.addr = a → g.write = true → g.size ≤ g.sent →
         (crc32c g.content ≠ leNat (d.take 4) → Completes (.segWriteEnd req m) s fun t =>
           Answered s t req 0x24 m codeSegCheck [] ∧ (getReq t req).seg = none ∧ t.dict.commits = s.dict.commits ∧
           waitingCount t Obj.SEG_CHECK_FAILS = waitingCount s Obj.SEG_CHECK_FAILS + 1) ∧
         (∀ r, crc32c g.content = leNat (d.take 4) → rowAt a = some r → writeCode s req 0 a r false false 0 = codeOk →
           m.txn = false → a ≠ Obj.FW_IMAGE → (getReq s req).isOpen = false → Completes (.segWriteEnd req m) s fun t =>
             Answered s t req 0x24 m codeOk [] ∧ (getReq t req).seg = none ∧
             ({ req := req, writes := [(a, acceptBytes s req false r a g.content)], due := dueTurn s, shown := true } : CommitJob)
               ∈ t.dict.commits)))) ∧
  (∀ s : State,
     (∀ f, nodeOn s = true → fnAccepts s f = true → Completes (.fnFrame f) s fun t =>
       t = serveTo (bump s Obj.FN_FRAMES_IN 1) 0 f.src f.msg) ∧
     (∀ f, nodeOn s = true → fnAccepts s f = false → Completes (.fnFrame f) s fun t =>
       t = bump s Obj.FN_FRAMES_DROPPED 1) ∧
     (∀ f, nodeOn s = false → exec (.fnFrame f) s = .next s) ∧
     (∀ secure u r, ideRefused s secure = false → s.dict.mb.busy = false → s.ras.mcDown = false →
       serve s 1 0 false (mailboxMsg s.dict.mb) = (u, some r) → Completes (.mbGo secure) s fun t =>
         t.dict.mb.response = respBytes r ∧ t.dict.mb.done = true ∧ t.dict.objs = u.dict.objs) ∧
     (∀ secure, ideRefused s secure = false → s.dict.mb.busy = true → Completes (.mbGo secure) s fun t =>
       t.dict.mb = { s.dict.mb with ignored := true } ∧ ObjectsKeptBut [] s t) ∧
     (∀ secure, ideRefused s secure = true → Completes (.mbGo secure) s fun t => t = bump s Obj.IDE_REFUSED 1) ∧
     (doeServed s = true →
       (∀ i, Completes (.doeRequest (.discovery i)) s fun t => t.host.doeResp = some (.discovery (discoveryBytes i))) ∧
       (∀ m u r, serve s 2 0 false m = (u, some r) → Completes (.doeRequest (.dict m)) s fun t =>
         t = { u with host := { u.host with doeResp := some (.dict r) } })) ∧
     (doeServed s = false → ∀ o, exec (.doeRequest o) s = .next s) ∧
     (Completes .doeAbort s fun t => t = { s with host := { s.host with doeResp := none } }) ∧
     (∀ req g, s.turn.phase = .p3 → req < s.dict.reqs.length → (getReq s req).seg = some g →
       (g.deadline ≤ boundary s → Completes (.segIdleTimeout req) s fun t =>
         (getReq t req).seg = none ∧ ObjectsKeptBut [] s t) ∧
       (boundary s < g.deadline → exec (.segIdleTimeout req) s = .next s))
 )


/-! ### Security and tenancy -/

/-- A binding that is due stores tag and nonce and posts event 0x5002; a switch releases the queues, scrubs all tenant
state with the keys, and ends with TENANT_STATE 0 and event 0x5001 in the log; diagnostic mode begins unbound. Reports
are formed for their requester; SECURED answers go by sequence, tag and session; an IDE failure makes its stream
Insecure with event 0x5004. -/
def Obligations.TenancyAndSessions : Prop :=
  ∀ s : State,
    (∀ nonce, s.turn.phase = .p5 → s.sec.bindDue ≠ 0 → s.sec.bindDue ≤ s.turn.no → s.nv.tenant = 0 →
      Completes (.bind nonce) s fun t =>
        t.nv.tenant = 1 ∧ t.nv.tag = padTo 32 (getDom s Obj.TENANT_TAG) ∧ t.nv.nonce = padTo 32 nonce ∧
        t.sec.flashKey = flashKeyOf (padTo 32 nonce) ∧ Logged s t 0x5002 (leNat ((padTo 32 (getDom s Obj.TENANT_TAG)).take 8))) ∧
    (∀ nonce, s.turn.phase ≠ .p5 ∨ s.sec.bindDue = 0 ∨ s.nv.tenant ≠ 0 → exec (.bind nonce) s = .next s) ∧
    (∀ nonce, s.turn.phase = .p5 → s.sec.diagDue ≠ 0 → s.sec.diagDue ≤ s.turn.no → s.nv.tenant = 0 →
      Completes (.diagEn nonce) s fun t =>
        t.nv.tenant = 3 ∧ t.nv.tag = List.replicate 32 0 ∧ t.nv.nonce = s.nv.nonce ∧
        t.sec.flashKey = flashKeyOf (padTo 32 nonce)) ∧
    (s.sec.switchDue ≠ 0 → s.turn.phase = .p6 → s.turn.no = s.sec.switchDue → Completes .tenantSwitch s fun t =>
      t.host.queues = [] ∧ t.host.results = [] ∧ getObj t Obj.HOST_REGION_GIB = 0 ∧ getObj t Obj.HOST_REGION_BASE = 0) ∧
    (s.turn.no ≠ s.sec.switchDue → exec .tenantSwitch s = .next s) ∧
    (s.sec.switchDue ≠ 0 → s.turn.phase = .p5 → s.turn.no = nextTurn s.sec.switchDue → Completes .scrubStart s fun t =>
      t.nv.tenant = 2 ∧ t.nv.tag = List.replicate 32 0 ∧ t.nv.nonce = [] ∧ t.sec.flashKey = [] ∧ t.host.session = none ∧
      t.host.ide = [0, 0, 0, 0] ∧ t.smem.cells = [] ∧ t.scratch.cells = [] ∧ t.colls = [] ∧ t.lists = [] ∧ t.queries = [] ∧
      t.images = [] ∧ t.host.queues = [] ∧ t.fab.cache = [] ∧ t.flash.maps = [] ∧ t.sec.scrubbing = true) ∧
    (∀ ms, s.sec.scrubbing = true → s.sec.scrubDone = none → Completes (.scrubComplete ms) s fun t =>
      t = { s with sec := { s.sec with scrubDone := some ms } }) ∧
    (∀ ms, s.sec.scrubDone = some ms → s.turn.phase = .p5 → Completes .scrubEndBoundary s fun t =>
      t.nv.tenant = 0 ∧ t.sec.scrubbing = false ∧ t.nv.switches = (s.nv.switches + 1) % 2 ^ 64 ∧
      getObj t Obj.SCRUB_MS = min ms 65535 ∧ Logged s t 0x5001 (min ms 65535) ∧ t.host = s.host) ∧
    (s.sec.staged = 1 → Completes .fwActivate s fun t =>
      getObj t Obj.FW_ACTIVATE = 1 ∧ t.nv.activateB = runsA s ∧ t.sec.activate = true) ∧
    (s.sec.staged ≠ 1 → Completes .fwActivate s fun t => getObj t Obj.FW_ACTIVATE = 0 ∧ t.nv = s.nv ∧ t.sec = s.sec) ∧
    (∀ req d, req < s.dict.reqs.length → Completes (.attRequest req d) s fun t =>
      (getReq t req).report = reportOf s (d.take 32) [] ∧ ∀ r, r ≠ req → getReq t r = getReq s r) ∧
    (∀ d coins, doeServed s = true →
      (leNat (slice d 32 2) ≠ 1184 → Completes (.getReport d coins) s fun t =>
        t.host.doeResp = some (.report (reportOf s (padTo 32 d) [])) ∧ t.host.session = s.host.session) ∧
      (leNat (slice d 32 2) = 1184 → Completes (.getReport d coins) s fun t =>
        ∃ keys, t.host.session = some { keys := keys, lastSeq := none, mySeq := 0 })) ∧
    (∀ seq ok body, doeServed s = true → s.host.session = none → Completes (.secured seq ok body) s fun t =>
      t.host.doeResp = some (.fail 1) ∧ waitingCount t Obj.SESSION_FAILS = waitingCount s Obj.SESSION_FAILS + 1) ∧
    (∀ seq body ss, doeServed s = true → s.host.session = some ss →
      (∀ ok l, ss.lastSeq = some l → seq ≤ l → Completes (.secured seq ok body) s fun t =>
        t.host.doeResp = some (.fail 2) ∧ t.host.session = s.host.session) ∧
      ((∀ l, ss.lastSeq = some l → l < seq) → Completes (.secured seq false body) s fun t =>
        t.host.doeResp = some (.fail 3) ∧ t.host.session = none ∧ Logged s t 0x5005 0) ∧
      (∀ stream keySet secure, (∀ l, ss.lastSeq = some l → l < seq) → body = .ideKm stream keySet secure →
        stream < s.host.ide.length → Completes (.secured seq true body) s fun t =>
          t.host.ide.getD stream 0 = (if secure then 2 else 1) ∧ t.host.doeResp = some (.secured ss.mySeq none) ∧
          t.host.session = some { ss with lastSeq := some seq, mySeq := ss.mySeq + 1 })) ∧
    (∀ n, s.host.ide.getD n 0 = 2 → Completes (.ideIntegrityFailure n) s fun t =>
      t.host.ide.getD n 0 = 1 ∧ Logged s t 0x5004 n) ∧
    (∀ n, s.host.ide.getD n 0 ≠ 2 → exec (.ideIntegrityFailure n) s = .next s)

/-! ### Reliability -/

/-- A watchdog trip is counted, its event enters the log, and its unit is reset: a tile stands idle, a sequencer's
half misses a turn, the Planner's repeats begin anew, the Management Controller answers nothing until its reset ends.
A third trip of a tile within 64 turns retires it; a third trip of an engine escalates. A watchdog whose time has not
come, or whose unit's completions have all been counted, changes nothing. -/
def Obligations.WatchdogsResetTheirUnit : Prop :=
  ∀ s : State,
    (∀ tile work, s.turn.phase = .p3 → (s.turn.cur.any fun b => b.loans.any fun l => l.tile == tile && unretired s l.engine) = true →
      (tripsIn s levelTile tile 64 < 2 → Completes (.tileWatchdog tile work) s fun t =>
        Logged s t 0x2001 tile ∧ tile ∈ t.turn.tileIdle ∧ t.turn.tileRetired = s.turn.tileRetired ∧
        waitingCount t Obj.WDT_TRIPS = waitingCount s Obj.WDT_TRIPS + 1) ∧
      (2 ≤ tripsIn s levelTile tile 64 → s.turn.tileRetired.contains tile = false →
        Completes (.tileWatchdog tile work) s fun t =>
          tile ∈ t.turn.tileRetired ∧ getObj t Obj.TILES_GOOD = getObj s Obj.TILES_GOOD - 1)) ∧
    (∀ tile work, s.turn.phase ≠ .p3 ∨ (s.turn.cur.any fun b => b.loans.any fun l => l.tile == tile && unretired s l.engine) = false →
      exec (.tileWatchdog tile work) s = .next s) ∧
    (∀ quarter e work, stalls s e = false → exec (.stageEngineWatchdog quarter e work) s = .next s) ∧
    (∀ quarter e work, s.turn.phase = .p1 ∨ s.turn.phase = .p2 ∨ s.turn.phase = .p3 → stalls s e = true →
      (tripsIn s levelEngine (quarter + 8 * engineNum e) 64 < 2 → Completes (.stageEngineWatchdog quarter e work) s fun t =>
        Logged s t 0x2002 (quarter + 8 * engineNum e) ∧ t.turn.escalated = s.turn.escalated ∧
        waitingCount t Obj.WDT_TRIPS = waitingCount s Obj.WDT_TRIPS + 1) ∧
      (2 ≤ tripsIn s levelEngine (quarter + 8 * engineNum e) 64 → Completes (.stageEngineWatchdog quarter e work) s fun t =>
        t.turn.escalated = true)) ∧
    (∀ half late, 125 < late → tripsIn s levelSequencer half 64 < 2 → s.turn.phase = .p6 →
      Completes (.turnSequencerWatchdog half late) s fun t =>
        (half, s.turn.no) ∈ t.turn.seqMissed ∧ Logged s t 0x2003 half ∧
        waitingCount t Obj.WDT_TRIPS = waitingCount s Obj.WDT_TRIPS + 1) ∧
    (∀ half late, late ≤ 125 → exec (.turnSequencerWatchdog half late) s = .next s) ∧
    (getObj s Obj.PLANNER_REPEAT_LIMIT ≤ s.turn.repeats → tripsIn s levelPlanner 0 1024 = 0 →
      Completes .plannerWatchdog s fun t =>
        t.turn.repeats = 0 ∧ Logged s t 0x2004 (min 255 s.turn.repeats) ∧ t.turn.escalated = s.turn.escalated ∧
        waitingCount t Obj.WDT_TRIPS = waitingCount s Obj.WDT_TRIPS + 1) ∧
    (s.turn.repeats < getObj s Obj.PLANNER_REPEAT_LIMIT → exec .plannerWatchdog s = .next s) ∧
    (∀ ms, getObj s Obj.MC_WDT_MS ≤ ms → s.ras.mcDown = false → s.dict.served = true → Completes (.mcWatchdog ms) s fun t =>
      t.ras.mcDown = true ∧ t.dict.served = false ∧ t.host.session = none ∧ t.host.doeResp = none ∧
      (∀ r ∈ t.dict.reqs, r.isOpen = false ∧ r.staged = [] ∧ r.seg = none ∧ r.last = none) ∧
      waitingCount t Obj.WDT_TRIPS = waitingCount s Obj.WDT_TRIPS + 1) ∧
    (∀ ms, ms < getObj s Obj.MC_WDT_MS → exec (.mcWatchdog ms) s = .next s) ∧
    (s.ras.mcDown = true → Completes .mcResetComplete s fun t =>
      t.ras.mcDown = false ∧ t.dict.served = true ∧ t.dict.mb.busy = false ∧ Logged s t 0x2005 0) ∧
    (s.ras.mcDown = false → exec .mcResetComplete s = .next s) ∧
    (isHolder s = true → isLeader s = false → 2 ≤ s.ledger.noStore → Completes .ledgerHolderWatchdog s fun t =>
      t.ledger.noStore = 0 ∧ t.ledger.stored = [] ∧ Logged s t 0x2006 0 ∧
      waitingCount t Obj.WDT_TRIPS = waitingCount s Obj.WDT_TRIPS + 1) ∧
    (s.ledger.noStore < 2 → exec .ledgerHolderWatchdog s = .next s)

/-- Repair and margins: a salvaged list is whole again and reported; what the patrol finds in a work window is counted
and reported; a program failure retires its block, and a page relocated to a free page is shadowed for P5; a sweep
takes its steps while class 11 is open in a work window, a pseudo-channel ends with its last point, and the sweep ends
with SWEEP_STATE 2; droops are counted for their half; a new member reports that its load is complete. -/
def Obligations.RepairsAndSweeps : Prop :=
  ∀ s : State,
    (∀ key bad l, getList s key = some l → isSet s Obj.SALVAGE_EN = true → gateOpen s 10 = true → l.quarantined = true →
      salvages s key = true → Completes (.salvageComplete key bad) s fun t =>
        (∃ k n, getList t key = some k ∧ k.quarantined = false ∧ k.bad = [] ∧ k.newest.start = dueTurn s ∧
          (∀ i ∈ k.newest.bases.flatten, bad.contains i = false ∧ l.bad.contains i = false) ∧
          t.ledger.outReqs = s.ledger.outReqs ++ [LedgerRec.report .salvage key n]) ∧
        waitingCount t Obj.SALVAGES = waitingCount s Obj.SALVAGES + 1) ∧
    (∀ c, (getColl s c).centLoading = true → Completes (.centroidReloadComplete c) s fun t =>
      getColl t c = { getColl s c with centLoading := false }) ∧
    (∀ hit, patrolReads s hit = false → exec (.patrolRead hit) s = .next s) ∧
    (s.turn.phase = .p6 → Completes (.patrolRead .corrected) s fun t => t = bump s Obj.PATROL_CORRECTED 1) ∧
    (∀ a, s.turn.phase = .p6 → inRegion s a = true → hasWindow s (bankAt a) = false →
      Completes (.patrolRead (.hostRegion a)) s fun t => Logged s t 0x301D (a % 2 ^ 40) ∧
      waitingCount t Obj.PATROL_UNCORRECTABLE = waitingCount s Obj.PATROL_UNCORRECTABLE + 1) ∧
    (∀ n i v, s.turn.phase = .p6 → (getTable s n).active = some v → (v.row i).err = false → Completes (.patrolRead (.tableRow n i)) s fun t =>
      Logged s t 0x3011 (n + 64 * i) ∧ ∃ w, (getTable t n).active = some w ∧ (w.row i).err = true) ∧
    (∀ die block pages d, (s.flash.dies.find? (·.num == die)) = some d → d.retired.contains block = false →
      Completes (.programFailure die block pages) s fun t =>
        (∃ k, (t.flash.dies.find? (·.num == die)) = some k ∧ k.retired = d.retired ++ [block] ∧
          k.readOnly = (d.readOnly || sparesShort (d.retired.length + 1))) ∧
        (∀ p q, pages = [(p, q)] → (look s.flash.maps (die, p)).isSome = true → pageFree s die q = true → pageBlock q ≠ block →
          look t.flash.maps (die, p) = some q) ∧
        waitingCount t Obj.BLOCKS_RETIRED = waitingCount s Obj.BLOCKS_RETIRED + 1) ∧
    (∀ die lpn phys, pageFree s die phys = false → exec (.relocationCopyComplete die lpn phys) s = .next s) ∧
    (∀ die lpn phys, (look s.flash.maps (die, lpn)).isSome = true → pageFree s die phys = true →
      Completes (.relocationCopyComplete die lpn phys) s fun t =>
      t.turn.shadow = s.turn.shadow ++ [Shadow.pageMap die lpn phys (dueTurn s)] ∧ t.flash.maps = s.flash.maps ∧
      waitingCount t Obj.PAGES_RELOCATED = waitingCount s Obj.PAGES_RELOCATED + 1) ∧
    (s.ras.sweep = none → Completes .sweepStart s fun t =>
      t.ras.sweep = some (getObj s Obj.SWEEP_STACK, getObj s Obj.SWEEP_KIND, if getObj s Obj.SWEEP_STACK = 8 then 512 else 64) ∧
      getObj t Obj.SWEEP_STATE = 1 ∧ getObj t Obj.SWEEP_START = 1) ∧
    (s.ras.sweep ≠ none → Completes .sweepStart s fun t => t.ras = s.ras ∧ getObj t Obj.SWEEP_START = 0) ∧
    (∀ stack chan result st kind left, s.ras.sweep = some (st, kind, left) → st = 8 ∨ st = stack → stack < 8 → chan < 64 →
      let pc := 64 * stack + chan
      let n := lookD s.ras.sweepPts pc 0 + 1
      (slackOpen s 11 = true → hasWindow s { stack := stack, group := chan, bank := 0 } = false →
        lookD s.ras.sweepUsed stack 0 < getObj s Obj.SWEEP_STEPS_PER_TURN → (s.ras.sweepRes.any fun r => r.1 == pc) = false →
        (n < sweepPoints kind → Completes (.sweepStep stack chan result) s fun t =>
          t.ras.sweep = s.ras.sweep ∧ lookD t.ras.sweepPts pc 0 = n ∧
          lookD t.ras.sweepUsed stack 0 = lookD s.ras.sweepUsed stack 0 + 1) ∧
        (sweepPoints kind ≤ n → 1 < left → Completes (.sweepStep stack chan result) s fun t =>
          t.ras.sweep = some (st, kind, left - 1) ∧ (pc, result) ∈ t.ras.sweepRes) ∧
        (sweepPoints kind ≤ n → left ≤ 1 → Completes (.sweepStep stack chan result) s fun t =>
          t.ras.sweep = none ∧ getObj t Obj.SWEEP_STATE = 2 ∧ getObj t Obj.SWEEP_START = 0)) ∧
      (slackOpen s 11 = false → exec (.sweepStep stack chan result) s = .next s)) ∧
    (∀ h, Completes (.droopEvent h) s fun t => t = { s with ras := { s.ras with droop := s.ras.droop ++ [h] } }) ∧
    (getObj s Obj.MEMBER_LOAD = 1 → Completes .memberLoadComplete s fun t =>
      t.ledger.outReqs = s.ledger.outReqs ++ [LedgerRec.report .memberLoaded (selfNode s) 0])

/-! ### Clocks, power and start-up -/

/-- The second window in which the PCIe reference disagrees declares it failed: event 0x0001 with DETAIL, the link
down. A measurement starts, and its gate ends with the count. A hot half is stretched; a trip stops the clocks. POR
and a lost rail leave what is kept without power; PERST# resets the Host Interface alone. The start-up steps run in
order and end with READY. -/
def Obligations.NodeStartsAndStops : Prop :=
  ∀ s : State,
    (∀ pcie fab, nodeOn s = true → s.clk.failed = [] → (∀ p, lookD s.clk.pairBad p 0 = if p = 0 then 1 else 0) →
      agrees pcie 4096 1 = false → agrees fab 6400 1 = true → Completes (.clockMonitorWindow (.xtal pcie fab)) s fun t =>
        t.clk.failed = [2] ∧ t.host.linkUp = false ∧ Logged s t 0x0001 (4 + 256 * s.clk.fallback) ∧
        getObj t Obj.CLOCK_LOSSES = (getObj s Obj.CLOCK_LOSSES + 1) % 2 ^ 64) ∧
    (∀ pcie fab, nodeOn s = true → s.clk.failed = [] → (∀ p, lookD s.clk.pairBad p 0 < 2) →
      agrees pcie 4096 1 = true → agrees fab 6400 1 = true → Completes (.clockMonitorWindow (.xtal pcie fab)) s fun t =>
        t.clk.failed = [] ∧ t.nv = s.nv) ∧
    (nodeOn s = true → Completes .fmcStart s fun t =>
      t.clk.fmcRun = true ∧ getObj t Obj.FMC_STATE = 1 ∧ getObj t Obj.FMC_START = 1) ∧
    (∀ n, nodeOn s = true → s.clk.fmcRun = true →
      (s.clk.fmcBad = false → Completes (.fmcGateEnd n) s fun t =>
        t.clk.fmcRun = false ∧ getObj t Obj.FMC_STATE = 2 ∧ getObj t Obj.FMC_COUNT = n % 2 ^ 64 ∧ getObj t Obj.FMC_START = 0) ∧
      (s.clk.fmcBad = true → Completes (.fmcGateEnd n) s fun t =>
        t.clk.fmcRun = false ∧ getObj t Obj.FMC_STATE = 3 ∧ getObj t Obj.FMC_START = 0)) ∧
    (∀ rails tj0 tj1 scr, nodeOn s = true → getObj s Obj.TJ_THROTTLE_C < tj0 → Completes (.powerSample rails tj0 tj1 scr) s fun t =>
      nth t.clk.stretch 0 = min 4 (nth s.clk.stretch 0 + 1) ∧ t.clk.tj = [tj0, tj1] ∧ t.clk.episodes.contains 1 = true) ∧
    (nodeOn s = true → Completes .thermalTrip s fun t =>
      t.clk.tripped = true ∧ t.out = s.out ++ [Output.thermTrip] ∧ ∃ code detail, Logged s t code detail) ∧
    (∀ stack temp,
      (95 < temp → getObj s (Obj.STACK_BAND stack) ≤ 3 →
        Completes (.stackBandChange stack temp) s fun t => getObj t (Obj.STACK_BAND stack) = 3 ∧
        (getObj s (Obj.STACK_BAND stack) ≠ 3 → Logged s t 0x1003 stack)) ∧
      (temp ≤ 83 → getObj s (Obj.STACK_BAND stack) ≤ 3 → Completes (.stackBandChange stack temp) s fun t =>
        getObj t (Obj.STACK_BAND stack) = 0)) ∧
    (Completes (.por false) s fun t => t.clk.porLow = true ∧ t.smem.cells = [] ∧ t.scratch.cells = [] ∧ t.dict.objs = [] ∧
      t.lists = [] ∧ t.nv.tenant = s.nv.tenant ∧ t.nv.nonce = s.nv.nonce ∧ t.nv.errorLog = s.nv.errorLog) ∧
    (s.clk.porLow = true → s.clk.tripped = false → Completes (.por true) s fun t =>
      t.clk.porLow = false ∧ t.clk.bootStage = 2 ∧ t.clk.freqs = s.nv.freqs ∧
      t.clk.resetCause = (if s.clk.powered then 1 else 0)) ∧
    (Completes .powerLoss s fun t => t.clk.powered = false ∧ t.clk.porLow = true ∧ t.smem.cells = [] ∧ t.nv.tenant = s.nv.tenant) ∧
    (s.host.perstLow = false → Completes .perstAssert s fun t =>
      t.host = { HostIf.reset with perstLow := true } ∧ t.dict.mb = Mailbox.reset ∧ t.turn = s.turn ∧ t.smem = s.smem ∧
      t.nv = s.nv) ∧
    (Completes .perstRelease s fun t => t = { s with host := { s.host with perstLow := false } }) ∧
    (∀ a b ms, inStep s 2 = true → s.clk.bootFailed = false → s.nv.activateB = false →
      (∀ v, copySvn s.nv.fwA a = some v → s.nv.minSvn ≤ v → Completes (.bootComplete a b ms) s fun t =>
        t.clk.bootStage = 3 ∧ t.dict.served = true ∧ t.sec.fwRunning = s.nv.fwA ∧ t.sec.runsB = false ∧ t.sec.fwSvn = v) ∧
      (∀ v, copyPasses s (copySvn s.nv.fwA a) = false → copySvn s.nv.fwB b = some v → s.nv.minSvn ≤ v →
        Completes (.bootComplete a b ms) s fun t =>
          t.clk.bootStage = 3 ∧ t.dict.served = true ∧ t.sec.fwRunning = s.nv.fwB ∧ t.sec.runsB = true ∧ t.sec.fwSvn = v) ∧
      (copyPasses s (copySvn s.nv.fwA a) = false → copyPasses s (copySvn s.nv.fwB b) = false → Completes (.bootComplete a b ms) s fun t =>
        t.clk.bootStage = 2 ∧ t.clk.bootFailed = true ∧ t.dict.served = s.dict.served)) ∧
    (∀ failed ms, inStep s 3 = true → Completes (.memoryTrainingComplete failed ms) s fun t =>
      t.clk.bootStage = 4 ∧ ∀ n ∈ failed, n < 8 → 384 + n ∈ t.ras.selfFail) ∧
    (∀ fuses banks tiles ms, inStep s 4 = true → Completes (.repairFuseLoadComplete fuses banks tiles ms) s fun t =>
      t.clk.bootStage = 5 ∧ t.scratch.steered = steer ((fuses.take 4096).map repairWord ++ s.nv.softRepair) ∧
      ∀ n ∈ banks, n < 256 → (getScr t n).retired = true ∧ (getScr t n).owner = 255) ∧
    (∀ present trained differ margins targets luns raw ms, inStep s 5 = true →
      Completes (.flashTranslationMount present trained differ margins targets luns raw ms) s fun t =>
        t.clk.bootStage = 6 ∧
        getObj t Obj.DIES = min 2048 ((mountable (trained.filter present.contains) differ).length * targets * luns)) ∧
    (∀ ms, inStep s 6 = true → Completes (.indexVersionsSwitch ms) s fun t =>
      t.clk.bootStage = 7 ∧ t.clk.stepDone = true ∧ t.clk.readyDue = nextTurn s.turn.no ∧
      (s.nv.scrubPending = true → t.nv.retained = [] ∧ t.flash.maps = [])) ∧
    (∀ ms, inStep s 7 = true → s.clk.stepDone = true → s.turn.phase = .p5 → s.clk.readyDue ≤ s.turn.no →
      Completes (.ready ms) s fun t => t.dict.readyObj = true ∧ t.nv.minSvn = max s.nv.minSvn s.sec.fwSvn ∧
        (s.nv.scrubPending = true → t.nv.tenant = 0 ∧ t.nv.switches = (s.nv.switches + 1) % 2 ^ 64)) ∧
    (∀ ms, inStep s 7 = false → exec (.ready ms) s = .next s) ∧
    (isMember s = true → s.ras.load + 65535 ≤ s.turn.no → s.nv.retained ≠ [] → Completes .retainedMediaDiscard s fun t =>
      t.nv.retained = [])
end

