-- ==== Sys2Proof/Laws/Maps.lean ====
section
/-! SUPPORT. The laws of the sparse maps: what was written is read back, other keys keep their values, and the canonical form
of a sorted map is kept. -/

namespace Sys2Proof.Machine

open Sys2Proof

variable {κ α : Type} [DecidableEq κ]

@[simp] theorem look_put_self (l : List (κ × α)) (k : κ) (v : α) : look (put l k v) k = some v := by
  induction l with
  | nil => simp [put, look]
  | cons p l ih =>
    obtain ⟨a, b⟩ := p
    by_cases h : a = k <;> simp [put, look, h, ih]

theorem look_put_ne (l : List (κ × α)) {k q : κ} (v : α) (h : q ≠ k) : look (put l k v) q = look l q := by
  induction l with
  | nil => simp [put, look, Ne.symm h]
  | cons p l ih =>
    obtain ⟨a, b⟩ := p
    by_cases ha : a = k
    · subst ha
      simp [put, look, Ne.symm h]
    · by_cases hq : a = q
      · subst hq
        simp [put, look, ha]
      · simp [put, look, ha, hq, ih]

/-- A key at or below the bound of a canonical map is in no entry. -/
theorem look_none_of_canonFrom [DecidableEq α] {d : α} {lo : Nat} {l : List (Nat × α)} (h : canonFrom d (some lo) l = true)
    {q : Nat} (hq : q ≤ lo) : look l q = none := by
  induction l generalizing lo with
  | nil => rfl
  | cons p l ih =>
    obtain ⟨k, v⟩ := p
    simp only [canonFrom, Bool.and_eq_true, decide_eq_true_eq] at h
    have hk : k ≠ q := by omega
    simp only [look, hk, if_false]
    exact ih h.2 (by omega)

theorem canonFrom_weaken [DecidableEq α] {d : α} {lo : Option Nat} {l : List (Nat × α)} (h : canonFrom d lo l = true) :
    canonFrom d none l = true := by
  cases l with
  | nil => rfl
  | cons p l =>
    obtain ⟨k, v⟩ := p
    cases lo <;> simp_all [canonFrom]

theorem canonFrom_lower [DecidableEq α] {d : α} {a b : Nat} {l : List (Nat × α)} (h : canonFrom d (some b) l = true) (hab : a ≤ b) :
    canonFrom d (some a) l = true := by
  cases l with
  | nil => rfl
  | cons p l =>
    obtain ⟨k, v⟩ := p
    simp only [canonFrom, Bool.and_eq_true, decide_eq_true_eq] at h ⊢
    exact ⟨⟨by omega, h.1.2⟩, h.2⟩

/-- A write above the bound keeps the canonical form above the bound. -/
theorem sput_canonFrom_some [DecidableEq α] {d : α} {lo q : Nat} {l : List (Nat × α)} (h : canonFrom d (some lo) l = true)
    (hq : lo < q) (x : α) : canonFrom d (some lo) (sput d l q x) = true := by
  induction l generalizing lo with
  | nil => by_cases hx : x = d <;> simp [sput, canonFrom, hx, hq]
  | cons p l ih =>
    obtain ⟨k, v⟩ := p
    have h' := h
    simp only [canonFrom, Bool.and_eq_true, decide_eq_true_eq] at h'
    unfold sput
    split
    · simp only [canonFrom, Bool.and_eq_true, decide_eq_true_eq]
      exact ⟨h'.1, ih h'.2 (by omega)⟩
    · split
      · subst_vars
        split
        · exact canonFrom_lower h'.2 (by omega)
        · rename_i hx
          simp only [canonFrom, Bool.and_eq_true, decide_eq_true_eq]
          exact ⟨⟨hq, hx⟩, h'.2⟩
      · split
        · exact h
        · rename_i hx
          simp only [canonFrom, Bool.and_eq_true, decide_eq_true_eq]
          exact ⟨⟨hq, hx⟩, ⟨by omega, h'.1.2⟩, h'.2⟩

/-- A write keeps the canonical form. -/
theorem sput_canon [DecidableEq α] {d : α} {l : List (Nat × α)} (h : canonFrom d none l = true) (q : Nat) (x : α) :
    canonFrom d none (sput d l q x) = true := by
  cases l with
  | nil => by_cases hx : x = d <;> simp [sput, canonFrom, hx]
  | cons p l =>
    obtain ⟨k, v⟩ := p
    simp only [canonFrom, Bool.and_eq_true, decide_eq_true_eq] at h
    unfold sput
    split
    · simp only [canonFrom, Bool.and_eq_true, decide_eq_true_eq]
      exact ⟨h.1, sput_canonFrom_some h.2 (by omega) x⟩
    · split
      · subst_vars
        split
        · exact canonFrom_weaken h.2
        · rename_i hx
          simp only [canonFrom, Bool.and_eq_true, decide_eq_true_eq]
          exact ⟨⟨trivial, hx⟩, h.2⟩
      · split
        · simp only [canonFrom, Bool.and_eq_true, decide_eq_true_eq]
          exact h
        · rename_i hx
          simp only [canonFrom, Bool.and_eq_true, decide_eq_true_eq]
          exact ⟨⟨trivial, hx⟩, ⟨by omega, h.1.2⟩, h.2⟩

/-- Dropping entries keeps the canonical form. -/
theorem filter_canonFrom_some [DecidableEq α] {d : α} {lo : Nat} {l : List (Nat × α)} (h : canonFrom d (some lo) l = true)
    (f : Nat × α → Bool) : canonFrom d (some lo) (l.filter f) = true := by
  induction l generalizing lo with
  | nil => rfl
  | cons p l ih =>
    obtain ⟨k, v⟩ := p
    simp only [canonFrom, Bool.and_eq_true, decide_eq_true_eq] at h
    rw [List.filter_cons]
    split
    · simp only [canonFrom, Bool.and_eq_true, decide_eq_true_eq]
      exact ⟨h.1, ih h.2⟩
    · exact canonFrom_lower (ih h.2) (by omega)

theorem filter_canon [DecidableEq α] {d : α} {l : List (Nat × α)} (h : canonFrom d none l = true) (f : Nat × α → Bool) :
    canonFrom d none (l.filter f) = true := by
  cases l with
  | nil => rfl
  | cons p l =>
    obtain ⟨k, v⟩ := p
    simp only [canonFrom, Bool.and_eq_true, decide_eq_true_eq] at h
    rw [List.filter_cons]
    split
    · simp only [canonFrom, Bool.and_eq_true, decide_eq_true_eq]
      exact ⟨h.1, filter_canonFrom_some h.2 f⟩
    · exact canonFrom_weaken (filter_canonFrom_some h.2 f)

/-- What was written is read back, the default where the map lists nothing. -/
theorem look_sput_self_some [DecidableEq α] {d : α} {lo q : Nat} {l : List (Nat × α)} (h : canonFrom d (some lo) l = true) (x : α) :
    (look (sput d l q x) q).getD d = x := by
  induction l generalizing lo with
  | nil => by_cases hx : x = d <;> simp [sput, look, hx]
  | cons p l ih =>
    obtain ⟨k, v⟩ := p
    simp only [canonFrom, Bool.and_eq_true, decide_eq_true_eq] at h
    unfold sput
    split
    · have hk : k ≠ q := by omega
      simp only [look, hk, if_false]
      exact ih h.2
    · split
      · subst_vars
        split
        · rw [look_none_of_canonFrom h.2 (Nat.le_refl _)]
          simp_all
        · simp [look]
      · split
        · have hk : k ≠ q := by omega
          simp only [look, hk, if_false]
          rw [look_none_of_canonFrom h.2 (by omega)]
          simp_all
        · simp [look]

theorem look_sput_self [DecidableEq α] {d : α} {l : List (Nat × α)} (h : canonFrom d none l = true) (q : Nat) (x : α) :
    (look (sput d l q x) q).getD d = x := by
  cases l with
  | nil => by_cases hx : x = d <;> simp [sput, look, hx]
  | cons p l =>
    obtain ⟨k, v⟩ := p
    simp only [canonFrom, Bool.and_eq_true, decide_eq_true_eq] at h
    unfold sput
    split
    · have hk : k ≠ q := by omega
      simp only [look, hk, if_false]
      exact look_sput_self_some h.2 x
    · split
      · subst_vars
        split
        · rw [look_none_of_canonFrom h.2 (Nat.le_refl _)]
          simp_all
        · simp [look]
      · split
        · have hk : k ≠ q := by omega
          simp only [look, hk, if_false]
          rw [look_none_of_canonFrom h.2 (by omega)]
          simp_all
        · simp [look]

/-- Every other key keeps its value. -/
theorem look_sput_ne [DecidableEq α] (d : α) (l : List (Nat × α)) {k q : Nat} (x : α) (h : q ≠ k) :
    look (sput d l k x) q = look l q := by
  induction l with
  | nil => by_cases hx : x = d <;> simp [sput, look, hx, Ne.symm h]
  | cons p l ih =>
    obtain ⟨a, b⟩ := p
    unfold sput
    split
    · by_cases ha : a = q <;> simp [look, ha, ih]
    · split
      · subst_vars
        split <;> simp [look, Ne.symm h]
      · split <;> simp [look, Ne.symm h]

/-- A value that is not the default is read back from any list. -/
theorem look_sput_of_ne [DecidableEq α] {d : α} (l : List (Nat × α)) (q : Nat) {x : α} (hx : x ≠ d) :
    look (sput d l q x) q = some x := by
  induction l with
  | nil => simp [sput, look, hx]
  | cons p l ih =>
    obtain ⟨k, v⟩ := p
    unfold sput
    split
    · have hk : k ≠ q := by omega
      simp only [look, hk, if_false]
      exact ih
    · split <;> simp [look]

/-! ### Objects, queues, banks, ports, slots -/

theorem getObj_setObj_ne (s : State) {a b : Nat} (v : Nat) (h : b ≠ a) : getObj (setObj s a v) b = getObj s b := by
  simp [getObj, setObj, look_put_ne _ _ h]
@[simp] theorem getObj_setObj_self (s : State) (a v : Nat) : getObj (setObj s a v) a = v := by simp [getObj, setObj]

@[simp] theorem getObj_bump (s : State) (a n b : Nat) : getObj (bump s a n) b = getObj s b := rfl
@[simp] theorem getObj_emit (s : State) (o : Output) (b : Nat) : getObj (emit s o) b = getObj s b := rfl
@[simp] theorem getObj_send (s : State) (d : Nat) (x : Sect) (b : Nat) : getObj (send s d x) b = getObj s b := rfl
@[simp] theorem getObj_setPhase (s : State) (p : Phase) (b : Nat) : getObj (setPhase s p) b = getObj s b := rfl
@[simp] theorem getQ_setQ_self (s : State) (q : Nat) (v : Queue) : getQ (setQ s q v) q = v := by simp [getQ, setQ]
theorem getQ_setQ_ne (s : State) {p q : Nat} (v : Queue) (h : p ≠ q) : getQ (setQ s q v) p = getQ s p := by
  simp [getQ, setQ, look_put_ne _ _ h]
@[simp] theorem getScr_setScr_self (s : State) (b : Nat) (v : ScrBank) : getScr (setScr s b v) b = v := by simp [getScr, setScr]
theorem getScr_setScr_ne (s : State) {a b : Nat} (v : ScrBank) (h : a ≠ b) : getScr (setScr s b v) a = getScr s a := by
  simp [getScr, setScr, look_put_ne _ _ h]
@[simp] theorem getBslot_setBslot_self (s : State) (n : Nat) (v : BSlot) : getBslot (setBslot s n v) n = v := by
  simp [getBslot, setBslot]
@[simp] theorem getPort_setPort_self (s : State) (p : Nat) (v : Port) : getPort (setPort s p v) p = v := by
  simp [getPort, setPort]
@[simp] theorem getTable_setTable_self (s : State) (t : Nat) (v : Table) : getTable (setTable s t v) t = v := by
  simp [getTable, setTable]
@[simp] theorem getColl_setColl_self (s : State) (c : Nat) (v : Coll) : getColl (setColl s c v) c = v := by
  simp [getColl, setColl]
@[simp] theorem getImg_setImg_self (s : State) (n : Nat) (v : Image) : getImg (setImg s n v) n = some v := by
  simp [getImg, setImg]
@[simp] theorem getBank_setBank_self (s : State) (b : BankId) (v : Bank) : getBank (setBank s b v) b = v := by
  simp [getBank, setBank]

end Sys2Proof.Machine
end

