-- ==== Sys2Proof/Laws/Counters.lean ====
section
/-! SUPPORT. The counters that R57 governs: a count is added to what waits for P5, and nothing else is. -/

namespace Sys2Proof.Machine

open Sys2Proof

theorem waitingCount_bump_self (s : State) (a : Nat) {n : Nat} (h : n ≠ 0) :
    waitingCount (bump s a n) a = waitingCount s a + n := by
  unfold waitingCount bump
  dsimp only
  rw [look_sput_of_ne _ _ (by omega)]
  rfl

theorem waitingCount_bump_ne (s : State) {a b : Nat} (n : Nat) (h : b ≠ a) : waitingCount (bump s a n) b = waitingCount s b := by
  unfold waitingCount bump
  dsimp only
  rw [look_sput_ne _ _ _ h]

/-- Adding nothing adds nothing, in the canonical form. -/
theorem waitingCount_bump {s : State} (h : canonFrom 0 none s.dict.ctrPend = true) (a n : Nat) :
    waitingCount (bump s a n) a = waitingCount s a + n := look_sput_self h a _

@[simp] theorem waitingCount_setObj (s : State) (a v b : Nat) : waitingCount (setObj s a v) b = waitingCount s b := rfl
@[simp] theorem waitingCount_emit (s : State) (o : Output) (b : Nat) : waitingCount (emit s o) b = waitingCount s b := rfl
@[simp] theorem waitingCount_send (s : State) (d : Nat) (x : Sect) (b : Nat) : waitingCount (send s d x) b = waitingCount s b := rfl

end Sys2Proof.Machine
end

