-- ==== Sys2Proof/Laws/State.lean ====
section
/-! SUPPORT. What each named update of the state leaves as it was, field by field: every later proof cites these and unfolds no
record update. -/

namespace Sys2Proof.Machine

open Sys2Proof

/-! ### setObj -/

@[simp] theorem setObj_dict_doms (s : State) (a v : Nat) : (setObj s a v).dict.doms = s.dict.doms := rfl
@[simp] theorem setObj_dict_was (s : State) (a v : Nat) : (setObj s a v).dict.was = s.dict.was := rfl
@[simp] theorem setObj_dict_ctrPend (s : State) (a v : Nat) : (setObj s a v).dict.ctrPend = s.dict.ctrPend := rfl
@[simp] theorem setObj_dict_reqs (s : State) (a v : Nat) : (setObj s a v).dict.reqs = s.dict.reqs := rfl
@[simp] theorem setObj_dict_commits (s : State) (a v : Nat) : (setObj s a v).dict.commits = s.dict.commits := rfl
@[simp] theorem setObj_dict_mb (s : State) (a v : Nat) : (setObj s a v).dict.mb = s.dict.mb := rfl
@[simp] theorem setObj_dict_served (s : State) (a v : Nat) : (setObj s a v).dict.served = s.dict.served := rfl
@[simp] theorem setObj_dict_readyObj (s : State) (a v : Nat) : (setObj s a v).dict.readyObj = s.dict.readyObj := rfl
@[simp] theorem setObj_host (s : State) (a v : Nat) : (setObj s a v).host = s.host := rfl
@[simp] theorem setObj_turn (s : State) (a v : Nat) : (setObj s a v).turn = s.turn := rfl
@[simp] theorem setObj_adm (s : State) (a v : Nat) : (setObj s a v).adm = s.adm := rfl
@[simp] theorem setObj_comp (s : State) (a v : Nat) : (setObj s a v).comp = s.comp := rfl
@[simp] theorem setObj_images (s : State) (a v : Nat) : (setObj s a v).images = s.images := rfl
@[simp] theorem setObj_remotes (s : State) (a v : Nat) : (setObj s a v).remotes = s.remotes := rfl
@[simp] theorem setObj_acts (s : State) (a v : Nat) : (setObj s a v).acts = s.acts := rfl
@[simp] theorem setObj_streams (s : State) (a v : Nat) : (setObj s a v).streams = s.streams := rfl
@[simp] theorem setObj_remoteStats (s : State) (a v : Nat) : (setObj s a v).remoteStats = s.remoteStats := rfl
@[simp] theorem setObj_colls (s : State) (a v : Nat) : (setObj s a v).colls = s.colls := rfl
@[simp] theorem setObj_lists (s : State) (a v : Nat) : (setObj s a v).lists = s.lists := rfl
@[simp] theorem setObj_queries (s : State) (a v : Nat) : (setObj s a v).queries = s.queries := rfl
@[simp] theorem setObj_units (s : State) (a v : Nat) : (setObj s a v).units = s.units := rfl
@[simp] theorem setObj_nextUnit (s : State) (a v : Nat) : (setObj s a v).nextUnit = s.nextUnit := rfl
@[simp] theorem setObj_smem (s : State) (a v : Nat) : (setObj s a v).smem = s.smem := rfl
@[simp] theorem setObj_way (s : State) (a v : Nat) : (setObj s a v).way = s.way := rfl
@[simp] theorem setObj_ing (s : State) (a v : Nat) : (setObj s a v).ing = s.ing := rfl
@[simp] theorem setObj_place (s : State) (a v : Nat) : (setObj s a v).place = s.place := rfl
@[simp] theorem setObj_scratch (s : State) (a v : Nat) : (setObj s a v).scratch = s.scratch := rfl
@[simp] theorem setObj_flash (s : State) (a v : Nat) : (setObj s a v).flash = s.flash := rfl
@[simp] theorem setObj_fab (s : State) (a v : Nat) : (setObj s a v).fab = s.fab := rfl
@[simp] theorem setObj_ledger (s : State) (a v : Nat) : (setObj s a v).ledger = s.ledger := rfl
@[simp] theorem setObj_bslots (s : State) (a v : Nat) : (setObj s a v).bslots = s.bslots := rfl
@[simp] theorem setObj_nv (s : State) (a v : Nat) : (setObj s a v).nv = s.nv := rfl
@[simp] theorem setObj_sec (s : State) (a v : Nat) : (setObj s a v).sec = s.sec := rfl
@[simp] theorem setObj_ras (s : State) (a v : Nat) : (setObj s a v).ras = s.ras := rfl
@[simp] theorem setObj_clk (s : State) (a v : Nat) : (setObj s a v).clk = s.clk := rfl
@[simp] theorem setObj_out (s : State) (a v : Nat) : (setObj s a v).out = s.out := rfl
@[simp] theorem setObj_free (s : State) (a v : Nat) : (setObj s a v).free = s.free := rfl
@[simp] theorem setObj_pending (s : State) (a v : Nat) : (setObj s a v).pending = s.pending := rfl

/-! ### setDom -/

@[simp] theorem setDom_dict_objs (s : State) (a : Nat) (b : List Byte) : (setDom s a b).dict.objs = s.dict.objs := rfl
@[simp] theorem setDom_dict_was (s : State) (a : Nat) (b : List Byte) : (setDom s a b).dict.was = s.dict.was := rfl
@[simp] theorem setDom_dict_ctrPend (s : State) (a : Nat) (b : List Byte) : (setDom s a b).dict.ctrPend = s.dict.ctrPend := rfl
@[simp] theorem setDom_dict_reqs (s : State) (a : Nat) (b : List Byte) : (setDom s a b).dict.reqs = s.dict.reqs := rfl
@[simp] theorem setDom_dict_commits (s : State) (a : Nat) (b : List Byte) : (setDom s a b).dict.commits = s.dict.commits := rfl
@[simp] theorem setDom_dict_mb (s : State) (a : Nat) (b : List Byte) : (setDom s a b).dict.mb = s.dict.mb := rfl
@[simp] theorem setDom_dict_served (s : State) (a : Nat) (b : List Byte) : (setDom s a b).dict.served = s.dict.served := rfl
@[simp] theorem setDom_dict_readyObj (s : State) (a : Nat) (b : List Byte) : (setDom s a b).dict.readyObj = s.dict.readyObj := rfl
@[simp] theorem setDom_host (s : State) (a : Nat) (b : List Byte) : (setDom s a b).host = s.host := rfl
@[simp] theorem setDom_turn (s : State) (a : Nat) (b : List Byte) : (setDom s a b).turn = s.turn := rfl
@[simp] theorem setDom_adm (s : State) (a : Nat) (b : List Byte) : (setDom s a b).adm = s.adm := rfl
@[simp] theorem setDom_comp (s : State) (a : Nat) (b : List Byte) : (setDom s a b).comp = s.comp := rfl
@[simp] theorem setDom_images (s : State) (a : Nat) (b : List Byte) : (setDom s a b).images = s.images := rfl
@[simp] theorem setDom_remotes (s : State) (a : Nat) (b : List Byte) : (setDom s a b).remotes = s.remotes := rfl
@[simp] theorem setDom_acts (s : State) (a : Nat) (b : List Byte) : (setDom s a b).acts = s.acts := rfl
@[simp] theorem setDom_streams (s : State) (a : Nat) (b : List Byte) : (setDom s a b).streams = s.streams := rfl
@[simp] theorem setDom_remoteStats (s : State) (a : Nat) (b : List Byte) : (setDom s a b).remoteStats = s.remoteStats := rfl
@[simp] theorem setDom_colls (s : State) (a : Nat) (b : List Byte) : (setDom s a b).colls = s.colls := rfl
@[simp] theorem setDom_lists (s : State) (a : Nat) (b : List Byte) : (setDom s a b).lists = s.lists := rfl
@[simp] theorem setDom_queries (s : State) (a : Nat) (b : List Byte) : (setDom s a b).queries = s.queries := rfl
@[simp] theorem setDom_units (s : State) (a : Nat) (b : List Byte) : (setDom s a b).units = s.units := rfl
@[simp] theorem setDom_nextUnit (s : State) (a : Nat) (b : List Byte) : (setDom s a b).nextUnit = s.nextUnit := rfl
@[simp] theorem setDom_smem (s : State) (a : Nat) (b : List Byte) : (setDom s a b).smem = s.smem := rfl
@[simp] theorem setDom_way (s : State) (a : Nat) (b : List Byte) : (setDom s a b).way = s.way := rfl
@[simp] theorem setDom_ing (s : State) (a : Nat) (b : List Byte) : (setDom s a b).ing = s.ing := rfl
@[simp] theorem setDom_place (s : State) (a : Nat) (b : List Byte) : (setDom s a b).place = s.place := rfl
@[simp] theorem setDom_scratch (s : State) (a : Nat) (b : List Byte) : (setDom s a b).scratch = s.scratch := rfl
@[simp] theorem setDom_flash (s : State) (a : Nat) (b : List Byte) : (setDom s a b).flash = s.flash := rfl
@[simp] theorem setDom_fab (s : State) (a : Nat) (b : List Byte) : (setDom s a b).fab = s.fab := rfl
@[simp] theorem setDom_ledger (s : State) (a : Nat) (b : List Byte) : (setDom s a b).ledger = s.ledger := rfl
@[simp] theorem setDom_bslots (s : State) (a : Nat) (b : List Byte) : (setDom s a b).bslots = s.bslots := rfl
@[simp] theorem setDom_nv (s : State) (a : Nat) (b : List Byte) : (setDom s a b).nv = s.nv := rfl
@[simp] theorem setDom_sec (s : State) (a : Nat) (b : List Byte) : (setDom s a b).sec = s.sec := rfl
@[simp] theorem setDom_ras (s : State) (a : Nat) (b : List Byte) : (setDom s a b).ras = s.ras := rfl
@[simp] theorem setDom_clk (s : State) (a : Nat) (b : List Byte) : (setDom s a b).clk = s.clk := rfl
@[simp] theorem setDom_out (s : State) (a : Nat) (b : List Byte) : (setDom s a b).out = s.out := rfl
@[simp] theorem setDom_free (s : State) (a : Nat) (b : List Byte) : (setDom s a b).free = s.free := rfl
@[simp] theorem setDom_pending (s : State) (a : Nat) (b : List Byte) : (setDom s a b).pending = s.pending := rfl

/-! ### bump -/

@[simp] theorem bump_dict_objs (s : State) (a n : Nat) : (bump s a n).dict.objs = s.dict.objs := rfl
@[simp] theorem bump_dict_doms (s : State) (a n : Nat) : (bump s a n).dict.doms = s.dict.doms := rfl
@[simp] theorem bump_dict_was (s : State) (a n : Nat) : (bump s a n).dict.was = s.dict.was := rfl
@[simp] theorem bump_dict_reqs (s : State) (a n : Nat) : (bump s a n).dict.reqs = s.dict.reqs := rfl
@[simp] theorem bump_dict_commits (s : State) (a n : Nat) : (bump s a n).dict.commits = s.dict.commits := rfl
@[simp] theorem bump_dict_mb (s : State) (a n : Nat) : (bump s a n).dict.mb = s.dict.mb := rfl
@[simp] theorem bump_dict_served (s : State) (a n : Nat) : (bump s a n).dict.served = s.dict.served := rfl
@[simp] theorem bump_dict_readyObj (s : State) (a n : Nat) : (bump s a n).dict.readyObj = s.dict.readyObj := rfl
@[simp] theorem bump_host (s : State) (a n : Nat) : (bump s a n).host = s.host := rfl
@[simp] theorem bump_turn (s : State) (a n : Nat) : (bump s a n).turn = s.turn := rfl
@[simp] theorem bump_adm (s : State) (a n : Nat) : (bump s a n).adm = s.adm := rfl
@[simp] theorem bump_comp (s : State) (a n : Nat) : (bump s a n).comp = s.comp := rfl
@[simp] theorem bump_images (s : State) (a n : Nat) : (bump s a n).images = s.images := rfl
@[simp] theorem bump_remotes (s : State) (a n : Nat) : (bump s a n).remotes = s.remotes := rfl
@[simp] theorem bump_acts (s : State) (a n : Nat) : (bump s a n).acts = s.acts := rfl
@[simp] theorem bump_streams (s : State) (a n : Nat) : (bump s a n).streams = s.streams := rfl
@[simp] theorem bump_remoteStats (s : State) (a n : Nat) : (bump s a n).remoteStats = s.remoteStats := rfl
@[simp] theorem bump_colls (s : State) (a n : Nat) : (bump s a n).colls = s.colls := rfl
@[simp] theorem bump_lists (s : State) (a n : Nat) : (bump s a n).lists = s.lists := rfl
@[simp] theorem bump_queries (s : State) (a n : Nat) : (bump s a n).queries = s.queries := rfl
@[simp] theorem bump_units (s : State) (a n : Nat) : (bump s a n).units = s.units := rfl
@[simp] theorem bump_nextUnit (s : State) (a n : Nat) : (bump s a n).nextUnit = s.nextUnit := rfl
@[simp] theorem bump_smem (s : State) (a n : Nat) : (bump s a n).smem = s.smem := rfl
@[simp] theorem bump_way (s : State) (a n : Nat) : (bump s a n).way = s.way := rfl
@[simp] theorem bump_ing (s : State) (a n : Nat) : (bump s a n).ing = s.ing := rfl
@[simp] theorem bump_place (s : State) (a n : Nat) : (bump s a n).place = s.place := rfl
@[simp] theorem bump_scratch (s : State) (a n : Nat) : (bump s a n).scratch = s.scratch := rfl
@[simp] theorem bump_flash (s : State) (a n : Nat) : (bump s a n).flash = s.flash := rfl
@[simp] theorem bump_fab (s : State) (a n : Nat) : (bump s a n).fab = s.fab := rfl
@[simp] theorem bump_ledger (s : State) (a n : Nat) : (bump s a n).ledger = s.ledger := rfl
@[simp] theorem bump_bslots (s : State) (a n : Nat) : (bump s a n).bslots = s.bslots := rfl
@[simp] theorem bump_nv (s : State) (a n : Nat) : (bump s a n).nv = s.nv := rfl
@[simp] theorem bump_sec (s : State) (a n : Nat) : (bump s a n).sec = s.sec := rfl
@[simp] theorem bump_ras (s : State) (a n : Nat) : (bump s a n).ras = s.ras := rfl
@[simp] theorem bump_clk (s : State) (a n : Nat) : (bump s a n).clk = s.clk := rfl
@[simp] theorem bump_out (s : State) (a n : Nat) : (bump s a n).out = s.out := rfl
@[simp] theorem bump_free (s : State) (a n : Nat) : (bump s a n).free = s.free := rfl
@[simp] theorem bump_pending (s : State) (a n : Nat) : (bump s a n).pending = s.pending := rfl

/-! ### onReq -/

@[simp] theorem onReq_dict_objs (s : State) (r : Nat) (f : Requester → Requester) : (onReq s r f).dict.objs = s.dict.objs := rfl
@[simp] theorem onReq_dict_doms (s : State) (r : Nat) (f : Requester → Requester) : (onReq s r f).dict.doms = s.dict.doms := rfl
@[simp] theorem onReq_dict_was (s : State) (r : Nat) (f : Requester → Requester) : (onReq s r f).dict.was = s.dict.was := rfl
@[simp] theorem onReq_dict_ctrPend (s : State) (r : Nat) (f : Requester → Requester) : (onReq s r f).dict.ctrPend = s.dict.ctrPend := rfl
@[simp] theorem onReq_dict_commits (s : State) (r : Nat) (f : Requester → Requester) : (onReq s r f).dict.commits = s.dict.commits := rfl
@[simp] theorem onReq_dict_mb (s : State) (r : Nat) (f : Requester → Requester) : (onReq s r f).dict.mb = s.dict.mb := rfl
@[simp] theorem onReq_dict_served (s : State) (r : Nat) (f : Requester → Requester) : (onReq s r f).dict.served = s.dict.served := rfl
@[simp] theorem onReq_dict_readyObj (s : State) (r : Nat) (f : Requester → Requester) : (onReq s r f).dict.readyObj = s.dict.readyObj := rfl
@[simp] theorem onReq_host (s : State) (r : Nat) (f : Requester → Requester) : (onReq s r f).host = s.host := rfl
@[simp] theorem onReq_turn (s : State) (r : Nat) (f : Requester → Requester) : (onReq s r f).turn = s.turn := rfl
@[simp] theorem onReq_adm (s : State) (r : Nat) (f : Requester → Requester) : (onReq s r f).adm = s.adm := rfl
@[simp] theorem onReq_comp (s : State) (r : Nat) (f : Requester → Requester) : (onReq s r f).comp = s.comp := rfl
@[simp] theorem onReq_images (s : State) (r : Nat) (f : Requester → Requester) : (onReq s r f).images = s.images := rfl
@[simp] theorem onReq_remotes (s : State) (r : Nat) (f : Requester → Requester) : (onReq s r f).remotes = s.remotes := rfl
@[simp] theorem onReq_acts (s : State) (r : Nat) (f : Requester → Requester) : (onReq s r f).acts = s.acts := rfl
@[simp] theorem onReq_streams (s : State) (r : Nat) (f : Requester → Requester) : (onReq s r f).streams = s.streams := rfl
@[simp] theorem onReq_remoteStats (s : State) (r : Nat) (f : Requester → Requester) : (onReq s r f).remoteStats = s.remoteStats := rfl
@[simp] theorem onReq_colls (s : State) (r : Nat) (f : Requester → Requester) : (onReq s r f).colls = s.colls := rfl
@[simp] theorem onReq_lists (s : State) (r : Nat) (f : Requester → Requester) : (onReq s r f).lists = s.lists := rfl
@[simp] theorem onReq_queries (s : State) (r : Nat) (f : Requester → Requester) : (onReq s r f).queries = s.queries := rfl
@[simp] theorem onReq_units (s : State) (r : Nat) (f : Requester → Requester) : (onReq s r f).units = s.units := rfl
@[simp] theorem onReq_nextUnit (s : State) (r : Nat) (f : Requester → Requester) : (onReq s r f).nextUnit = s.nextUnit := rfl
@[simp] theorem onReq_smem (s : State) (r : Nat) (f : Requester → Requester) : (onReq s r f).smem = s.smem := rfl
@[simp] theorem onReq_way (s : State) (r : Nat) (f : Requester → Requester) : (onReq s r f).way = s.way := rfl
@[simp] theorem onReq_ing (s : State) (r : Nat) (f : Requester → Requester) : (onReq s r f).ing = s.ing := rfl
@[simp] theorem onReq_place (s : State) (r : Nat) (f : Requester → Requester) : (onReq s r f).place = s.place := rfl
@[simp] theorem onReq_scratch (s : State) (r : Nat) (f : Requester → Requester) : (onReq s r f).scratch = s.scratch := rfl
@[simp] theorem onReq_flash (s : State) (r : Nat) (f : Requester → Requester) : (onReq s r f).flash = s.flash := rfl
@[simp] theorem onReq_fab (s : State) (r : Nat) (f : Requester → Requester) : (onReq s r f).fab = s.fab := rfl
@[simp] theorem onReq_ledger (s : State) (r : Nat) (f : Requester → Requester) : (onReq s r f).ledger = s.ledger := rfl
@[simp] theorem onReq_bslots (s : State) (r : Nat) (f : Requester → Requester) : (onReq s r f).bslots = s.bslots := rfl
@[simp] theorem onReq_nv (s : State) (r : Nat) (f : Requester → Requester) : (onReq s r f).nv = s.nv := rfl
@[simp] theorem onReq_sec (s : State) (r : Nat) (f : Requester → Requester) : (onReq s r f).sec = s.sec := rfl
@[simp] theorem onReq_ras (s : State) (r : Nat) (f : Requester → Requester) : (onReq s r f).ras = s.ras := rfl
@[simp] theorem onReq_clk (s : State) (r : Nat) (f : Requester → Requester) : (onReq s r f).clk = s.clk := rfl
@[simp] theorem onReq_out (s : State) (r : Nat) (f : Requester → Requester) : (onReq s r f).out = s.out := rfl
@[simp] theorem onReq_free (s : State) (r : Nat) (f : Requester → Requester) : (onReq s r f).free = s.free := rfl
@[simp] theorem onReq_pending (s : State) (r : Nat) (f : Requester → Requester) : (onReq s r f).pending = s.pending := rfl

/-! ### onMb -/

@[simp] theorem onMb_dict_objs (s : State) (f : Mailbox → Mailbox) : (onMb s f).dict.objs = s.dict.objs := rfl
@[simp] theorem onMb_dict_doms (s : State) (f : Mailbox → Mailbox) : (onMb s f).dict.doms = s.dict.doms := rfl
@[simp] theorem onMb_dict_was (s : State) (f : Mailbox → Mailbox) : (onMb s f).dict.was = s.dict.was := rfl
@[simp] theorem onMb_dict_ctrPend (s : State) (f : Mailbox → Mailbox) : (onMb s f).dict.ctrPend = s.dict.ctrPend := rfl
@[simp] theorem onMb_dict_reqs (s : State) (f : Mailbox → Mailbox) : (onMb s f).dict.reqs = s.dict.reqs := rfl
@[simp] theorem onMb_dict_commits (s : State) (f : Mailbox → Mailbox) : (onMb s f).dict.commits = s.dict.commits := rfl
@[simp] theorem onMb_dict_served (s : State) (f : Mailbox → Mailbox) : (onMb s f).dict.served = s.dict.served := rfl
@[simp] theorem onMb_dict_readyObj (s : State) (f : Mailbox → Mailbox) : (onMb s f).dict.readyObj = s.dict.readyObj := rfl
@[simp] theorem onMb_host (s : State) (f : Mailbox → Mailbox) : (onMb s f).host = s.host := rfl
@[simp] theorem onMb_turn (s : State) (f : Mailbox → Mailbox) : (onMb s f).turn = s.turn := rfl
@[simp] theorem onMb_adm (s : State) (f : Mailbox → Mailbox) : (onMb s f).adm = s.adm := rfl
@[simp] theorem onMb_comp (s : State) (f : Mailbox → Mailbox) : (onMb s f).comp = s.comp := rfl
@[simp] theorem onMb_images (s : State) (f : Mailbox → Mailbox) : (onMb s f).images = s.images := rfl
@[simp] theorem onMb_remotes (s : State) (f : Mailbox → Mailbox) : (onMb s f).remotes = s.remotes := rfl
@[simp] theorem onMb_acts (s : State) (f : Mailbox → Mailbox) : (onMb s f).acts = s.acts := rfl
@[simp] theorem onMb_streams (s : State) (f : Mailbox → Mailbox) : (onMb s f).streams = s.streams := rfl
@[simp] theorem onMb_remoteStats (s : State) (f : Mailbox → Mailbox) : (onMb s f).remoteStats = s.remoteStats := rfl
@[simp] theorem onMb_colls (s : State) (f : Mailbox → Mailbox) : (onMb s f).colls = s.colls := rfl
@[simp] theorem onMb_lists (s : State) (f : Mailbox → Mailbox) : (onMb s f).lists = s.lists := rfl
@[simp] theorem onMb_queries (s : State) (f : Mailbox → Mailbox) : (onMb s f).queries = s.queries := rfl
@[simp] theorem onMb_units (s : State) (f : Mailbox → Mailbox) : (onMb s f).units = s.units := rfl
@[simp] theorem onMb_nextUnit (s : State) (f : Mailbox → Mailbox) : (onMb s f).nextUnit = s.nextUnit := rfl
@[simp] theorem onMb_smem (s : State) (f : Mailbox → Mailbox) : (onMb s f).smem = s.smem := rfl
@[simp] theorem onMb_way (s : State) (f : Mailbox → Mailbox) : (onMb s f).way = s.way := rfl
@[simp] theorem onMb_ing (s : State) (f : Mailbox → Mailbox) : (onMb s f).ing = s.ing := rfl
@[simp] theorem onMb_place (s : State) (f : Mailbox → Mailbox) : (onMb s f).place = s.place := rfl
@[simp] theorem onMb_scratch (s : State) (f : Mailbox → Mailbox) : (onMb s f).scratch = s.scratch := rfl
@[simp] theorem onMb_flash (s : State) (f : Mailbox → Mailbox) : (onMb s f).flash = s.flash := rfl
@[simp] theorem onMb_fab (s : State) (f : Mailbox → Mailbox) : (onMb s f).fab = s.fab := rfl
@[simp] theorem onMb_ledger (s : State) (f : Mailbox → Mailbox) : (onMb s f).ledger = s.ledger := rfl
@[simp] theorem onMb_bslots (s : State) (f : Mailbox → Mailbox) : (onMb s f).bslots = s.bslots := rfl
@[simp] theorem onMb_nv (s : State) (f : Mailbox → Mailbox) : (onMb s f).nv = s.nv := rfl
@[simp] theorem onMb_sec (s : State) (f : Mailbox → Mailbox) : (onMb s f).sec = s.sec := rfl
@[simp] theorem onMb_ras (s : State) (f : Mailbox → Mailbox) : (onMb s f).ras = s.ras := rfl
@[simp] theorem onMb_clk (s : State) (f : Mailbox → Mailbox) : (onMb s f).clk = s.clk := rfl
@[simp] theorem onMb_out (s : State) (f : Mailbox → Mailbox) : (onMb s f).out = s.out := rfl
@[simp] theorem onMb_free (s : State) (f : Mailbox → Mailbox) : (onMb s f).free = s.free := rfl
@[simp] theorem onMb_pending (s : State) (f : Mailbox → Mailbox) : (onMb s f).pending = s.pending := rfl

/-! ### onHost -/

@[simp] theorem onHost_dict (s : State) (f : HostIf → HostIf) : (onHost s f).dict = s.dict := rfl
@[simp] theorem onHost_turn (s : State) (f : HostIf → HostIf) : (onHost s f).turn = s.turn := rfl
@[simp] theorem onHost_adm (s : State) (f : HostIf → HostIf) : (onHost s f).adm = s.adm := rfl
@[simp] theorem onHost_comp (s : State) (f : HostIf → HostIf) : (onHost s f).comp = s.comp := rfl
@[simp] theorem onHost_images (s : State) (f : HostIf → HostIf) : (onHost s f).images = s.images := rfl
@[simp] theorem onHost_remotes (s : State) (f : HostIf → HostIf) : (onHost s f).remotes = s.remotes := rfl
@[simp] theorem onHost_acts (s : State) (f : HostIf → HostIf) : (onHost s f).acts = s.acts := rfl
@[simp] theorem onHost_streams (s : State) (f : HostIf → HostIf) : (onHost s f).streams = s.streams := rfl
@[simp] theorem onHost_remoteStats (s : State) (f : HostIf → HostIf) : (onHost s f).remoteStats = s.remoteStats := rfl
@[simp] theorem onHost_colls (s : State) (f : HostIf → HostIf) : (onHost s f).colls = s.colls := rfl
@[simp] theorem onHost_lists (s : State) (f : HostIf → HostIf) : (onHost s f).lists = s.lists := rfl
@[simp] theorem onHost_queries (s : State) (f : HostIf → HostIf) : (onHost s f).queries = s.queries := rfl
@[simp] theorem onHost_units (s : State) (f : HostIf → HostIf) : (onHost s f).units = s.units := rfl
@[simp] theorem onHost_nextUnit (s : State) (f : HostIf → HostIf) : (onHost s f).nextUnit = s.nextUnit := rfl
@[simp] theorem onHost_smem (s : State) (f : HostIf → HostIf) : (onHost s f).smem = s.smem := rfl
@[simp] theorem onHost_way (s : State) (f : HostIf → HostIf) : (onHost s f).way = s.way := rfl
@[simp] theorem onHost_ing (s : State) (f : HostIf → HostIf) : (onHost s f).ing = s.ing := rfl
@[simp] theorem onHost_place (s : State) (f : HostIf → HostIf) : (onHost s f).place = s.place := rfl
@[simp] theorem onHost_scratch (s : State) (f : HostIf → HostIf) : (onHost s f).scratch = s.scratch := rfl
@[simp] theorem onHost_flash (s : State) (f : HostIf → HostIf) : (onHost s f).flash = s.flash := rfl
@[simp] theorem onHost_fab (s : State) (f : HostIf → HostIf) : (onHost s f).fab = s.fab := rfl
@[simp] theorem onHost_ledger (s : State) (f : HostIf → HostIf) : (onHost s f).ledger = s.ledger := rfl
@[simp] theorem onHost_bslots (s : State) (f : HostIf → HostIf) : (onHost s f).bslots = s.bslots := rfl
@[simp] theorem onHost_nv (s : State) (f : HostIf → HostIf) : (onHost s f).nv = s.nv := rfl
@[simp] theorem onHost_sec (s : State) (f : HostIf → HostIf) : (onHost s f).sec = s.sec := rfl
@[simp] theorem onHost_ras (s : State) (f : HostIf → HostIf) : (onHost s f).ras = s.ras := rfl
@[simp] theorem onHost_clk (s : State) (f : HostIf → HostIf) : (onHost s f).clk = s.clk := rfl
@[simp] theorem onHost_out (s : State) (f : HostIf → HostIf) : (onHost s f).out = s.out := rfl
@[simp] theorem onHost_free (s : State) (f : HostIf → HostIf) : (onHost s f).free = s.free := rfl
@[simp] theorem onHost_pending (s : State) (f : HostIf → HostIf) : (onHost s f).pending = s.pending := rfl

/-! ### setQ -/

@[simp] theorem setQ_dict (s : State) (q : Nat) (v : Queue) : (setQ s q v).dict = s.dict := rfl
@[simp] theorem setQ_host_linkUp (s : State) (q : Nat) (v : Queue) : (setQ s q v).host.linkUp = s.host.linkUp := rfl
@[simp] theorem setQ_host_rate (s : State) (q : Nat) (v : Queue) : (setQ s q v).host.rate = s.host.rate := rfl
@[simp] theorem setQ_host_width (s : State) (q : Nat) (v : Queue) : (setQ s q v).host.width = s.host.width := rfl
@[simp] theorem setQ_host_degraded (s : State) (q : Nat) (v : Queue) : (setQ s q v).host.degraded = s.host.degraded := rfl
@[simp] theorem setQ_host_perstLow (s : State) (q : Nat) (v : Queue) : (setQ s q v).host.perstLow = s.host.perstLow := rfl
@[simp] theorem setQ_host_bar2Base (s : State) (q : Nat) (v : Queue) : (setQ s q v).host.bar2Base = s.host.bar2Base := rfl
@[simp] theorem setQ_host_bar2Size (s : State) (q : Nat) (v : Queue) : (setQ s q v).host.bar2Size = s.host.bar2Size := rfl
@[simp] theorem setQ_host_mps (s : State) (q : Nat) (v : Queue) : (setQ s q v).host.mps = s.host.mps := rfl
@[simp] theorem setQ_host_mrrs (s : State) (q : Nat) (v : Queue) : (setQ s q v).host.mrrs = s.host.mrrs := rfl
@[simp] theorem setQ_host_aer (s : State) (q : Nat) (v : Queue) : (setQ s q v).host.aer = s.host.aer := rfl
@[simp] theorem setQ_host_doorbellDrops (s : State) (q : Nat) (v : Queue) : (setQ s q v).host.doorbellDrops = s.host.doorbellDrops := rfl
@[simp] theorem setQ_host_bar2Drops (s : State) (q : Nat) (v : Queue) : (setQ s q v).host.bar2Drops = s.host.bar2Drops := rfl
@[simp] theorem setQ_host_fetchErrors (s : State) (q : Nat) (v : Queue) : (setQ s q v).host.fetchErrors = s.host.fetchErrors := rfl
@[simp] theorem setQ_host_msixBytes (s : State) (q : Nat) (v : Queue) : (setQ s q v).host.msixBytes = s.host.msixBytes := rfl
@[simp] theorem setQ_host_pba (s : State) (q : Nat) (v : Queue) : (setQ s q v).host.pba = s.host.pba := rfl
@[simp] theorem setQ_host_fetched (s : State) (q : Nat) (v : Queue) : (setQ s q v).host.fetched = s.host.fetched := rfl
@[simp] theorem setQ_host_results (s : State) (q : Nat) (v : Queue) : (setQ s q v).host.results = s.host.results := rfl
@[simp] theorem setQ_host_events (s : State) (q : Nat) (v : Queue) : (setQ s q v).host.events = s.host.events := rfl
@[simp] theorem setQ_host_kept (s : State) (q : Nat) (v : Queue) : (setQ s q v).host.kept = s.host.kept := rfl
@[simp] theorem setQ_host_tries (s : State) (q : Nat) (v : Queue) : (setQ s q v).host.tries = s.host.tries := rfl
@[simp] theorem setQ_host_ide (s : State) (q : Nat) (v : Queue) : (setQ s q v).host.ide = s.host.ide := rfl
@[simp] theorem setQ_host_ideSet (s : State) (q : Nat) (v : Queue) : (setQ s q v).host.ideSet = s.host.ideSet := rfl
@[simp] theorem setQ_host_ideAssoc (s : State) (q : Nat) (v : Queue) : (setQ s q v).host.ideAssoc = s.host.ideAssoc := rfl
@[simp] theorem setQ_host_session (s : State) (q : Nat) (v : Queue) : (setQ s q v).host.session = s.host.session := rfl
@[simp] theorem setQ_host_doeResp (s : State) (q : Nat) (v : Queue) : (setQ s q v).host.doeResp = s.host.doeResp := rfl
@[simp] theorem setQ_turn (s : State) (q : Nat) (v : Queue) : (setQ s q v).turn = s.turn := rfl
@[simp] theorem setQ_adm (s : State) (q : Nat) (v : Queue) : (setQ s q v).adm = s.adm := rfl
@[simp] theorem setQ_comp (s : State) (q : Nat) (v : Queue) : (setQ s q v).comp = s.comp := rfl
@[simp] theorem setQ_images (s : State) (q : Nat) (v : Queue) : (setQ s q v).images = s.images := rfl
@[simp] theorem setQ_remotes (s : State) (q : Nat) (v : Queue) : (setQ s q v).remotes = s.remotes := rfl
@[simp] theorem setQ_acts (s : State) (q : Nat) (v : Queue) : (setQ s q v).acts = s.acts := rfl
@[simp] theorem setQ_streams (s : State) (q : Nat) (v : Queue) : (setQ s q v).streams = s.streams := rfl
@[simp] theorem setQ_remoteStats (s : State) (q : Nat) (v : Queue) : (setQ s q v).remoteStats = s.remoteStats := rfl
@[simp] theorem setQ_colls (s : State) (q : Nat) (v : Queue) : (setQ s q v).colls = s.colls := rfl
@[simp] theorem setQ_lists (s : State) (q : Nat) (v : Queue) : (setQ s q v).lists = s.lists := rfl
@[simp] theorem setQ_queries (s : State) (q : Nat) (v : Queue) : (setQ s q v).queries = s.queries := rfl
@[simp] theorem setQ_units (s : State) (q : Nat) (v : Queue) : (setQ s q v).units = s.units := rfl
@[simp] theorem setQ_nextUnit (s : State) (q : Nat) (v : Queue) : (setQ s q v).nextUnit = s.nextUnit := rfl
@[simp] theorem setQ_smem (s : State) (q : Nat) (v : Queue) : (setQ s q v).smem = s.smem := rfl
@[simp] theorem setQ_way (s : State) (q : Nat) (v : Queue) : (setQ s q v).way = s.way := rfl
@[simp] theorem setQ_ing (s : State) (q : Nat) (v : Queue) : (setQ s q v).ing = s.ing := rfl
@[simp] theorem setQ_place (s : State) (q : Nat) (v : Queue) : (setQ s q v).place = s.place := rfl
@[simp] theorem setQ_scratch (s : State) (q : Nat) (v : Queue) : (setQ s q v).scratch = s.scratch := rfl
@[simp] theorem setQ_flash (s : State) (q : Nat) (v : Queue) : (setQ s q v).flash = s.flash := rfl
@[simp] theorem setQ_fab (s : State) (q : Nat) (v : Queue) : (setQ s q v).fab = s.fab := rfl
@[simp] theorem setQ_ledger (s : State) (q : Nat) (v : Queue) : (setQ s q v).ledger = s.ledger := rfl
@[simp] theorem setQ_bslots (s : State) (q : Nat) (v : Queue) : (setQ s q v).bslots = s.bslots := rfl
@[simp] theorem setQ_nv (s : State) (q : Nat) (v : Queue) : (setQ s q v).nv = s.nv := rfl
@[simp] theorem setQ_sec (s : State) (q : Nat) (v : Queue) : (setQ s q v).sec = s.sec := rfl
@[simp] theorem setQ_ras (s : State) (q : Nat) (v : Queue) : (setQ s q v).ras = s.ras := rfl
@[simp] theorem setQ_clk (s : State) (q : Nat) (v : Queue) : (setQ s q v).clk = s.clk := rfl
@[simp] theorem setQ_out (s : State) (q : Nat) (v : Queue) : (setQ s q v).out = s.out := rfl
@[simp] theorem setQ_free (s : State) (q : Nat) (v : Queue) : (setQ s q v).free = s.free := rfl
@[simp] theorem setQ_pending (s : State) (q : Nat) (v : Queue) : (setQ s q v).pending = s.pending := rfl

/-! ### emit -/

@[simp] theorem emit_dict (s : State) (o : Output) : (emit s o).dict = s.dict := rfl
@[simp] theorem emit_host (s : State) (o : Output) : (emit s o).host = s.host := rfl
@[simp] theorem emit_turn (s : State) (o : Output) : (emit s o).turn = s.turn := rfl
@[simp] theorem emit_adm (s : State) (o : Output) : (emit s o).adm = s.adm := rfl
@[simp] theorem emit_comp (s : State) (o : Output) : (emit s o).comp = s.comp := rfl
@[simp] theorem emit_images (s : State) (o : Output) : (emit s o).images = s.images := rfl
@[simp] theorem emit_remotes (s : State) (o : Output) : (emit s o).remotes = s.remotes := rfl
@[simp] theorem emit_acts (s : State) (o : Output) : (emit s o).acts = s.acts := rfl
@[simp] theorem emit_streams (s : State) (o : Output) : (emit s o).streams = s.streams := rfl
@[simp] theorem emit_remoteStats (s : State) (o : Output) : (emit s o).remoteStats = s.remoteStats := rfl
@[simp] theorem emit_colls (s : State) (o : Output) : (emit s o).colls = s.colls := rfl
@[simp] theorem emit_lists (s : State) (o : Output) : (emit s o).lists = s.lists := rfl
@[simp] theorem emit_queries (s : State) (o : Output) : (emit s o).queries = s.queries := rfl
@[simp] theorem emit_units (s : State) (o : Output) : (emit s o).units = s.units := rfl
@[simp] theorem emit_nextUnit (s : State) (o : Output) : (emit s o).nextUnit = s.nextUnit := rfl
@[simp] theorem emit_smem (s : State) (o : Output) : (emit s o).smem = s.smem := rfl
@[simp] theorem emit_way (s : State) (o : Output) : (emit s o).way = s.way := rfl
@[simp] theorem emit_ing (s : State) (o : Output) : (emit s o).ing = s.ing := rfl
@[simp] theorem emit_place (s : State) (o : Output) : (emit s o).place = s.place := rfl
@[simp] theorem emit_scratch (s : State) (o : Output) : (emit s o).scratch = s.scratch := rfl
@[simp] theorem emit_flash (s : State) (o : Output) : (emit s o).flash = s.flash := rfl
@[simp] theorem emit_fab (s : State) (o : Output) : (emit s o).fab = s.fab := rfl
@[simp] theorem emit_ledger (s : State) (o : Output) : (emit s o).ledger = s.ledger := rfl
@[simp] theorem emit_bslots (s : State) (o : Output) : (emit s o).bslots = s.bslots := rfl
@[simp] theorem emit_nv (s : State) (o : Output) : (emit s o).nv = s.nv := rfl
@[simp] theorem emit_sec (s : State) (o : Output) : (emit s o).sec = s.sec := rfl
@[simp] theorem emit_ras (s : State) (o : Output) : (emit s o).ras = s.ras := rfl
@[simp] theorem emit_clk (s : State) (o : Output) : (emit s o).clk = s.clk := rfl
@[simp] theorem emit_free (s : State) (o : Output) : (emit s o).free = s.free := rfl
@[simp] theorem emit_pending (s : State) (o : Output) : (emit s o).pending = s.pending := rfl

/-! ### send -/

@[simp] theorem send_dict (s : State) (d : Nat) (x : Sect) : (send s d x).dict = s.dict := rfl
@[simp] theorem send_host (s : State) (d : Nat) (x : Sect) : (send s d x).host = s.host := rfl
@[simp] theorem send_turn (s : State) (d : Nat) (x : Sect) : (send s d x).turn = s.turn := rfl
@[simp] theorem send_adm (s : State) (d : Nat) (x : Sect) : (send s d x).adm = s.adm := rfl
@[simp] theorem send_comp (s : State) (d : Nat) (x : Sect) : (send s d x).comp = s.comp := rfl
@[simp] theorem send_images (s : State) (d : Nat) (x : Sect) : (send s d x).images = s.images := rfl
@[simp] theorem send_remotes (s : State) (d : Nat) (x : Sect) : (send s d x).remotes = s.remotes := rfl
@[simp] theorem send_acts (s : State) (d : Nat) (x : Sect) : (send s d x).acts = s.acts := rfl
@[simp] theorem send_streams (s : State) (d : Nat) (x : Sect) : (send s d x).streams = s.streams := rfl
@[simp] theorem send_remoteStats (s : State) (d : Nat) (x : Sect) : (send s d x).remoteStats = s.remoteStats := rfl
@[simp] theorem send_colls (s : State) (d : Nat) (x : Sect) : (send s d x).colls = s.colls := rfl
@[simp] theorem send_lists (s : State) (d : Nat) (x : Sect) : (send s d x).lists = s.lists := rfl
@[simp] theorem send_queries (s : State) (d : Nat) (x : Sect) : (send s d x).queries = s.queries := rfl
@[simp] theorem send_units (s : State) (d : Nat) (x : Sect) : (send s d x).units = s.units := rfl
@[simp] theorem send_nextUnit (s : State) (d : Nat) (x : Sect) : (send s d x).nextUnit = s.nextUnit := rfl
@[simp] theorem send_smem (s : State) (d : Nat) (x : Sect) : (send s d x).smem = s.smem := rfl
@[simp] theorem send_way (s : State) (d : Nat) (x : Sect) : (send s d x).way = s.way := rfl
@[simp] theorem send_ing (s : State) (d : Nat) (x : Sect) : (send s d x).ing = s.ing := rfl
@[simp] theorem send_place (s : State) (d : Nat) (x : Sect) : (send s d x).place = s.place := rfl
@[simp] theorem send_scratch (s : State) (d : Nat) (x : Sect) : (send s d x).scratch = s.scratch := rfl
@[simp] theorem send_flash (s : State) (d : Nat) (x : Sect) : (send s d x).flash = s.flash := rfl
@[simp] theorem send_ledger (s : State) (d : Nat) (x : Sect) : (send s d x).ledger = s.ledger := rfl
@[simp] theorem send_bslots (s : State) (d : Nat) (x : Sect) : (send s d x).bslots = s.bslots := rfl
@[simp] theorem send_nv (s : State) (d : Nat) (x : Sect) : (send s d x).nv = s.nv := rfl
@[simp] theorem send_sec (s : State) (d : Nat) (x : Sect) : (send s d x).sec = s.sec := rfl
@[simp] theorem send_ras (s : State) (d : Nat) (x : Sect) : (send s d x).ras = s.ras := rfl
@[simp] theorem send_clk (s : State) (d : Nat) (x : Sect) : (send s d x).clk = s.clk := rfl
@[simp] theorem send_out (s : State) (d : Nat) (x : Sect) : (send s d x).out = s.out := rfl
@[simp] theorem send_free (s : State) (d : Nat) (x : Sect) : (send s d x).free = s.free := rfl
@[simp] theorem send_pending (s : State) (d : Nat) (x : Sect) : (send s d x).pending = s.pending := rfl

/-! ### shadowPush -/

@[simp] theorem shadowPush_dict (s : State) (c : Shadow) : (shadowPush s c).dict = s.dict := rfl
@[simp] theorem shadowPush_host (s : State) (c : Shadow) : (shadowPush s c).host = s.host := rfl
@[simp] theorem shadowPush_turn_buffers (s : State) (c : Shadow) : (shadowPush s c).turn.buffers = s.turn.buffers := rfl
@[simp] theorem shadowPush_turn_no (s : State) (c : Shadow) : (shadowPush s c).turn.no = s.turn.no := rfl
@[simp] theorem shadowPush_turn_phase (s : State) (c : Shadow) : (shadowPush s c).turn.phase = s.turn.phase := rfl
@[simp] theorem shadowPush_turn_cur (s : State) (c : Shadow) : (shadowPush s c).turn.cur = s.turn.cur := rfl
@[simp] theorem shadowPush_turn_latched (s : State) (c : Shadow) : (shadowPush s c).turn.latched = s.turn.latched := rfl
@[simp] theorem shadowPush_turn_next (s : State) (c : Shadow) : (shadowPush s c).turn.next = s.turn.next := rfl
@[simp] theorem shadowPush_turn_repeats (s : State) (c : Shadow) : (shadowPush s c).turn.repeats = s.turn.repeats := rfl
@[simp] theorem shadowPush_turn_repeated (s : State) (c : Shadow) : (shadowPush s c).turn.repeated = s.turn.repeated := rfl
@[simp] theorem shadowPush_turn_tileIdle (s : State) (c : Shadow) : (shadowPush s c).turn.tileIdle = s.turn.tileIdle := rfl
@[simp] theorem shadowPush_turn_tileRetired (s : State) (c : Shadow) : (shadowPush s c).turn.tileRetired = s.turn.tileRetired := rfl
@[simp] theorem shadowPush_turn_trips (s : State) (c : Shadow) : (shadowPush s c).turn.trips = s.turn.trips := rfl
@[simp] theorem shadowPush_turn_seqMissed (s : State) (c : Shadow) : (shadowPush s c).turn.seqMissed = s.turn.seqMissed := rfl
@[simp] theorem shadowPush_turn_due (s : State) (c : Shadow) : (shadowPush s c).turn.due = s.turn.due := rfl
@[simp] theorem shadowPush_turn_alignBad (s : State) (c : Shadow) : (shadowPush s c).turn.alignBad = s.turn.alignBad := rfl
@[simp] theorem shadowPush_turn_alignOff (s : State) (c : Shadow) : (shadowPush s c).turn.alignOff = s.turn.alignOff := rfl
@[simp] theorem shadowPush_turn_steer (s : State) (c : Shadow) : (shadowPush s c).turn.steer = s.turn.steer := rfl
@[simp] theorem shadowPush_turn_marksMissed (s : State) (c : Shadow) : (shadowPush s c).turn.marksMissed = s.turn.marksMissed := rfl
@[simp] theorem shadowPush_turn_markTurn (s : State) (c : Shadow) : (shadowPush s c).turn.markTurn = s.turn.markTurn := rfl
@[simp] theorem shadowPush_turn_markSeen (s : State) (c : Shadow) : (shadowPush s c).turn.markSeen = s.turn.markSeen := rfl
@[simp] theorem shadowPush_turn_withdraw (s : State) (c : Shadow) : (shadowPush s c).turn.withdraw = s.turn.withdraw := rfl
@[simp] theorem shadowPush_turn_withdrawn (s : State) (c : Shadow) : (shadowPush s c).turn.withdrawn = s.turn.withdrawn := rfl
@[simp] theorem shadowPush_turn_escalated (s : State) (c : Shadow) : (shadowPush s c).turn.escalated = s.turn.escalated := rfl
@[simp] theorem shadowPush_turn_admitted (s : State) (c : Shadow) : (shadowPush s c).turn.admitted = s.turn.admitted := rfl
@[simp] theorem shadowPush_turn_yellowQ (s : State) (c : Shadow) : (shadowPush s c).turn.yellowQ = s.turn.yellowQ := rfl
@[simp] theorem shadowPush_turn_yellowI (s : State) (c : Shadow) : (shadowPush s c).turn.yellowI = s.turn.yellowI := rfl
@[simp] theorem shadowPush_turn_takenQ (s : State) (c : Shadow) : (shadowPush s c).turn.takenQ = s.turn.takenQ := rfl
@[simp] theorem shadowPush_turn_takenI (s : State) (c : Shadow) : (shadowPush s c).turn.takenI = s.turn.takenI := rfl
@[simp] theorem shadowPush_turn_gathersUsed (s : State) (c : Shadow) : (shadowPush s c).turn.gathersUsed = s.turn.gathersUsed := rfl
@[simp] theorem shadowPush_turn_placed (s : State) (c : Shadow) : (shadowPush s c).turn.placed = s.turn.placed := rfl
@[simp] theorem shadowPush_turn_unmet (s : State) (c : Shadow) : (shadowPush s c).turn.unmet = s.turn.unmet := rfl
@[simp] theorem shadowPush_turn_plan (s : State) (c : Shadow) : (shadowPush s c).turn.plan = s.turn.plan := rfl
@[simp] theorem shadowPush_turn_selSteps (s : State) (c : Shadow) : (shadowPush s c).turn.selSteps = s.turn.selSteps := rfl
@[simp] theorem shadowPush_turn_bazSteps (s : State) (c : Shadow) : (shadowPush s c).turn.bazSteps = s.turn.bazSteps := rfl
@[simp] theorem shadowPush_turn_bridgeUsed (s : State) (c : Shadow) : (shadowPush s c).turn.bridgeUsed = s.turn.bridgeUsed := rfl
@[simp] theorem shadowPush_turn_fallbacks (s : State) (c : Shadow) : (shadowPush s c).turn.fallbacks = s.turn.fallbacks := rfl
@[simp] theorem shadowPush_turn_cuts (s : State) (c : Shadow) : (shadowPush s c).turn.cuts = s.turn.cuts := rfl
@[simp] theorem shadowPush_turn_busUsed (s : State) (c : Shadow) : (shadowPush s c).turn.busUsed = s.turn.busUsed := rfl
@[simp] theorem shadowPush_turn_portUsed (s : State) (c : Shadow) : (shadowPush s c).turn.portUsed = s.turn.portUsed := rfl
@[simp] theorem shadowPush_turn_statStart (s : State) (c : Shadow) : (shadowPush s c).turn.statStart = s.turn.statStart := rfl
@[simp] theorem shadowPush_turn_statPub (s : State) (c : Shadow) : (shadowPush s c).turn.statPub = s.turn.statPub := rfl
@[simp] theorem shadowPush_turn_statEnd (s : State) (c : Shadow) : (shadowPush s c).turn.statEnd = s.turn.statEnd := rfl
@[simp] theorem shadowPush_adm (s : State) (c : Shadow) : (shadowPush s c).adm = s.adm := rfl
@[simp] theorem shadowPush_comp (s : State) (c : Shadow) : (shadowPush s c).comp = s.comp := rfl
@[simp] theorem shadowPush_images (s : State) (c : Shadow) : (shadowPush s c).images = s.images := rfl
@[simp] theorem shadowPush_remotes (s : State) (c : Shadow) : (shadowPush s c).remotes = s.remotes := rfl
@[simp] theorem shadowPush_acts (s : State) (c : Shadow) : (shadowPush s c).acts = s.acts := rfl
@[simp] theorem shadowPush_streams (s : State) (c : Shadow) : (shadowPush s c).streams = s.streams := rfl
@[simp] theorem shadowPush_remoteStats (s : State) (c : Shadow) : (shadowPush s c).remoteStats = s.remoteStats := rfl
@[simp] theorem shadowPush_colls (s : State) (c : Shadow) : (shadowPush s c).colls = s.colls := rfl
@[simp] theorem shadowPush_lists (s : State) (c : Shadow) : (shadowPush s c).lists = s.lists := rfl
@[simp] theorem shadowPush_queries (s : State) (c : Shadow) : (shadowPush s c).queries = s.queries := rfl
@[simp] theorem shadowPush_units (s : State) (c : Shadow) : (shadowPush s c).units = s.units := rfl
@[simp] theorem shadowPush_nextUnit (s : State) (c : Shadow) : (shadowPush s c).nextUnit = s.nextUnit := rfl
@[simp] theorem shadowPush_smem (s : State) (c : Shadow) : (shadowPush s c).smem = s.smem := rfl
@[simp] theorem shadowPush_way (s : State) (c : Shadow) : (shadowPush s c).way = s.way := rfl
@[simp] theorem shadowPush_ing (s : State) (c : Shadow) : (shadowPush s c).ing = s.ing := rfl
@[simp] theorem shadowPush_place (s : State) (c : Shadow) : (shadowPush s c).place = s.place := rfl
@[simp] theorem shadowPush_scratch (s : State) (c : Shadow) : (shadowPush s c).scratch = s.scratch := rfl
@[simp] theorem shadowPush_flash (s : State) (c : Shadow) : (shadowPush s c).flash = s.flash := rfl
@[simp] theorem shadowPush_fab (s : State) (c : Shadow) : (shadowPush s c).fab = s.fab := rfl
@[simp] theorem shadowPush_ledger (s : State) (c : Shadow) : (shadowPush s c).ledger = s.ledger := rfl
@[simp] theorem shadowPush_bslots (s : State) (c : Shadow) : (shadowPush s c).bslots = s.bslots := rfl
@[simp] theorem shadowPush_nv (s : State) (c : Shadow) : (shadowPush s c).nv = s.nv := rfl
@[simp] theorem shadowPush_sec (s : State) (c : Shadow) : (shadowPush s c).sec = s.sec := rfl
@[simp] theorem shadowPush_ras (s : State) (c : Shadow) : (shadowPush s c).ras = s.ras := rfl
@[simp] theorem shadowPush_clk (s : State) (c : Shadow) : (shadowPush s c).clk = s.clk := rfl
@[simp] theorem shadowPush_out (s : State) (c : Shadow) : (shadowPush s c).out = s.out := rfl
@[simp] theorem shadowPush_free (s : State) (c : Shadow) : (shadowPush s c).free = s.free := rfl
@[simp] theorem shadowPush_pending (s : State) (c : Shadow) : (shadowPush s c).pending = s.pending := rfl

/-! ### setPhase -/

@[simp] theorem setPhase_dict (s : State) (p : Phase) : (setPhase s p).dict = s.dict := rfl
@[simp] theorem setPhase_host (s : State) (p : Phase) : (setPhase s p).host = s.host := rfl
@[simp] theorem setPhase_turn_buffers (s : State) (p : Phase) : (setPhase s p).turn.buffers = s.turn.buffers := rfl
@[simp] theorem setPhase_turn_no (s : State) (p : Phase) : (setPhase s p).turn.no = s.turn.no := rfl
@[simp] theorem setPhase_turn_cur (s : State) (p : Phase) : (setPhase s p).turn.cur = s.turn.cur := rfl
@[simp] theorem setPhase_turn_latched (s : State) (p : Phase) : (setPhase s p).turn.latched = s.turn.latched := rfl
@[simp] theorem setPhase_turn_next (s : State) (p : Phase) : (setPhase s p).turn.next = s.turn.next := rfl
@[simp] theorem setPhase_turn_repeats (s : State) (p : Phase) : (setPhase s p).turn.repeats = s.turn.repeats := rfl
@[simp] theorem setPhase_turn_repeated (s : State) (p : Phase) : (setPhase s p).turn.repeated = s.turn.repeated := rfl
@[simp] theorem setPhase_turn_shadow (s : State) (p : Phase) : (setPhase s p).turn.shadow = s.turn.shadow := rfl
@[simp] theorem setPhase_turn_tileIdle (s : State) (p : Phase) : (setPhase s p).turn.tileIdle = s.turn.tileIdle := rfl
@[simp] theorem setPhase_turn_tileRetired (s : State) (p : Phase) : (setPhase s p).turn.tileRetired = s.turn.tileRetired := rfl
@[simp] theorem setPhase_turn_trips (s : State) (p : Phase) : (setPhase s p).turn.trips = s.turn.trips := rfl
@[simp] theorem setPhase_turn_seqMissed (s : State) (p : Phase) : (setPhase s p).turn.seqMissed = s.turn.seqMissed := rfl
@[simp] theorem setPhase_turn_due (s : State) (p : Phase) : (setPhase s p).turn.due = s.turn.due := rfl
@[simp] theorem setPhase_turn_alignBad (s : State) (p : Phase) : (setPhase s p).turn.alignBad = s.turn.alignBad := rfl
@[simp] theorem setPhase_turn_alignOff (s : State) (p : Phase) : (setPhase s p).turn.alignOff = s.turn.alignOff := rfl
@[simp] theorem setPhase_turn_steer (s : State) (p : Phase) : (setPhase s p).turn.steer = s.turn.steer := rfl
@[simp] theorem setPhase_turn_marksMissed (s : State) (p : Phase) : (setPhase s p).turn.marksMissed = s.turn.marksMissed := rfl
@[simp] theorem setPhase_turn_markTurn (s : State) (p : Phase) : (setPhase s p).turn.markTurn = s.turn.markTurn := rfl
@[simp] theorem setPhase_turn_markSeen (s : State) (p : Phase) : (setPhase s p).turn.markSeen = s.turn.markSeen := rfl
@[simp] theorem setPhase_turn_withdraw (s : State) (p : Phase) : (setPhase s p).turn.withdraw = s.turn.withdraw := rfl
@[simp] theorem setPhase_turn_withdrawn (s : State) (p : Phase) : (setPhase s p).turn.withdrawn = s.turn.withdrawn := rfl
@[simp] theorem setPhase_turn_escalated (s : State) (p : Phase) : (setPhase s p).turn.escalated = s.turn.escalated := rfl
@[simp] theorem setPhase_turn_admitted (s : State) (p : Phase) : (setPhase s p).turn.admitted = s.turn.admitted := rfl
@[simp] theorem setPhase_turn_yellowQ (s : State) (p : Phase) : (setPhase s p).turn.yellowQ = s.turn.yellowQ := rfl
@[simp] theorem setPhase_turn_yellowI (s : State) (p : Phase) : (setPhase s p).turn.yellowI = s.turn.yellowI := rfl
@[simp] theorem setPhase_turn_takenQ (s : State) (p : Phase) : (setPhase s p).turn.takenQ = s.turn.takenQ := rfl
@[simp] theorem setPhase_turn_takenI (s : State) (p : Phase) : (setPhase s p).turn.takenI = s.turn.takenI := rfl
@[simp] theorem setPhase_turn_gathersUsed (s : State) (p : Phase) : (setPhase s p).turn.gathersUsed = s.turn.gathersUsed := rfl
@[simp] theorem setPhase_turn_placed (s : State) (p : Phase) : (setPhase s p).turn.placed = s.turn.placed := rfl
@[simp] theorem setPhase_turn_unmet (s : State) (p : Phase) : (setPhase s p).turn.unmet = s.turn.unmet := rfl
@[simp] theorem setPhase_turn_plan (s : State) (p : Phase) : (setPhase s p).turn.plan = s.turn.plan := rfl
@[simp] theorem setPhase_turn_selSteps (s : State) (p : Phase) : (setPhase s p).turn.selSteps = s.turn.selSteps := rfl
@[simp] theorem setPhase_turn_bazSteps (s : State) (p : Phase) : (setPhase s p).turn.bazSteps = s.turn.bazSteps := rfl
@[simp] theorem setPhase_turn_bridgeUsed (s : State) (p : Phase) : (setPhase s p).turn.bridgeUsed = s.turn.bridgeUsed := rfl
@[simp] theorem setPhase_turn_fallbacks (s : State) (p : Phase) : (setPhase s p).turn.fallbacks = s.turn.fallbacks := rfl
@[simp] theorem setPhase_turn_cuts (s : State) (p : Phase) : (setPhase s p).turn.cuts = s.turn.cuts := rfl
@[simp] theorem setPhase_turn_busUsed (s : State) (p : Phase) : (setPhase s p).turn.busUsed = s.turn.busUsed := rfl
@[simp] theorem setPhase_turn_portUsed (s : State) (p : Phase) : (setPhase s p).turn.portUsed = s.turn.portUsed := rfl
@[simp] theorem setPhase_turn_statStart (s : State) (p : Phase) : (setPhase s p).turn.statStart = s.turn.statStart := rfl
@[simp] theorem setPhase_turn_statPub (s : State) (p : Phase) : (setPhase s p).turn.statPub = s.turn.statPub := rfl
@[simp] theorem setPhase_turn_statEnd (s : State) (p : Phase) : (setPhase s p).turn.statEnd = s.turn.statEnd := rfl
@[simp] theorem setPhase_adm (s : State) (p : Phase) : (setPhase s p).adm = s.adm := rfl
@[simp] theorem setPhase_comp (s : State) (p : Phase) : (setPhase s p).comp = s.comp := rfl
@[simp] theorem setPhase_images (s : State) (p : Phase) : (setPhase s p).images = s.images := rfl
@[simp] theorem setPhase_remotes (s : State) (p : Phase) : (setPhase s p).remotes = s.remotes := rfl
@[simp] theorem setPhase_acts (s : State) (p : Phase) : (setPhase s p).acts = s.acts := rfl
@[simp] theorem setPhase_streams (s : State) (p : Phase) : (setPhase s p).streams = s.streams := rfl
@[simp] theorem setPhase_remoteStats (s : State) (p : Phase) : (setPhase s p).remoteStats = s.remoteStats := rfl
@[simp] theorem setPhase_colls (s : State) (p : Phase) : (setPhase s p).colls = s.colls := rfl
@[simp] theorem setPhase_lists (s : State) (p : Phase) : (setPhase s p).lists = s.lists := rfl
@[simp] theorem setPhase_queries (s : State) (p : Phase) : (setPhase s p).queries = s.queries := rfl
@[simp] theorem setPhase_units (s : State) (p : Phase) : (setPhase s p).units = s.units := rfl
@[simp] theorem setPhase_nextUnit (s : State) (p : Phase) : (setPhase s p).nextUnit = s.nextUnit := rfl
@[simp] theorem setPhase_smem (s : State) (p : Phase) : (setPhase s p).smem = s.smem := rfl
@[simp] theorem setPhase_way (s : State) (p : Phase) : (setPhase s p).way = s.way := rfl
@[simp] theorem setPhase_ing (s : State) (p : Phase) : (setPhase s p).ing = s.ing := rfl
@[simp] theorem setPhase_place (s : State) (p : Phase) : (setPhase s p).place = s.place := rfl
@[simp] theorem setPhase_scratch (s : State) (p : Phase) : (setPhase s p).scratch = s.scratch := rfl
@[simp] theorem setPhase_flash (s : State) (p : Phase) : (setPhase s p).flash = s.flash := rfl
@[simp] theorem setPhase_fab (s : State) (p : Phase) : (setPhase s p).fab = s.fab := rfl
@[simp] theorem setPhase_ledger (s : State) (p : Phase) : (setPhase s p).ledger = s.ledger := rfl
@[simp] theorem setPhase_bslots (s : State) (p : Phase) : (setPhase s p).bslots = s.bslots := rfl
@[simp] theorem setPhase_nv (s : State) (p : Phase) : (setPhase s p).nv = s.nv := rfl
@[simp] theorem setPhase_sec (s : State) (p : Phase) : (setPhase s p).sec = s.sec := rfl
@[simp] theorem setPhase_ras (s : State) (p : Phase) : (setPhase s p).ras = s.ras := rfl
@[simp] theorem setPhase_clk (s : State) (p : Phase) : (setPhase s p).clk = s.clk := rfl
@[simp] theorem setPhase_out (s : State) (p : Phase) : (setPhase s p).out = s.out := rfl
@[simp] theorem setPhase_free (s : State) (p : Phase) : (setPhase s p).free = s.free := rfl
@[simp] theorem setPhase_pending (s : State) (p : Phase) : (setPhase s p).pending = s.pending := rfl

/-! ### logEvent -/

@[simp] theorem logEvent_dict (s : State) (e : Event) : (logEvent s e).dict = s.dict := rfl
@[simp] theorem logEvent_host (s : State) (e : Event) : (logEvent s e).host = s.host := rfl
@[simp] theorem logEvent_turn (s : State) (e : Event) : (logEvent s e).turn = s.turn := rfl
@[simp] theorem logEvent_adm (s : State) (e : Event) : (logEvent s e).adm = s.adm := rfl
@[simp] theorem logEvent_comp (s : State) (e : Event) : (logEvent s e).comp = s.comp := rfl
@[simp] theorem logEvent_images (s : State) (e : Event) : (logEvent s e).images = s.images := rfl
@[simp] theorem logEvent_remotes (s : State) (e : Event) : (logEvent s e).remotes = s.remotes := rfl
@[simp] theorem logEvent_acts (s : State) (e : Event) : (logEvent s e).acts = s.acts := rfl
@[simp] theorem logEvent_streams (s : State) (e : Event) : (logEvent s e).streams = s.streams := rfl
@[simp] theorem logEvent_remoteStats (s : State) (e : Event) : (logEvent s e).remoteStats = s.remoteStats := rfl
@[simp] theorem logEvent_colls (s : State) (e : Event) : (logEvent s e).colls = s.colls := rfl
@[simp] theorem logEvent_lists (s : State) (e : Event) : (logEvent s e).lists = s.lists := rfl
@[simp] theorem logEvent_queries (s : State) (e : Event) : (logEvent s e).queries = s.queries := rfl
@[simp] theorem logEvent_units (s : State) (e : Event) : (logEvent s e).units = s.units := rfl
@[simp] theorem logEvent_nextUnit (s : State) (e : Event) : (logEvent s e).nextUnit = s.nextUnit := rfl
@[simp] theorem logEvent_smem (s : State) (e : Event) : (logEvent s e).smem = s.smem := rfl
@[simp] theorem logEvent_way (s : State) (e : Event) : (logEvent s e).way = s.way := rfl
@[simp] theorem logEvent_ing (s : State) (e : Event) : (logEvent s e).ing = s.ing := rfl
@[simp] theorem logEvent_place (s : State) (e : Event) : (logEvent s e).place = s.place := rfl
@[simp] theorem logEvent_scratch (s : State) (e : Event) : (logEvent s e).scratch = s.scratch := rfl
@[simp] theorem logEvent_flash (s : State) (e : Event) : (logEvent s e).flash = s.flash := rfl
@[simp] theorem logEvent_fab (s : State) (e : Event) : (logEvent s e).fab = s.fab := rfl
@[simp] theorem logEvent_ledger (s : State) (e : Event) : (logEvent s e).ledger = s.ledger := rfl
@[simp] theorem logEvent_bslots (s : State) (e : Event) : (logEvent s e).bslots = s.bslots := rfl
@[simp] theorem logEvent_nv_tenant (s : State) (e : Event) : (logEvent s e).nv.tenant = s.nv.tenant := rfl
@[simp] theorem logEvent_nv_tag (s : State) (e : Event) : (logEvent s e).nv.tag = s.nv.tag := rfl
@[simp] theorem logEvent_nv_nonce (s : State) (e : Event) : (logEvent s e).nv.nonce = s.nv.nonce := rfl
@[simp] theorem logEvent_nv_scrubPending (s : State) (e : Event) : (logEvent s e).nv.scrubPending = s.nv.scrubPending := rfl
@[simp] theorem logEvent_nv_switches (s : State) (e : Event) : (logEvent s e).nv.switches = s.nv.switches := rfl
@[simp] theorem logEvent_nv_freqs (s : State) (e : Event) : (logEvent s e).nv.freqs = s.nv.freqs := rfl
@[simp] theorem logEvent_nv_softRepair (s : State) (e : Event) : (logEvent s e).nv.softRepair = s.nv.softRepair := rfl
@[simp] theorem logEvent_nv_fwA (s : State) (e : Event) : (logEvent s e).nv.fwA = s.nv.fwA := rfl
@[simp] theorem logEvent_nv_fwB (s : State) (e : Event) : (logEvent s e).nv.fwB = s.nv.fwB := rfl
@[simp] theorem logEvent_nv_activateB (s : State) (e : Event) : (logEvent s e).nv.activateB = s.nv.activateB := rfl
@[simp] theorem logEvent_nv_minSvn (s : State) (e : Event) : (logEvent s e).nv.minSvn = s.nv.minSvn := rfl
@[simp] theorem logEvent_nv_retained (s : State) (e : Event) : (logEvent s e).nv.retained = s.nv.retained := rfl
@[simp] theorem logEvent_sec (s : State) (e : Event) : (logEvent s e).sec = s.sec := rfl
@[simp] theorem logEvent_ras (s : State) (e : Event) : (logEvent s e).ras = s.ras := rfl
@[simp] theorem logEvent_clk (s : State) (e : Event) : (logEvent s e).clk = s.clk := rfl
@[simp] theorem logEvent_out (s : State) (e : Event) : (logEvent s e).out = s.out := rfl
@[simp] theorem logEvent_free (s : State) (e : Event) : (logEvent s e).free = s.free := rfl
@[simp] theorem logEvent_pending (s : State) (e : Event) : (logEvent s e).pending = s.pending := rfl

/-! ### ledgerRequest -/

@[simp] theorem ledgerRequest_dict (s : State) (r : LedgerRec) : (ledgerRequest s r).dict = s.dict := rfl
@[simp] theorem ledgerRequest_host (s : State) (r : LedgerRec) : (ledgerRequest s r).host = s.host := rfl
@[simp] theorem ledgerRequest_turn (s : State) (r : LedgerRec) : (ledgerRequest s r).turn = s.turn := rfl
@[simp] theorem ledgerRequest_adm (s : State) (r : LedgerRec) : (ledgerRequest s r).adm = s.adm := rfl
@[simp] theorem ledgerRequest_comp (s : State) (r : LedgerRec) : (ledgerRequest s r).comp = s.comp := rfl
@[simp] theorem ledgerRequest_images (s : State) (r : LedgerRec) : (ledgerRequest s r).images = s.images := rfl
@[simp] theorem ledgerRequest_remotes (s : State) (r : LedgerRec) : (ledgerRequest s r).remotes = s.remotes := rfl
@[simp] theorem ledgerRequest_acts (s : State) (r : LedgerRec) : (ledgerRequest s r).acts = s.acts := rfl
@[simp] theorem ledgerRequest_streams (s : State) (r : LedgerRec) : (ledgerRequest s r).streams = s.streams := rfl
@[simp] theorem ledgerRequest_remoteStats (s : State) (r : LedgerRec) : (ledgerRequest s r).remoteStats = s.remoteStats := rfl
@[simp] theorem ledgerRequest_colls (s : State) (r : LedgerRec) : (ledgerRequest s r).colls = s.colls := rfl
@[simp] theorem ledgerRequest_lists (s : State) (r : LedgerRec) : (ledgerRequest s r).lists = s.lists := rfl
@[simp] theorem ledgerRequest_queries (s : State) (r : LedgerRec) : (ledgerRequest s r).queries = s.queries := rfl
@[simp] theorem ledgerRequest_units (s : State) (r : LedgerRec) : (ledgerRequest s r).units = s.units := rfl
@[simp] theorem ledgerRequest_nextUnit (s : State) (r : LedgerRec) : (ledgerRequest s r).nextUnit = s.nextUnit := rfl
@[simp] theorem ledgerRequest_smem (s : State) (r : LedgerRec) : (ledgerRequest s r).smem = s.smem := rfl
@[simp] theorem ledgerRequest_way (s : State) (r : LedgerRec) : (ledgerRequest s r).way = s.way := rfl
@[simp] theorem ledgerRequest_ing (s : State) (r : LedgerRec) : (ledgerRequest s r).ing = s.ing := rfl
@[simp] theorem ledgerRequest_place (s : State) (r : LedgerRec) : (ledgerRequest s r).place = s.place := rfl
@[simp] theorem ledgerRequest_scratch (s : State) (r : LedgerRec) : (ledgerRequest s r).scratch = s.scratch := rfl
@[simp] theorem ledgerRequest_flash (s : State) (r : LedgerRec) : (ledgerRequest s r).flash = s.flash := rfl
@[simp] theorem ledgerRequest_fab (s : State) (r : LedgerRec) : (ledgerRequest s r).fab = s.fab := rfl
@[simp] theorem ledgerRequest_bslots (s : State) (r : LedgerRec) : (ledgerRequest s r).bslots = s.bslots := rfl
@[simp] theorem ledgerRequest_nv (s : State) (r : LedgerRec) : (ledgerRequest s r).nv = s.nv := rfl
@[simp] theorem ledgerRequest_sec (s : State) (r : LedgerRec) : (ledgerRequest s r).sec = s.sec := rfl
@[simp] theorem ledgerRequest_ras (s : State) (r : LedgerRec) : (ledgerRequest s r).ras = s.ras := rfl
@[simp] theorem ledgerRequest_clk (s : State) (r : LedgerRec) : (ledgerRequest s r).clk = s.clk := rfl
@[simp] theorem ledgerRequest_out (s : State) (r : LedgerRec) : (ledgerRequest s r).out = s.out := rfl
@[simp] theorem ledgerRequest_free (s : State) (r : LedgerRec) : (ledgerRequest s r).free = s.free := rfl
@[simp] theorem ledgerRequest_pending (s : State) (r : LedgerRec) : (ledgerRequest s r).pending = s.pending := rfl

/-! ### onQuery -/

@[simp] theorem onQuery_dict (s : State) (q : Nat) (f : Query → Query) : (onQuery s q f).dict = s.dict := rfl
@[simp] theorem onQuery_host (s : State) (q : Nat) (f : Query → Query) : (onQuery s q f).host = s.host := rfl
@[simp] theorem onQuery_turn (s : State) (q : Nat) (f : Query → Query) : (onQuery s q f).turn = s.turn := rfl
@[simp] theorem onQuery_adm (s : State) (q : Nat) (f : Query → Query) : (onQuery s q f).adm = s.adm := rfl
@[simp] theorem onQuery_comp (s : State) (q : Nat) (f : Query → Query) : (onQuery s q f).comp = s.comp := rfl
@[simp] theorem onQuery_images (s : State) (q : Nat) (f : Query → Query) : (onQuery s q f).images = s.images := rfl
@[simp] theorem onQuery_remotes (s : State) (q : Nat) (f : Query → Query) : (onQuery s q f).remotes = s.remotes := rfl
@[simp] theorem onQuery_acts (s : State) (q : Nat) (f : Query → Query) : (onQuery s q f).acts = s.acts := rfl
@[simp] theorem onQuery_streams (s : State) (q : Nat) (f : Query → Query) : (onQuery s q f).streams = s.streams := rfl
@[simp] theorem onQuery_remoteStats (s : State) (q : Nat) (f : Query → Query) : (onQuery s q f).remoteStats = s.remoteStats := rfl
@[simp] theorem onQuery_colls (s : State) (q : Nat) (f : Query → Query) : (onQuery s q f).colls = s.colls := rfl
@[simp] theorem onQuery_lists (s : State) (q : Nat) (f : Query → Query) : (onQuery s q f).lists = s.lists := rfl
@[simp] theorem onQuery_units (s : State) (q : Nat) (f : Query → Query) : (onQuery s q f).units = s.units := rfl
@[simp] theorem onQuery_nextUnit (s : State) (q : Nat) (f : Query → Query) : (onQuery s q f).nextUnit = s.nextUnit := rfl
@[simp] theorem onQuery_smem (s : State) (q : Nat) (f : Query → Query) : (onQuery s q f).smem = s.smem := rfl
@[simp] theorem onQuery_way (s : State) (q : Nat) (f : Query → Query) : (onQuery s q f).way = s.way := rfl
@[simp] theorem onQuery_ing (s : State) (q : Nat) (f : Query → Query) : (onQuery s q f).ing = s.ing := rfl
@[simp] theorem onQuery_place (s : State) (q : Nat) (f : Query → Query) : (onQuery s q f).place = s.place := rfl
@[simp] theorem onQuery_scratch (s : State) (q : Nat) (f : Query → Query) : (onQuery s q f).scratch = s.scratch := rfl
@[simp] theorem onQuery_flash (s : State) (q : Nat) (f : Query → Query) : (onQuery s q f).flash = s.flash := rfl
@[simp] theorem onQuery_fab (s : State) (q : Nat) (f : Query → Query) : (onQuery s q f).fab = s.fab := rfl
@[simp] theorem onQuery_ledger (s : State) (q : Nat) (f : Query → Query) : (onQuery s q f).ledger = s.ledger := rfl
@[simp] theorem onQuery_bslots (s : State) (q : Nat) (f : Query → Query) : (onQuery s q f).bslots = s.bslots := rfl
@[simp] theorem onQuery_nv (s : State) (q : Nat) (f : Query → Query) : (onQuery s q f).nv = s.nv := rfl
@[simp] theorem onQuery_sec (s : State) (q : Nat) (f : Query → Query) : (onQuery s q f).sec = s.sec := rfl
@[simp] theorem onQuery_ras (s : State) (q : Nat) (f : Query → Query) : (onQuery s q f).ras = s.ras := rfl
@[simp] theorem onQuery_clk (s : State) (q : Nat) (f : Query → Query) : (onQuery s q f).clk = s.clk := rfl
@[simp] theorem onQuery_out (s : State) (q : Nat) (f : Query → Query) : (onQuery s q f).out = s.out := rfl
@[simp] theorem onQuery_free (s : State) (q : Nat) (f : Query → Query) : (onQuery s q f).free = s.free := rfl
@[simp] theorem onQuery_pending (s : State) (q : Nat) (f : Query → Query) : (onQuery s q f).pending = s.pending := rfl

/-! ### onUnit -/

@[simp] theorem onUnit_dict (s : State) (n : Nat) (f : SUnit → SUnit) : (onUnit s n f).dict = s.dict := rfl
@[simp] theorem onUnit_host (s : State) (n : Nat) (f : SUnit → SUnit) : (onUnit s n f).host = s.host := rfl
@[simp] theorem onUnit_turn (s : State) (n : Nat) (f : SUnit → SUnit) : (onUnit s n f).turn = s.turn := rfl
@[simp] theorem onUnit_adm (s : State) (n : Nat) (f : SUnit → SUnit) : (onUnit s n f).adm = s.adm := rfl
@[simp] theorem onUnit_comp (s : State) (n : Nat) (f : SUnit → SUnit) : (onUnit s n f).comp = s.comp := rfl
@[simp] theorem onUnit_images (s : State) (n : Nat) (f : SUnit → SUnit) : (onUnit s n f).images = s.images := rfl
@[simp] theorem onUnit_remotes (s : State) (n : Nat) (f : SUnit → SUnit) : (onUnit s n f).remotes = s.remotes := rfl
@[simp] theorem onUnit_acts (s : State) (n : Nat) (f : SUnit → SUnit) : (onUnit s n f).acts = s.acts := rfl
@[simp] theorem onUnit_streams (s : State) (n : Nat) (f : SUnit → SUnit) : (onUnit s n f).streams = s.streams := rfl
@[simp] theorem onUnit_remoteStats (s : State) (n : Nat) (f : SUnit → SUnit) : (onUnit s n f).remoteStats = s.remoteStats := rfl
@[simp] theorem onUnit_colls (s : State) (n : Nat) (f : SUnit → SUnit) : (onUnit s n f).colls = s.colls := rfl
@[simp] theorem onUnit_lists (s : State) (n : Nat) (f : SUnit → SUnit) : (onUnit s n f).lists = s.lists := rfl
@[simp] theorem onUnit_queries (s : State) (n : Nat) (f : SUnit → SUnit) : (onUnit s n f).queries = s.queries := rfl
@[simp] theorem onUnit_nextUnit (s : State) (n : Nat) (f : SUnit → SUnit) : (onUnit s n f).nextUnit = s.nextUnit := rfl
@[simp] theorem onUnit_smem (s : State) (n : Nat) (f : SUnit → SUnit) : (onUnit s n f).smem = s.smem := rfl
@[simp] theorem onUnit_way (s : State) (n : Nat) (f : SUnit → SUnit) : (onUnit s n f).way = s.way := rfl
@[simp] theorem onUnit_ing (s : State) (n : Nat) (f : SUnit → SUnit) : (onUnit s n f).ing = s.ing := rfl
@[simp] theorem onUnit_place (s : State) (n : Nat) (f : SUnit → SUnit) : (onUnit s n f).place = s.place := rfl
@[simp] theorem onUnit_scratch (s : State) (n : Nat) (f : SUnit → SUnit) : (onUnit s n f).scratch = s.scratch := rfl
@[simp] theorem onUnit_flash (s : State) (n : Nat) (f : SUnit → SUnit) : (onUnit s n f).flash = s.flash := rfl
@[simp] theorem onUnit_fab (s : State) (n : Nat) (f : SUnit → SUnit) : (onUnit s n f).fab = s.fab := rfl
@[simp] theorem onUnit_ledger (s : State) (n : Nat) (f : SUnit → SUnit) : (onUnit s n f).ledger = s.ledger := rfl
@[simp] theorem onUnit_bslots (s : State) (n : Nat) (f : SUnit → SUnit) : (onUnit s n f).bslots = s.bslots := rfl
@[simp] theorem onUnit_nv (s : State) (n : Nat) (f : SUnit → SUnit) : (onUnit s n f).nv = s.nv := rfl
@[simp] theorem onUnit_sec (s : State) (n : Nat) (f : SUnit → SUnit) : (onUnit s n f).sec = s.sec := rfl
@[simp] theorem onUnit_ras (s : State) (n : Nat) (f : SUnit → SUnit) : (onUnit s n f).ras = s.ras := rfl
@[simp] theorem onUnit_clk (s : State) (n : Nat) (f : SUnit → SUnit) : (onUnit s n f).clk = s.clk := rfl
@[simp] theorem onUnit_out (s : State) (n : Nat) (f : SUnit → SUnit) : (onUnit s n f).out = s.out := rfl
@[simp] theorem onUnit_free (s : State) (n : Nat) (f : SUnit → SUnit) : (onUnit s n f).free = s.free := rfl
@[simp] theorem onUnit_pending (s : State) (n : Nat) (f : SUnit → SUnit) : (onUnit s n f).pending = s.pending := rfl

/-! ### onWrite -/

@[simp] theorem onWrite_dict (s : State) (w : Nat) (f : Write → Write) : (onWrite s w f).dict = s.dict := rfl
@[simp] theorem onWrite_host (s : State) (w : Nat) (f : Write → Write) : (onWrite s w f).host = s.host := rfl
@[simp] theorem onWrite_turn (s : State) (w : Nat) (f : Write → Write) : (onWrite s w f).turn = s.turn := rfl
@[simp] theorem onWrite_adm (s : State) (w : Nat) (f : Write → Write) : (onWrite s w f).adm = s.adm := rfl
@[simp] theorem onWrite_comp (s : State) (w : Nat) (f : Write → Write) : (onWrite s w f).comp = s.comp := rfl
@[simp] theorem onWrite_images (s : State) (w : Nat) (f : Write → Write) : (onWrite s w f).images = s.images := rfl
@[simp] theorem onWrite_remotes (s : State) (w : Nat) (f : Write → Write) : (onWrite s w f).remotes = s.remotes := rfl
@[simp] theorem onWrite_acts (s : State) (w : Nat) (f : Write → Write) : (onWrite s w f).acts = s.acts := rfl
@[simp] theorem onWrite_streams (s : State) (w : Nat) (f : Write → Write) : (onWrite s w f).streams = s.streams := rfl
@[simp] theorem onWrite_remoteStats (s : State) (w : Nat) (f : Write → Write) : (onWrite s w f).remoteStats = s.remoteStats := rfl
@[simp] theorem onWrite_colls (s : State) (w : Nat) (f : Write → Write) : (onWrite s w f).colls = s.colls := rfl
@[simp] theorem onWrite_lists (s : State) (w : Nat) (f : Write → Write) : (onWrite s w f).lists = s.lists := rfl
@[simp] theorem onWrite_queries (s : State) (w : Nat) (f : Write → Write) : (onWrite s w f).queries = s.queries := rfl
@[simp] theorem onWrite_units (s : State) (w : Nat) (f : Write → Write) : (onWrite s w f).units = s.units := rfl
@[simp] theorem onWrite_nextUnit (s : State) (w : Nat) (f : Write → Write) : (onWrite s w f).nextUnit = s.nextUnit := rfl
@[simp] theorem onWrite_smem (s : State) (w : Nat) (f : Write → Write) : (onWrite s w f).smem = s.smem := rfl
@[simp] theorem onWrite_way (s : State) (w : Nat) (f : Write → Write) : (onWrite s w f).way = s.way := rfl
@[simp] theorem onWrite_place (s : State) (w : Nat) (f : Write → Write) : (onWrite s w f).place = s.place := rfl
@[simp] theorem onWrite_scratch (s : State) (w : Nat) (f : Write → Write) : (onWrite s w f).scratch = s.scratch := rfl
@[simp] theorem onWrite_flash (s : State) (w : Nat) (f : Write → Write) : (onWrite s w f).flash = s.flash := rfl
@[simp] theorem onWrite_fab (s : State) (w : Nat) (f : Write → Write) : (onWrite s w f).fab = s.fab := rfl
@[simp] theorem onWrite_ledger (s : State) (w : Nat) (f : Write → Write) : (onWrite s w f).ledger = s.ledger := rfl
@[simp] theorem onWrite_bslots (s : State) (w : Nat) (f : Write → Write) : (onWrite s w f).bslots = s.bslots := rfl
@[simp] theorem onWrite_nv (s : State) (w : Nat) (f : Write → Write) : (onWrite s w f).nv = s.nv := rfl
@[simp] theorem onWrite_sec (s : State) (w : Nat) (f : Write → Write) : (onWrite s w f).sec = s.sec := rfl
@[simp] theorem onWrite_ras (s : State) (w : Nat) (f : Write → Write) : (onWrite s w f).ras = s.ras := rfl
@[simp] theorem onWrite_clk (s : State) (w : Nat) (f : Write → Write) : (onWrite s w f).clk = s.clk := rfl
@[simp] theorem onWrite_out (s : State) (w : Nat) (f : Write → Write) : (onWrite s w f).out = s.out := rfl
@[simp] theorem onWrite_free (s : State) (w : Nat) (f : Write → Write) : (onWrite s w f).free = s.free := rfl
@[simp] theorem onWrite_pending (s : State) (w : Nat) (f : Write → Write) : (onWrite s w f).pending = s.pending := rfl

/-! ### onJob -/

@[simp] theorem onJob_dict (s : State) (k : Nat) (f : CopyJob → CopyJob) : (onJob s k f).dict = s.dict := rfl
@[simp] theorem onJob_host (s : State) (k : Nat) (f : CopyJob → CopyJob) : (onJob s k f).host = s.host := rfl
@[simp] theorem onJob_turn (s : State) (k : Nat) (f : CopyJob → CopyJob) : (onJob s k f).turn = s.turn := rfl
@[simp] theorem onJob_adm (s : State) (k : Nat) (f : CopyJob → CopyJob) : (onJob s k f).adm = s.adm := rfl
@[simp] theorem onJob_comp (s : State) (k : Nat) (f : CopyJob → CopyJob) : (onJob s k f).comp = s.comp := rfl
@[simp] theorem onJob_images (s : State) (k : Nat) (f : CopyJob → CopyJob) : (onJob s k f).images = s.images := rfl
@[simp] theorem onJob_remotes (s : State) (k : Nat) (f : CopyJob → CopyJob) : (onJob s k f).remotes = s.remotes := rfl
@[simp] theorem onJob_acts (s : State) (k : Nat) (f : CopyJob → CopyJob) : (onJob s k f).acts = s.acts := rfl
@[simp] theorem onJob_streams (s : State) (k : Nat) (f : CopyJob → CopyJob) : (onJob s k f).streams = s.streams := rfl
@[simp] theorem onJob_remoteStats (s : State) (k : Nat) (f : CopyJob → CopyJob) : (onJob s k f).remoteStats = s.remoteStats := rfl
@[simp] theorem onJob_colls (s : State) (k : Nat) (f : CopyJob → CopyJob) : (onJob s k f).colls = s.colls := rfl
@[simp] theorem onJob_lists (s : State) (k : Nat) (f : CopyJob → CopyJob) : (onJob s k f).lists = s.lists := rfl
@[simp] theorem onJob_queries (s : State) (k : Nat) (f : CopyJob → CopyJob) : (onJob s k f).queries = s.queries := rfl
@[simp] theorem onJob_units (s : State) (k : Nat) (f : CopyJob → CopyJob) : (onJob s k f).units = s.units := rfl
@[simp] theorem onJob_nextUnit (s : State) (k : Nat) (f : CopyJob → CopyJob) : (onJob s k f).nextUnit = s.nextUnit := rfl
@[simp] theorem onJob_smem (s : State) (k : Nat) (f : CopyJob → CopyJob) : (onJob s k f).smem = s.smem := rfl
@[simp] theorem onJob_way (s : State) (k : Nat) (f : CopyJob → CopyJob) : (onJob s k f).way = s.way := rfl
@[simp] theorem onJob_ing (s : State) (k : Nat) (f : CopyJob → CopyJob) : (onJob s k f).ing = s.ing := rfl
@[simp] theorem onJob_scratch (s : State) (k : Nat) (f : CopyJob → CopyJob) : (onJob s k f).scratch = s.scratch := rfl
@[simp] theorem onJob_flash (s : State) (k : Nat) (f : CopyJob → CopyJob) : (onJob s k f).flash = s.flash := rfl
@[simp] theorem onJob_fab (s : State) (k : Nat) (f : CopyJob → CopyJob) : (onJob s k f).fab = s.fab := rfl
@[simp] theorem onJob_ledger (s : State) (k : Nat) (f : CopyJob → CopyJob) : (onJob s k f).ledger = s.ledger := rfl
@[simp] theorem onJob_bslots (s : State) (k : Nat) (f : CopyJob → CopyJob) : (onJob s k f).bslots = s.bslots := rfl
@[simp] theorem onJob_nv (s : State) (k : Nat) (f : CopyJob → CopyJob) : (onJob s k f).nv = s.nv := rfl
@[simp] theorem onJob_sec (s : State) (k : Nat) (f : CopyJob → CopyJob) : (onJob s k f).sec = s.sec := rfl
@[simp] theorem onJob_ras (s : State) (k : Nat) (f : CopyJob → CopyJob) : (onJob s k f).ras = s.ras := rfl
@[simp] theorem onJob_clk (s : State) (k : Nat) (f : CopyJob → CopyJob) : (onJob s k f).clk = s.clk := rfl
@[simp] theorem onJob_out (s : State) (k : Nat) (f : CopyJob → CopyJob) : (onJob s k f).out = s.out := rfl
@[simp] theorem onJob_free (s : State) (k : Nat) (f : CopyJob → CopyJob) : (onJob s k f).free = s.free := rfl
@[simp] theorem onJob_pending (s : State) (k : Nat) (f : CopyJob → CopyJob) : (onJob s k f).pending = s.pending := rfl

/-! ### onDie -/

@[simp] theorem onDie_dict (s : State) (d : Nat) (f : Die → Die) : (onDie s d f).dict = s.dict := rfl
@[simp] theorem onDie_host (s : State) (d : Nat) (f : Die → Die) : (onDie s d f).host = s.host := rfl
@[simp] theorem onDie_turn (s : State) (d : Nat) (f : Die → Die) : (onDie s d f).turn = s.turn := rfl
@[simp] theorem onDie_adm (s : State) (d : Nat) (f : Die → Die) : (onDie s d f).adm = s.adm := rfl
@[simp] theorem onDie_comp (s : State) (d : Nat) (f : Die → Die) : (onDie s d f).comp = s.comp := rfl
@[simp] theorem onDie_images (s : State) (d : Nat) (f : Die → Die) : (onDie s d f).images = s.images := rfl
@[simp] theorem onDie_remotes (s : State) (d : Nat) (f : Die → Die) : (onDie s d f).remotes = s.remotes := rfl
@[simp] theorem onDie_acts (s : State) (d : Nat) (f : Die → Die) : (onDie s d f).acts = s.acts := rfl
@[simp] theorem onDie_streams (s : State) (d : Nat) (f : Die → Die) : (onDie s d f).streams = s.streams := rfl
@[simp] theorem onDie_remoteStats (s : State) (d : Nat) (f : Die → Die) : (onDie s d f).remoteStats = s.remoteStats := rfl
@[simp] theorem onDie_colls (s : State) (d : Nat) (f : Die → Die) : (onDie s d f).colls = s.colls := rfl
@[simp] theorem onDie_lists (s : State) (d : Nat) (f : Die → Die) : (onDie s d f).lists = s.lists := rfl
@[simp] theorem onDie_queries (s : State) (d : Nat) (f : Die → Die) : (onDie s d f).queries = s.queries := rfl
@[simp] theorem onDie_units (s : State) (d : Nat) (f : Die → Die) : (onDie s d f).units = s.units := rfl
@[simp] theorem onDie_nextUnit (s : State) (d : Nat) (f : Die → Die) : (onDie s d f).nextUnit = s.nextUnit := rfl
@[simp] theorem onDie_smem (s : State) (d : Nat) (f : Die → Die) : (onDie s d f).smem = s.smem := rfl
@[simp] theorem onDie_way (s : State) (d : Nat) (f : Die → Die) : (onDie s d f).way = s.way := rfl
@[simp] theorem onDie_ing (s : State) (d : Nat) (f : Die → Die) : (onDie s d f).ing = s.ing := rfl
@[simp] theorem onDie_place (s : State) (d : Nat) (f : Die → Die) : (onDie s d f).place = s.place := rfl
@[simp] theorem onDie_scratch (s : State) (d : Nat) (f : Die → Die) : (onDie s d f).scratch = s.scratch := rfl
@[simp] theorem onDie_fab (s : State) (d : Nat) (f : Die → Die) : (onDie s d f).fab = s.fab := rfl
@[simp] theorem onDie_ledger (s : State) (d : Nat) (f : Die → Die) : (onDie s d f).ledger = s.ledger := rfl
@[simp] theorem onDie_bslots (s : State) (d : Nat) (f : Die → Die) : (onDie s d f).bslots = s.bslots := rfl
@[simp] theorem onDie_nv (s : State) (d : Nat) (f : Die → Die) : (onDie s d f).nv = s.nv := rfl
@[simp] theorem onDie_sec (s : State) (d : Nat) (f : Die → Die) : (onDie s d f).sec = s.sec := rfl
@[simp] theorem onDie_ras (s : State) (d : Nat) (f : Die → Die) : (onDie s d f).ras = s.ras := rfl
@[simp] theorem onDie_clk (s : State) (d : Nat) (f : Die → Die) : (onDie s d f).clk = s.clk := rfl
@[simp] theorem onDie_out (s : State) (d : Nat) (f : Die → Die) : (onDie s d f).out = s.out := rfl
@[simp] theorem onDie_free (s : State) (d : Nat) (f : Die → Die) : (onDie s d f).free = s.free := rfl
@[simp] theorem onDie_pending (s : State) (d : Nat) (f : Die → Die) : (onDie s d f).pending = s.pending := rfl

/-! ### setTable -/

@[simp] theorem setTable_dict (s : State) (t : Nat) (v : Table) : (setTable s t v).dict = s.dict := rfl
@[simp] theorem setTable_host (s : State) (t : Nat) (v : Table) : (setTable s t v).host = s.host := rfl
@[simp] theorem setTable_turn (s : State) (t : Nat) (v : Table) : (setTable s t v).turn = s.turn := rfl
@[simp] theorem setTable_adm (s : State) (t : Nat) (v : Table) : (setTable s t v).adm = s.adm := rfl
@[simp] theorem setTable_images (s : State) (t : Nat) (v : Table) : (setTable s t v).images = s.images := rfl
@[simp] theorem setTable_remotes (s : State) (t : Nat) (v : Table) : (setTable s t v).remotes = s.remotes := rfl
@[simp] theorem setTable_acts (s : State) (t : Nat) (v : Table) : (setTable s t v).acts = s.acts := rfl
@[simp] theorem setTable_streams (s : State) (t : Nat) (v : Table) : (setTable s t v).streams = s.streams := rfl
@[simp] theorem setTable_remoteStats (s : State) (t : Nat) (v : Table) : (setTable s t v).remoteStats = s.remoteStats := rfl
@[simp] theorem setTable_colls (s : State) (t : Nat) (v : Table) : (setTable s t v).colls = s.colls := rfl
@[simp] theorem setTable_lists (s : State) (t : Nat) (v : Table) : (setTable s t v).lists = s.lists := rfl
@[simp] theorem setTable_queries (s : State) (t : Nat) (v : Table) : (setTable s t v).queries = s.queries := rfl
@[simp] theorem setTable_units (s : State) (t : Nat) (v : Table) : (setTable s t v).units = s.units := rfl
@[simp] theorem setTable_nextUnit (s : State) (t : Nat) (v : Table) : (setTable s t v).nextUnit = s.nextUnit := rfl
@[simp] theorem setTable_smem (s : State) (t : Nat) (v : Table) : (setTable s t v).smem = s.smem := rfl
@[simp] theorem setTable_way (s : State) (t : Nat) (v : Table) : (setTable s t v).way = s.way := rfl
@[simp] theorem setTable_ing (s : State) (t : Nat) (v : Table) : (setTable s t v).ing = s.ing := rfl
@[simp] theorem setTable_place (s : State) (t : Nat) (v : Table) : (setTable s t v).place = s.place := rfl
@[simp] theorem setTable_scratch (s : State) (t : Nat) (v : Table) : (setTable s t v).scratch = s.scratch := rfl
@[simp] theorem setTable_flash (s : State) (t : Nat) (v : Table) : (setTable s t v).flash = s.flash := rfl
@[simp] theorem setTable_fab (s : State) (t : Nat) (v : Table) : (setTable s t v).fab = s.fab := rfl
@[simp] theorem setTable_ledger (s : State) (t : Nat) (v : Table) : (setTable s t v).ledger = s.ledger := rfl
@[simp] theorem setTable_bslots (s : State) (t : Nat) (v : Table) : (setTable s t v).bslots = s.bslots := rfl
@[simp] theorem setTable_nv (s : State) (t : Nat) (v : Table) : (setTable s t v).nv = s.nv := rfl
@[simp] theorem setTable_sec (s : State) (t : Nat) (v : Table) : (setTable s t v).sec = s.sec := rfl
@[simp] theorem setTable_ras (s : State) (t : Nat) (v : Table) : (setTable s t v).ras = s.ras := rfl
@[simp] theorem setTable_clk (s : State) (t : Nat) (v : Table) : (setTable s t v).clk = s.clk := rfl
@[simp] theorem setTable_out (s : State) (t : Nat) (v : Table) : (setTable s t v).out = s.out := rfl
@[simp] theorem setTable_free (s : State) (t : Nat) (v : Table) : (setTable s t v).free = s.free := rfl
@[simp] theorem setTable_pending (s : State) (t : Nat) (v : Table) : (setTable s t v).pending = s.pending := rfl

/-! ### setImg -/

@[simp] theorem setImg_dict (s : State) (n : Nat) (v : Image) : (setImg s n v).dict = s.dict := rfl
@[simp] theorem setImg_host (s : State) (n : Nat) (v : Image) : (setImg s n v).host = s.host := rfl
@[simp] theorem setImg_turn (s : State) (n : Nat) (v : Image) : (setImg s n v).turn = s.turn := rfl
@[simp] theorem setImg_adm (s : State) (n : Nat) (v : Image) : (setImg s n v).adm = s.adm := rfl
@[simp] theorem setImg_comp (s : State) (n : Nat) (v : Image) : (setImg s n v).comp = s.comp := rfl
@[simp] theorem setImg_remotes (s : State) (n : Nat) (v : Image) : (setImg s n v).remotes = s.remotes := rfl
@[simp] theorem setImg_acts (s : State) (n : Nat) (v : Image) : (setImg s n v).acts = s.acts := rfl
@[simp] theorem setImg_streams (s : State) (n : Nat) (v : Image) : (setImg s n v).streams = s.streams := rfl
@[simp] theorem setImg_remoteStats (s : State) (n : Nat) (v : Image) : (setImg s n v).remoteStats = s.remoteStats := rfl
@[simp] theorem setImg_colls (s : State) (n : Nat) (v : Image) : (setImg s n v).colls = s.colls := rfl
@[simp] theorem setImg_lists (s : State) (n : Nat) (v : Image) : (setImg s n v).lists = s.lists := rfl
@[simp] theorem setImg_queries (s : State) (n : Nat) (v : Image) : (setImg s n v).queries = s.queries := rfl
@[simp] theorem setImg_units (s : State) (n : Nat) (v : Image) : (setImg s n v).units = s.units := rfl
@[simp] theorem setImg_nextUnit (s : State) (n : Nat) (v : Image) : (setImg s n v).nextUnit = s.nextUnit := rfl
@[simp] theorem setImg_smem (s : State) (n : Nat) (v : Image) : (setImg s n v).smem = s.smem := rfl
@[simp] theorem setImg_way (s : State) (n : Nat) (v : Image) : (setImg s n v).way = s.way := rfl
@[simp] theorem setImg_ing (s : State) (n : Nat) (v : Image) : (setImg s n v).ing = s.ing := rfl
@[simp] theorem setImg_place (s : State) (n : Nat) (v : Image) : (setImg s n v).place = s.place := rfl
@[simp] theorem setImg_scratch (s : State) (n : Nat) (v : Image) : (setImg s n v).scratch = s.scratch := rfl
@[simp] theorem setImg_flash (s : State) (n : Nat) (v : Image) : (setImg s n v).flash = s.flash := rfl
@[simp] theorem setImg_fab (s : State) (n : Nat) (v : Image) : (setImg s n v).fab = s.fab := rfl
@[simp] theorem setImg_ledger (s : State) (n : Nat) (v : Image) : (setImg s n v).ledger = s.ledger := rfl
@[simp] theorem setImg_bslots (s : State) (n : Nat) (v : Image) : (setImg s n v).bslots = s.bslots := rfl
@[simp] theorem setImg_nv (s : State) (n : Nat) (v : Image) : (setImg s n v).nv = s.nv := rfl
@[simp] theorem setImg_sec (s : State) (n : Nat) (v : Image) : (setImg s n v).sec = s.sec := rfl
@[simp] theorem setImg_ras (s : State) (n : Nat) (v : Image) : (setImg s n v).ras = s.ras := rfl
@[simp] theorem setImg_clk (s : State) (n : Nat) (v : Image) : (setImg s n v).clk = s.clk := rfl
@[simp] theorem setImg_out (s : State) (n : Nat) (v : Image) : (setImg s n v).out = s.out := rfl
@[simp] theorem setImg_free (s : State) (n : Nat) (v : Image) : (setImg s n v).free = s.free := rfl
@[simp] theorem setImg_pending (s : State) (n : Nat) (v : Image) : (setImg s n v).pending = s.pending := rfl

/-! ### setColl -/

@[simp] theorem setColl_dict (s : State) (c : Nat) (v : Coll) : (setColl s c v).dict = s.dict := rfl
@[simp] theorem setColl_host (s : State) (c : Nat) (v : Coll) : (setColl s c v).host = s.host := rfl
@[simp] theorem setColl_turn (s : State) (c : Nat) (v : Coll) : (setColl s c v).turn = s.turn := rfl
@[simp] theorem setColl_adm (s : State) (c : Nat) (v : Coll) : (setColl s c v).adm = s.adm := rfl
@[simp] theorem setColl_comp (s : State) (c : Nat) (v : Coll) : (setColl s c v).comp = s.comp := rfl
@[simp] theorem setColl_images (s : State) (c : Nat) (v : Coll) : (setColl s c v).images = s.images := rfl
@[simp] theorem setColl_remotes (s : State) (c : Nat) (v : Coll) : (setColl s c v).remotes = s.remotes := rfl
@[simp] theorem setColl_acts (s : State) (c : Nat) (v : Coll) : (setColl s c v).acts = s.acts := rfl
@[simp] theorem setColl_streams (s : State) (c : Nat) (v : Coll) : (setColl s c v).streams = s.streams := rfl
@[simp] theorem setColl_remoteStats (s : State) (c : Nat) (v : Coll) : (setColl s c v).remoteStats = s.remoteStats := rfl
@[simp] theorem setColl_lists (s : State) (c : Nat) (v : Coll) : (setColl s c v).lists = s.lists := rfl
@[simp] theorem setColl_queries (s : State) (c : Nat) (v : Coll) : (setColl s c v).queries = s.queries := rfl
@[simp] theorem setColl_units (s : State) (c : Nat) (v : Coll) : (setColl s c v).units = s.units := rfl
@[simp] theorem setColl_nextUnit (s : State) (c : Nat) (v : Coll) : (setColl s c v).nextUnit = s.nextUnit := rfl
@[simp] theorem setColl_smem (s : State) (c : Nat) (v : Coll) : (setColl s c v).smem = s.smem := rfl
@[simp] theorem setColl_way (s : State) (c : Nat) (v : Coll) : (setColl s c v).way = s.way := rfl
@[simp] theorem setColl_ing (s : State) (c : Nat) (v : Coll) : (setColl s c v).ing = s.ing := rfl
@[simp] theorem setColl_place (s : State) (c : Nat) (v : Coll) : (setColl s c v).place = s.place := rfl
@[simp] theorem setColl_scratch (s : State) (c : Nat) (v : Coll) : (setColl s c v).scratch = s.scratch := rfl
@[simp] theorem setColl_flash (s : State) (c : Nat) (v : Coll) : (setColl s c v).flash = s.flash := rfl
@[simp] theorem setColl_fab (s : State) (c : Nat) (v : Coll) : (setColl s c v).fab = s.fab := rfl
@[simp] theorem setColl_ledger (s : State) (c : Nat) (v : Coll) : (setColl s c v).ledger = s.ledger := rfl
@[simp] theorem setColl_bslots (s : State) (c : Nat) (v : Coll) : (setColl s c v).bslots = s.bslots := rfl
@[simp] theorem setColl_nv (s : State) (c : Nat) (v : Coll) : (setColl s c v).nv = s.nv := rfl
@[simp] theorem setColl_sec (s : State) (c : Nat) (v : Coll) : (setColl s c v).sec = s.sec := rfl
@[simp] theorem setColl_ras (s : State) (c : Nat) (v : Coll) : (setColl s c v).ras = s.ras := rfl
@[simp] theorem setColl_clk (s : State) (c : Nat) (v : Coll) : (setColl s c v).clk = s.clk := rfl
@[simp] theorem setColl_out (s : State) (c : Nat) (v : Coll) : (setColl s c v).out = s.out := rfl
@[simp] theorem setColl_free (s : State) (c : Nat) (v : Coll) : (setColl s c v).free = s.free := rfl
@[simp] theorem setColl_pending (s : State) (c : Nat) (v : Coll) : (setColl s c v).pending = s.pending := rfl

/-! ### setBank -/

@[simp] theorem setBank_dict (s : State) (b : BankId) (v : Bank) : (setBank s b v).dict = s.dict := rfl
@[simp] theorem setBank_host (s : State) (b : BankId) (v : Bank) : (setBank s b v).host = s.host := rfl
@[simp] theorem setBank_turn (s : State) (b : BankId) (v : Bank) : (setBank s b v).turn = s.turn := rfl
@[simp] theorem setBank_adm (s : State) (b : BankId) (v : Bank) : (setBank s b v).adm = s.adm := rfl
@[simp] theorem setBank_comp (s : State) (b : BankId) (v : Bank) : (setBank s b v).comp = s.comp := rfl
@[simp] theorem setBank_images (s : State) (b : BankId) (v : Bank) : (setBank s b v).images = s.images := rfl
@[simp] theorem setBank_remotes (s : State) (b : BankId) (v : Bank) : (setBank s b v).remotes = s.remotes := rfl
@[simp] theorem setBank_acts (s : State) (b : BankId) (v : Bank) : (setBank s b v).acts = s.acts := rfl
@[simp] theorem setBank_streams (s : State) (b : BankId) (v : Bank) : (setBank s b v).streams = s.streams := rfl
@[simp] theorem setBank_remoteStats (s : State) (b : BankId) (v : Bank) : (setBank s b v).remoteStats = s.remoteStats := rfl
@[simp] theorem setBank_colls (s : State) (b : BankId) (v : Bank) : (setBank s b v).colls = s.colls := rfl
@[simp] theorem setBank_lists (s : State) (b : BankId) (v : Bank) : (setBank s b v).lists = s.lists := rfl
@[simp] theorem setBank_queries (s : State) (b : BankId) (v : Bank) : (setBank s b v).queries = s.queries := rfl
@[simp] theorem setBank_units (s : State) (b : BankId) (v : Bank) : (setBank s b v).units = s.units := rfl
@[simp] theorem setBank_nextUnit (s : State) (b : BankId) (v : Bank) : (setBank s b v).nextUnit = s.nextUnit := rfl
@[simp] theorem setBank_smem_cells (s : State) (b : BankId) (v : Bank) : (setBank s b v).smem.cells = s.smem.cells := rfl
@[simp] theorem setBank_smem_groups (s : State) (b : BankId) (v : Bank) : (setBank s b v).smem.groups = s.smem.groups := rfl
@[simp] theorem setBank_smem_preds (s : State) (b : BankId) (v : Bank) : (setBank s b v).smem.preds = s.smem.preds := rfl
@[simp] theorem setBank_smem_hists (s : State) (b : BankId) (v : Bank) : (setBank s b v).smem.hists = s.smem.hists := rfl
@[simp] theorem setBank_smem_clears (s : State) (b : BankId) (v : Bank) : (setBank s b v).smem.clears = s.smem.clears := rfl
@[simp] theorem setBank_smem_hostHeld (s : State) (b : BankId) (v : Bank) : (setBank s b v).smem.hostHeld = s.smem.hostHeld := rfl
@[simp] theorem setBank_smem_running (s : State) (b : BankId) (v : Bank) : (setBank s b v).smem.running = s.smem.running := rfl
@[simp] theorem setBank_smem_low (s : State) (b : BankId) (v : Bank) : (setBank s b v).smem.low = s.smem.low := rfl
@[simp] theorem setBank_way (s : State) (b : BankId) (v : Bank) : (setBank s b v).way = s.way := rfl
@[simp] theorem setBank_ing (s : State) (b : BankId) (v : Bank) : (setBank s b v).ing = s.ing := rfl
@[simp] theorem setBank_place (s : State) (b : BankId) (v : Bank) : (setBank s b v).place = s.place := rfl
@[simp] theorem setBank_scratch (s : State) (b : BankId) (v : Bank) : (setBank s b v).scratch = s.scratch := rfl
@[simp] theorem setBank_flash (s : State) (b : BankId) (v : Bank) : (setBank s b v).flash = s.flash := rfl
@[simp] theorem setBank_fab (s : State) (b : BankId) (v : Bank) : (setBank s b v).fab = s.fab := rfl
@[simp] theorem setBank_ledger (s : State) (b : BankId) (v : Bank) : (setBank s b v).ledger = s.ledger := rfl
@[simp] theorem setBank_bslots (s : State) (b : BankId) (v : Bank) : (setBank s b v).bslots = s.bslots := rfl
@[simp] theorem setBank_nv (s : State) (b : BankId) (v : Bank) : (setBank s b v).nv = s.nv := rfl
@[simp] theorem setBank_sec (s : State) (b : BankId) (v : Bank) : (setBank s b v).sec = s.sec := rfl
@[simp] theorem setBank_ras (s : State) (b : BankId) (v : Bank) : (setBank s b v).ras = s.ras := rfl
@[simp] theorem setBank_clk (s : State) (b : BankId) (v : Bank) : (setBank s b v).clk = s.clk := rfl
@[simp] theorem setBank_out (s : State) (b : BankId) (v : Bank) : (setBank s b v).out = s.out := rfl
@[simp] theorem setBank_free (s : State) (b : BankId) (v : Bank) : (setBank s b v).free = s.free := rfl
@[simp] theorem setBank_pending (s : State) (b : BankId) (v : Bank) : (setBank s b v).pending = s.pending := rfl

/-! ### setScr -/

@[simp] theorem setScr_dict (s : State) (b : Nat) (v : ScrBank) : (setScr s b v).dict = s.dict := rfl
@[simp] theorem setScr_host (s : State) (b : Nat) (v : ScrBank) : (setScr s b v).host = s.host := rfl
@[simp] theorem setScr_turn (s : State) (b : Nat) (v : ScrBank) : (setScr s b v).turn = s.turn := rfl
@[simp] theorem setScr_adm (s : State) (b : Nat) (v : ScrBank) : (setScr s b v).adm = s.adm := rfl
@[simp] theorem setScr_comp (s : State) (b : Nat) (v : ScrBank) : (setScr s b v).comp = s.comp := rfl
@[simp] theorem setScr_images (s : State) (b : Nat) (v : ScrBank) : (setScr s b v).images = s.images := rfl
@[simp] theorem setScr_remotes (s : State) (b : Nat) (v : ScrBank) : (setScr s b v).remotes = s.remotes := rfl
@[simp] theorem setScr_acts (s : State) (b : Nat) (v : ScrBank) : (setScr s b v).acts = s.acts := rfl
@[simp] theorem setScr_streams (s : State) (b : Nat) (v : ScrBank) : (setScr s b v).streams = s.streams := rfl
@[simp] theorem setScr_remoteStats (s : State) (b : Nat) (v : ScrBank) : (setScr s b v).remoteStats = s.remoteStats := rfl
@[simp] theorem setScr_colls (s : State) (b : Nat) (v : ScrBank) : (setScr s b v).colls = s.colls := rfl
@[simp] theorem setScr_lists (s : State) (b : Nat) (v : ScrBank) : (setScr s b v).lists = s.lists := rfl
@[simp] theorem setScr_queries (s : State) (b : Nat) (v : ScrBank) : (setScr s b v).queries = s.queries := rfl
@[simp] theorem setScr_units (s : State) (b : Nat) (v : ScrBank) : (setScr s b v).units = s.units := rfl
@[simp] theorem setScr_nextUnit (s : State) (b : Nat) (v : ScrBank) : (setScr s b v).nextUnit = s.nextUnit := rfl
@[simp] theorem setScr_smem (s : State) (b : Nat) (v : ScrBank) : (setScr s b v).smem = s.smem := rfl
@[simp] theorem setScr_way (s : State) (b : Nat) (v : ScrBank) : (setScr s b v).way = s.way := rfl
@[simp] theorem setScr_ing (s : State) (b : Nat) (v : ScrBank) : (setScr s b v).ing = s.ing := rfl
@[simp] theorem setScr_place (s : State) (b : Nat) (v : ScrBank) : (setScr s b v).place = s.place := rfl
@[simp] theorem setScr_scratch_cells (s : State) (b : Nat) (v : ScrBank) : (setScr s b v).scratch.cells = s.scratch.cells := rfl
@[simp] theorem setScr_scratch_bad (s : State) (b : Nat) (v : ScrBank) : (setScr s b v).scratch.bad = s.scratch.bad := rfl
@[simp] theorem setScr_scratch_fuses (s : State) (b : Nat) (v : ScrBank) : (setScr s b v).scratch.fuses = s.scratch.fuses := rfl
@[simp] theorem setScr_scratch_soft (s : State) (b : Nat) (v : ScrBank) : (setScr s b v).scratch.soft = s.scratch.soft := rfl
@[simp] theorem setScr_scratch_steered (s : State) (b : Nat) (v : ScrBank) : (setScr s b v).scratch.steered = s.scratch.steered := rfl
@[simp] theorem setScr_flash (s : State) (b : Nat) (v : ScrBank) : (setScr s b v).flash = s.flash := rfl
@[simp] theorem setScr_fab (s : State) (b : Nat) (v : ScrBank) : (setScr s b v).fab = s.fab := rfl
@[simp] theorem setScr_ledger (s : State) (b : Nat) (v : ScrBank) : (setScr s b v).ledger = s.ledger := rfl
@[simp] theorem setScr_bslots (s : State) (b : Nat) (v : ScrBank) : (setScr s b v).bslots = s.bslots := rfl
@[simp] theorem setScr_nv (s : State) (b : Nat) (v : ScrBank) : (setScr s b v).nv = s.nv := rfl
@[simp] theorem setScr_sec (s : State) (b : Nat) (v : ScrBank) : (setScr s b v).sec = s.sec := rfl
@[simp] theorem setScr_ras (s : State) (b : Nat) (v : ScrBank) : (setScr s b v).ras = s.ras := rfl
@[simp] theorem setScr_clk (s : State) (b : Nat) (v : ScrBank) : (setScr s b v).clk = s.clk := rfl
@[simp] theorem setScr_out (s : State) (b : Nat) (v : ScrBank) : (setScr s b v).out = s.out := rfl
@[simp] theorem setScr_free (s : State) (b : Nat) (v : ScrBank) : (setScr s b v).free = s.free := rfl
@[simp] theorem setScr_pending (s : State) (b : Nat) (v : ScrBank) : (setScr s b v).pending = s.pending := rfl

/-! ### setPort -/

@[simp] theorem setPort_dict (s : State) (p : Nat) (v : Port) : (setPort s p v).dict = s.dict := rfl
@[simp] theorem setPort_host (s : State) (p : Nat) (v : Port) : (setPort s p v).host = s.host := rfl
@[simp] theorem setPort_turn (s : State) (p : Nat) (v : Port) : (setPort s p v).turn = s.turn := rfl
@[simp] theorem setPort_adm (s : State) (p : Nat) (v : Port) : (setPort s p v).adm = s.adm := rfl
@[simp] theorem setPort_comp (s : State) (p : Nat) (v : Port) : (setPort s p v).comp = s.comp := rfl
@[simp] theorem setPort_images (s : State) (p : Nat) (v : Port) : (setPort s p v).images = s.images := rfl
@[simp] theorem setPort_remotes (s : State) (p : Nat) (v : Port) : (setPort s p v).remotes = s.remotes := rfl
@[simp] theorem setPort_acts (s : State) (p : Nat) (v : Port) : (setPort s p v).acts = s.acts := rfl
@[simp] theorem setPort_streams (s : State) (p : Nat) (v : Port) : (setPort s p v).streams = s.streams := rfl
@[simp] theorem setPort_remoteStats (s : State) (p : Nat) (v : Port) : (setPort s p v).remoteStats = s.remoteStats := rfl
@[simp] theorem setPort_colls (s : State) (p : Nat) (v : Port) : (setPort s p v).colls = s.colls := rfl
@[simp] theorem setPort_lists (s : State) (p : Nat) (v : Port) : (setPort s p v).lists = s.lists := rfl
@[simp] theorem setPort_queries (s : State) (p : Nat) (v : Port) : (setPort s p v).queries = s.queries := rfl
@[simp] theorem setPort_units (s : State) (p : Nat) (v : Port) : (setPort s p v).units = s.units := rfl
@[simp] theorem setPort_nextUnit (s : State) (p : Nat) (v : Port) : (setPort s p v).nextUnit = s.nextUnit := rfl
@[simp] theorem setPort_smem (s : State) (p : Nat) (v : Port) : (setPort s p v).smem = s.smem := rfl
@[simp] theorem setPort_way (s : State) (p : Nat) (v : Port) : (setPort s p v).way = s.way := rfl
@[simp] theorem setPort_ing (s : State) (p : Nat) (v : Port) : (setPort s p v).ing = s.ing := rfl
@[simp] theorem setPort_place (s : State) (p : Nat) (v : Port) : (setPort s p v).place = s.place := rfl
@[simp] theorem setPort_scratch (s : State) (p : Nat) (v : Port) : (setPort s p v).scratch = s.scratch := rfl
@[simp] theorem setPort_flash (s : State) (p : Nat) (v : Port) : (setPort s p v).flash = s.flash := rfl
@[simp] theorem setPort_ledger (s : State) (p : Nat) (v : Port) : (setPort s p v).ledger = s.ledger := rfl
@[simp] theorem setPort_bslots (s : State) (p : Nat) (v : Port) : (setPort s p v).bslots = s.bslots := rfl
@[simp] theorem setPort_nv (s : State) (p : Nat) (v : Port) : (setPort s p v).nv = s.nv := rfl
@[simp] theorem setPort_sec (s : State) (p : Nat) (v : Port) : (setPort s p v).sec = s.sec := rfl
@[simp] theorem setPort_ras (s : State) (p : Nat) (v : Port) : (setPort s p v).ras = s.ras := rfl
@[simp] theorem setPort_clk (s : State) (p : Nat) (v : Port) : (setPort s p v).clk = s.clk := rfl
@[simp] theorem setPort_out (s : State) (p : Nat) (v : Port) : (setPort s p v).out = s.out := rfl
@[simp] theorem setPort_free (s : State) (p : Nat) (v : Port) : (setPort s p v).free = s.free := rfl
@[simp] theorem setPort_pending (s : State) (p : Nat) (v : Port) : (setPort s p v).pending = s.pending := rfl

/-! ### setBslot -/

@[simp] theorem setBslot_dict (s : State) (n : Nat) (v : BSlot) : (setBslot s n v).dict = s.dict := rfl
@[simp] theorem setBslot_host (s : State) (n : Nat) (v : BSlot) : (setBslot s n v).host = s.host := rfl
@[simp] theorem setBslot_turn (s : State) (n : Nat) (v : BSlot) : (setBslot s n v).turn = s.turn := rfl
@[simp] theorem setBslot_adm (s : State) (n : Nat) (v : BSlot) : (setBslot s n v).adm = s.adm := rfl
@[simp] theorem setBslot_comp (s : State) (n : Nat) (v : BSlot) : (setBslot s n v).comp = s.comp := rfl
@[simp] theorem setBslot_images (s : State) (n : Nat) (v : BSlot) : (setBslot s n v).images = s.images := rfl
@[simp] theorem setBslot_remotes (s : State) (n : Nat) (v : BSlot) : (setBslot s n v).remotes = s.remotes := rfl
@[simp] theorem setBslot_acts (s : State) (n : Nat) (v : BSlot) : (setBslot s n v).acts = s.acts := rfl
@[simp] theorem setBslot_streams (s : State) (n : Nat) (v : BSlot) : (setBslot s n v).streams = s.streams := rfl
@[simp] theorem setBslot_remoteStats (s : State) (n : Nat) (v : BSlot) : (setBslot s n v).remoteStats = s.remoteStats := rfl
@[simp] theorem setBslot_colls (s : State) (n : Nat) (v : BSlot) : (setBslot s n v).colls = s.colls := rfl
@[simp] theorem setBslot_lists (s : State) (n : Nat) (v : BSlot) : (setBslot s n v).lists = s.lists := rfl
@[simp] theorem setBslot_queries (s : State) (n : Nat) (v : BSlot) : (setBslot s n v).queries = s.queries := rfl
@[simp] theorem setBslot_units (s : State) (n : Nat) (v : BSlot) : (setBslot s n v).units = s.units := rfl
@[simp] theorem setBslot_nextUnit (s : State) (n : Nat) (v : BSlot) : (setBslot s n v).nextUnit = s.nextUnit := rfl
@[simp] theorem setBslot_smem (s : State) (n : Nat) (v : BSlot) : (setBslot s n v).smem = s.smem := rfl
@[simp] theorem setBslot_way (s : State) (n : Nat) (v : BSlot) : (setBslot s n v).way = s.way := rfl
@[simp] theorem setBslot_ing (s : State) (n : Nat) (v : BSlot) : (setBslot s n v).ing = s.ing := rfl
@[simp] theorem setBslot_place (s : State) (n : Nat) (v : BSlot) : (setBslot s n v).place = s.place := rfl
@[simp] theorem setBslot_scratch (s : State) (n : Nat) (v : BSlot) : (setBslot s n v).scratch = s.scratch := rfl
@[simp] theorem setBslot_flash (s : State) (n : Nat) (v : BSlot) : (setBslot s n v).flash = s.flash := rfl
@[simp] theorem setBslot_fab (s : State) (n : Nat) (v : BSlot) : (setBslot s n v).fab = s.fab := rfl
@[simp] theorem setBslot_ledger (s : State) (n : Nat) (v : BSlot) : (setBslot s n v).ledger = s.ledger := rfl
@[simp] theorem setBslot_nv (s : State) (n : Nat) (v : BSlot) : (setBslot s n v).nv = s.nv := rfl
@[simp] theorem setBslot_sec (s : State) (n : Nat) (v : BSlot) : (setBslot s n v).sec = s.sec := rfl
@[simp] theorem setBslot_ras (s : State) (n : Nat) (v : BSlot) : (setBslot s n v).ras = s.ras := rfl
@[simp] theorem setBslot_clk (s : State) (n : Nat) (v : BSlot) : (setBslot s n v).clk = s.clk := rfl
@[simp] theorem setBslot_out (s : State) (n : Nat) (v : BSlot) : (setBslot s n v).out = s.out := rfl
@[simp] theorem setBslot_free (s : State) (n : Nat) (v : BSlot) : (setBslot s n v).free = s.free := rfl
@[simp] theorem setBslot_pending (s : State) (n : Nat) (v : BSlot) : (setBslot s n v).pending = s.pending := rfl

/-! ### setBucket -/

@[simp] theorem setBucket_dict (s : State) (m : Nat) (b : Bucket) : (setBucket s m b).dict = s.dict := rfl
@[simp] theorem setBucket_host (s : State) (m : Nat) (b : Bucket) : (setBucket s m b).host = s.host := rfl
@[simp] theorem setBucket_turn (s : State) (m : Nat) (b : Bucket) : (setBucket s m b).turn = s.turn := rfl
@[simp] theorem setBucket_comp (s : State) (m : Nat) (b : Bucket) : (setBucket s m b).comp = s.comp := rfl
@[simp] theorem setBucket_images (s : State) (m : Nat) (b : Bucket) : (setBucket s m b).images = s.images := rfl
@[simp] theorem setBucket_remotes (s : State) (m : Nat) (b : Bucket) : (setBucket s m b).remotes = s.remotes := rfl
@[simp] theorem setBucket_acts (s : State) (m : Nat) (b : Bucket) : (setBucket s m b).acts = s.acts := rfl
@[simp] theorem setBucket_streams (s : State) (m : Nat) (b : Bucket) : (setBucket s m b).streams = s.streams := rfl
@[simp] theorem setBucket_remoteStats (s : State) (m : Nat) (b : Bucket) : (setBucket s m b).remoteStats = s.remoteStats := rfl
@[simp] theorem setBucket_colls (s : State) (m : Nat) (b : Bucket) : (setBucket s m b).colls = s.colls := rfl
@[simp] theorem setBucket_lists (s : State) (m : Nat) (b : Bucket) : (setBucket s m b).lists = s.lists := rfl
@[simp] theorem setBucket_queries (s : State) (m : Nat) (b : Bucket) : (setBucket s m b).queries = s.queries := rfl
@[simp] theorem setBucket_units (s : State) (m : Nat) (b : Bucket) : (setBucket s m b).units = s.units := rfl
@[simp] theorem setBucket_nextUnit (s : State) (m : Nat) (b : Bucket) : (setBucket s m b).nextUnit = s.nextUnit := rfl
@[simp] theorem setBucket_smem (s : State) (m : Nat) (b : Bucket) : (setBucket s m b).smem = s.smem := rfl
@[simp] theorem setBucket_way (s : State) (m : Nat) (b : Bucket) : (setBucket s m b).way = s.way := rfl
@[simp] theorem setBucket_ing (s : State) (m : Nat) (b : Bucket) : (setBucket s m b).ing = s.ing := rfl
@[simp] theorem setBucket_place (s : State) (m : Nat) (b : Bucket) : (setBucket s m b).place = s.place := rfl
@[simp] theorem setBucket_scratch (s : State) (m : Nat) (b : Bucket) : (setBucket s m b).scratch = s.scratch := rfl
@[simp] theorem setBucket_flash (s : State) (m : Nat) (b : Bucket) : (setBucket s m b).flash = s.flash := rfl
@[simp] theorem setBucket_fab (s : State) (m : Nat) (b : Bucket) : (setBucket s m b).fab = s.fab := rfl
@[simp] theorem setBucket_ledger (s : State) (m : Nat) (b : Bucket) : (setBucket s m b).ledger = s.ledger := rfl
@[simp] theorem setBucket_bslots (s : State) (m : Nat) (b : Bucket) : (setBucket s m b).bslots = s.bslots := rfl
@[simp] theorem setBucket_nv (s : State) (m : Nat) (b : Bucket) : (setBucket s m b).nv = s.nv := rfl
@[simp] theorem setBucket_sec (s : State) (m : Nat) (b : Bucket) : (setBucket s m b).sec = s.sec := rfl
@[simp] theorem setBucket_ras (s : State) (m : Nat) (b : Bucket) : (setBucket s m b).ras = s.ras := rfl
@[simp] theorem setBucket_clk (s : State) (m : Nat) (b : Bucket) : (setBucket s m b).clk = s.clk := rfl
@[simp] theorem setBucket_out (s : State) (m : Nat) (b : Bucket) : (setBucket s m b).out = s.out := rfl
@[simp] theorem setBucket_free (s : State) (m : Nat) (b : Bucket) : (setBucket s m b).free = s.free := rfl
@[simp] theorem setBucket_pending (s : State) (m : Nat) (b : Bucket) : (setBucket s m b).pending = s.pending := rfl

/-! ### What was written is read back -/

@[simp] theorem emit_out (s : State) (o : Output) : (emit s o).out = s.out ++ [o] := rfl
@[simp] theorem send_fab_out (s : State) (d : Nat) (x : Sect) : (send s d x).fab.out = s.fab.out ++ [(d, x)] := rfl
@[simp] theorem setPhase_turn_phase (s : State) (p : Phase) : (setPhase s p).turn.phase = p := rfl
@[simp] theorem shadowPush_turn_shadow (s : State) (c : Shadow) : (shadowPush s c).turn.shadow = s.turn.shadow ++ [c] := rfl

end Sys2Proof.Machine
end

