-- ==== Sys2Proof/Laws/Events.lean ====
section
/-! SUPPORT. What posting an event leaves as it was, and what it writes: ERROR_LOG, the events that wait for EVENT queues and the
count of those lost. -/

namespace Sys2Proof.Machine

/-- What every step of a fold keeps, the fold keeps. -/
theorem foldl_keeps {α β : Type} (f : State → α → State) (g : State → β) (h : ∀ s a, g (f s a) = g s) (l : List α) (s : State) :
    g (l.foldl f s) = g s := by
  induction l generalizing s with
  | nil => rfl
  | cons a l ih => rw [List.foldl_cons, ih, h]

/-- Offering an event to one queue keeps what neither the queues nor the events nor the counters hold. -/
theorem offerEvent_keeps {β : Type} (g : State → β) (hb : ∀ s a n, g (bump s a n) = g s) (hq : ∀ s q v, g (setQ s q v) = g s)
    (he : ∀ (s : State) l, g { s with host := { s.host with events := l } } = g s) (e : Event) (s : State) (q : Nat) :
    g (offerEvent e s q) = g s := by
  unfold offerEvent
  dsimp only
  split
  · rfl
  · split
    · rw [hb, hq]
    · rw [he, hq]

/-- Posting an event keeps what is neither the log nor the queues nor the events nor the counters. -/
theorem postEvent_keeps {β : Type} (g : State → β) (hb : ∀ s a n, g (bump s a n) = g s) (hq : ∀ s q v, g (setQ s q v) = g s)
    (he : ∀ (s : State) l, g { s with host := { s.host with events := l } } = g s) (hl : ∀ s e, g (logEvent s e) = g s)
    (s : State) (c d : Nat) : g (postEvent s c d) = g s := by
  unfold postEvent
  dsimp only
  rw [foldl_keeps (offerEvent _) g (fun s a => offerEvent_keeps g hb hq he _ s a), hl]

/-- Posting an event writes the log and nothing else of what survives a loss of power. -/
theorem postEvent_nv (s : State) (c d : Nat) : (postEvent s c d).nv = (logEvent s { code := c, turn := s.turn.no, detail := d }).nv := by
  unfold postEvent
  dsimp only
  rw [foldl_keeps (offerEvent _) (fun s => s.nv)
    (fun s a => offerEvent_keeps _ (fun _ _ _ => rfl) (fun _ _ _ => rfl) (fun _ _ => rfl) _ s a)]

/-- The event is entered in the log. -/
theorem postEvent_logged (s : State) (c d : Nat) : Logged s (postEvent s c d) c d := by
  unfold Logged
  rw [postEvent_nv]
  rfl

@[simp] theorem postEvent_turn (s : State) (c d : Nat) : (postEvent s c d).turn = s.turn :=
  postEvent_keeps (fun s : State => s.turn) (fun _ _ _ => rfl) (fun _ _ _ => rfl) (fun _ _ => rfl) (fun _ _ => rfl) s c d
@[simp] theorem postEvent_ras (s : State) (c d : Nat) : (postEvent s c d).ras = s.ras :=
  postEvent_keeps (fun s : State => s.ras) (fun _ _ _ => rfl) (fun _ _ _ => rfl) (fun _ _ => rfl) (fun _ _ => rfl) s c d
@[simp] theorem postEvent_fab (s : State) (c d : Nat) : (postEvent s c d).fab = s.fab :=
  postEvent_keeps (fun s : State => s.fab) (fun _ _ _ => rfl) (fun _ _ _ => rfl) (fun _ _ => rfl) (fun _ _ => rfl) s c d
@[simp] theorem postEvent_ledger (s : State) (c d : Nat) : (postEvent s c d).ledger = s.ledger :=
  postEvent_keeps (fun s : State => s.ledger) (fun _ _ _ => rfl) (fun _ _ _ => rfl) (fun _ _ => rfl) (fun _ _ => rfl) s c d
@[simp] theorem postEvent_out (s : State) (c d : Nat) : (postEvent s c d).out = s.out :=
  postEvent_keeps (fun s : State => s.out) (fun _ _ _ => rfl) (fun _ _ _ => rfl) (fun _ _ => rfl) (fun _ _ => rfl) s c d
@[simp] theorem postEvent_clk (s : State) (c d : Nat) : (postEvent s c d).clk = s.clk :=
  postEvent_keeps (fun s : State => s.clk) (fun _ _ _ => rfl) (fun _ _ _ => rfl) (fun _ _ => rfl) (fun _ _ => rfl) s c d
@[simp] theorem postEvent_flash (s : State) (c d : Nat) : (postEvent s c d).flash = s.flash :=
  postEvent_keeps (fun s : State => s.flash) (fun _ _ _ => rfl) (fun _ _ _ => rfl) (fun _ _ => rfl) (fun _ _ => rfl) s c d
@[simp] theorem postEvent_bslots (s : State) (c d : Nat) : (postEvent s c d).bslots = s.bslots :=
  postEvent_keeps (fun s : State => s.bslots) (fun _ _ _ => rfl) (fun _ _ _ => rfl) (fun _ _ => rfl) (fun _ _ => rfl) s c d
@[simp] theorem postEvent_sec (s : State) (c d : Nat) : (postEvent s c d).sec = s.sec :=
  postEvent_keeps (fun s : State => s.sec) (fun _ _ _ => rfl) (fun _ _ _ => rfl) (fun _ _ => rfl) (fun _ _ => rfl) s c d
@[simp] theorem postEvent_smem (s : State) (c d : Nat) : (postEvent s c d).smem = s.smem :=
  postEvent_keeps (fun s : State => s.smem) (fun _ _ _ => rfl) (fun _ _ _ => rfl) (fun _ _ => rfl) (fun _ _ => rfl) s c d
@[simp] theorem postEvent_scratch (s : State) (c d : Nat) : (postEvent s c d).scratch = s.scratch :=
  postEvent_keeps (fun s : State => s.scratch) (fun _ _ _ => rfl) (fun _ _ _ => rfl) (fun _ _ => rfl) (fun _ _ => rfl) s c d
@[simp] theorem postEvent_lists (s : State) (c d : Nat) : (postEvent s c d).lists = s.lists :=
  postEvent_keeps (fun s : State => s.lists) (fun _ _ _ => rfl) (fun _ _ _ => rfl) (fun _ _ => rfl) (fun _ _ => rfl) s c d
@[simp] theorem postEvent_colls (s : State) (c d : Nat) : (postEvent s c d).colls = s.colls :=
  postEvent_keeps (fun s : State => s.colls) (fun _ _ _ => rfl) (fun _ _ _ => rfl) (fun _ _ => rfl) (fun _ _ => rfl) s c d
@[simp] theorem postEvent_queries (s : State) (c d : Nat) : (postEvent s c d).queries = s.queries :=
  postEvent_keeps (fun s : State => s.queries) (fun _ _ _ => rfl) (fun _ _ _ => rfl) (fun _ _ => rfl) (fun _ _ => rfl) s c d
@[simp] theorem postEvent_units (s : State) (c d : Nat) : (postEvent s c d).units = s.units :=
  postEvent_keeps (fun s : State => s.units) (fun _ _ _ => rfl) (fun _ _ _ => rfl) (fun _ _ => rfl) (fun _ _ => rfl) s c d
@[simp] theorem postEvent_images (s : State) (c d : Nat) : (postEvent s c d).images = s.images :=
  postEvent_keeps (fun s : State => s.images) (fun _ _ _ => rfl) (fun _ _ _ => rfl) (fun _ _ => rfl) (fun _ _ => rfl) s c d
@[simp] theorem postEvent_comp (s : State) (c d : Nat) : (postEvent s c d).comp = s.comp :=
  postEvent_keeps (fun s : State => s.comp) (fun _ _ _ => rfl) (fun _ _ _ => rfl) (fun _ _ => rfl) (fun _ _ => rfl) s c d
@[simp] theorem postEvent_adm (s : State) (c d : Nat) : (postEvent s c d).adm = s.adm :=
  postEvent_keeps (fun s : State => s.adm) (fun _ _ _ => rfl) (fun _ _ _ => rfl) (fun _ _ => rfl) (fun _ _ => rfl) s c d
@[simp] theorem postEvent_ing (s : State) (c d : Nat) : (postEvent s c d).ing = s.ing :=
  postEvent_keeps (fun s : State => s.ing) (fun _ _ _ => rfl) (fun _ _ _ => rfl) (fun _ _ => rfl) (fun _ _ => rfl) s c d
@[simp] theorem postEvent_place (s : State) (c d : Nat) : (postEvent s c d).place = s.place :=
  postEvent_keeps (fun s : State => s.place) (fun _ _ _ => rfl) (fun _ _ _ => rfl) (fun _ _ => rfl) (fun _ _ => rfl) s c d
@[simp] theorem postEvent_way (s : State) (c d : Nat) : (postEvent s c d).way = s.way :=
  postEvent_keeps (fun s : State => s.way) (fun _ _ _ => rfl) (fun _ _ _ => rfl) (fun _ _ => rfl) (fun _ _ => rfl) s c d
@[simp] theorem postEvent_remotes (s : State) (c d : Nat) : (postEvent s c d).remotes = s.remotes :=
  postEvent_keeps (fun s : State => s.remotes) (fun _ _ _ => rfl) (fun _ _ _ => rfl) (fun _ _ => rfl) (fun _ _ => rfl) s c d
@[simp] theorem postEvent_acts (s : State) (c d : Nat) : (postEvent s c d).acts = s.acts :=
  postEvent_keeps (fun s : State => s.acts) (fun _ _ _ => rfl) (fun _ _ _ => rfl) (fun _ _ => rfl) (fun _ _ => rfl) s c d
@[simp] theorem postEvent_pending (s : State) (c d : Nat) : (postEvent s c d).pending = s.pending :=
  postEvent_keeps (fun s : State => s.pending) (fun _ _ _ => rfl) (fun _ _ _ => rfl) (fun _ _ => rfl) (fun _ _ => rfl) s c d
@[simp] theorem postEvent_free (s : State) (c d : Nat) : (postEvent s c d).free = s.free :=
  postEvent_keeps (fun s : State => s.free) (fun _ _ _ => rfl) (fun _ _ _ => rfl) (fun _ _ => rfl) (fun _ _ => rfl) s c d
@[simp] theorem postEvent_dict_objs (s : State) (c d : Nat) : (postEvent s c d).dict.objs = s.dict.objs :=
  postEvent_keeps (fun s : State => s.dict.objs) (fun _ _ _ => rfl) (fun _ _ _ => rfl) (fun _ _ => rfl) (fun _ _ => rfl) s c d
@[simp] theorem postEvent_dict_doms (s : State) (c d : Nat) : (postEvent s c d).dict.doms = s.dict.doms :=
  postEvent_keeps (fun s : State => s.dict.doms) (fun _ _ _ => rfl) (fun _ _ _ => rfl) (fun _ _ => rfl) (fun _ _ => rfl) s c d
@[simp] theorem postEvent_dict_reqs (s : State) (c d : Nat) : (postEvent s c d).dict.reqs = s.dict.reqs :=
  postEvent_keeps (fun s : State => s.dict.reqs) (fun _ _ _ => rfl) (fun _ _ _ => rfl) (fun _ _ => rfl) (fun _ _ => rfl) s c d
@[simp] theorem postEvent_dict_mb (s : State) (c d : Nat) : (postEvent s c d).dict.mb = s.dict.mb :=
  postEvent_keeps (fun s : State => s.dict.mb) (fun _ _ _ => rfl) (fun _ _ _ => rfl) (fun _ _ => rfl) (fun _ _ => rfl) s c d
@[simp] theorem postEvent_dict_commits (s : State) (c d : Nat) : (postEvent s c d).dict.commits = s.dict.commits :=
  postEvent_keeps (fun s : State => s.dict.commits) (fun _ _ _ => rfl) (fun _ _ _ => rfl) (fun _ _ => rfl) (fun _ _ => rfl) s c d
@[simp] theorem postEvent_dict_served (s : State) (c d : Nat) : (postEvent s c d).dict.served = s.dict.served :=
  postEvent_keeps (fun s : State => s.dict.served) (fun _ _ _ => rfl) (fun _ _ _ => rfl) (fun _ _ => rfl) (fun _ _ => rfl) s c d
@[simp] theorem postEvent_host_session (s : State) (c d : Nat) : (postEvent s c d).host.session = s.host.session :=
  postEvent_keeps (fun s : State => s.host.session) (fun _ _ _ => rfl) (fun _ _ _ => rfl) (fun _ _ => rfl) (fun _ _ => rfl) s c d
@[simp] theorem postEvent_host_ide (s : State) (c d : Nat) : (postEvent s c d).host.ide = s.host.ide :=
  postEvent_keeps (fun s : State => s.host.ide) (fun _ _ _ => rfl) (fun _ _ _ => rfl) (fun _ _ => rfl) (fun _ _ => rfl) s c d
@[simp] theorem postEvent_host_doeResp (s : State) (c d : Nat) : (postEvent s c d).host.doeResp = s.host.doeResp :=
  postEvent_keeps (fun s : State => s.host.doeResp) (fun _ _ _ => rfl) (fun _ _ _ => rfl) (fun _ _ => rfl) (fun _ _ => rfl) s c d
@[simp] theorem postEvent_host_linkUp (s : State) (c d : Nat) : (postEvent s c d).host.linkUp = s.host.linkUp :=
  postEvent_keeps (fun s : State => s.host.linkUp) (fun _ _ _ => rfl) (fun _ _ _ => rfl) (fun _ _ => rfl) (fun _ _ => rfl) s c d
@[simp] theorem postEvent_host_results (s : State) (c d : Nat) : (postEvent s c d).host.results = s.host.results :=
  postEvent_keeps (fun s : State => s.host.results) (fun _ _ _ => rfl) (fun _ _ _ => rfl) (fun _ _ => rfl) (fun _ _ => rfl) s c d
@[simp] theorem postEvent_host_fetched (s : State) (c d : Nat) : (postEvent s c d).host.fetched = s.host.fetched :=
  postEvent_keeps (fun s : State => s.host.fetched) (fun _ _ _ => rfl) (fun _ _ _ => rfl) (fun _ _ => rfl) (fun _ _ => rfl) s c d
@[simp] theorem getObj_postEvent (s : State) (c d a : Nat) : getObj (postEvent s c d) a = getObj s a := by
  unfold getObj
  rw [postEvent_dict_objs]
/-- Only the count of lost events may wait for P5 that did not before. -/
theorem waitingCount_postEvent (s : State) (c d : Nat) {a : Nat} (h : a ≠ Obj.EVENTS_LOST) :
    waitingCount (postEvent s c d) a = waitingCount s a := by
  unfold postEvent
  dsimp only
  rw [foldl_keeps (offerEvent _) (fun s => waitingCount s a)]
  · rfl
  · intro s q
    unfold offerEvent
    dsimp only
    split
    · rfl
    · split
      · rw [waitingCount_bump_ne _ _ h]
        rfl
      · rfl

end Sys2Proof.Machine
end

