-- ==== Sys2Proof/Laws/Frame.lean ====
section
/-! SUPPORT. Frames compose: how the parts a state update writes add up over sequence, choice and iteration, and one frame lemma
for each shape of record update of the model. -/

namespace Sys2Proof.Machine

open Sys2Proof

theorem Frame.refl (w s) : Frame w s s := ⟨by intro p _; cases p <;> simp [Part.same]⟩

theorem Part.same_trans {p : Part} {s t u : State} (h : p.same s t) (g : p.same t u) : p.same s u := by
  cases p <;> simp_all [Part.same]

theorem Frame.then {w v : List Part} {s t u : State} (h : Frame w s t) (g : Frame v t u) (hs : subParts v w = true) :
    Frame w s u := by
  refine ⟨fun p hp => Part.same_trans (h.keep p hp) (g.keep p ?_)⟩
  unfold subParts at hs
  rw [List.all_eq_true] at hs
  cases hv : v.contains p
  · rfl
  · have := hs p (by simpa using hv)
    rw [this] at hp; exact hp

theorem subParts_refl (w : List Part) : subParts w w = true := by simp [subParts]

theorem subParts_trans {a b c : List Part} (h : subParts a b = true) (g : subParts b c = true) : subParts a c = true := by
  simp only [subParts, List.all_eq_true, List.contains_iff_mem] at *
  exact fun p hp => g p (h p hp)

theorem Frame.foldl {α : Type} {w : List Part} {s i : State} {F : State → α → State} {l : List α}
    (h : Frame w s i) (hF : ∀ t a, Frame w t (F t a)) : Frame w s (l.foldl F i) := by
  induction l generalizing i with
  | nil => exact h
  | cons a l ih => exact ih (h.then (hF i a) (by simp [subParts]))

theorem Frame.foldl1 {α β : Type} {w : List Part} {s : State} {i : State × β} {F : State × β → α → State × β} {l : List α}
    (h : Frame w s i.1) (hF : ∀ t a, Frame w t.1 (F t a).1) : Frame w s (l.foldl F i).1 := by
  induction l generalizing i with
  | nil => exact h
  | cons a l ih => exact ih (h.then (hF i a) (by simp [subParts]))

theorem Frame.foldlA {α : Type} {w : List Part} {s : State} {i : Adm1} {F : Adm1 → α → Adm1} {l : List α}
    (h : Frame w s i.s) (hF : ∀ t a, Frame w t.s (F t a).s) : Frame w s (l.foldl F i).s := by
  induction l generalizing i with
  | nil => exact h
  | cons a l ih => exact ih (h.then (hF i a) (by simp [subParts]))

theorem Frame.foldlA1 {α β : Type} {w : List Part} {s : State} {i : Adm1 × β} {F : Adm1 × β → α → Adm1 × β} {l : List α}
    (h : Frame w s i.1.s) (hF : ∀ t a, Frame w t.1.s (F t a).1.s) : Frame w s (l.foldl F i).1.s := by
  induction l generalizing i with
  | nil => exact h
  | cons a l ih => exact ih (h.then (hF i a) (by simp [subParts]))

theorem Frame.ite {w : List Part} {s a b : State} {c : Prop} [Decidable c] (h : Frame w s a) (g : Frame w s b) :
    Frame w s (if c then a else b) := by split <;> assumption

theorem Frame.ite1 {β : Type} {w : List Part} {s : State} {a b : State × β} {c : Prop} [Decidable c] (h : Frame w s a.1)
    (g : Frame w s b.1) : Frame w s (if c then a else b).1 := by split <;> assumption

theorem Frame.iteA {w : List Part} {s : State} {a b : Adm1} {c : Prop} [Decidable c] (h : Frame w s a.s)
    (g : Frame w s b.s) : Frame w s (if c then a else b).s := by split <;> assumption

theorem Frame.iteA1 {β : Type} {w : List Part} {s : State} {a b : Adm1 × β} {c : Prop} [Decidable c] (h : Frame w s a.1.s)
    (g : Frame w s b.1.s) : Frame w s (if c then a else b).1.s := by split <;> assumption

/-! ### Record updates -/

theorem frame_set_dict_readyObj_and_5_more {e : State} {readyObj tenant scrubPending switches minSvn clk} :
    Frame [.dictMisc, .tenancy, .nvMisc, .clk] e { e with dict := { e.dict with readyObj := readyObj }, nv := { e.nv with tenant := tenant, scrubPending := scrubPending, switches := switches, minSvn := minSvn }, clk := clk } :=
  ⟨fun p hp => by cases p <;> first | exact absurd hp (by decide) | repeat' constructor⟩

theorem frame_set_dict_served_sec_clk {e : State} {served sec clk} :
    Frame [.dictMisc, .sec, .clk] e { e with dict := { e.dict with served := served }, sec := sec, clk := clk } :=
  ⟨fun p hp => by cases p <;> first | exact absurd hp (by decide) | repeat' constructor⟩

theorem frame_set_dict_mb_and_26_more {e : State} {x_dict_mb x_host_linkUp x_host_rate x_host_width x_host_degraded x_host_perstLow x_host_bar2Base x_host_bar2Size x_host_mps x_host_mrrs x_host_aer x_host_doorbellDrops x_host_bar2Drops x_host_fetchErrors x_host_msixBytes x_host_pba x_host_queues x_host_fetched x_host_results x_host_events x_host_kept x_host_tries x_host_ide x_host_ideSet x_host_ideAssoc x_host_session x_host_doeResp} :
    Frame [.mailbox, .link, .hostRegs, .queues, .rings, .doe] e (State.mk (Dict.mk e.dict.objs e.dict.doms e.dict.was e.dict.ctrPend e.dict.reqs e.dict.commits x_dict_mb e.dict.served e.dict.readyObj) (HostIf.mk x_host_linkUp x_host_rate x_host_width x_host_degraded x_host_perstLow x_host_bar2Base x_host_bar2Size x_host_mps x_host_mrrs x_host_aer x_host_doorbellDrops x_host_bar2Drops x_host_fetchErrors x_host_msixBytes x_host_pba x_host_queues x_host_fetched x_host_results x_host_events x_host_kept x_host_tries x_host_ide x_host_ideSet x_host_ideAssoc x_host_session x_host_doeResp) e.turn e.adm e.comp e.images e.remotes e.acts e.streams e.remoteStats e.colls e.lists e.queries e.units e.nextUnit e.smem e.way e.ing e.place e.scratch e.flash e.fab e.ledger e.bslots e.nv e.sec e.ras e.clk e.out e.free e.pending) :=
  ⟨fun p hp => by cases p <;> first | exact absurd hp (by decide) | repeat' constructor⟩

theorem frame_set_dict_mb {e : State} {mb} :
    Frame [.mailbox] e { e with dict := { e.dict with mb := mb } } :=
  ⟨fun p hp => by cases p <;> first | exact absurd hp (by decide) | repeat' constructor⟩

theorem frame_set_dict_mb_dict_served_sec_ras {e : State} {mb served sec ras} :
    Frame [.mailbox, .dictMisc, .sec, .ras] e { e with dict := { e.dict with mb := mb, served := served }, sec := sec, ras := ras } :=
  ⟨fun p hp => by cases p <;> first | exact absurd hp (by decide) | repeat' constructor⟩

theorem frame_set_dict_commits {e : State} {commits} :
    Frame [.txns] e { e with dict := { e.dict with commits := commits } } :=
  ⟨fun p hp => by cases p <;> first | exact absurd hp (by decide) | repeat' constructor⟩

theorem frame_set_dict_reqs {e : State} {reqs} :
    Frame [.txns] e { e with dict := { e.dict with reqs := reqs } } :=
  ⟨fun p hp => by cases p <;> first | exact absurd hp (by decide) | repeat' constructor⟩

theorem frame_set_dict_reqs_and_4_more {e : State} {reqs served session doeResp ras} :
    Frame [.txns, .dictMisc, .doe, .ras] e { e with dict := { e.dict with reqs := reqs, served := served }, host := { e.host with session := session, doeResp := doeResp }, ras := ras } :=
  ⟨fun p hp => by cases p <;> first | exact absurd hp (by decide) | repeat' constructor⟩

theorem frame_set_dict_reqs_and_14_more {e : State} {reqs commits queues fetched no trips seqMissed withdraw comp images ing banks bslots sec clk} :
    Frame [.txns, .queues, .rings, .turnNo, .turnMisc, .comp, .images, .ing, .scrMisc, .bslots, .sec, .clk] e { e with dict := { e.dict with reqs := reqs, commits := commits }, host := { e.host with queues := queues, fetched := fetched }, turn := { e.turn with no := no, trips := trips, seqMissed := seqMissed, withdraw := withdraw }, comp := comp, images := images, ing := ing, scratch := { e.scratch with banks := banks }, bslots := bslots, sec := sec, clk := clk } :=
  ⟨fun p hp => by cases p <;> first | exact absurd hp (by decide) | repeat' constructor⟩

theorem frame_set_dict_ctrPend {e : State} {ctrPend} :
    Frame [.counters] e { e with dict := { e.dict with ctrPend := ctrPend } } :=
  ⟨fun p hp => by cases p <;> first | exact absurd hp (by decide) | repeat' constructor⟩

theorem frame_set_dict_was_and_21_more {e : State} {was queues trips seqMissed admitted yellowQ yellowI takenQ takenI gathersUsed placed plan selSteps bazSteps bridgeUsed fallbacks busUsed portUsed ing fab ras clk} :
    Frame [.dictMisc, .queues, .turnMisc, .ing, .fab, .ras, .clk] e { e with dict := { e.dict with was := was }, host := { e.host with queues := queues }, turn := { e.turn with trips := trips, seqMissed := seqMissed, admitted := admitted, yellowQ := yellowQ, yellowI := yellowI, takenQ := takenQ, takenI := takenI, gathersUsed := gathersUsed, placed := placed, plan := plan, selSteps := selSteps, bazSteps := bazSteps, bridgeUsed := bridgeUsed, fallbacks := fallbacks, busUsed := busUsed, portUsed := portUsed }, ing := ing, fab := fab, ras := ras, clk := clk } :=
  ⟨fun p hp => by cases p <;> first | exact absurd hp (by decide) | repeat' constructor⟩

theorem frame_set_dict_was {e : State} {was} :
    Frame [.dictMisc] e { e with dict := { e.dict with was := was } } :=
  ⟨fun p hp => by cases p <;> first | exact absurd hp (by decide) | repeat' constructor⟩

theorem frame_set_dict_doms {e : State} {doms} :
    Frame [.doms] e { e with dict := { e.dict with doms := doms } } :=
  ⟨fun p hp => by cases p <;> first | exact absurd hp (by decide) | repeat' constructor⟩

theorem frame_set_dict_objs {e : State} {objs} :
    Frame [.objs] e { e with dict := { e.dict with objs := objs } } :=
  ⟨fun p hp => by cases p <;> first | exact absurd hp (by decide) | repeat' constructor⟩

theorem frame_set_dict_objs_and_7_more {e : State} {objs doms reqs adm colls ledger freqs softRepair} :
    Frame [.objs, .doms, .txns, .adm, .colls, .ledger, .nvMisc] e { e with dict := { e.dict with objs := objs, doms := doms, reqs := reqs }, adm := adm, colls := colls, ledger := ledger, nv := { e.nv with freqs := freqs, softRepair := softRepair } } :=
  ⟨fun p hp => by cases p <;> first | exact absurd hp (by decide) | repeat' constructor⟩

theorem frame_set_dict_objs_dict_doms_dict_ctrPend_dict_reqs {e : State} {objs doms ctrPend reqs} :
    Frame [.objs, .doms, .counters, .txns] e { e with dict := { e.dict with objs := objs, doms := doms, ctrPend := ctrPend, reqs := reqs } } :=
  ⟨fun p hp => by cases p <;> first | exact absurd hp (by decide) | repeat' constructor⟩

theorem frame_set_host_doeResp {e : State} {doeResp} :
    Frame [.doe] e { e with host := { e.host with doeResp := doeResp } } :=
  ⟨fun p hp => by cases p <;> first | exact absurd hp (by decide) | repeat' constructor⟩

theorem frame_set_host_session {e : State} {session} :
    Frame [.doe] e { e with host := { e.host with session := session } } :=
  ⟨fun p hp => by cases p <;> first | exact absurd hp (by decide) | repeat' constructor⟩

theorem frame_set_host_ideAssoc {e : State} {ideAssoc} :
    Frame [.doe] e { e with host := { e.host with ideAssoc := ideAssoc } } :=
  ⟨fun p hp => by cases p <;> first | exact absurd hp (by decide) | repeat' constructor⟩

theorem frame_set_host_ideSet {e : State} {ideSet} :
    Frame [.doe] e { e with host := { e.host with ideSet := ideSet } } :=
  ⟨fun p hp => by cases p <;> first | exact absurd hp (by decide) | repeat' constructor⟩

theorem frame_set_host_ide {e : State} {ide} :
    Frame [.doe] e { e with host := { e.host with ide := ide } } :=
  ⟨fun p hp => by cases p <;> first | exact absurd hp (by decide) | repeat' constructor⟩

theorem frame_set_host_tries {e : State} {tries} :
    Frame [.rings] e { e with host := { e.host with tries := tries } } :=
  ⟨fun p hp => by cases p <;> first | exact absurd hp (by decide) | repeat' constructor⟩

theorem frame_set_host_kept {e : State} {kept} :
    Frame [.rings] e { e with host := { e.host with kept := kept } } :=
  ⟨fun p hp => by cases p <;> first | exact absurd hp (by decide) | repeat' constructor⟩

theorem frame_set_host_kept_out {e : State} {kept out} :
    Frame [.rings, .out] e { e with host := { e.host with kept := kept }, out := out } :=
  ⟨fun p hp => by cases p <;> first | exact absurd hp (by decide) | repeat' constructor⟩

theorem frame_set_host_kept_and_10_more {e : State} {kept tries ide session tenant tag nonce scrubPending retained sec ras} :
    Frame [.rings, .doe, .tenancy, .nvMisc, .sec, .ras] e { e with host := { e.host with kept := kept, tries := tries, ide := ide, session := session }, nv := { e.nv with tenant := tenant, tag := tag, nonce := nonce, scrubPending := scrubPending, retained := retained }, sec := sec, ras := ras } :=
  ⟨fun p hp => by cases p <;> first | exact absurd hp (by decide) | repeat' constructor⟩

theorem frame_set_host_events {e : State} {events} :
    Frame [.rings] e { e with host := { e.host with events := events } } :=
  ⟨fun p hp => by cases p <;> first | exact absurd hp (by decide) | repeat' constructor⟩

theorem frame_set_host_results {e : State} {results} :
    Frame [.rings] e { e with host := { e.host with results := results } } :=
  ⟨fun p hp => by cases p <;> first | exact absurd hp (by decide) | repeat' constructor⟩

theorem frame_set_host_fetched {e : State} {fetched} :
    Frame [.rings] e { e with host := { e.host with fetched := fetched } } :=
  ⟨fun p hp => by cases p <;> first | exact absurd hp (by decide) | repeat' constructor⟩

theorem frame_set_host_queues {e : State} {queues} :
    Frame [.queues] e { e with host := { e.host with queues := queues } } :=
  ⟨fun p hp => by cases p <;> first | exact absurd hp (by decide) | repeat' constructor⟩

theorem frame_set_host_queues_host_fetched_host_results_host_events {e : State} {queues fetched results events} :
    Frame [.queues, .rings] e { e with host := { e.host with queues := queues, fetched := fetched, results := results, events := events } } :=
  ⟨fun p hp => by cases p <;> first | exact absurd hp (by decide) | repeat' constructor⟩

theorem frame_set_host_pba {e : State} {pba} :
    Frame [.hostRegs] e { e with host := { e.host with pba := pba } } :=
  ⟨fun p hp => by cases p <;> first | exact absurd hp (by decide) | repeat' constructor⟩

theorem frame_set_host_msixBytes {e : State} {msixBytes} :
    Frame [.hostRegs] e { e with host := { e.host with msixBytes := msixBytes } } :=
  ⟨fun p hp => by cases p <;> first | exact absurd hp (by decide) | repeat' constructor⟩

theorem frame_set_host_fetchErrors {e : State} {fetchErrors} :
    Frame [.hostRegs] e { e with host := { e.host with fetchErrors := fetchErrors } } :=
  ⟨fun p hp => by cases p <;> first | exact absurd hp (by decide) | repeat' constructor⟩

theorem frame_set_host_bar2Drops {e : State} {bar2Drops} :
    Frame [.hostRegs] e { e with host := { e.host with bar2Drops := bar2Drops } } :=
  ⟨fun p hp => by cases p <;> first | exact absurd hp (by decide) | repeat' constructor⟩

theorem frame_set_host_doorbellDrops {e : State} {doorbellDrops} :
    Frame [.hostRegs] e { e with host := { e.host with doorbellDrops := doorbellDrops } } :=
  ⟨fun p hp => by cases p <;> first | exact absurd hp (by decide) | repeat' constructor⟩

theorem frame_set_host_aer {e : State} {aer} :
    Frame [.hostRegs] e { e with host := { e.host with aer := aer } } :=
  ⟨fun p hp => by cases p <;> first | exact absurd hp (by decide) | repeat' constructor⟩

theorem frame_set_host_mps_host_mrrs {e : State} {mps mrrs} :
    Frame [.hostRegs] e { e with host := { e.host with mps := mps, mrrs := mrrs } } :=
  ⟨fun p hp => by cases p <;> first | exact absurd hp (by decide) | repeat' constructor⟩

theorem frame_set_host_bar2Size {e : State} {bar2Size} :
    Frame [.hostRegs] e { e with host := { e.host with bar2Size := bar2Size } } :=
  ⟨fun p hp => by cases p <;> first | exact absurd hp (by decide) | repeat' constructor⟩

theorem frame_set_host_bar2Base {e : State} {bar2Base} :
    Frame [.hostRegs] e { e with host := { e.host with bar2Base := bar2Base } } :=
  ⟨fun p hp => by cases p <;> first | exact absurd hp (by decide) | repeat' constructor⟩

theorem frame_set_host_perstLow {e : State} {perstLow} :
    Frame [.link] e { e with host := { e.host with perstLow := perstLow } } :=
  ⟨fun p hp => by cases p <;> first | exact absurd hp (by decide) | repeat' constructor⟩

theorem frame_set_host_linkUp {e : State} {linkUp} :
    Frame [.link] e { e with host := { e.host with linkUp := linkUp } } :=
  ⟨fun p hp => by cases p <;> first | exact absurd hp (by decide) | repeat' constructor⟩

theorem frame_set_host_linkUp_host_rate_host_width_host_degraded {e : State} {linkUp rate width degraded} :
    Frame [.link] e { e with host := { e.host with linkUp := linkUp, rate := rate, width := width, degraded := degraded } } :=
  ⟨fun p hp => by cases p <;> first | exact absurd hp (by decide) | repeat' constructor⟩

theorem frame_set_turn_statEnd {e : State} {statEnd} :
    Frame [.turnMisc] e { e with turn := { e.turn with statEnd := statEnd } } :=
  ⟨fun p hp => by cases p <;> first | exact absurd hp (by decide) | repeat' constructor⟩

theorem frame_set_turn_statStart_turn_statPub_turn_statEnd_remoteStats {e : State} {statStart statPub statEnd remoteStats} :
    Frame [.turnMisc, .remoteStats] e { e with turn := { e.turn with statStart := statStart, statPub := statPub, statEnd := statEnd }, remoteStats := remoteStats } :=
  ⟨fun p hp => by cases p <;> first | exact absurd hp (by decide) | repeat' constructor⟩

theorem frame_set_turn_portUsed {e : State} {portUsed} :
    Frame [.turnMisc] e { e with turn := { e.turn with portUsed := portUsed } } :=
  ⟨fun p hp => by cases p <;> first | exact absurd hp (by decide) | repeat' constructor⟩

theorem frame_set_turn_busUsed {e : State} {busUsed} :
    Frame [.turnMisc] e { e with turn := { e.turn with busUsed := busUsed } } :=
  ⟨fun p hp => by cases p <;> first | exact absurd hp (by decide) | repeat' constructor⟩

theorem frame_set_turn_cuts {e : State} {cuts} :
    Frame [.turnMisc] e { e with turn := { e.turn with cuts := cuts } } :=
  ⟨fun p hp => by cases p <;> first | exact absurd hp (by decide) | repeat' constructor⟩

theorem frame_set_turn_fallbacks {e : State} {fallbacks} :
    Frame [.turnMisc] e { e with turn := { e.turn with fallbacks := fallbacks } } :=
  ⟨fun p hp => by cases p <;> first | exact absurd hp (by decide) | repeat' constructor⟩

theorem frame_set_turn_bridgeUsed {e : State} {bridgeUsed} :
    Frame [.turnMisc] e { e with turn := { e.turn with bridgeUsed := bridgeUsed } } :=
  ⟨fun p hp => by cases p <;> first | exact absurd hp (by decide) | repeat' constructor⟩

theorem frame_set_turn_bazSteps {e : State} {bazSteps} :
    Frame [.turnMisc] e { e with turn := { e.turn with bazSteps := bazSteps } } :=
  ⟨fun p hp => by cases p <;> first | exact absurd hp (by decide) | repeat' constructor⟩

theorem frame_set_turn_selSteps {e : State} {selSteps} :
    Frame [.turnMisc] e { e with turn := { e.turn with selSteps := selSteps } } :=
  ⟨fun p hp => by cases p <;> first | exact absurd hp (by decide) | repeat' constructor⟩

theorem frame_set_turn_plan {e : State} {plan} :
    Frame [.turnMisc] e { e with turn := { e.turn with plan := plan } } :=
  ⟨fun p hp => by cases p <;> first | exact absurd hp (by decide) | repeat' constructor⟩

theorem frame_set_turn_unmet {e : State} {unmet} :
    Frame [.turnMisc] e { e with turn := { e.turn with unmet := unmet } } :=
  ⟨fun p hp => by cases p <;> first | exact absurd hp (by decide) | repeat' constructor⟩

theorem frame_set_turn_placed {e : State} {placed} :
    Frame [.turnMisc] e { e with turn := { e.turn with placed := placed } } :=
  ⟨fun p hp => by cases p <;> first | exact absurd hp (by decide) | repeat' constructor⟩

theorem frame_set_turn_yellowI_turn_takenI {e : State} {yellowI takenI} :
    Frame [.turnMisc] e { e with turn := { e.turn with yellowI := yellowI, takenI := takenI } } :=
  ⟨fun p hp => by cases p <;> first | exact absurd hp (by decide) | repeat' constructor⟩

theorem frame_set_turn_yellowQ_turn_takenQ_turn_gathersUsed {e : State} {yellowQ takenQ gathersUsed} :
    Frame [.turnMisc] e { e with turn := { e.turn with yellowQ := yellowQ, takenQ := takenQ, gathersUsed := gathersUsed } } :=
  ⟨fun p hp => by cases p <;> first | exact absurd hp (by decide) | repeat' constructor⟩

theorem frame_set_turn_admitted {e : State} {admitted} :
    Frame [.turnMisc] e { e with turn := { e.turn with admitted := admitted } } :=
  ⟨fun p hp => by cases p <;> first | exact absurd hp (by decide) | repeat' constructor⟩

theorem frame_set_turn_escalated {e : State} {escalated} :
    Frame [.turnMisc] e { e with turn := { e.turn with escalated := escalated } } :=
  ⟨fun p hp => by cases p <;> first | exact absurd hp (by decide) | repeat' constructor⟩

theorem frame_set_turn_withdrawn_fab {e : State} {withdrawn fab} :
    Frame [.turnMisc, .fab] e { e with turn := { e.turn with withdrawn := withdrawn }, fab := fab } :=
  ⟨fun p hp => by cases p <;> first | exact absurd hp (by decide) | repeat' constructor⟩

theorem frame_set_turn_withdraw {e : State} {withdraw} :
    Frame [.turnMisc] e { e with turn := { e.turn with withdraw := withdraw } } :=
  ⟨fun p hp => by cases p <;> first | exact absurd hp (by decide) | repeat' constructor⟩

theorem frame_set_turn_alignBad_turn_marksMissed_turn_markSeen {e : State} {alignBad marksMissed markSeen} :
    Frame [.turnMisc] e { e with turn := { e.turn with alignBad := alignBad, marksMissed := marksMissed, markSeen := markSeen } } :=
  ⟨fun p hp => by cases p <;> first | exact absurd hp (by decide) | repeat' constructor⟩

theorem frame_set_turn_alignBad_and_14_more {e : State} {alignBad marksMissed markTurn withdraw withdrawn remotes acts colls lists queries units ing place fab ledger} :
    Frame [.turnMisc, .remotes, .acts, .colls, .lists, .queries, .units, .ing, .place, .fab, .ledger] e { e with turn := { e.turn with alignBad := alignBad, marksMissed := marksMissed, markTurn := markTurn, withdraw := withdraw, withdrawn := withdrawn }, remotes := remotes, acts := acts, colls := colls, lists := lists, queries := queries, units := units, ing := ing, place := place, fab := fab, ledger := ledger } :=
  ⟨fun p hp => by cases p <;> first | exact absurd hp (by decide) | repeat' constructor⟩

theorem frame_set_turn_alignBad_and_4_more {e : State} {alignBad alignOff steer markTurn markSeen} :
    Frame [.turnMisc] e { e with turn := { e.turn with alignBad := alignBad, alignOff := alignOff, steer := steer, markTurn := markTurn, markSeen := markSeen } } :=
  ⟨fun p hp => by cases p <;> first | exact absurd hp (by decide) | repeat' constructor⟩

theorem frame_set_turn_due {e : State} {due} :
    Frame [.turnMisc] e { e with turn := { e.turn with due := due } } :=
  ⟨fun p hp => by cases p <;> first | exact absurd hp (by decide) | repeat' constructor⟩

theorem frame_set_turn_seqMissed {e : State} {seqMissed} :
    Frame [.turnMisc] e { e with turn := { e.turn with seqMissed := seqMissed } } :=
  ⟨fun p hp => by cases p <;> first | exact absurd hp (by decide) | repeat' constructor⟩

theorem frame_set_turn_trips {e : State} {trips} :
    Frame [.turnMisc] e { e with turn := { e.turn with trips := trips } } :=
  ⟨fun p hp => by cases p <;> first | exact absurd hp (by decide) | repeat' constructor⟩

theorem frame_set_turn_tileRetired {e : State} {tileRetired} :
    Frame [.turnMisc] e { e with turn := { e.turn with tileRetired := tileRetired } } :=
  ⟨fun p hp => by cases p <;> first | exact absurd hp (by decide) | repeat' constructor⟩

theorem frame_set_turn_tileIdle {e : State} {tileIdle} :
    Frame [.turnMisc] e { e with turn := { e.turn with tileIdle := tileIdle } } :=
  ⟨fun p hp => by cases p <;> first | exact absurd hp (by decide) | repeat' constructor⟩

theorem frame_set_turn_shadow {e : State} {shadow} :
    Frame [.turnMisc] e { e with turn := { e.turn with shadow := shadow } } :=
  ⟨fun p hp => by cases p <;> first | exact absurd hp (by decide) | repeat' constructor⟩

theorem frame_set_turn_repeats {e : State} {repeats} :
    Frame [.boards] e { e with turn := { e.turn with repeats := repeats } } :=
  ⟨fun p hp => by cases p <;> first | exact absurd hp (by decide) | repeat' constructor⟩

theorem frame_set_turn_next {e : State} {next'} :
    Frame [.boards] e { e with turn := { e.turn with next := next' } } :=
  ⟨fun p hp => by cases p <;> first | exact absurd hp (by decide) | repeat' constructor⟩

theorem frame_set_turn_latched_turn_repeated_turn_cuts {e : State} {latched repeated cuts} :
    Frame [.boards, .turnMisc] e { e with turn := { e.turn with latched := latched, repeated := repeated, cuts := cuts } } :=
  ⟨fun p hp => by cases p <;> first | exact absurd hp (by decide) | repeat' constructor⟩

theorem frame_set_turn_latched_turn_next_turn_repeats_turn_tileIdle {e : State} {latched next' repeats tileIdle} :
    Frame [.boards, .turnMisc] e { e with turn := { e.turn with latched := latched, next := next', repeats := repeats, tileIdle := tileIdle } } :=
  ⟨fun p hp => by cases p <;> first | exact absurd hp (by decide) | repeat' constructor⟩

theorem frame_set_turn_cur {e : State} {cur} :
    Frame [.boards] e { e with turn := { e.turn with cur := cur } } :=
  ⟨fun p hp => by cases p <;> first | exact absurd hp (by decide) | repeat' constructor⟩

theorem frame_set_turn_phase {e : State} {phase} :
    Frame [.phase] e { e with turn := { e.turn with phase := phase } } :=
  ⟨fun p hp => by cases p <;> first | exact absurd hp (by decide) | repeat' constructor⟩

theorem frame_set_turn_buffers {e : State} {buffers} :
    Frame [.turnMisc] e { e with turn := { e.turn with buffers := buffers } } :=
  ⟨fun p hp => by cases p <;> first | exact absurd hp (by decide) | repeat' constructor⟩

theorem frame_set_turn_buffers_and_21_more {e : State} {buffers adm comp images remotes acts streams remoteStats colls lists queries units smem way ing place cells banks bad flash fab bslots} :
    Frame [.turnMisc, .adm, .comp, .images, .remotes, .acts, .streams, .remoteStats, .colls, .lists, .queries, .units, .smemCells, .smemMisc, .way, .ing, .place, .scrCells, .scrMisc, .flash, .fab, .bslots] e { e with turn := { e.turn with buffers := buffers }, adm := adm, comp := comp, images := images, remotes := remotes, acts := acts, streams := streams, remoteStats := remoteStats, colls := colls, lists := lists, queries := queries, units := units, smem := smem, way := way, ing := ing, place := place, scratch := { e.scratch with cells := cells, banks := banks, bad := bad }, flash := flash, fab := fab, bslots := bslots } :=
  ⟨fun p hp => by cases p <;> first | exact absurd hp (by decide) | repeat' constructor⟩

theorem frame_set_turn_buffers_turn_no_turn_phase_turn_cur {e : State} {buffers no phase cur} :
    Frame [.turnNo, .phase, .boards, .turnMisc] e { e with turn := { e.turn with buffers := buffers, no := no, phase := phase, cur := cur } } :=
  ⟨fun p hp => by cases p <;> first | exact absurd hp (by decide) | repeat' constructor⟩

theorem frame_set_smem_low {e : State} {low} :
    Frame [.smemMisc] e { e with smem := { e.smem with low := low } } :=
  ⟨fun p hp => by cases p <;> first | exact absurd hp (by decide) | repeat' constructor⟩

theorem frame_set_smem_running {e : State} {running} :
    Frame [.smemMisc] e { e with smem := { e.smem with running := running } } :=
  ⟨fun p hp => by cases p <;> first | exact absurd hp (by decide) | repeat' constructor⟩

theorem frame_set_smem_hostHeld {e : State} {hostHeld} :
    Frame [.smemMisc] e { e with smem := { e.smem with hostHeld := hostHeld } } :=
  ⟨fun p hp => by cases p <;> first | exact absurd hp (by decide) | repeat' constructor⟩

theorem frame_set_smem_clears {e : State} {clears} :
    Frame [.smemMisc] e { e with smem := { e.smem with clears := clears } } :=
  ⟨fun p hp => by cases p <;> first | exact absurd hp (by decide) | repeat' constructor⟩

theorem frame_set_smem_hists {e : State} {hists} :
    Frame [.smemMisc] e { e with smem := { e.smem with hists := hists } } :=
  ⟨fun p hp => by cases p <;> first | exact absurd hp (by decide) | repeat' constructor⟩

theorem frame_set_smem_preds {e : State} {preds} :
    Frame [.smemMisc] e { e with smem := { e.smem with preds := preds } } :=
  ⟨fun p hp => by cases p <;> first | exact absurd hp (by decide) | repeat' constructor⟩

theorem frame_set_smem_preds_smem_hists {e : State} {preds hists} :
    Frame [.smemMisc] e { e with smem := { e.smem with preds := preds, hists := hists } } :=
  ⟨fun p hp => by cases p <;> first | exact absurd hp (by decide) | repeat' constructor⟩

theorem frame_set_smem_groups {e : State} {groups} :
    Frame [.smemMisc] e { e with smem := { e.smem with groups := groups } } :=
  ⟨fun p hp => by cases p <;> first | exact absurd hp (by decide) | repeat' constructor⟩

theorem frame_set_smem_groups_smem_running {e : State} {groups running} :
    Frame [.smemMisc] e { e with smem := { e.smem with groups := groups, running := running } } :=
  ⟨fun p hp => by cases p <;> first | exact absurd hp (by decide) | repeat' constructor⟩

theorem frame_set_smem_banks {e : State} {banks} :
    Frame [.smemMisc] e { e with smem := { e.smem with banks := banks } } :=
  ⟨fun p hp => by cases p <;> first | exact absurd hp (by decide) | repeat' constructor⟩

theorem frame_set_smem_banks_smem_low {e : State} {banks low} :
    Frame [.smemMisc] e { e with smem := { e.smem with banks := banks, low := low } } :=
  ⟨fun p hp => by cases p <;> first | exact absurd hp (by decide) | repeat' constructor⟩

theorem frame_set_smem_cells {e : State} {cells} :
    Frame [.smemCells] e { e with smem := { e.smem with cells := cells } } :=
  ⟨fun p hp => by cases p <;> first | exact absurd hp (by decide) | repeat' constructor⟩

theorem frame_set_scratch_fuses_scratch_soft_scratch_steered {e : State} {fuses soft steered} :
    Frame [.scrMisc] e { e with scratch := { e.scratch with fuses := fuses, soft := soft, steered := steered } } :=
  ⟨fun p hp => by cases p <;> first | exact absurd hp (by decide) | repeat' constructor⟩

theorem frame_set_scratch_bad {e : State} {bad} :
    Frame [.scrMisc] e { e with scratch := { e.scratch with bad := bad } } :=
  ⟨fun p hp => by cases p <;> first | exact absurd hp (by decide) | repeat' constructor⟩

theorem frame_set_scratch_banks {e : State} {banks} :
    Frame [.scrMisc] e { e with scratch := { e.scratch with banks := banks } } :=
  ⟨fun p hp => by cases p <;> first | exact absurd hp (by decide) | repeat' constructor⟩

theorem frame_set_scratch_cells {e : State} {cells} :
    Frame [.scrCells] e { e with scratch := { e.scratch with cells := cells } } :=
  ⟨fun p hp => by cases p <;> first | exact absurd hp (by decide) | repeat' constructor⟩

theorem frame_set_scratch_cells_scratch_bad {e : State} {cells bad} :
    Frame [.scrCells, .scrMisc] e { e with scratch := { e.scratch with cells := cells, bad := bad } } :=
  ⟨fun p hp => by cases p <;> first | exact absurd hp (by decide) | repeat' constructor⟩

theorem frame_set_nv_retained {e : State} {retained} :
    Frame [.nvMisc] e { e with nv := { e.nv with retained := retained } } :=
  ⟨fun p hp => by cases p <;> first | exact absurd hp (by decide) | repeat' constructor⟩

theorem frame_set_nv_activateB_sec {e : State} {activateB sec} :
    Frame [.nvMisc, .sec] e { e with nv := { e.nv with activateB := activateB }, sec := sec } :=
  ⟨fun p hp => by cases p <;> first | exact absurd hp (by decide) | repeat' constructor⟩

theorem frame_set_nv_fwA_nv_fwB_sec {e : State} {fwA fwB sec} :
    Frame [.nvMisc, .sec] e { e with nv := { e.nv with fwA := fwA, fwB := fwB }, sec := sec } :=
  ⟨fun p hp => by cases p <;> first | exact absurd hp (by decide) | repeat' constructor⟩

theorem frame_set_nv_softRepair {e : State} {softRepair} :
    Frame [.nvMisc] e { e with nv := { e.nv with softRepair := softRepair } } :=
  ⟨fun p hp => by cases p <;> first | exact absurd hp (by decide) | repeat' constructor⟩

theorem frame_set_nv_freqs {e : State} {freqs} :
    Frame [.nvMisc] e { e with nv := { e.nv with freqs := freqs } } :=
  ⟨fun p hp => by cases p <;> first | exact absurd hp (by decide) | repeat' constructor⟩

theorem frame_set_nv_errorLog_nv_logTally {e : State} {errorLog logTally} :
    Frame [.errorLog] e { e with nv := { e.nv with errorLog := errorLog, logTally := logTally } } :=
  ⟨fun p hp => by cases p <;> first | exact absurd hp (by decide) | repeat' constructor⟩

theorem frame_set_nv_tenant_nv_scrubPending_nv_switches_sec {e : State} {tenant scrubPending switches sec} :
    Frame [.tenancy, .sec] e { e with nv := { e.nv with tenant := tenant, scrubPending := scrubPending, switches := switches }, sec := sec } :=
  ⟨fun p hp => by cases p <;> first | exact absurd hp (by decide) | repeat' constructor⟩

theorem frame_set_nv_tenant_nv_tag_sec {e : State} {tenant tag sec} :
    Frame [.tenancy, .sec] e { e with nv := { e.nv with tenant := tenant, tag := tag }, sec := sec } :=
  ⟨fun p hp => by cases p <;> first | exact absurd hp (by decide) | repeat' constructor⟩

theorem frame_set_nv_tenant_nv_tag_nv_nonce_sec {e : State} {tenant tag nonce sec} :
    Frame [.tenancy, .sec] e { e with nv := { e.nv with tenant := tenant, tag := tag, nonce := nonce }, sec := sec } :=
  ⟨fun p hp => by cases p <;> first | exact absurd hp (by decide) | repeat' constructor⟩

theorem frame_set_free {e : State} {free} :
    Frame [.free] e { e with free := free } :=
  ⟨fun p hp => by cases p <;> first | exact absurd hp (by decide) | repeat' constructor⟩

theorem frame_set_out {e : State} {out} :
    Frame [.out] e { e with out := out } :=
  ⟨fun p hp => by cases p <;> first | exact absurd hp (by decide) | repeat' constructor⟩

theorem frame_set_clk {e : State} {clk} :
    Frame [.clk] e { e with clk := clk } :=
  ⟨fun p hp => by cases p <;> first | exact absurd hp (by decide) | repeat' constructor⟩

theorem frame_set_ras {e : State} {ras} :
    Frame [.ras] e { e with ras := ras } :=
  ⟨fun p hp => by cases p <;> first | exact absurd hp (by decide) | repeat' constructor⟩

theorem frame_set_sec {e : State} {sec} :
    Frame [.sec] e { e with sec := sec } :=
  ⟨fun p hp => by cases p <;> first | exact absurd hp (by decide) | repeat' constructor⟩

theorem frame_set_sec_clk {e : State} {sec clk} :
    Frame [.sec, .clk] e { e with sec := sec, clk := clk } :=
  ⟨fun p hp => by cases p <;> first | exact absurd hp (by decide) | repeat' constructor⟩

theorem frame_set_bslots {e : State} {bslots} :
    Frame [.bslots] e { e with bslots := bslots } :=
  ⟨fun p hp => by cases p <;> first | exact absurd hp (by decide) | repeat' constructor⟩

theorem frame_set_ledger {e : State} {ledger} :
    Frame [.ledger] e { e with ledger := ledger } :=
  ⟨fun p hp => by cases p <;> first | exact absurd hp (by decide) | repeat' constructor⟩

theorem frame_set_fab {e : State} {fab} :
    Frame [.fab] e { e with fab := fab } :=
  ⟨fun p hp => by cases p <;> first | exact absurd hp (by decide) | repeat' constructor⟩

theorem frame_set_fab_ledger {e : State} {fab ledger} :
    Frame [.fab, .ledger] e { e with fab := fab, ledger := ledger } :=
  ⟨fun p hp => by cases p <;> first | exact absurd hp (by decide) | repeat' constructor⟩

theorem frame_set_flash_nv_retained {e : State} {flash retained} :
    Frame [.flash, .nvMisc] e { e with flash := flash, nv := { e.nv with retained := retained } } :=
  ⟨fun p hp => by cases p <;> first | exact absurd hp (by decide) | repeat' constructor⟩

theorem frame_set_flash {e : State} {flash} :
    Frame [.flash] e { e with flash := flash } :=
  ⟨fun p hp => by cases p <;> first | exact absurd hp (by decide) | repeat' constructor⟩

theorem frame_set_place {e : State} {place} :
    Frame [.place] e { e with place := place } :=
  ⟨fun p hp => by cases p <;> first | exact absurd hp (by decide) | repeat' constructor⟩

theorem frame_set_place_ledger {e : State} {place ledger} :
    Frame [.place, .ledger] e { e with place := place, ledger := ledger } :=
  ⟨fun p hp => by cases p <;> first | exact absurd hp (by decide) | repeat' constructor⟩

theorem frame_set_ing {e : State} {ing} :
    Frame [.ing] e { e with ing := ing } :=
  ⟨fun p hp => by cases p <;> first | exact absurd hp (by decide) | repeat' constructor⟩

theorem frame_set_ing_ledger {e : State} {ing ledger} :
    Frame [.ing, .ledger] e { e with ing := ing, ledger := ledger } :=
  ⟨fun p hp => by cases p <;> first | exact absurd hp (by decide) | repeat' constructor⟩

theorem frame_set_ing_ledger_ras {e : State} {ing ledger ras} :
    Frame [.ing, .ledger, .ras] e { e with ing := ing, ledger := ledger, ras := ras } :=
  ⟨fun p hp => by cases p <;> first | exact absurd hp (by decide) | repeat' constructor⟩

theorem frame_set_ing_place {e : State} {ing place} :
    Frame [.ing, .place] e { e with ing := ing, place := place } :=
  ⟨fun p hp => by cases p <;> first | exact absurd hp (by decide) | repeat' constructor⟩

theorem frame_set_way {e : State} {way} :
    Frame [.way] e { e with way := way } :=
  ⟨fun p hp => by cases p <;> first | exact absurd hp (by decide) | repeat' constructor⟩

theorem frame_set_units {e : State} {units} :
    Frame [.units] e { e with units := units } :=
  ⟨fun p hp => by cases p <;> first | exact absurd hp (by decide) | repeat' constructor⟩

theorem frame_set_units_way {e : State} {units way} :
    Frame [.units, .way] e { e with units := units, way := way } :=
  ⟨fun p hp => by cases p <;> first | exact absurd hp (by decide) | repeat' constructor⟩

theorem frame_set_units_nextUnit {e : State} {units nextUnit} :
    Frame [.units, .nextUnit] e { e with units := units, nextUnit := nextUnit } :=
  ⟨fun p hp => by cases p <;> first | exact absurd hp (by decide) | repeat' constructor⟩

theorem frame_set_queries {e : State} {queries} :
    Frame [.queries] e { e with queries := queries } :=
  ⟨fun p hp => by cases p <;> first | exact absurd hp (by decide) | repeat' constructor⟩

theorem frame_set_lists {e : State} {lists} :
    Frame [.lists] e { e with lists := lists } :=
  ⟨fun p hp => by cases p <;> first | exact absurd hp (by decide) | repeat' constructor⟩

theorem frame_set_colls {e : State} {colls} :
    Frame [.colls] e { e with colls := colls } :=
  ⟨fun p hp => by cases p <;> first | exact absurd hp (by decide) | repeat' constructor⟩

theorem frame_set_remoteStats {e : State} {remoteStats} :
    Frame [.remoteStats] e { e with remoteStats := remoteStats } :=
  ⟨fun p hp => by cases p <;> first | exact absurd hp (by decide) | repeat' constructor⟩

theorem frame_set_streams {e : State} {streams} :
    Frame [.streams] e { e with streams := streams } :=
  ⟨fun p hp => by cases p <;> first | exact absurd hp (by decide) | repeat' constructor⟩

theorem frame_set_acts {e : State} {acts} :
    Frame [.acts] e { e with acts := acts } :=
  ⟨fun p hp => by cases p <;> first | exact absurd hp (by decide) | repeat' constructor⟩

theorem frame_set_acts_lists_units {e : State} {acts lists units} :
    Frame [.acts, .lists, .units] e { e with acts := acts, lists := lists, units := units } :=
  ⟨fun p hp => by cases p <;> first | exact absurd hp (by decide) | repeat' constructor⟩

theorem frame_set_remotes {e : State} {remotes} :
    Frame [.remotes] e { e with remotes := remotes } :=
  ⟨fun p hp => by cases p <;> first | exact absurd hp (by decide) | repeat' constructor⟩

theorem frame_set_remotes_ledger {e : State} {remotes ledger} :
    Frame [.remotes, .ledger] e { e with remotes := remotes, ledger := ledger } :=
  ⟨fun p hp => by cases p <;> first | exact absurd hp (by decide) | repeat' constructor⟩

theorem frame_set_images {e : State} {images} :
    Frame [.images] e { e with images := images } :=
  ⟨fun p hp => by cases p <;> first | exact absurd hp (by decide) | repeat' constructor⟩

theorem frame_set_images_flash {e : State} {images flash} :
    Frame [.images, .flash] e { e with images := images, flash := flash } :=
  ⟨fun p hp => by cases p <;> first | exact absurd hp (by decide) | repeat' constructor⟩

theorem frame_set_images_remotes {e : State} {images remotes} :
    Frame [.images, .remotes] e { e with images := images, remotes := remotes } :=
  ⟨fun p hp => by cases p <;> first | exact absurd hp (by decide) | repeat' constructor⟩

theorem frame_set_images_remotes_streams {e : State} {images remotes streams} :
    Frame [.images, .remotes, .streams] e { e with images := images, remotes := remotes, streams := streams } :=
  ⟨fun p hp => by cases p <;> first | exact absurd hp (by decide) | repeat' constructor⟩

theorem frame_set_comp {e : State} {comp} :
    Frame [.comp] e { e with comp := comp } :=
  ⟨fun p hp => by cases p <;> first | exact absurd hp (by decide) | repeat' constructor⟩

theorem frame_set_comp_way {e : State} {comp way} :
    Frame [.comp, .way] e { e with comp := comp, way := way } :=
  ⟨fun p hp => by cases p <;> first | exact absurd hp (by decide) | repeat' constructor⟩

theorem frame_set_comp_queries_ing {e : State} {comp queries ing} :
    Frame [.comp, .queries, .ing] e { e with comp := comp, queries := queries, ing := ing } :=
  ⟨fun p hp => by cases p <;> first | exact absurd hp (by decide) | repeat' constructor⟩

theorem frame_set_comp_images_remotes_lists {e : State} {comp images remotes lists} :
    Frame [.comp, .images, .remotes, .lists] e { e with comp := comp, images := images, remotes := remotes, lists := lists } :=
  ⟨fun p hp => by cases p <;> first | exact absurd hp (by decide) | repeat' constructor⟩

theorem frame_set_adm {e : State} {adm} :
    Frame [.adm] e { e with adm := adm } :=
  ⟨fun p hp => by cases p <;> first | exact absurd hp (by decide) | repeat' constructor⟩

theorem frame_set_host {e : State} {host} :
    Frame [.link, .hostRegs, .queues, .rings, .doe] e { e with host := host } :=
  ⟨fun p hp => by cases p <;> first | exact absurd hp (by decide) | repeat' constructor⟩

theorem frame_set_dict_and_27_more {e : State} {x_dict x_host x_turn x_adm x_comp x_images x_remotes x_acts x_streams x_remoteStats x_colls x_lists x_queries x_units x_nextUnit x_smem x_way x_ing x_place x_scratch x_flash x_fab x_ledger x_bslots x_nv_retained x_sec x_ras x_clk} :
    Frame [.objs, .doms, .counters, .txns, .mailbox, .dictMisc, .link, .hostRegs, .queues, .rings, .doe, .turnNo, .phase, .boards, .turnMisc, .adm, .comp, .images, .remotes, .acts, .streams, .remoteStats, .colls, .lists, .queries, .units, .nextUnit, .smemCells, .smemMisc, .way, .ing, .place, .scrCells, .scrMisc, .flash, .fab, .ledger, .bslots, .nvMisc, .sec, .ras, .clk] e (State.mk x_dict x_host x_turn x_adm x_comp x_images x_remotes x_acts x_streams x_remoteStats x_colls x_lists x_queries x_units x_nextUnit x_smem x_way x_ing x_place x_scratch x_flash x_fab x_ledger x_bslots (NonVol.mk e.nv.tenant e.nv.tag e.nv.nonce e.nv.scrubPending e.nv.switches e.nv.errorLog e.nv.logTally e.nv.freqs e.nv.softRepair e.nv.fwA e.nv.fwB e.nv.activateB e.nv.minSvn x_nv_retained) x_sec x_ras x_clk e.out e.free e.pending) :=
  ⟨fun p hp => by cases p <;> first | exact absurd hp (by decide) | repeat' constructor⟩

theorem frame_set_host_msixBytes_host_pba {e : State} {msixBytes pba} :
    Frame [.hostRegs] e { e with host := { e.host with msixBytes := msixBytes, pba := pba } } :=
  ⟨fun p hp => by cases p <;> first | exact absurd hp (by decide) | repeat' constructor⟩

theorem frame_set_turn_portUsed_fab {e : State} {portUsed fab} :
    Frame [.turnMisc, .fab] e { e with turn := { e.turn with portUsed := portUsed }, fab := fab } :=
  ⟨fun p hp => by cases p <;> first | exact absurd hp (by decide) | repeat' constructor⟩

theorem frame_set_turn_alignBad_turn_marksMissed_turn_markSeen_fab {e : State} {alignBad marksMissed markSeen fab} :
    Frame [.turnMisc, .fab] e { e with turn := { e.turn with alignBad := alignBad, marksMissed := marksMissed, markSeen := markSeen }, fab := fab } :=
  ⟨fun p hp => by cases p <;> first | exact absurd hp (by decide) | repeat' constructor⟩

theorem frame_set_turn_alignBad_and_5_more {e : State} {alignBad alignOff steer markTurn markSeen fab} :
    Frame [.turnMisc, .fab] e { e with turn := { e.turn with alignBad := alignBad, alignOff := alignOff, steer := steer, markTurn := markTurn, markSeen := markSeen }, fab := fab } :=
  ⟨fun p hp => by cases p <;> first | exact absurd hp (by decide) | repeat' constructor⟩

theorem frame_set_turn_tileIdle_turn_tileRetired {e : State} {tileIdle tileRetired} :
    Frame [.turnMisc] e { e with turn := { e.turn with tileIdle := tileIdle, tileRetired := tileRetired } } :=
  ⟨fun p hp => by cases p <;> first | exact absurd hp (by decide) | repeat' constructor⟩

theorem frame_set_smem_groups_smem_preds_smem_hists {e : State} {groups preds hists} :
    Frame [.smemMisc] e { e with smem := { e.smem with groups := groups, preds := preds, hists := hists } } :=
  ⟨fun p hp => by cases p <;> first | exact absurd hp (by decide) | repeat' constructor⟩

theorem frame_set_images_remotes_ledger {e : State} {images remotes ledger} :
    Frame [.images, .remotes, .ledger] e { e with images := images, remotes := remotes, ledger := ledger } :=
  ⟨fun p hp => by cases p <;> first | exact absurd hp (by decide) | repeat' constructor⟩

end Sys2Proof.Machine
end

