-- ==== Sys2Proof/Laws/FrameOps.lean ====
section
/-! SUPPORT. Which parts of the state the functions of Machine/Ops.lean may change. -/

set_option maxRecDepth 4000

namespace Sys2Proof.Machine

open Sys2Proof

theorem bump_frame : ∀ s a n, Frame [.counters] s (bump s a n) := by
  intro s a n
  unfold bump
  try dsimp only [onHost, onMb]
  refine Frame.then ?_ frame_set_dict_ctrPend rfl
  exact Frame.refl _ _

theorem ledgerRequest_frame : ∀ s r, Frame [.ledger] s (ledgerRequest s r) := by
  intro s r
  unfold ledgerRequest
  try dsimp only [onHost, onMb]
  refine Frame.then ?_ frame_set_ledger rfl
  exact Frame.refl _ _

theorem logEvent_frame : ∀ s e, Frame [.errorLog] s (logEvent s e) := by
  intro s e
  unfold logEvent
  try dsimp only [onHost, onMb]
  refine Frame.then ?_ frame_set_nv_errorLog_nv_logTally rfl
  exact Frame.refl _ _

theorem setQ_frame : ∀ s q v, Frame [.queues] s (setQ s q v) := by
  intro s q v
  unfold setQ
  try dsimp only [onHost, onMb]
  refine Frame.then ?_ frame_set_host_queues rfl
  exact Frame.refl _ _

theorem offerEvent_frame : ∀ e s qn, Frame [.counters, .queues, .rings] s (offerEvent e s qn) := by
  intro e s qn
  unfold offerEvent
  try dsimp only [onHost, onMb]
  refine Frame.ite ?_ ?_
  · exact Frame.refl _ _
  · refine Frame.ite ?_ ?_
    · refine Frame.then ?_ (bump_frame _ _ _) rfl
      refine Frame.then ?_ (setQ_frame _ _ _) rfl
      exact Frame.refl _ _
    · refine Frame.then ?_ frame_set_host_events rfl
      refine Frame.then ?_ (setQ_frame _ _ _) rfl
      exact Frame.refl _ _

theorem postEvent_frame : ∀ s code detail, Frame [.counters, .queues, .rings, .errorLog] s (postEvent s code detail) := by
  intro s code detail
  unfold postEvent
  try dsimp only [onHost, onMb]
  refine Frame.foldl ?_ ?_
  · refine Frame.then ?_ (logEvent_frame _ _) rfl
    exact Frame.refl _ _
  · intro _ _
    try dsimp only
    refine Frame.then ?_ (offerEvent_frame _ _ _) rfl
    exact Frame.refl _ _

theorem setObj_frame : ∀ s a v, Frame [.objs] s (setObj s a v) := by
  intro s a v
  unfold setObj
  try dsimp only [onHost, onMb]
  refine Frame.then ?_ frame_set_dict_objs rfl
  exact Frame.refl _ _

theorem onQuery_frame : ∀ s qh f, Frame [.queries] s (onQuery s qh f) := by
  intro s qh f
  unfold onQuery
  try dsimp only [onHost, onMb]
  refine Frame.then ?_ frame_set_queries rfl
  exact Frame.refl _ _

theorem drawGrant_frame : ∀ s g, Frame [.fab] s (drawGrant s g) := by
  intro s g
  unfold drawGrant
  try dsimp only [onHost, onMb]
  refine Frame.then ?_ frame_set_fab rfl
  exact Frame.refl _ _

theorem useGrant_frame : ∀ s k holder n, Frame [.fab] s (useGrant s k holder n) := by
  intro s k holder n
  unfold useGrant
  try dsimp only [onHost, onMb]
  refine Frame.then ?_ (drawGrant_frame _ _) rfl
  exact Frame.refl _ _

theorem send_frame : ∀ s dst x1, Frame [.fab] s (send s dst x1) := by
  intro s dst x1
  unfold send
  try dsimp only [onHost, onMb]
  refine Frame.then ?_ frame_set_fab rfl
  exact Frame.refl _ _

theorem sendStage_frame : ∀ s dst x1, Frame [.fab] s (sendStage s dst x1) := by
  intro s dst x1
  unfold sendStage
  try dsimp only [onHost, onMb]
  refine Frame.ite ?_ ?_
  · refine Frame.then ?_ frame_set_fab rfl
    exact Frame.refl _ _
  · refine Frame.then ?_ (send_frame _ _ _) rfl
    exact Frame.refl _ _

theorem slipQuery_frame : ∀ s qh, Frame [.counters, .queries] s (slipQuery s qh) := by
  intro s qh
  unfold slipQuery
  try dsimp only [onHost, onMb]
  split
  · try dsimp only
    exact Frame.refl _ _
  · try dsimp only
    refine Frame.ite ?_ ?_
    · exact Frame.refl _ _
    · refine Frame.then ?_ (bump_frame _ _ _) rfl
      refine Frame.then ?_ (onQuery_frame _ _ _) rfl
      exact Frame.refl _ _

theorem emit_frame : ∀ s o, Frame [.out] s (emit s o) := by
  intro s o
  unfold emit
  try dsimp only [onHost, onMb]
  refine Frame.then ?_ frame_set_out rfl
  exact Frame.refl _ _

theorem setDom_frame : ∀ s a b, Frame [.doms] s (setDom s a b) := by
  intro s a b
  unfold setDom
  try dsimp only [onHost, onMb]
  refine Frame.then ?_ frame_set_dict_doms rfl
  exact Frame.refl _ _

theorem drawFree_frame : ∀ s, Frame [.free] s (drawFree s).1 := by
  intro s
  unfold drawFree
  try dsimp only [onHost, onMb]
  try dsimp only
  refine Frame.then ?_ frame_set_free rfl
  exact Frame.refl _ _

theorem sendAll_frame : ∀ s dsts x1, Frame [.fab] s (sendAll s dsts x1) := by
  intro s dsts x1
  unfold sendAll
  try dsimp only [onHost, onMb]
  refine Frame.foldl ?_ ?_
  · exact Frame.refl _ _
  · intro _ _
    try dsimp only
    refine Frame.then ?_ (send_frame _ _ _) rfl
    exact Frame.refl _ _

theorem shadowPush_frame : ∀ s c, Frame [.turnMisc] s (shadowPush s c) := by
  intro s c
  unfold shadowPush
  try dsimp only [onHost, onMb]
  refine Frame.then ?_ frame_set_turn_shadow rfl
  exact Frame.refl _ _

theorem withdrawNow_frame : ∀ s, Frame [.counters, .queues, .rings, .turnMisc, .fab, .errorLog] s (withdrawNow s) := by
  intro s
  unfold withdrawNow
  try dsimp only [onHost, onMb]
  refine Frame.ite ?_ ?_
  · refine Frame.then ?_ frame_set_turn_withdraw rfl
    exact Frame.refl _ _
  · refine Frame.then ?_ frame_set_turn_withdrawn_fab rfl
    refine Frame.ite ?_ ?_
    · refine Frame.then ?_ (postEvent_frame _ _ _) rfl
      refine Frame.then ?_ frame_set_turn_withdraw rfl
      exact Frame.refl _ _
    · refine Frame.then ?_ (postEvent_frame _ _ _) rfl
      refine Frame.then ?_ (postEvent_frame _ _ _) rfl
      refine Frame.then ?_ frame_set_turn_withdraw rfl
      exact Frame.refl _ _

theorem withdrawSoon_frame : ∀ s, Frame [.turnMisc] s (withdrawSoon s) := by
  intro s
  unfold withdrawSoon
  try dsimp only [onHost, onMb]
  split
  · try dsimp only
    exact Frame.refl _ _
  · try dsimp only
    refine Frame.then ?_ frame_set_turn_withdraw rfl
    exact Frame.refl _ _

theorem loadAttempt_frame : ∀ s key, Frame [.counters, .rings] s (loadAttempt s key).1 := by
  intro s key
  unfold loadAttempt
  try dsimp only [onHost, onMb]
  refine Frame.ite1 ?_ ?_
  · try dsimp only
    refine Frame.then ?_ frame_set_host_tries rfl
    refine Frame.then ?_ (bump_frame _ _ _) rfl
    exact Frame.refl _ _
  · try dsimp only
    refine Frame.then ?_ frame_set_host_tries rfl
    refine Frame.then ?_ (bump_frame _ _ _) rfl
    exact Frame.refl _ _

theorem loadFetched_frame : ∀ s key, Frame [.rings] s (loadFetched s key) := by
  intro s key
  unfold loadFetched
  try dsimp only [onHost, onMb]
  refine Frame.then ?_ frame_set_host_tries rfl
  exact Frame.refl _ _

end Sys2Proof.Machine
end

