-- ==== Sys2Proof/Laws/FrameFlash.lean ====
section
/-! SUPPORT. Which parts of the state the functions of Machine/Flash.lean may change. -/

set_option maxRecDepth 4000

namespace Sys2Proof.Machine

open Sys2Proof

theorem countPages_frame : ∀ s written freed, Frame [.counters, .flash] s (countPages s written freed) := by
  intro s written freed
  unfold countPages
  try dsimp only [onHost, onMb]
  refine Frame.then ?_ (bump_frame _ _ _) rfl
  refine Frame.then ?_ (bump_frame _ _ _) rfl
  refine Frame.then ?_ frame_set_flash rfl
  exact Frame.refl _ _

theorem remap_frame : ∀ s d lpn p n, Frame [.flash] s (remap s d lpn p n) := by
  intro s d lpn p n
  unfold remap
  try dsimp only [onHost, onMb]
  split
  · try dsimp only
    exact Frame.refl _ _
  · try dsimp only
    refine Frame.then ?_ frame_set_flash rfl
    exact Frame.refl _ _

theorem onDie_frame : ∀ s d f, Frame [.flash] s (onDie s d f) := by
  intro s d f
  unfold onDie
  try dsimp only [onHost, onMb]
  refine Frame.then ?_ frame_set_flash rfl
  exact Frame.refl _ _

theorem writePage_frame : ∀ s d, Frame [.counters, .flash] s (writePage s d).1 := by
  intro s d
  unfold writePage
  try dsimp only [onHost, onMb]
  try dsimp only
  refine Frame.then ?_ (bump_frame _ _ _) rfl
  refine Frame.then ?_ frame_set_flash rfl
  refine Frame.then ?_ (onDie_frame _ _ _) rfl
  exact Frame.refl _ _

theorem placeRecords_frame : ∀ size ds n i cur s, Frame [.counters, .flash] s (placeRecords size ds n i cur s).1 := by
  intro size ds n
  induction n with
  | zero => intro i cur s; exact Frame.refl _ _
  | succ n ih =>
    intro i cur s
    unfold placeRecords
    dsimp only
    refine Frame.then ?_ (ih _ _ _) rfl
    split
    · split
      · exact Frame.refl _ _
      · exact Frame.then (Frame.refl _ _) (writePage_frame _ _) rfl
    · exact Frame.then (Frame.refl _ _) (writePage_frame _ _) rfl

theorem markBlock_frame : ∀ s d b, Frame [.flash] s (markBlock s d b) := by
  intro s d b
  unfold markBlock
  try dsimp only [onHost, onMb]
  refine Frame.then ?_ (onDie_frame _ _ _) rfl
  exact Frame.refl _ _

theorem discardPages_frame : ∀ s locs, Frame [.counters, .flash] s (discardPages s locs) := by
  intro s locs
  unfold discardPages
  try dsimp only [onHost, onMb]
  refine Frame.then ?_ (bump_frame _ _ _) rfl
  refine Frame.then ?_ frame_set_flash rfl
  exact Frame.refl _ _

theorem reprogram_frame : ∀ die block s p, Frame [.flash] s (reprogram die block s p) := by
  intro die block s p
  unfold reprogram
  try dsimp only [onHost, onMb]
  refine Frame.ite ?_ ?_
  · exact Frame.refl _ _
  · refine Frame.then ?_ (onDie_frame _ _ _) rfl
    refine Frame.then ?_ frame_set_flash rfl
    exact Frame.refl _ _

theorem execProgramFailure_frame : ∀ die block pages s t, execProgramFailure die block pages s = .next t → Frame [.objs, .counters, .queues, .rings, .flash, .errorLog] s t := by
  intro die block pages s t h
  unfold execProgramFailure at h
  injection h with h
  subst h
  try dsimp only [onHost, onMb]
  split
  · try dsimp only
    exact Frame.refl _ _
  · try dsimp only
    refine Frame.ite ?_ ?_
    · exact Frame.refl _ _
    · refine Frame.ite ?_ ?_
      · refine Frame.then ?_ (postEvent_frame _ _ _) rfl
        refine Frame.then ?_ (setObj_frame _ _ _) rfl
        refine Frame.then ?_ (bump_frame _ _ _) rfl
        refine Frame.then ?_ (onDie_frame _ _ _) rfl
        refine Frame.foldl ?_ ?_
        · exact Frame.refl _ _
        · intro _ _
          try dsimp only
          refine Frame.then ?_ (reprogram_frame _ _ _ _) rfl
          exact Frame.refl _ _
      · refine Frame.then ?_ (bump_frame _ _ _) rfl
        refine Frame.then ?_ (onDie_frame _ _ _) rfl
        refine Frame.foldl ?_ ?_
        · exact Frame.refl _ _
        · intro _ _
          try dsimp only
          refine Frame.then ?_ (reprogram_frame _ _ _ _) rfl
          exact Frame.refl _ _

theorem flashAtBoundary_frame : ∀ s n, Frame [.objs, .counters, .queues, .rings, .place, .flash, .errorLog] s (flashAtBoundary s n) := by
  intro s n
  unfold flashAtBoundary
  try dsimp only [onHost, onMb]
  refine Frame.ite ?_ ?_
  · refine Frame.then ?_ frame_set_place rfl
    refine Frame.then ?_ (postEvent_frame _ _ _) rfl
    refine Frame.then ?_ frame_set_flash rfl
    refine Frame.then ?_ (setObj_frame _ _ _) rfl
    refine Frame.then ?_ (setObj_frame _ _ _) rfl
    exact Frame.refl _ _
  · refine Frame.then ?_ frame_set_flash rfl
    refine Frame.then ?_ (setObj_frame _ _ _) rfl
    refine Frame.then ?_ (setObj_frame _ _ _) rfl
    exact Frame.refl _ _

theorem countRead_frame : ∀ s d p, Frame [.flash] s (countRead s d p) := by
  intro s d p
  unfold countRead
  try dsimp only [onHost, onMb]
  refine Frame.ite ?_ ?_
  · refine Frame.then ?_ (markBlock_frame _ _ _) rfl
    refine Frame.then ?_ (onDie_frame _ _ _) rfl
    exact Frame.refl _ _
  · refine Frame.then ?_ (onDie_frame _ _ _) rfl
    exact Frame.refl _ _

theorem execRelocationCopyComplete_frame : ∀ die lpn phys s t, execRelocationCopyComplete die lpn phys s = .next t → Frame [.counters, .turnMisc, .flash] s t := by
  intro die lpn phys s t h
  unfold execRelocationCopyComplete at h
  injection h with h
  subst h
  try dsimp only [onHost, onMb]
  refine Frame.ite ?_ ?_
  · exact Frame.refl _ _
  · refine Frame.then ?_ (bump_frame _ _ _) rfl
    refine Frame.then ?_ (shadowPush_frame _ _) rfl
    refine Frame.then ?_ (onDie_frame _ _ _) rfl
    exact Frame.refl _ _

end Sys2Proof.Machine
end

