-- ==== Sys2Proof/Laws/FrameIndex.lean ====
section
/-! SUPPORT. Which parts of the state the functions of Machine/Index.lean may change. -/

set_option maxRecDepth 4000

namespace Sys2Proof.Machine

open Sys2Proof

theorem setColl_frame : ∀ s c v, Frame [.colls] s (setColl s c v) := by
  intro s c v
  unfold setColl
  try dsimp only [onHost, onMb]
  refine Frame.then ?_ frame_set_colls rfl
  exact Frame.refl _ _

theorem setList_frame : ∀ s l, Frame [.lists] s (setList s l) := by
  intro s l
  unfold setList
  try dsimp only [onHost, onMb]
  refine Frame.ite ?_ ?_
  · refine Frame.then ?_ frame_set_lists rfl
    exact Frame.refl _ _
  · refine Frame.then ?_ frame_set_lists rfl
    exact Frame.refl _ _

end Sys2Proof.Machine
end

