-- ==== Sys2Proof/Laws/FrameNarrow.lean ====
section
/-! SUPPORT. Which parts of the state the functions of Machine/Narrow.lean may change. -/

set_option maxRecDepth 4000

namespace Sys2Proof.Machine

open Sys2Proof

theorem setStrm_frame : ∀ s k v, Frame [.streams] s (setStrm s k v) := by
  intro s k v
  unfold setStrm
  try dsimp only [onHost, onMb]
  refine Frame.then ?_ frame_set_streams rfl
  exact Frame.refl _ _

theorem strmSat_frame : ∀ s k sats, Frame [.counters, .streams] s (strmSat s k sats) := by
  intro s k sats
  unfold strmSat
  try dsimp only [onHost, onMb]
  refine Frame.ite ?_ ?_
  · exact Frame.refl _ _
  · refine Frame.then ?_ (bump_frame _ _ _) rfl
    refine Frame.then ?_ (setStrm_frame _ _ _) rfl
    exact Frame.refl _ _

theorem strmAdd_frame : ∀ s k f limit xs xhat sats, Frame [.counters, .streams] s (strmAdd s k f limit xs xhat sats) := by
  intro s k f limit xs xhat sats
  unfold strmAdd
  try dsimp only [onHost, onMb]
  refine Frame.then ?_ (strmSat_frame _ _ _) rfl
  refine Frame.then ?_ (setStrm_frame _ _ _) rfl
  exact Frame.refl _ _

theorem strmConv_frame : ∀ s k f r batch xs, Frame [.counters, .streams] s (strmConv s k f r batch xs).1 := by
  intro s k f r batch xs
  unfold strmConv
  try dsimp only [onHost, onMb]
  try dsimp only
  refine Frame.then ?_ (strmAdd_frame _ _ _ _ _ _ _) rfl
  exact Frame.refl _ _

theorem clearHists_frame : ∀ s owned, Frame [.streams] s (clearHists s owned) := by
  intro s owned
  unfold clearHists
  try dsimp only [onHost, onMb]
  refine Frame.then ?_ frame_set_streams rfl
  exact Frame.refl _ _

theorem setScaleN_frame : ∀ s a v owned, Frame [.objs, .streams] s (setScaleN s a v owned) := by
  intro s a v owned
  unfold setScaleN
  try dsimp only [onHost, onMb]
  refine Frame.ite ?_ ?_
  · exact Frame.refl _ _
  · refine Frame.then ?_ (clearHists_frame _ _) rfl
    refine Frame.then ?_ (setObj_frame _ _ _) rfl
    exact Frame.refl _ _

theorem endSteps_frame : ∀ s, Frame [.streams] s (endSteps s) := by
  intro s
  unfold endSteps
  try dsimp only [onHost, onMb]
  refine Frame.then ?_ frame_set_streams rfl
  exact Frame.refl _ _

end Sys2Proof.Machine
end

