-- ==== Sys2Proof/Laws/FrameAdapt.lean ====
section
/-! SUPPORT. Which parts of the state the functions of Machine/Adapt.lean may change. -/

set_option maxRecDepth 4000

namespace Sys2Proof.Machine

open Sys2Proof

theorem deferReshape_frame : ∀ s key, Frame [.counters] s (deferReshape s key) := by
  intro s key
  unfold deferReshape
  try dsimp only [onHost, onMb]
  refine Frame.ite ?_ ?_
  · refine Frame.then ?_ (bump_frame _ _ _) rfl
    exact Frame.refl _ _
  · exact Frame.refl _ _

theorem openReshape_frame : ∀ s key other split rows n, Frame [.counters, .colls, .ing] s (openReshape s key other split rows n) := by
  intro s key other split rows n
  unfold openReshape
  try dsimp only [onHost, onMb]
  refine Frame.ite ?_ ?_
  · exact Frame.refl _ _
  · refine Frame.ite ?_ ?_
    · refine Frame.then ?_ (deferReshape_frame _ _) rfl
      exact Frame.refl _ _
    · refine Frame.then ?_ frame_set_ing rfl
      refine Frame.then ?_ (setColl_frame _ _ _) rfl
      exact Frame.refl _ _

theorem addMirror_frame : ∀ s key es, Frame [.counters, .place] s (addMirror s key es) := by
  intro s key es
  unfold addMirror
  try dsimp only [onHost, onMb]
  refine Frame.ite ?_ ?_
  · exact Frame.refl _ _
  · refine Frame.ite ?_ ?_
    · refine Frame.then ?_ (bump_frame _ _ _) rfl
      exact Frame.refl _ _
    · split
      · try dsimp only
        exact Frame.refl _ _
      · try dsimp only
        refine Frame.then ?_ frame_set_place rfl
        exact Frame.refl _ _

theorem addMirrors_frame : ∀ s key bases, Frame [.counters, .place] s (addMirrors s key bases) := by
  intro s key bases
  unfold addMirrors
  try dsimp only [onHost, onMb]
  refine Frame.foldl ?_ ?_
  · exact Frame.refl _ _
  · intro _ _
    try dsimp only
    refine Frame.then ?_ (addMirror_frame _ _ _) rfl
    exact Frame.refl _ _

theorem placeSegment_frame : ∀ s c es, Frame [.counters, .flash] s (placeSegment s c es).1 := by
  intro s c es
  unfold placeSegment
  try dsimp only [onHost, onMb]
  refine Frame.ite1 ?_ ?_
  · try dsimp only
    exact Frame.refl _ _
  · try dsimp only
    refine Frame.then ?_ (placeRecords_frame _ _ _ _ _ _) rfl
    exact Frame.refl _ _

theorem countDrift_frame : ∀ s src c epoch rs, Frame [.colls] s (countDrift s src c epoch rs) := by
  intro s src c epoch rs
  unfold countDrift
  try dsimp only [onHost, onMb]
  refine Frame.then ?_ (setColl_frame _ _ _) rfl
  exact Frame.refl _ _

theorem driftRecs_frame : ∀ s c, Frame [.counters, .streams] s (driftRecs s c).1 := by
  intro s c
  unfold driftRecs
  try dsimp only [onHost, onMb]
  refine Frame.foldl1 ?_ ?_
  · try dsimp only
    exact Frame.refl _ _
  · intro _ _
    try dsimp only
    try dsimp only
    refine Frame.then ?_ (strmAdd_frame _ _ _ _ _ _ _) rfl
    exact Frame.refl _ _

theorem startMerge_frame : ∀ cap p l, Frame [.counters, .ledger] p.1 (startMerge cap p l).1 := by
  intro cap p l
  unfold startMerge
  try dsimp only [onHost, onMb]
  refine Frame.ite1 ?_ ?_
  · try dsimp only
    refine Frame.then ?_ (bump_frame _ _ _) rfl
    exact Frame.refl _ _
  · split
    · try dsimp only
      try dsimp only
      refine Frame.then ?_ (bump_frame _ _ _) rfl
      exact Frame.refl _ _
    · try dsimp only
      refine Frame.ite1 ?_ ?_
      · try dsimp only
        refine Frame.then ?_ (bump_frame _ _ _) rfl
        exact Frame.refl _ _
      · try dsimp only
        refine Frame.then ?_ (ledgerRequest_frame _ _) rfl
        exact Frame.refl _ _

theorem startSplit_frame : ∀ e cap p l, Frame [.counters, .ledger] p.1 (startSplit e cap p l).1 := by
  intro e cap p l
  unfold startSplit
  try dsimp only [onHost, onMb]
  refine Frame.ite1 ?_ ?_
  · try dsimp only
    refine Frame.then ?_ (bump_frame _ _ _) rfl
    exact Frame.refl _ _
  · refine Frame.ite1 ?_ ?_
    · try dsimp only
      refine Frame.then ?_ (bump_frame _ _ _) rfl
      refine Frame.then ?_ (bump_frame _ _ _) rfl
      exact Frame.refl _ _
    · try dsimp only
      refine Frame.then ?_ (ledgerRequest_frame _ _) rfl
      exact Frame.refl _ _

theorem startReshapes_frame : ∀ s c e, Frame [.counters, .ledger] s (startReshapes s c e) := by
  intro s c e
  unfold startReshapes
  try dsimp only [onHost, onMb]
  refine Frame.foldl1 ?_ ?_
  · refine Frame.foldl1 ?_ ?_
    · try dsimp only
      exact Frame.refl _ _
    · intro _ _
      try dsimp only
      refine Frame.then ?_ (startSplit_frame _ _ _ _) rfl
      exact Frame.refl _ _
  · intro _ _
    try dsimp only
    refine Frame.then ?_ (startMerge_frame _ _ _) rfl
    exact Frame.refl _ _

theorem doAdaptationEpochEnd_frame : ∀ s c, Frame [.counters, .streams, .colls, .fab, .ledger] s (doAdaptationEpochEnd s c) := by
  intro s c
  unfold doAdaptationEpochEnd
  try dsimp only [onHost, onMb]
  refine Frame.ite ?_ ?_
  · exact Frame.refl _ _
  · refine Frame.then ?_ (startReshapes_frame _ _ _) rfl
    refine Frame.then ?_ (setColl_frame _ _ _) rfl
    refine Frame.then ?_ (countDrift_frame _ _ _ _ _) rfl
    refine Frame.then ?_ (sendAll_frame _ _ _) rfl
    refine Frame.then ?_ (driftRecs_frame _ _) rfl
    exact Frame.refl _ _

theorem applyDrift_frame : ∀ s c epoch n, Frame [.colls] s (applyDrift s c epoch n) := by
  intro s c epoch n
  unfold applyDrift
  try dsimp only [onHost, onMb]
  refine Frame.ite ?_ ?_
  · refine Frame.then ?_ (setColl_frame _ _ _) rfl
    exact Frame.refl _ _
  · exact Frame.refl _ _

theorem mergeLists_frame : ∀ s r n, Frame [.counters, .lists, .place, .flash] s (mergeLists s r n) := by
  intro s r n
  unfold mergeLists
  try dsimp only [onHost, onMb]
  split
  · try dsimp only
    refine Frame.then ?_ (bump_frame _ _ _) rfl
    refine Frame.then ?_ (addMirrors_frame _ _ _) rfl
    refine Frame.then ?_ (setList_frame _ _) rfl
    refine Frame.then ?_ (setList_frame _ _) rfl
    refine Frame.then ?_ (placeSegment_frame _ _ _) rfl
    refine Frame.then ?_ (setList_frame _ _) rfl
    exact Frame.refl _ _
  · try dsimp only
    exact Frame.refl _ _

theorem splitLists_frame : ∀ s r n, Frame [.counters, .lists, .place, .flash] s (splitLists s r n) := by
  intro s r n
  unfold splitLists
  try dsimp only [onHost, onMb]
  split
  · try dsimp only
    refine Frame.then ?_ (bump_frame _ _ _) rfl
    refine Frame.then ?_ (addMirrors_frame _ _ _) rfl
    refine Frame.then ?_ (addMirrors_frame _ _ _) rfl
    refine Frame.then ?_ (setList_frame _ _) rfl
    refine Frame.then ?_ (placeSegment_frame _ _ _) rfl
    refine Frame.then ?_ (setList_frame _ _) rfl
    refine Frame.then ?_ (placeSegment_frame _ _ _) rfl
    exact Frame.refl _ _
  · try dsimp only
    exact Frame.refl _ _

theorem applyReshape_frame : ∀ s r n, Frame [.counters, .colls, .lists, .ing, .place, .flash, .ledger] s (applyReshape s r n) := by
  intro s r n
  unfold applyReshape
  try dsimp only [onHost, onMb]
  refine Frame.ite ?_ ?_
  · refine Frame.then ?_ (splitLists_frame _ _ _) rfl
    refine Frame.then ?_ frame_set_ledger rfl
    refine Frame.then ?_ (setColl_frame _ _ _) rfl
    refine Frame.then ?_ frame_set_ing rfl
    exact Frame.refl _ _
  · refine Frame.then ?_ (mergeLists_frame _ _ _) rfl
    refine Frame.then ?_ frame_set_ing rfl
    refine Frame.then ?_ (setColl_frame _ _ _) rfl
    refine Frame.then ?_ frame_set_ing rfl
    exact Frame.refl _ _

theorem switchSet_frame : ∀ s key n, Frame [.counters, .lists] s (switchSet s key n) := by
  intro s key n
  unfold switchSet
  try dsimp only [onHost, onMb]
  split
  · try dsimp only
    exact Frame.refl _ _
  · try dsimp only
    split
    · try dsimp only
      exact Frame.refl _ _
    · try dsimp only
      refine Frame.then ?_ (bump_frame _ _ _) rfl
      refine Frame.then ?_ (setList_frame _ _) rfl
      exact Frame.refl _ _

theorem doReshapeBuild_frame : ∀ s key, Frame [.ing, .ledger] s (doReshapeBuild s key) := by
  intro s key
  unfold doReshapeBuild
  try dsimp only [onHost, onMb]
  split
  · try dsimp only
    exact Frame.refl _ _
  · try dsimp only
    refine Frame.ite ?_ ?_
    · exact Frame.refl _ _
    · refine Frame.then ?_ (ledgerRequest_frame _ _) rfl
      refine Frame.then ?_ frame_set_ing rfl
      exact Frame.refl _ _

theorem execReshapeBuildComplete_frame : ∀ key s t, execReshapeBuildComplete key s = .next t → Frame [.ing, .ledger] s t := by
  intro key s t h
  unfold execReshapeBuildComplete at h
  injection h with h
  subst h
  try dsimp only [onHost, onMb]
  refine Frame.then ?_ (doReshapeBuild_frame _ _) rfl
  exact Frame.refl _ _

theorem doCompactionComplete_frame : ∀ s key, Frame [.counters, .lists, .place, .flash] s (doCompactionComplete s key) := by
  intro s key
  unfold doCompactionComplete
  try dsimp only [onHost, onMb]
  split
  · try dsimp only
    exact Frame.refl _ _
  · try dsimp only
    split
    · try dsimp only
      exact Frame.refl _ _
    · try dsimp only
      refine Frame.then ?_ (addMirror_frame _ _ _) rfl
      refine Frame.then ?_ (setList_frame _ _) rfl
      refine Frame.then ?_ (placeSegment_frame _ _ _) rfl
      exact Frame.refl _ _

theorem execCompactionComplete_frame : ∀ key s t, execCompactionComplete key s = .next t → Frame [.counters, .lists, .place, .flash] s t := by
  intro key s t h
  unfold execCompactionComplete at h
  injection h with h
  subst h
  try dsimp only [onHost, onMb]
  refine Frame.then ?_ (doCompactionComplete_frame _ _) rfl
  exact Frame.refl _ _

theorem reshapeReport_frame : ∀ s node key n, Frame [.counters, .colls, .lists, .ing, .place, .flash, .ledger] s (reshapeReport s node key n) := by
  intro s node key n
  unfold reshapeReport
  try dsimp only [onHost, onMb]
  split
  · try dsimp only
    exact Frame.refl _ _
  · try dsimp only
    refine Frame.ite ?_ ?_
    · refine Frame.then ?_ (applyReshape_frame _ _ _) rfl
      exact Frame.refl _ _
    · refine Frame.then ?_ frame_set_ing rfl
      exact Frame.refl _ _

theorem doDriftApply_frame : ∀ s c epoch, Frame [.counters, .colls, .ledger] s (doDriftApply s c epoch) := by
  intro s c epoch
  unfold doDriftApply
  try dsimp only [onHost, onMb]
  refine Frame.ite ?_ ?_
  · exact Frame.refl _ _
  · split
    · try dsimp only
      exact Frame.refl _ _
    · try dsimp only
      refine Frame.then ?_ (ledgerRequest_frame _ _) rfl
      refine Frame.then ?_ (bump_frame _ _ _) rfl
      refine Frame.then ?_ (setColl_frame _ _ _) rfl
      exact Frame.refl _ _

theorem execCentroidDriftApply_frame : ∀ coll epoch s t, execCentroidDriftApply coll epoch s = .next t → Frame [.counters, .colls, .ledger] s t := by
  intro coll epoch s t h
  unfold execCentroidDriftApply at h
  injection h with h
  subst h
  try dsimp only [onHost, onMb]
  refine Frame.then ?_ (doDriftApply_frame _ _ _) rfl
  exact Frame.refl _ _

theorem doCompactionStart_frame : ∀ s key, Frame [.counters, .lists] s (doCompactionStart s key) := by
  intro s key
  unfold doCompactionStart
  try dsimp only [onHost, onMb]
  split
  · try dsimp only
    exact Frame.refl _ _
  · try dsimp only
    refine Frame.ite ?_ ?_
    · exact Frame.refl _ _
    · refine Frame.ite ?_ ?_
      · exact Frame.refl _ _
      · refine Frame.ite ?_ ?_
        · refine Frame.then ?_ (bump_frame _ _ _) rfl
          exact Frame.refl _ _
        · refine Frame.then ?_ (setList_frame _ _) rfl
          exact Frame.refl _ _

theorem execAdaptationEpochEnd_frame : ∀ coll s t, execAdaptationEpochEnd coll s = .next t → Frame [.counters, .streams, .colls, .fab, .ledger] s t := by
  intro coll s t h
  unfold execAdaptationEpochEnd at h
  injection h with h
  subst h
  try dsimp only [onHost, onMb]
  refine Frame.then ?_ (doAdaptationEpochEnd_frame _ _) rfl
  exact Frame.refl _ _

theorem execCompactionStart_frame : ∀ key s t, execCompactionStart key s = .next t → Frame [.counters, .lists] s t := by
  intro key s t h
  unfold execCompactionStart at h
  injection h with h
  subst h
  try dsimp only [onHost, onMb]
  refine Frame.then ?_ (doCompactionStart_frame _ _) rfl
  exact Frame.refl _ _

theorem execSegmentSetSwitch_frame : ∀ key s t, execSegmentSetSwitch key s = .next t → Frame [.counters, .lists] s t := by
  intro key s t h
  unfold execSegmentSetSwitch at h
  injection h with h
  subst h
  try dsimp only [onHost, onMb]
  refine Frame.ite ?_ ?_
  · refine Frame.then ?_ (switchSet_frame _ _ _) rfl
    exact Frame.refl _ _
  · exact Frame.refl _ _

end Sys2Proof.Machine
end

