-- ==== Sys2Proof/Laws/FrameBoards.lean ====
section
/-! SUPPORT. Which parts of the state the functions of Machine/Boards.lean may change. -/

set_option maxRecDepth 4000

namespace Sys2Proof.Machine

open Sys2Proof

theorem unplace_frame : ∀ s e id, Frame [.turnMisc] s (unplace s e id) := by
  intro s e id
  unfold unplace
  try dsimp only [onHost, onMb]
  refine Frame.then ?_ frame_set_turn_placed rfl
  exact Frame.refl _ _

theorem crossBridge_frame : ∀ s half n, Frame [.turnMisc] s (crossBridge s half n) := by
  intro s half n
  unfold crossBridge
  try dsimp only [onHost, onMb]
  refine Frame.ite ?_ ?_
  · exact Frame.refl _ _
  · refine Frame.then ?_ frame_set_turn_bridgeUsed rfl
    exact Frame.refl _ _

theorem holdAhead_frame : ∀ s h k e n, Frame [.turnMisc] s (holdAhead s h k e n) := by
  intro s h k e n
  unfold holdAhead
  try dsimp only [onHost, onMb]
  refine Frame.then ?_ frame_set_turn_plan rfl
  exact Frame.refl _ _

theorem addPlaced_frame : ∀ s ws, Frame [.turnMisc] s (addPlaced s ws) := by
  intro s ws
  unfold addPlaced
  try dsimp only [onHost, onMb]
  refine Frame.then ?_ frame_set_turn_placed rfl
  exact Frame.refl _ _

end Sys2Proof.Machine
end

