-- ==== Sys2Proof/Laws/FrameWenmen.lean ====
section
/-! SUPPORT. Which parts of the state the functions of Machine/Wenmen.lean may change. -/

set_option maxRecDepth 4000

namespace Sys2Proof.Machine

open Sys2Proof

theorem linkRecord_frame : ∀ s p up, Frame [.ledger] s (linkRecord s p up) := by
  intro s p up
  unfold linkRecord
  try dsimp only [onHost, onMb]
  refine Frame.ite ?_ ?_
  · refine Frame.then ?_ (ledgerRequest_frame _ _) rfl
    exact Frame.refl _ _
  · exact Frame.refl _ _

theorem setPort_frame : ∀ s p v, Frame [.fab] s (setPort s p v) := by
  intro s p v
  unfold setPort
  try dsimp only [onHost, onMb]
  refine Frame.then ?_ frame_set_fab rfl
  exact Frame.refl _ _

theorem drain_frame : ∀ s p n, Frame [.fab, .out] s (drain s p n) := by
  intro s p n
  induction n generalizing s with
  | zero => exact Frame.refl _ _
  | succ n ih =>
    unfold drain
    dsimp only
    split
    · exact Frame.refl _ _
    · refine Frame.ite (Frame.refl _ _) ?_
      refine Frame.then ?_ (ih _) rfl
      refine Frame.then ?_ (emit_frame _ _) rfl
      exact Frame.then (Frame.refl _ _) (setPort_frame _ _ _) rfl

theorem putFrame_frame : ∀ s p f, Frame [.fab, .out] s (putFrame s p f) := by
  intro s p f
  unfold putFrame
  try dsimp only [onHost, onMb]
  refine Frame.then ?_ (drain_frame _ _ _) rfl
  refine Frame.then ?_ (emit_frame _ _) rfl
  refine Frame.then ?_ (setPort_frame _ _ _) rfl
  exact Frame.refl _ _

theorem routeFrame_frame : ∀ s f, Frame [.fab, .out] s (routeFrame s f) := by
  intro s f
  unfold routeFrame
  try dsimp only [onHost, onMb]
  split
  · try dsimp only
    exact Frame.refl _ _
  · try dsimp only
    refine Frame.then ?_ (putFrame_frame _ _ _) rfl
    exact Frame.refl _ _

theorem startTraining_frame : ∀ s p, Frame [.objs, .out] s (startTraining s p) := by
  intro s p
  unfold startTraining
  try dsimp only [onHost, onMb]
  refine Frame.then ?_ (emit_frame _ _) rfl
  refine Frame.then ?_ (setObj_frame _ _ _) rfl
  exact Frame.refl _ _

theorem toState_frame : ∀ s p state, Frame [.objs, .out] s (toState s p state) := by
  intro s p state
  unfold toState
  try dsimp only [onHost, onMb]
  refine Frame.ite ?_ ?_
  · refine Frame.then ?_ (startTraining_frame _ _) rfl
    exact Frame.refl _ _
  · refine Frame.then ?_ (setObj_frame _ _ _) rfl
    exact Frame.refl _ _

theorem portDown_frame : ∀ s p state, Frame [.objs, .counters, .queues, .rings, .fab, .ledger, .errorLog, .out] s (portDown s p state) := by
  intro s p state
  unfold portDown
  try dsimp only [onHost, onMb]
  refine Frame.ite ?_ ?_
  · refine Frame.then ?_ (toState_frame _ _ _) rfl
    refine Frame.then ?_ frame_set_fab rfl
    refine Frame.then ?_ (setPort_frame _ _ _) rfl
    exact Frame.refl _ _
  · refine Frame.foldl ?_ ?_
    · refine Frame.then ?_ (linkRecord_frame _ _ _) rfl
      refine Frame.then ?_ (postEvent_frame _ _ _) rfl
      refine Frame.then ?_ (toState_frame _ _ _) rfl
      refine Frame.then ?_ frame_set_fab rfl
      refine Frame.then ?_ (setPort_frame _ _ _) rfl
      exact Frame.refl _ _
    · intro _ _
      try dsimp only
      refine Frame.then ?_ (routeFrame_frame _ _) rfl
      exact Frame.refl _ _

theorem applyPortEn_frame : ∀ s v, Frame [.objs, .counters, .queues, .rings, .fab, .ledger, .errorLog, .out] s (applyPortEn s v) := by
  intro s v
  unfold applyPortEn
  try dsimp only [onHost, onMb]
  refine Frame.foldl ?_ ?_
  · refine Frame.then ?_ (setObj_frame _ _ _) rfl
    exact Frame.refl _ _
  · intro _ _
    try dsimp only
    refine Frame.ite ?_ ?_
    · refine Frame.ite ?_ ?_
      · exact Frame.refl _ _
      · refine Frame.then ?_ (portDown_frame _ _ _) rfl
        exact Frame.refl _ _
    · refine Frame.ite ?_ ?_
      · refine Frame.then ?_ (startTraining_frame _ _) rfl
        exact Frame.refl _ _
      · exact Frame.refl _ _

theorem sendNak_frame : ∀ s p, Frame [.fab, .out] s (sendNak s p) := by
  intro s p
  unfold sendNak
  try dsimp only [onHost, onMb]
  refine Frame.ite ?_ ?_
  · exact Frame.refl _ _
  · refine Frame.then ?_ (emit_frame _ _) rfl
    refine Frame.then ?_ (setPort_frame _ _ _) rfl
    exact Frame.refl _ _

theorem takeFlit_frame {w : List Part} (hw : subParts [.counters, .fab, .out] w = true) : ∀ s p f (k : State → State), (∀ x, Frame w x (k x)) → Frame w s (takeFlit s p f k) := by
  intro s p f k hk
  unfold takeFlit
  dsimp only
  have hb : ∀ a, Frame w s (if f.fec = 1 then bump s a 1 else s) := fun a =>
    Frame.ite (Frame.then (Frame.refl _ _) (bump_frame _ _ _) (subParts_trans rfl hw)) (Frame.refl _ _)
  refine Frame.ite (Frame.refl _ _) (Frame.ite ?_ (Frame.ite ?_ (Frame.ite ?_ ?_)))
  · exact Frame.then (Frame.then (hb _) (bump_frame _ _ _) (subParts_trans rfl hw)) (sendNak_frame _ _) (subParts_trans rfl hw)
  · exact Frame.then (hb _) (sendNak_frame _ _) (subParts_trans rfl hw)
  · exact Frame.then (hb _) (bump_frame _ _ _) (subParts_trans rfl hw)
  · exact Frame.then (hb _) (hk _) (subParts_refl w)

theorem sendFrame_frame : ∀ s f, Frame [.fab, .out] s (sendFrame s f) := by
  intro s f
  unfold sendFrame
  try dsimp only [onHost, onMb]
  refine Frame.ite ?_ ?_
  · refine Frame.then ?_ frame_set_fab rfl
    exact Frame.refl _ _
  · refine Frame.then ?_ (routeFrame_frame _ _) rfl
    refine Frame.then ?_ frame_set_fab rfl
    exact Frame.refl _ _

theorem flitHeader_frame : ∀ s p f, Frame [.fab, .out] s (flitHeader s p f) := by
  intro s p f
  unfold flitHeader
  try dsimp only [onHost, onMb]
  refine Frame.then ?_ (drain_frame _ _ _) rfl
  refine Frame.then ?_ (setPort_frame _ _ _) rfl
  exact Frame.refl _ _

theorem execDataFlit_frame : ∀ port flit s t, execDataFlit port flit s = .next t → Frame [.counters, .fab, .out] s t := by
  intro port flit s t h
  unfold execDataFlit at h
  injection h with h
  subst h
  refine takeFlit_frame rfl _ _ _ _ ?_
  intro x
  try dsimp only
  have hh := fun (a : State) => flitHeader_frame a port flit
  refine Frame.ite (Frame.refl _ _) (Frame.ite ?_ ?_)
  · exact Frame.then (Frame.then (Frame.refl _ _) (hh _) rfl) (sendNak_frame _ _) rfl
  · exact Frame.then (Frame.then (Frame.then (Frame.refl _ _) (hh _) rfl) (setPort_frame _ _ _) rfl) (emit_frame _ _) rfl

theorem marksAtP5_frame : ∀ s, Frame [.turnMisc, .fab, .out] s (marksAtP5 s) := by
  intro s
  unfold marksAtP5
  try dsimp only [onHost, onMb]
  refine Frame.ite ?_ ?_
  · refine Frame.foldl ?_ ?_
    · refine Frame.then ?_ frame_set_fab rfl
      exact Frame.refl _ _
    · intro _ _
      try dsimp only
      refine Frame.then ?_ (emit_frame _ _) rfl
      exact Frame.refl _ _
  · refine Frame.ite ?_ ?_
    · refine Frame.then ?_ frame_set_turn_alignBad_turn_marksMissed_turn_markSeen_fab rfl
      exact Frame.refl _ _
    · refine Frame.then ?_ frame_set_fab rfl
      exact Frame.refl _ _

theorem askLender_frame : ∀ s lender key, Frame [.counters, .fab, .out] s (askLender s lender key) := by
  intro s lender key
  unfold askLender
  try dsimp only [onHost, onMb]
  refine Frame.ite ?_ ?_
  · refine Frame.then ?_ (bump_frame _ _ _) rfl
    refine Frame.then ?_ (emit_frame _ _) rfl
    refine Frame.then ?_ frame_set_fab rfl
    exact Frame.refl _ _
  · refine Frame.then ?_ frame_set_fab rfl
    exact Frame.refl _ _

theorem execTransportAck_frame : ∀ dst cls next1 resend s t, execTransportAck dst cls next1 resend s = .next t → Frame [.counters, .fab, .out] s t := by
  intro dst cls next1 resend s t h
  unfold execTransportAck at h
  injection h with h
  subst h
  try dsimp only [onHost, onMb]
  split
  · try dsimp only
    exact Frame.refl _ _
  · try dsimp only
    refine Frame.ite ?_ ?_
    · refine Frame.foldl ?_ ?_
      · refine Frame.then ?_ (bump_frame _ _ _) rfl
        refine Frame.foldl ?_ ?_
        · refine Frame.then ?_ frame_set_fab rfl
          exact Frame.refl _ _
        · intro _ _
          try dsimp only
          refine Frame.then ?_ (routeFrame_frame _ _) rfl
          exact Frame.refl _ _
      · intro _ _
        try dsimp only
        refine Frame.then ?_ (routeFrame_frame _ _) rfl
        exact Frame.refl _ _
    · refine Frame.foldl ?_ ?_
      · refine Frame.then ?_ frame_set_fab rfl
        exact Frame.refl _ _
      · intro _ _
        try dsimp only
        refine Frame.then ?_ (routeFrame_frame _ _) rfl
        exact Frame.refl _ _

theorem resendFlits_frame : ∀ s p, Frame [.objs, .counters, .queues, .rings, .fab, .ledger, .errorLog, .out] s (resendFlits s p) := by
  intro s p
  unfold resendFlits
  try dsimp only [onHost, onMb]
  refine Frame.ite ?_ ?_
  · exact Frame.refl _ _
  · refine Frame.ite ?_ ?_
    · refine Frame.then ?_ (portDown_frame _ _ _) rfl
      exact Frame.refl _ _
    · refine Frame.foldl ?_ ?_
      · refine Frame.then ?_ (bump_frame _ _ _) rfl
        refine Frame.then ?_ (setPort_frame _ _ _) rfl
        exact Frame.refl _ _
      · intro _ _
        try dsimp only
        refine Frame.then ?_ (emit_frame _ _) rfl
        exact Frame.refl _ _

theorem execNakFlit_frame : ∀ port flit s t, execNakFlit port flit s = .next t → Frame [.objs, .counters, .queues, .rings, .fab, .ledger, .errorLog, .out] s t := by
  intro port flit s t h
  unfold execNakFlit at h
  injection h with h
  subst h
  refine takeFlit_frame rfl _ _ _ _ ?_
  intro x
  try dsimp only
  exact Frame.then (Frame.then (Frame.refl _ _) (flitHeader_frame _ _ _) rfl) (resendFlits_frame _ _) rfl

theorem execMarkLossWithdrawal_frame : ∀ s t, execMarkLossWithdrawal s = .next t → Frame [.counters, .queues, .rings, .turnMisc, .fab, .errorLog] s t := by
  intro s t h
  unfold execMarkLossWithdrawal at h
  injection h with h
  subst h
  try dsimp only [onHost, onMb]
  refine Frame.ite ?_ ?_
  · refine Frame.then ?_ (withdrawNow_frame _) rfl
    exact Frame.refl _ _
  · exact Frame.refl _ _

theorem execBoundaryMark_frame : ∀ port mark hold offset s t, execBoundaryMark port mark hold offset s = .next t → Frame [.turnMisc, .fab, .out] s t := by
  intro port mark hold offset s t h
  unfold execBoundaryMark at h
  injection h with h
  subst h
  try dsimp only [onHost, onMb]
  refine Frame.ite ?_ ?_
  · exact Frame.refl _ _
  · refine Frame.ite ?_ ?_
    · refine Frame.then ?_ frame_set_fab rfl
      exact Frame.refl _ _
    · refine Frame.foldl ?_ ?_
      · refine Frame.then ?_ frame_set_turn_alignBad_and_5_more rfl
        exact Frame.refl _ _
      · intro _ _
        try dsimp only
        refine Frame.then ?_ (emit_frame _ _) rfl
        exact Frame.refl _ _

theorem ping_frame : ∀ now s p, Frame [.out] s (ping now s p) := by
  intro now s p
  unfold ping
  try dsimp only [onHost, onMb]
  refine Frame.then ?_ (emit_frame _ _) rfl
  exact Frame.refl _ _

theorem execPingTimer_frame : ∀ now s t, execPingTimer now s = .next t → Frame [.out] s t := by
  intro now s t h
  unfold execPingTimer at h
  injection h with h
  subst h
  try dsimp only [onHost, onMb]
  refine Frame.ite ?_ ?_
  · refine Frame.foldl ?_ ?_
    · exact Frame.refl _ _
    · intro _ _
      try dsimp only
      refine Frame.then ?_ (ping_frame _ _ _) rfl
      exact Frame.refl _ _
  · exact Frame.refl _ _

theorem fencePort_frame : ∀ s p peer part, Frame [.objs, .counters, .queues, .rings, .fab, .ledger, .errorLog, .out] s (fencePort s p peer part) := by
  intro s p peer part
  unfold fencePort
  try dsimp only [onHost, onMb]
  refine Frame.then ?_ (emit_frame _ _) rfl
  refine Frame.then ?_ (postEvent_frame _ _ _) rfl
  refine Frame.then ?_ (portDown_frame _ _ _) rfl
  exact Frame.refl _ _

theorem takeReply_frame : ∀ s src key value, Frame [.counters, .fab, .out] s (takeReply s src key value) := by
  intro s src key value
  unfold takeReply
  try dsimp only [onHost, onMb]
  refine Frame.foldl ?_ ?_
  · refine Frame.then ?_ frame_set_fab rfl
    exact Frame.refl _ _
  · intro _ _
    try dsimp only
    refine Frame.then ?_ (askLender_frame _ _ _) rfl
    exact Frame.refl _ _

theorem moveWaiting_frame : ∀ s p, Frame [.fab, .out] s (moveWaiting s p) := by
  intro s p
  unfold moveWaiting
  try dsimp only [onHost, onMb]
  refine Frame.ite ?_ ?_
  · exact Frame.refl _ _
  · refine Frame.foldl ?_ ?_
    · refine Frame.then ?_ (setPort_frame _ _ _) rfl
      exact Frame.refl _ _
    · intro _ _
      try dsimp only
      refine Frame.then ?_ (routeFrame_frame _ _) rfl
      exact Frame.refl _ _

theorem execAlignmentWithdrawal_frame : ∀ s t, execAlignmentWithdrawal s = .next t → Frame [.counters, .queues, .rings, .turnMisc, .fab, .errorLog] s t := by
  intro s t h
  unfold execAlignmentWithdrawal at h
  injection h with h
  subst h
  try dsimp only [onHost, onMb]
  refine Frame.ite ?_ ?_
  · refine Frame.then ?_ (withdrawNow_frame _) rfl
    exact Frame.refl _ _
  · exact Frame.refl _ _

theorem execPingFlit_frame : ∀ port flit hold s t, execPingFlit port flit hold s = .next t → Frame [.counters, .fab, .out] s t := by
  intro port flit hold s t h
  unfold execPingFlit at h
  injection h with h
  subst h
  refine takeFlit_frame rfl _ _ _ _ ?_
  intro x
  try dsimp only
  exact Frame.then (Frame.then (Frame.refl _ _) (flitHeader_frame _ _ _) rfl) (emit_frame _ _) rfl

theorem execIdleFlit_frame : ∀ port flit s t, execIdleFlit port flit s = .next t → Frame [.counters, .fab, .out] s t := by
  intro port flit s t h
  unfold execIdleFlit at h
  injection h with h
  subst h
  refine takeFlit_frame rfl _ _ _ _ ?_
  intro x
  try dsimp only
  exact Frame.then (Frame.refl _ _) (flitHeader_frame _ _ _) rfl

theorem discover_frame : ∀ s p peer peerPort part, Frame [.objs, .counters, .queues, .rings, .fab, .ledger, .errorLog, .out] s (discover s p peer peerPort part) := by
  intro s p peer peerPort part
  unfold discover
  try dsimp only [onHost, onMb]
  refine Frame.ite ?_ ?_
  · refine Frame.then ?_ (fencePort_frame _ _ _ _) rfl
    refine Frame.then ?_ (setObj_frame _ _ _) rfl
    refine Frame.then ?_ (setObj_frame _ _ _) rfl
    refine Frame.then ?_ (setObj_frame _ _ _) rfl
    exact Frame.refl _ _
  · refine Frame.then ?_ (setObj_frame _ _ _) rfl
    refine Frame.then ?_ (setObj_frame _ _ _) rfl
    refine Frame.then ?_ (setObj_frame _ _ _) rfl
    exact Frame.refl _ _

theorem execLaneLockLoss_frame : ∀ port s t, execLaneLockLoss port s = .next t → Frame [.objs, .counters, .queues, .rings, .fab, .ledger, .errorLog, .out] s t := by
  intro port s t h
  unfold execLaneLockLoss at h
  injection h with h
  subst h
  try dsimp only [onHost, onMb]
  refine Frame.ite ?_ ?_
  · refine Frame.then ?_ (portDown_frame _ _ _) rfl
    exact Frame.refl _ _
  · exact Frame.refl _ _

theorem delayEvent_frame : ∀ s p delay, Frame [.counters, .queues, .rings, .errorLog] s (delayEvent s p delay) := by
  intro s p delay
  unfold delayEvent
  try dsimp only [onHost, onMb]
  refine Frame.ite ?_ ?_
  · refine Frame.then ?_ (postEvent_frame _ _ _) rfl
    exact Frame.refl _ _
  · exact Frame.refl _ _

theorem execLinkUp_frame : ∀ port peerNode peerPort peerPart delayPs modKind s t, execLinkUp port peerNode peerPort peerPart delayPs modKind s = .next t → Frame [.objs, .counters, .queues, .rings, .fab, .ledger, .errorLog, .out] s t := by
  intro port peerNode peerPort peerPart delayPs modKind s t h
  unfold execLinkUp at h
  injection h with h
  subst h
  try dsimp only [onHost, onMb]
  refine Frame.ite ?_ ?_
  · exact Frame.refl _ _
  · refine Frame.ite ?_ ?_
    · refine Frame.then ?_ (postEvent_frame _ _ _) rfl
      refine Frame.then ?_ (setObj_frame _ _ _) rfl
      exact Frame.refl _ _
    · refine Frame.ite ?_ ?_
      · refine Frame.then ?_ (discover_frame _ _ _ _ _) rfl
        refine Frame.then ?_ (setObj_frame _ _ _) rfl
        exact Frame.refl _ _
      · refine Frame.then ?_ (linkRecord_frame _ _ _) rfl
        refine Frame.then ?_ (delayEvent_frame _ _ _) rfl
        refine Frame.then ?_ (setObj_frame _ _ _) rfl
        refine Frame.then ?_ (setObj_frame _ _ _) rfl
        refine Frame.then ?_ (setPort_frame _ _ _) rfl
        refine Frame.then ?_ (discover_frame _ _ _ _ _) rfl
        refine Frame.then ?_ (setObj_frame _ _ _) rfl
        exact Frame.refl _ _

theorem execReplayTimeout_frame : ∀ port s t, execReplayTimeout port s = .next t → Frame [.objs, .counters, .queues, .rings, .fab, .ledger, .errorLog, .out] s t := by
  intro port s t h
  unfold execReplayTimeout at h
  injection h with h
  subst h
  try dsimp only [onHost, onMb]
  refine Frame.ite ?_ ?_
  · refine Frame.then ?_ (resendFlits_frame _ _) rfl
    exact Frame.refl _ _
  · exact Frame.refl _ _

theorem execE2eAckTimer_frame : ∀ s t, execE2eAckTimer s = .next t → Frame [.out] s t := by
  intro s t h
  unfold execE2eAckTimer at h
  injection h with h
  subst h
  try dsimp only [onHost, onMb]
  refine Frame.foldl ?_ ?_
  · exact Frame.refl _ _
  · intro _ _
    try dsimp only
    refine Frame.then ?_ (emit_frame _ _) rfl
    exact Frame.refl _ _

theorem frameIn_frame : ∀ s f, Frame [.counters, .fab, .out] s (frameIn s f) := by
  intro s f
  unfold frameIn
  try dsimp only [onHost, onMb]
  refine Frame.foldl ?_ ?_
  · refine Frame.then ?_ frame_set_fab rfl
    exact Frame.refl _ _
  · intro _ _
    try dsimp only
    refine Frame.then ?_ (takeReply_frame _ _ _ _) rfl
    exact Frame.refl _ _

theorem execDiscFlit_frame : ∀ port peerNode peerPort peerPart now s t, execDiscFlit port peerNode peerPort peerPart now s = .next t → Frame [.objs, .counters, .queues, .rings, .fab, .ledger, .errorLog, .out] s t := by
  intro port peerNode peerPort peerPart now s t h
  unfold execDiscFlit at h
  injection h with h
  subst h
  try dsimp only [onHost, onMb]
  refine Frame.ite ?_ ?_
  · refine Frame.ite ?_ ?_
    · refine Frame.then ?_ (discover_frame _ _ _ _ _) rfl
      exact Frame.refl _ _
    · refine Frame.then ?_ (ping_frame _ _ _) rfl
      refine Frame.then ?_ (discover_frame _ _ _ _ _) rfl
      exact Frame.refl _ _
  · refine Frame.ite ?_ ?_
    · refine Frame.then ?_ (discover_frame _ _ _ _ _) rfl
      exact Frame.refl _ _
    · exact Frame.refl _ _

theorem execFrameReceive_frame : ∀ frame s t, execFrameReceive frame s = .next t → Frame [.counters, .fab, .out] s t := by
  intro frame s t h
  unfold execFrameReceive at h
  injection h with h
  subst h
  try dsimp only [onHost, onMb]
  refine Frame.ite ?_ ?_
  · refine Frame.then ?_ (bump_frame _ _ _) rfl
    exact Frame.refl _ _
  · refine Frame.ite ?_ ?_
    · exact Frame.refl _ _
    · refine Frame.ite ?_ ?_
      · refine Frame.ite ?_ ?_
        · refine Frame.then ?_ (frameIn_frame _ _) rfl
          exact Frame.refl _ _
        · refine Frame.then ?_ (emit_frame _ _) rfl
          exact Frame.refl _ _
      · refine Frame.ite ?_ ?_
        · refine Frame.then ?_ frame_set_fab rfl
          exact Frame.refl _ _
        · refine Frame.ite ?_ ?_
          · exact Frame.refl _ _
          · split
            · try dsimp only
              exact Frame.refl _ _
            · try dsimp only
              refine Frame.then ?_ (putFrame_frame _ _ _) rfl
              exact Frame.refl _ _

theorem execPongFlit_frame : ∀ port flit arrival s t, execPongFlit port flit arrival s = .next t → Frame [.objs, .counters, .queues, .rings, .fab, .errorLog, .out] s t := by
  intro port flit arrival s t h
  unfold execPongFlit at h
  injection h with h
  subst h
  refine takeFlit_frame rfl _ _ _ _ ?_
  intro x
  try dsimp only
  exact Frame.then (Frame.then (Frame.then (Frame.then (Frame.refl _ _) (flitHeader_frame _ _ _) rfl) (setObj_frame _ _ _) rfl) (delayEvent_frame _ _ _) rfl) (moveWaiting_frame _ _) rfl

end Sys2Proof.Machine
end

