-- ==== Sys2Proof/Laws/FrameCache.lean ====
section
/-! SUPPORT. Which parts of the state the functions of Machine/Cache.lean may change. -/

set_option maxRecDepth 4000

namespace Sys2Proof.Machine

open Sys2Proof

theorem trimCache_frame : ∀ s, Frame [.fab] s (trimCache s) := by
  intro s
  unfold trimCache
  try dsimp only [onHost, onMb]
  refine Frame.then ?_ frame_set_fab rfl
  exact Frame.refl _ _

theorem cacheTouch_frame : ∀ s key, Frame [.fab] s (cacheTouch s key) := by
  intro s key
  unfold cacheTouch
  try dsimp only [onHost, onMb]
  refine Frame.then ?_ frame_set_fab rfl
  exact Frame.refl _ _

theorem memoLookup_frame : ∀ s key, Frame [.counters, .fab, .out] s (memoLookup s key).1 := by
  intro s key
  unfold memoLookup
  try dsimp only [onHost, onMb]
  split
  · try dsimp only
    try dsimp only
    exact Frame.refl _ _
  · try dsimp only
    refine Frame.ite1 ?_ ?_
    · try dsimp only
      refine Frame.then ?_ (cacheTouch_frame _ _) rfl
      exact Frame.refl _ _
    · split
      · try dsimp only
        try dsimp only
        exact Frame.refl _ _
      · try dsimp only
        try dsimp only
        refine Frame.then ?_ (askLender_frame _ _ _) rfl
        exact Frame.refl _ _

theorem cachePut_frame : ∀ s key value, Frame [.fab] s (cachePut s key value) := by
  intro s key value
  unfold cachePut
  try dsimp only [onHost, onMb]
  refine Frame.ite ?_ ?_
  · exact Frame.refl _ _
  · refine Frame.then ?_ frame_set_fab rfl
    exact Frame.refl _ _

theorem memoPut_frame : ∀ s key value, Frame [.fab, .out] s (memoPut s key value) := by
  intro s key value
  unfold memoPut
  try dsimp only [onHost, onMb]
  split
  · try dsimp only
    exact Frame.refl _ _
  · try dsimp only
    refine Frame.ite ?_ ?_
    · refine Frame.then ?_ (cachePut_frame _ _ _) rfl
      exact Frame.refl _ _
    · refine Frame.then ?_ (emit_frame _ _) rfl
      exact Frame.refl _ _

theorem execPut_frame : ∀ src key value s t, execPut src key value s = .next t → Frame [.fab] s t := by
  intro src key value s t h
  unfold execPut at h
  injection h with h
  subst h
  try dsimp only [onHost, onMb]
  refine Frame.ite ?_ ?_
  · refine Frame.then ?_ (cachePut_frame _ _ _) rfl
    exact Frame.refl _ _
  · exact Frame.refl _ _

theorem execGet_frame : ∀ src key s t, execGet src key s = .next t → Frame [.fab, .out] s t := by
  intro src key s t h
  unfold execGet at h
  injection h with h
  subst h
  try dsimp only [onHost, onMb]
  refine Frame.ite ?_ ?_
  · refine Frame.then ?_ (emit_frame _ _) rfl
    refine Frame.then ?_ (cacheTouch_frame _ _) rfl
    exact Frame.refl _ _
  · refine Frame.then ?_ (emit_frame _ _) rfl
    exact Frame.refl _ _

theorem execDel_frame : ∀ src key s t, execDel src key s = .next t → Frame [.fab] s t := by
  intro src key s t h
  unfold execDel at h
  injection h with h
  subst h
  try dsimp only [onHost, onMb]
  refine Frame.then ?_ frame_set_fab rfl
  exact Frame.refl _ _

end Sys2Proof.Machine
end

