-- ==== Sys2Proof/Laws/FrameComposer.lean ====
section
/-! SUPPORT. Which parts of the state the functions of Machine/Composer.lean may change. -/

set_option maxRecDepth 4000

namespace Sys2Proof.Machine

open Sys2Proof

theorem setTable_frame : ∀ s t1 v, Frame [.comp] s (setTable s t1 v) := by
  intro s t1 v
  unfold setTable
  try dsimp only [onHost, onMb]
  refine Frame.then ?_ frame_set_comp rfl
  exact Frame.refl _ _

theorem movePages_frame : ∀ s t1 v, Frame [.counters, .comp, .flash] s (movePages s t1 v) := by
  intro s t1 v
  unfold movePages
  try dsimp only [onHost, onMb]
  refine Frame.then ?_ (countPages_frame _ _ _) rfl
  refine Frame.then ?_ (setTable_frame _ _ _) rfl
  exact Frame.refl _ _

theorem doTableLoad_frame : ∀ s t1, Frame [.objs, .counters, .comp, .flash] s (doTableLoad s t1) := by
  intro s t1
  unfold doTableLoad
  try dsimp only [onHost, onMb]
  refine Frame.ite ?_ ?_
  · refine Frame.then ?_ (setObj_frame _ _ _) rfl
    exact Frame.refl _ _
  · refine Frame.then ?_ (setObj_frame _ _ _) rfl
    refine Frame.then ?_ (setObj_frame _ _ _) rfl
    refine Frame.then ?_ (movePages_frame _ _ _) rfl
    exact Frame.refl _ _

theorem doTableSwitch_frame : ∀ s t1, Frame [.objs, .comp] s (doTableSwitch s t1) := by
  intro s t1
  unfold doTableSwitch
  try dsimp only [onHost, onMb]
  refine Frame.ite ?_ ?_
  · refine Frame.then ?_ (setObj_frame _ _ _) rfl
    exact Frame.refl _ _
  · refine Frame.then ?_ (setObj_frame _ _ _) rfl
    refine Frame.then ?_ (setTable_frame _ _ _) rfl
    exact Frame.refl _ _

theorem onActive_frame : ∀ s t1 f, Frame [.comp] s (onActive s t1 f) := by
  intro s t1 f
  unfold onActive
  try dsimp only [onHost, onMb]
  refine Frame.then ?_ (setTable_frame _ _ _) rfl
  exact Frame.refl _ _

theorem replaceRow_frame : ∀ s t1 i wid b, Frame [.comp] s (replaceRow s t1 i wid b) := by
  intro s t1 i wid b
  unfold replaceRow
  try dsimp only [onHost, onMb]
  refine Frame.then ?_ (onActive_frame _ _ _) rfl
  exact Frame.refl _ _

theorem onGroup_frame : ∀ s t1 g f, Frame [.comp] s (onGroup s t1 g f) := by
  intro s t1 g f
  unfold onGroup
  try dsimp only [onHost, onMb]
  refine Frame.then ?_ (onActive_frame _ _ _) rfl
  exact Frame.refl _ _

theorem startGroupMove_frame : ∀ s t1 g t2, Frame [.comp] s (startGroupMove s t1 g t2) := by
  intro s t1 g t2
  unfold startGroupMove
  try dsimp only [onHost, onMb]
  refine Frame.then ?_ (onGroup_frame _ _ _ _) rfl
  exact Frame.refl _ _

theorem useStaged_frame : ∀ s q tally, Frame [.comp] s (useStaged s q tally) := by
  intro s q tally
  unfold useStaged
  try dsimp only [onHost, onMb]
  refine Frame.then ?_ frame_set_comp rfl
  exact Frame.refl _ _

theorem discardStaged_frame : ∀ s n changed, Frame [.counters, .comp] s (discardStaged s n changed) := by
  intro s n changed
  unfold discardStaged
  try dsimp only [onHost, onMb]
  refine Frame.then ?_ (bump_frame _ _ _) rfl
  refine Frame.then ?_ frame_set_comp rfl
  refine Frame.then ?_ (bump_frame _ _ _) rfl
  exact Frame.refl _ _

theorem flipRows_frame : ∀ s n, Frame [.counters, .comp] s (flipRows s n) := by
  intro s n
  unfold flipRows
  try dsimp only [onHost, onMb]
  refine Frame.foldl ?_ ?_
  · exact Frame.refl _ _
  · intro _ _
    try dsimp only
    split
    · try dsimp only
      exact Frame.refl _ _
    · try dsimp only
      refine Frame.then ?_ (bump_frame _ _ _) rfl
      refine Frame.then ?_ (setTable_frame _ _ _) rfl
      exact Frame.refl _ _

theorem promoteRows_frame : ∀ s rows, Frame [.comp] s (promoteRows s rows) := by
  intro s rows
  unfold promoteRows
  try dsimp only [onHost, onMb]
  refine Frame.foldl ?_ ?_
  · exact Frame.refl _ _
  · intro _ _
    try dsimp only
    refine Frame.then ?_ (startGroupMove_frame _ _ _ _) rfl
    exact Frame.refl _ _

theorem stageRead_frame : ∀ s r, Frame [.flash] s (stageRead s r) := by
  intro s r
  unfold stageRead
  try dsimp only [onHost, onMb]
  split
  · try dsimp only
    exact Frame.refl _ _
  · try dsimp only
    refine Frame.then ?_ (countRead_frame _ _ _) rfl
    exact Frame.refl _ _

theorem doReadAhead_frame : ∀ s q tally, Frame [.counters, .comp, .way, .flash] s (doReadAhead s q tally) := by
  intro s q tally
  unfold doReadAhead
  try dsimp only [onHost, onMb]
  split
  · try dsimp only
    exact Frame.refl _ _
  · try dsimp only
    split
    · try dsimp only
      exact Frame.refl _ _
    · try dsimp only
      refine Frame.ite ?_ ?_
      · exact Frame.refl _ _
      · refine Frame.ite ?_ ?_
        · refine Frame.then ?_ (promoteRows_frame _ _) rfl
          exact Frame.refl _ _
        · refine Frame.ite ?_ ?_
          · exact Frame.refl _ _
          · split
            · try dsimp only
              exact Frame.refl _ _
            · try dsimp only
              refine Frame.then ?_ (bump_frame _ _ _) rfl
              refine Frame.then ?_ frame_set_comp_way rfl
              refine Frame.foldl ?_ ?_
              · exact Frame.refl _ _
              · intro _ _
                try dsimp only
                refine Frame.then ?_ (stageRead_frame _ _) rfl
                exact Frame.refl _ _

theorem execReadAhead_frame : ∀ q tally s t, execReadAhead q tally s = .next t → Frame [.counters, .comp, .way, .flash] s t := by
  intro q tally s t h
  unfold execReadAhead at h
  injection h with h
  subst h
  try dsimp only [onHost, onMb]
  refine Frame.then ?_ (doReadAhead_frame _ _ _) rfl
  exact Frame.refl _ _

theorem switchGroup_frame : ∀ s t1 g, Frame [.counters, .comp, .flash] s (switchGroup s t1 g) := by
  intro s t1 g
  unfold switchGroup
  try dsimp only [onHost, onMb]
  refine Frame.then ?_ (movePages_frame _ _ _) rfl
  exact Frame.refl _ _

theorem gatherRows_frame : ∀ s bad rs, Frame [.counters, .queues, .rings, .comp, .errorLog] s (gatherRows s bad rs).1 := by
  intro s bad rs
  unfold gatherRows
  try dsimp only [onHost, onMb]
  refine Frame.foldl1 ?_ ?_
  · try dsimp only
    exact Frame.refl _ _
  · intro _ _
    try dsimp only
    split
    · try dsimp only
      exact Frame.refl _ _
    · try dsimp only
      refine Frame.ite1 ?_ ?_
      · try dsimp only
        refine Frame.then ?_ (bump_frame _ _ _) rfl
        refine Frame.then ?_ (onGroup_frame _ _ _ _) rfl
        exact Frame.refl _ _
      · refine Frame.ite1 ?_ ?_
        · try dsimp only
          refine Frame.then ?_ (postEvent_frame _ _ _) rfl
          refine Frame.then ?_ (onActive_frame _ _ _) rfl
          refine Frame.then ?_ (bump_frame _ _ _) rfl
          refine Frame.then ?_ (onGroup_frame _ _ _ _) rfl
          exact Frame.refl _ _
        · try dsimp only
          refine Frame.then ?_ (bump_frame _ _ _) rfl
          refine Frame.then ?_ (onGroup_frame _ _ _ _) rfl
          exact Frame.refl _ _

theorem doCompose_frame : ∀ s qh bad, Frame [.counters, .queues, .rings, .comp, .streams, .queries, .fab, .errorLog, .out] s (doCompose s qh bad) := by
  intro s qh bad
  unfold doCompose
  try dsimp only [onHost, onMb]
  split
  · try dsimp only
    exact Frame.refl _ _
  · try dsimp only
    refine Frame.ite ?_ ?_
    · exact Frame.refl _ _
    · refine Frame.ite ?_ ?_
      · refine Frame.then ?_ (slipQuery_frame _ _) rfl
        exact Frame.refl _ _
      · refine Frame.ite ?_ ?_
        · refine Frame.then ?_ (onQuery_frame _ _ _) rfl
          refine Frame.then ?_ (gatherRows_frame _ _ _) rfl
          refine Frame.then ?_ (bump_frame _ _ _) rfl
          exact Frame.refl _ _
        · refine Frame.then ?_ (onQuery_frame _ _ _) rfl
          refine Frame.then ?_ (strmSat_frame _ _ _) rfl
          refine Frame.ite1 ?_ ?_
          · refine Frame.then ?_ (memoLookup_frame _ _) rfl
            refine Frame.then ?_ (gatherRows_frame _ _ _) rfl
            refine Frame.then ?_ (bump_frame _ _ _) rfl
            exact Frame.refl _ _
          · try dsimp only
            refine Frame.then ?_ (gatherRows_frame _ _ _) rfl
            refine Frame.then ?_ (bump_frame _ _ _) rfl
            exact Frame.refl _ _

theorem execCompose_frame : ∀ qh bad s t, execCompose qh bad s = .next t → Frame [.counters, .queues, .rings, .comp, .streams, .queries, .fab, .errorLog, .out] s t := by
  intro qh bad s t h
  unfold execCompose at h
  injection h with h
  subst h
  try dsimp only [onHost, onMb]
  refine Frame.then ?_ (doCompose_frame _ _ _) rfl
  exact Frame.refl _ _

theorem execTableLoad_frame : ∀ table s t, execTableLoad table s = .next t → Frame [.objs, .counters, .comp, .flash] s t := by
  intro table s t h
  unfold execTableLoad at h
  injection h with h
  subst h
  try dsimp only [onHost, onMb]
  refine Frame.then ?_ (doTableLoad_frame _ _) rfl
  exact Frame.refl _ _

theorem switchTable_frame : ∀ s t1, Frame [.objs, .counters, .comp, .flash] s (switchTable s t1) := by
  intro s t1
  unfold switchTable
  try dsimp only [onHost, onMb]
  split
  · try dsimp only
    exact Frame.refl _ _
  · try dsimp only
    refine Frame.then ?_ (setObj_frame _ _ _) rfl
    refine Frame.then ?_ (setObj_frame _ _ _) rfl
    refine Frame.then ?_ (setObj_frame _ _ _) rfl
    refine Frame.then ?_ (movePages_frame _ _ _) rfl
    exact Frame.refl _ _

theorem execTableSwitch_frame : ∀ table s t, execTableSwitch table s = .next t → Frame [.objs, .comp] s t := by
  intro table s t h
  unfold execTableSwitch at h
  injection h with h
  subst h
  try dsimp only [onHost, onMb]
  refine Frame.then ?_ (doTableSwitch_frame _ _) rfl
  exact Frame.refl _ _

theorem execGroupDescriptorSwitch_frame : ∀ table group s t, execGroupDescriptorSwitch table group s = .next t → Frame [.counters, .comp, .flash] s t := by
  intro table group s t h
  unfold execGroupDescriptorSwitch at h
  injection h with h
  subst h
  try dsimp only [onHost, onMb]
  refine Frame.ite ?_ ?_
  · refine Frame.then ?_ (switchGroup_frame _ _ _) rfl
    exact Frame.refl _ _
  · exact Frame.refl _ _

theorem execTableBuildComplete_frame : ∀ table image s t, execTableBuildComplete table image s = .next t → Frame [.objs, .counters, .queues, .rings, .comp, .flash, .errorLog] s t := by
  intro table image s t h
  unfold execTableBuildComplete at h
  injection h with h
  subst h
  try dsimp only [onHost, onMb]
  split
  · try dsimp only
    exact Frame.refl _ _
  · try dsimp only
    refine Frame.ite ?_ ?_
    · exact Frame.refl _ _
    · split
      · try dsimp only
        refine Frame.ite ?_ ?_
        · refine Frame.then ?_ (postEvent_frame _ _ _) rfl
          refine Frame.then ?_ (setObj_frame _ _ _) rfl
          refine Frame.then ?_ (setObj_frame _ _ _) rfl
          refine Frame.then ?_ (setTable_frame _ _ _) rfl
          refine Frame.then ?_ (loadAttempt_frame _ _) rfl
          exact Frame.refl _ _
        · refine Frame.then ?_ (loadAttempt_frame _ _) rfl
          exact Frame.refl _ _
      · try dsimp only
        refine Frame.then ?_ (setObj_frame _ _ _) rfl
        refine Frame.then ?_ (setObj_frame _ _ _) rfl
        refine Frame.then ?_ (movePages_frame _ _ _) rfl
        refine Frame.then ?_ (loadFetched_frame _ _) rfl
        exact Frame.refl _ _

end Sys2Proof.Machine
end

