-- ==== Sys2Proof/Laws/FrameGates.lean ====
section
/-! SUPPORT. Which parts of the state the functions of Machine/Gates.lean may change. -/

set_option maxRecDepth 4000

namespace Sys2Proof.Machine

open Sys2Proof

theorem setBucket_frame : ∀ s m b, Frame [.adm] s (setBucket s m b) := by
  intro s m b
  unfold setBucket
  try dsimp only [onHost, onMb]
  refine Frame.then ?_ frame_set_adm rfl
  exact Frame.refl _ _

theorem applyMeterEn_frame : ∀ s m v, Frame [.objs, .adm] s (applyMeterEn s m v) := by
  intro s m v
  unfold applyMeterEn
  try dsimp only [onHost, onMb]
  refine Frame.ite ?_ ?_
  · refine Frame.then ?_ frame_set_adm rfl
    refine Frame.then ?_ (setObj_frame _ _ _) rfl
    exact Frame.refl _ _
  · refine Frame.ite ?_ ?_
    · exact Frame.refl _ _
    · refine Frame.ite ?_ ?_
      · exact Frame.refl _ _
      · refine Frame.then ?_ (setBucket_frame _ _ _) rfl
        refine Frame.then ?_ (setObj_frame _ _ _) rfl
        exact Frame.refl _ _

theorem applyMeterParam_frame : ∀ s a v, Frame [.objs, .adm] s (applyMeterParam s a v) := by
  intro s a v
  unfold applyMeterParam
  try dsimp only [onHost, onMb]
  split
  · try dsimp only
    refine Frame.then ?_ (setObj_frame _ _ _) rfl
    exact Frame.refl _ _
  · try dsimp only
    refine Frame.then ?_ (setBucket_frame _ _ _) rfl
    refine Frame.then ?_ (setObj_frame _ _ _) rfl
    exact Frame.refl _ _

theorem applyGateState_frame : ∀ s, Frame [.objs] s (applyGateState s) := by
  intro s
  unfold applyGateState
  try dsimp only [onHost, onMb]
  refine Frame.then ?_ (setObj_frame _ _ _) rfl
  exact Frame.refl _ _

theorem debit_frame : ∀ s m c, Frame [.adm] s (debit s m c) := by
  intro s m c
  unfold debit
  try dsimp only [onHost, onMb]
  refine Frame.ite ?_ ?_
  · exact Frame.refl _ _
  · refine Frame.then ?_ (setBucket_frame _ _ _) rfl
    exact Frame.refl _ _

theorem refillMeters_frame : ∀ s, Frame [.adm] s (refillMeters s) := by
  intro s
  unfold refillMeters
  try dsimp only [onHost, onMb]
  refine Frame.then ?_ frame_set_adm rfl
  exact Frame.refl _ _

theorem fillMeter_frame : ∀ s m, Frame [.adm] s (fillMeter s m) := by
  intro s m
  unfold fillMeter
  try dsimp only [onHost, onMb]
  refine Frame.ite ?_ ?_
  · refine Frame.then ?_ (setBucket_frame _ _ _) rfl
    exact Frame.refl _ _
  · exact Frame.refl _ _

theorem pendGates_frame : ∀ s n, Frame [.adm] s (pendGates s n) := by
  intro s n
  unfold pendGates
  try dsimp only [onHost, onMb]
  refine Frame.then ?_ frame_set_adm rfl
  exact Frame.refl _ _

theorem execGateTakeover_frame : ∀ s t, execGateTakeover s = .next t → Frame [.adm] s t := by
  intro s t h
  unfold execGateTakeover at h
  injection h with h
  subst h
  try dsimp only [onHost, onMb]
  split
  · try dsimp only
    refine Frame.ite ?_ ?_
    · refine Frame.then ?_ frame_set_adm rfl
      exact Frame.refl _ _
    · exact Frame.refl _ _
  · try dsimp only
    exact Frame.refl _ _

end Sys2Proof.Machine
end

