-- ==== Sys2Proof/Laws/FrameModels.lean ====
section
/-! SUPPORT. Which parts of the state the functions of Machine/Models.lean may change. -/

set_option maxRecDepth 4000

namespace Sys2Proof.Machine

open Sys2Proof

theorem setImg_frame : ∀ s n v, Frame [.images] s (setImg s n v) := by
  intro s n v
  unfold setImg
  try dsimp only [onHost, onMb]
  refine Frame.then ?_ frame_set_images rfl
  exact Frame.refl _ _

theorem applyPrecisionMode_frame : ∀ s n mode, Frame [.images] s (applyPrecisionMode s n mode) := by
  intro s n mode
  unfold applyPrecisionMode
  try dsimp only [onHost, onMb]
  split
  · try dsimp only
    exact Frame.refl _ _
  · try dsimp only
    refine Frame.then ?_ (setImg_frame _ _ _) rfl
    exact Frame.refl _ _

theorem doImageLoad_frame : ∀ s n, Frame [.objs] s (doImageLoad s n) := by
  intro s n
  unfold doImageLoad
  try dsimp only [onHost, onMb]
  refine Frame.ite ?_ ?_
  · refine Frame.then ?_ (setObj_frame _ _ _) rfl
    refine Frame.then ?_ (setObj_frame _ _ _) rfl
    refine Frame.then ?_ (setObj_frame _ _ _) rfl
    exact Frame.refl _ _
  · refine Frame.then ?_ (setObj_frame _ _ _) rfl
    exact Frame.refl _ _

theorem freeSlot_frame : ∀ s slot, Frame [.objs, .images, .flash] s (freeSlot s slot) := by
  intro s slot
  unfold freeSlot
  try dsimp only [onHost, onMb]
  refine Frame.foldl ?_ ?_
  · refine Frame.then ?_ frame_set_images_flash rfl
    exact Frame.refl _ _
  · intro _ _
    try dsimp only
    refine Frame.then ?_ (setObj_frame _ _ _) rfl
    exact Frame.refl _ _

theorem writeUnload_frame : ∀ s n, Frame [.objs, .images, .flash] s (writeUnload s n) := by
  intro s n
  unfold writeUnload
  try dsimp only [onHost, onMb]
  split
  · try dsimp only
    refine Frame.then ?_ (setObj_frame _ _ _) rfl
    refine Frame.then ?_ (setImg_frame _ _ _) rfl
    exact Frame.refl _ _
  · try dsimp only
    refine Frame.ite ?_ ?_
    · refine Frame.then ?_ (setObj_frame _ _ _) rfl
      exact Frame.refl _ _
    · refine Frame.then ?_ (freeSlot_frame _ _) rfl
      exact Frame.refl _ _

theorem markError_frame : ∀ s qhs, Frame [.queries] s (markError s qhs) := by
  intro s qhs
  unfold markError
  try dsimp only [onHost, onMb]
  refine Frame.then ?_ frame_set_queries rfl
  exact Frame.refl _ _

theorem testUnload_frame : ∀ s n, Frame [.objs, .images] s (testUnload s n) := by
  intro s n
  unfold testUnload
  try dsimp only [onHost, onMb]
  split
  · try dsimp only
    exact Frame.refl _ _
  · try dsimp only
    refine Frame.ite ?_ ?_
    · exact Frame.refl _ _
    · refine Frame.ite ?_ ?_
      · refine Frame.then ?_ (setObj_frame _ _ _) rfl
        refine Frame.then ?_ (setImg_frame _ _ _) rfl
        exact Frame.refl _ _
      · refine Frame.then ?_ (setImg_frame _ _ _) rfl
        exact Frame.refl _ _

theorem testUnloads_frame : ∀ s, Frame [.objs, .images] s (testUnloads s) := by
  intro s
  unfold testUnloads
  try dsimp only [onHost, onMb]
  refine Frame.foldl ?_ ?_
  · exact Frame.refl _ _
  · intro _ _
    try dsimp only
    refine Frame.then ?_ (testUnload_frame _ _) rfl
    exact Frame.refl _ _

theorem countIdle_frame : ∀ s, Frame [.counters, .images, .remotes] s (countIdle s) := by
  intro s
  unfold countIdle
  try dsimp only [onHost, onMb]
  refine Frame.then ?_ (bump_frame _ _ _) rfl
  refine Frame.then ?_ frame_set_images_remotes rfl
  exact Frame.refl _ _

theorem modelsAtBoundary_frame : ∀ s n, Frame [.objs, .counters, .images, .remotes] s (modelsAtBoundary s n) := by
  intro s n
  unfold modelsAtBoundary
  try dsimp only [onHost, onMb]
  refine Frame.foldl ?_ ?_
  · refine Frame.then ?_ (countIdle_frame _) rfl
    refine Frame.then ?_ frame_set_remotes rfl
    exact Frame.refl _ _
  · intro _ _
    try dsimp only
    refine Frame.ite ?_ ?_
    · refine Frame.then ?_ (setObj_frame _ _ _) rfl
      refine Frame.then ?_ (setObj_frame _ _ _) rfl
      refine Frame.then ?_ (setImg_frame _ _ _) rfl
      refine Frame.then ?_ (setImg_frame _ _ _) rfl
      exact Frame.refl _ _
    · refine Frame.then ?_ (setImg_frame _ _ _) rfl
      exact Frame.refl _ _

theorem noteWatch_frame : ∀ s slot li post unsampled, Frame [.counters, .queues, .rings, .errorLog] s (noteWatch s slot li post unsampled) := by
  intro s slot li post unsampled
  unfold noteWatch
  try dsimp only [onHost, onMb]
  refine Frame.ite ?_ ?_
  · refine Frame.then ?_ (bump_frame _ _ _) rfl
    refine Frame.ite ?_ ?_
    · refine Frame.then ?_ (postEvent_frame _ _ _) rfl
      exact Frame.refl _ _
    · exact Frame.refl _ _
  · refine Frame.ite ?_ ?_
    · refine Frame.then ?_ (postEvent_frame _ _ _) rfl
      exact Frame.refl _ _
    · exact Frame.refl _ _

theorem watchLayer_frame : ∀ slot s li e, Frame [.counters, .queues, .rings, .images, .errorLog] s (watchLayer slot s li e) := by
  intro slot s li e
  unfold watchLayer
  try dsimp only [onHost, onMb]
  split
  · try dsimp only
    exact Frame.refl _ _
  · try dsimp only
    refine Frame.then ?_ (noteWatch_frame _ _ _ _ _) rfl
    refine Frame.then ?_ (setImg_frame _ _ _) rfl
    exact Frame.refl _ _

theorem notePrecision_frame : ∀ s slot layer was, Frame [.counters, .queues, .rings, .errorLog] s (notePrecision s slot layer was) := by
  intro s slot layer was
  unfold notePrecision
  try dsimp only [onHost, onMb]
  refine Frame.ite ?_ ?_
  · refine Frame.then ?_ (bump_frame _ _ _) rfl
    refine Frame.then ?_ (postEvent_frame _ _ _) rfl
    exact Frame.refl _ _
  · refine Frame.then ?_ (bump_frame _ _ _) rfl
    refine Frame.then ?_ (postEvent_frame _ _ _) rfl
    exact Frame.refl _ _

theorem execSlotFree_frame : ∀ slot s t, execSlotFree slot s = .next t → Frame [.objs, .images, .flash, .ledger] s t := by
  intro slot s t h
  unfold execSlotFree at h
  injection h with h
  subst h
  try dsimp only [onHost, onMb]
  split
  · try dsimp only
    exact Frame.refl _ _
  · try dsimp only
    refine Frame.ite ?_ ?_
    · refine Frame.then ?_ (freeSlot_frame _ _) rfl
      refine Frame.foldl ?_ ?_
      · exact Frame.refl _ _
      · intro _ _
        try dsimp only
        refine Frame.ite ?_ ?_
        · exact Frame.refl _ _
        · refine Frame.then ?_ (ledgerRequest_frame _ _) rfl
          exact Frame.refl _ _
    · exact Frame.refl _ _

theorem publishDroop_frame : ∀ s, Frame [.objs, .counters, .queues, .rings, .errorLog, .ras] s (publishDroop s) := by
  intro s
  unfold publishDroop
  try dsimp only [onHost, onMb]
  refine Frame.then ?_ frame_set_ras rfl
  refine Frame.ite ?_ ?_
  · refine Frame.then ?_ (postEvent_frame _ _ _) rfl
    refine Frame.then ?_ (setObj_frame _ _ _) rfl
    refine Frame.ite ?_ ?_
    · refine Frame.then ?_ (postEvent_frame _ _ _) rfl
      refine Frame.then ?_ (setObj_frame _ _ _) rfl
      exact Frame.refl _ _
    · refine Frame.then ?_ (setObj_frame _ _ _) rfl
      exact Frame.refl _ _
  · refine Frame.then ?_ (setObj_frame _ _ _) rfl
    refine Frame.ite ?_ ?_
    · refine Frame.then ?_ (postEvent_frame _ _ _) rfl
      refine Frame.then ?_ (setObj_frame _ _ _) rfl
      exact Frame.refl _ _
    · refine Frame.then ?_ (setObj_frame _ _ _) rfl
      exact Frame.refl _ _

theorem onRemote_frame : ∀ s r f, Frame [.remotes] s (onRemote s r f) := by
  intro s r f
  unfold onRemote
  try dsimp only [onHost, onMb]
  refine Frame.then ?_ frame_set_remotes rfl
  exact Frame.refl _ _

theorem execPrecisionChange_frame : ∀ slot layer s t, execPrecisionChange slot layer s = .next t → Frame [.counters, .queues, .rings, .images, .remotes, .errorLog] s t := by
  intro slot layer s t h
  unfold execPrecisionChange at h
  injection h with h
  subst h
  try dsimp only [onHost, onMb]
  refine Frame.ite ?_ ?_
  · exact Frame.refl _ _
  · refine Frame.foldl ?_ ?_
    · split
      · try dsimp only
        exact Frame.refl _ _
      · try dsimp only
        refine Frame.ite ?_ ?_
        · refine Frame.then ?_ (notePrecision_frame _ _ _ _) rfl
          refine Frame.then ?_ (setImg_frame _ _ _) rfl
          exact Frame.refl _ _
        · exact Frame.refl _ _
    · intro _ _
      try dsimp only
      split
      · try dsimp only
        exact Frame.refl _ _
      · try dsimp only
        refine Frame.ite ?_ ?_
        · refine Frame.then ?_ (notePrecision_frame _ _ _ _) rfl
          refine Frame.then ?_ (onRemote_frame _ _ _) rfl
          exact Frame.refl _ _
        · exact Frame.refl _ _

theorem layerConv_frame : ∀ s key f r b, Frame [.counters, .streams] s (layerConv s key f r b).1 := by
  intro s key f r b
  unfold layerConv
  try dsimp only [onHost, onMb]
  try dsimp only
  refine Frame.then ?_ (strmAdd_frame _ _ _ _ _ _ _) rfl
  exact Frame.refl _ _

theorem runLayer_frame : ∀ s slot li n img l lut a b r, runLayer s slot li n img l lut a b = some r → Frame [.counters, .streams, .free] s r.1 := by
  intro s slot li n img l lut a b r h
  unfold runLayer at h
  dsimp only at h
  generalize hc : layerConv _ _ _ _ _ = c at h
  have hk : Frame [.counters, .streams, .free] s c.1 := by
    rw [← hc]
    exact Frame.then (Frame.refl _ _) (layerConv_frame _ _ _ _ _) rfl
  have hb : ∀ k, Frame [.counters, .streams, .free] s (if l.op = 1 then bump c.1 Obj.DENSE_CYCLES k else c.1) := fun k =>
    Frame.ite (Frame.then hk (bump_frame _ _ _) rfl) hk
  split at h
  · injection h with h; subst h; exact Frame.refl _ _
  · split at h
    · injection h with h; subst h; exact hk
    · injection h with h; subst h; exact hk
    · injection h with h; subst h; exact hk
    · injection h with h; subst h; exact hk
    · injection h with h; subst h; exact hk
    · split at h
      · cases h
      · split at h
        · injection h with h; subst h; exact hb _
        · injection h with h; subst h
          dsimp only
          split
          · exact Frame.then (hb _) (drawFree_frame _) rfl
          · exact hb _

theorem runLayers_frame : ∀ slot img lut bad n ls li s o r, runLayers slot img lut bad n ls li s o = .ok r → Frame [.counters, .streams, .free] s r.s := by
  intro slot img lut bad n ls
  induction ls with
  | nil =>
    intro li s o r h
    injection h with h
    subst h
    exact Frame.refl _ _
  | cons l ls ih =>
    intro li s o r h
    unfold runLayers at h
    split at h
    · cases h
    · split at h
      · cases h
      · rename_i s1 out e heq
        split at h
        · cases h
        · rename_i heq2
          injection h with h
          subst h
          have hi := ih _ _ _ _ heq2
          exact Frame.then (Frame.then (Frame.refl _ _) (runLayer_frame _ _ _ _ _ _ _ _ _ _ heq) rfl) hi rfl

theorem readBlocks_frame : ∀ img s li, Frame [.counters, .fab, .out] s (readBlocks img s li) := by
  intro img s li
  unfold readBlocks
  try dsimp only [onHost, onMb]
  refine Frame.ite ?_ ?_
  · exact Frame.refl _ _
  · refine Frame.foldl ?_ ?_
    · exact Frame.refl _ _
    · intro _ _
      try dsimp only
      refine Frame.then ?_ (memoLookup_frame _ _) rfl
      exact Frame.refl _ _

theorem weightError_frame : ∀ s slot li, Frame [.counters, .queues, .rings, .images, .fab, .errorLog, .out] s (weightError s slot li) := by
  intro s slot li
  unfold weightError
  try dsimp only [onHost, onMb]
  split
  · try dsimp only
    refine Frame.then ?_ (bump_frame _ _ _) rfl
    refine Frame.then ?_ (postEvent_frame _ _ _) rfl
    exact Frame.refl _ _
  · try dsimp only
    refine Frame.then ?_ (setImg_frame _ _ _) rfl
    refine Frame.then ?_ (readBlocks_frame _ _ _) rfl
    refine Frame.then ?_ (bump_frame _ _ _) rfl
    refine Frame.then ?_ (postEvent_frame _ _ _) rfl
    exact Frame.refl _ _

theorem withSegGrant_frame : ∀ {α : Type} (s : State) (dst home : Nat) (qh : α → Option Nat) (qs : List α), Frame [.counters, .queries, .fab] s (withSegGrant s dst home qh qs).1 := by
  intro α s dst home qh qs
  unfold withSegGrant
  try dsimp only [onHost, onMb]
  refine Frame.foldl1 ?_ ?_
  · try dsimp only
    exact Frame.refl _ _
  · intro _ _
    try dsimp only
    refine Frame.ite1 ?_ ?_
    · try dsimp only
      refine Frame.then ?_ (drawGrant_frame _ _) rfl
      exact Frame.refl _ _
    · try dsimp only
      split
      · try dsimp only
        refine Frame.then ?_ (bump_frame _ _ _) rfl
        exact Frame.refl _ _
      · try dsimp only
        refine Frame.then ?_ (slipQuery_frame _ _) rfl
        refine Frame.then ?_ (bump_frame _ _ _) rfl
        exact Frame.refl _ _

theorem remoteWeightError_frame : ∀ s r li, Frame [.counters, .queues, .rings, .remotes, .fab, .errorLog, .out] s (remoteWeightError s r li) := by
  intro s r li
  unfold remoteWeightError
  try dsimp only [onHost, onMb]
  refine Frame.then ?_ (onRemote_frame _ _ _) rfl
  refine Frame.then ?_ (readBlocks_frame _ _ _) rfl
  refine Frame.then ?_ (bump_frame _ _ _) rfl
  refine Frame.then ?_ (postEvent_frame _ _ _) rfl
  exact Frame.refl _ _

theorem watchRemote_frame : ∀ r s li e, Frame [.counters, .queues, .rings, .remotes, .errorLog] s (watchRemote r s li e) := by
  intro r s li e
  unfold watchRemote
  try dsimp only [onHost, onMb]
  split
  · try dsimp only
    exact Frame.refl _ _
  · try dsimp only
    refine Frame.then ?_ (noteWatch_frame _ _ _ _ _) rfl
    refine Frame.then ?_ (onRemote_frame _ _ _) rfl
    exact Frame.refl _ _

theorem takeRemote_frame : ∀ s x1, Frame [.images, .streams] s (takeRemote s x1) := by
  intro s x1
  unfold takeRemote
  try dsimp only [onHost, onMb]
  split
  · try dsimp only
    refine Frame.then ?_ (setStrm_frame _ _ _) rfl
    exact Frame.refl _ _
  · try dsimp only
    refine Frame.then ?_ (setImg_frame _ _ _) rfl
    refine Frame.then ?_ (setStrm_frame _ _ _) rfl
    exact Frame.refl _ _

theorem publishStats_frame : ∀ s, Frame [.turnMisc, .images, .remotes, .streams, .remoteStats] s (publishStats s) := by
  intro s
  unfold publishStats
  try dsimp only [onHost, onMb]
  refine Frame.then ?_ frame_set_turn_statStart_turn_statPub_turn_statEnd_remoteStats rfl
  refine Frame.foldl ?_ ?_
  · refine Frame.then ?_ frame_set_images_remotes_streams rfl
    exact Frame.refl _ _
  · intro _ _
    try dsimp only
    refine Frame.then ?_ (takeRemote_frame _ _) rfl
    exact Frame.refl _ _

theorem sendRemoteStats_frame : ∀ s, Frame [.fab] s (sendRemoteStats s) := by
  intro s
  unfold sendRemoteStats
  try dsimp only [onHost, onMb]
  refine Frame.foldl ?_ ?_
  · exact Frame.refl _ _
  · intro _ _
    try dsimp only
    refine Frame.foldl ?_ ?_
    · exact Frame.refl _ _
    · intro _ _
      try dsimp only
      refine Frame.then ?_ (send_frame _ _ _) rfl
      exact Frame.refl _ _

theorem execStatEpochEnd_frame : ∀ s t, execStatEpochEnd s = .next t → Frame [.objs, .counters, .queues, .rings, .turnMisc, .images, .remotes, .streams, .remoteStats, .fab, .errorLog, .ras] s t := by
  intro s t h
  unfold execStatEpochEnd at h
  injection h with h
  subst h
  try dsimp only [onHost, onMb]
  refine Frame.ite ?_ ?_
  · refine Frame.then ?_ (publishDroop_frame _) rfl
    refine Frame.then ?_ (sendRemoteStats_frame _) rfl
    refine Frame.then ?_ (publishStats_frame _) rfl
    exact Frame.refl _ _
  · exact Frame.refl _ _

theorem execSegmentPlacementComplete_frame : ∀ slot s t, execSegmentPlacementComplete slot s = .next t → Frame [.ledger] s t := by
  intro slot s t h
  unfold execSegmentPlacementComplete at h
  injection h with h
  subst h
  try dsimp only [onHost, onMb]
  split
  · try dsimp only
    exact Frame.refl _ _
  · try dsimp only
    refine Frame.ite ?_ ?_
    · exact Frame.refl _ _
    · refine Frame.foldl ?_ ?_
      · exact Frame.refl _ _
      · intro _ _
        try dsimp only
        refine Frame.then ?_ (ledgerRequest_frame _ _) rfl
        exact Frame.refl _ _

theorem sendActs_frame : ∀ s dst slot seg stop home ls o qs, Frame [.fab] s (sendActs s dst slot seg stop home ls o qs) := by
  intro s dst slot seg stop home ls o qs
  unfold sendActs
  try dsimp only [onHost, onMb]
  refine Frame.foldl ?_ ?_
  · exact Frame.refl _ _
  · intro _ _
    try dsimp only
    refine Frame.foldl ?_ ?_
    · exact Frame.refl _ _
    · intro _ _
      try dsimp only
      refine Frame.then ?_ (sendStage_frame _ _ _) rfl
      exact Frame.refl _ _

theorem takeVectors_frame : ∀ s qs last, Frame [.queries] s (takeVectors s qs last) := by
  intro s qs last
  unfold takeVectors
  try dsimp only [onHost, onMb]
  refine Frame.then ?_ frame_set_queries rfl
  exact Frame.refl _ _

theorem runHomeSegment_frame : ∀ s slot img bad, Frame [.counters, .queues, .rings, .images, .streams, .queries, .fab, .errorLog, .out, .free] s (runHomeSegment s slot img bad) := by
  intro s slot img bad
  unfold runHomeSegment
  try dsimp only [onHost, onMb]
  refine Frame.ite ?_ ?_
  · exact Frame.refl _ _
  · refine Frame.ite ?_ ?_
    · refine Frame.ite1 ?_ ?_
      · try dsimp only
        refine Frame.foldl ?_ ?_
        · exact Frame.refl _ _
        · intro _ _
          try dsimp only
          refine Frame.then ?_ (slipQuery_frame _ _) rfl
          exact Frame.refl _ _
      · refine Frame.then ?_ (withSegGrant_frame _ _ _ _ _) rfl
        refine Frame.foldl ?_ ?_
        · exact Frame.refl _ _
        · intro _ _
          try dsimp only
          refine Frame.then ?_ (slipQuery_frame _ _) rfl
          exact Frame.refl _ _
    · split
      · try dsimp only
        refine Frame.then ?_ (markError_frame _ _) rfl
        refine Frame.then ?_ (weightError_frame _ _ _) rfl
        refine Frame.ite1 ?_ ?_
        · try dsimp only
          refine Frame.foldl ?_ ?_
          · exact Frame.refl _ _
          · intro _ _
            try dsimp only
            refine Frame.then ?_ (slipQuery_frame _ _) rfl
            exact Frame.refl _ _
        · refine Frame.then ?_ (withSegGrant_frame _ _ _ _ _) rfl
          refine Frame.foldl ?_ ?_
          · exact Frame.refl _ _
          · intro _ _
            try dsimp only
            refine Frame.then ?_ (slipQuery_frame _ _) rfl
            exact Frame.refl _ _
      · try dsimp only
        refine Frame.ite ?_ ?_
        · refine Frame.then ?_ (takeVectors_frame _ _ _) rfl
          split
          · try dsimp only
            refine Frame.foldl ?_ ?_
            · exact Frame.then (Frame.ite1 (Frame.foldl (Frame.refl _ _) (fun _ _ => Frame.then (Frame.refl _ _) (slipQuery_frame _ _) rfl)) (Frame.then (Frame.foldl (Frame.refl _ _) (fun _ _ => Frame.then (Frame.refl _ _) (slipQuery_frame _ _) rfl)) (withSegGrant_frame _ _ _ _ _) rfl)) (runLayers_frame _ _ _ _ _ _ _ _ _ _ (by assumption)) rfl
            · intro _ _
              try dsimp only
              refine Frame.then ?_ (watchLayer_frame _ _ _ _) rfl
              exact Frame.refl _ _
          · try dsimp only
            refine Frame.then ?_ (setImg_frame _ _ _) rfl
            refine Frame.foldl ?_ ?_
            · exact Frame.then (Frame.ite1 (Frame.foldl (Frame.refl _ _) (fun _ _ => Frame.then (Frame.refl _ _) (slipQuery_frame _ _) rfl)) (Frame.then (Frame.foldl (Frame.refl _ _) (fun _ _ => Frame.then (Frame.refl _ _) (slipQuery_frame _ _) rfl)) (withSegGrant_frame _ _ _ _ _) rfl)) (runLayers_frame _ _ _ _ _ _ _ _ _ _ (by assumption)) rfl
            · intro _ _
              try dsimp only
              refine Frame.then ?_ (watchLayer_frame _ _ _ _) rfl
              exact Frame.refl _ _
        · refine Frame.then ?_ frame_set_queries rfl
          refine Frame.then ?_ (sendActs_frame _ _ _ _ _ _ _ _ _) rfl
          split
          · try dsimp only
            refine Frame.foldl ?_ ?_
            · exact Frame.then (Frame.ite1 (Frame.foldl (Frame.refl _ _) (fun _ _ => Frame.then (Frame.refl _ _) (slipQuery_frame _ _) rfl)) (Frame.then (Frame.foldl (Frame.refl _ _) (fun _ _ => Frame.then (Frame.refl _ _) (slipQuery_frame _ _) rfl)) (withSegGrant_frame _ _ _ _ _) rfl)) (runLayers_frame _ _ _ _ _ _ _ _ _ _ (by assumption)) rfl
            · intro _ _
              try dsimp only
              refine Frame.then ?_ (watchLayer_frame _ _ _ _) rfl
              exact Frame.refl _ _
          · try dsimp only
            refine Frame.then ?_ (setImg_frame _ _ _) rfl
            refine Frame.foldl ?_ ?_
            · exact Frame.then (Frame.ite1 (Frame.foldl (Frame.refl _ _) (fun _ _ => Frame.then (Frame.refl _ _) (slipQuery_frame _ _) rfl)) (Frame.then (Frame.foldl (Frame.refl _ _) (fun _ _ => Frame.then (Frame.refl _ _) (slipQuery_frame _ _) rfl)) (withSegGrant_frame _ _ _ _ _) rfl)) (runLayers_frame _ _ _ _ _ _ _ _ _ _ (by assumption)) rfl
            · intro _ _
              try dsimp only
              refine Frame.then ?_ (watchLayer_frame _ _ _ _) rfl
              exact Frame.refl _ _

theorem segmentError_frame : ∀ s home qh pin, Frame [.fab] s (segmentError s home qh pin) := by
  intro s home qh pin
  unfold segmentError
  try dsimp only [onHost, onMb]
  refine Frame.then ?_ (sendStage_frame _ _ _) rfl
  exact Frame.refl _ _

theorem runRemoteSegment_frame : ∀ s r bad, Frame [.counters, .queues, .rings, .remotes, .acts, .streams, .queries, .fab, .errorLog, .out, .free] s (runRemoteSegment s r bad) := by
  intro s r bad
  unfold runRemoteSegment
  try dsimp only [onHost, onMb]
  refine Frame.ite ?_ ?_
  · exact Frame.refl _ _
  · refine Frame.ite ?_ ?_
    · refine Frame.ite1 ?_ ?_
      · try dsimp only
        exact Frame.refl _ _
      · refine Frame.then ?_ (withSegGrant_frame _ _ _ _ _) rfl
        exact Frame.refl _ _
    · split
      · try dsimp only
        refine Frame.foldl ?_ ?_
        · refine Frame.then ?_ (remoteWeightError_frame _ _ _) rfl
          refine Frame.then ?_ frame_set_acts rfl
          refine Frame.ite1 ?_ ?_
          · try dsimp only
            exact Frame.refl _ _
          · refine Frame.then ?_ (withSegGrant_frame _ _ _ _ _) rfl
            exact Frame.refl _ _
        · intro _ _
          try dsimp only
          refine Frame.then ?_ (segmentError_frame _ _ _ _) rfl
          exact Frame.refl _ _
      · try dsimp only
        refine Frame.ite ?_ ?_
        · refine Frame.foldl ?_ ?_
          · refine Frame.then ?_ (onRemote_frame _ _ _) rfl
            refine Frame.foldl ?_ ?_
            · exact Frame.then (Frame.then (Frame.ite1 (Frame.refl _ _) (Frame.then (Frame.refl _ _) (withSegGrant_frame _ _ _ _ _) rfl)) frame_set_acts rfl) (runLayers_frame _ _ _ _ _ _ _ _ _ _ (by assumption)) rfl
            · intro _ _
              try dsimp only
              refine Frame.then ?_ (watchRemote_frame _ _ _ _) rfl
              exact Frame.refl _ _
          · intro _ _
            try dsimp only
            refine Frame.then ?_ (sendStage_frame _ _ _) rfl
            exact Frame.refl _ _
        · refine Frame.then ?_ (sendActs_frame _ _ _ _ _ _ _ _ _) rfl
          refine Frame.then ?_ (onRemote_frame _ _ _) rfl
          refine Frame.foldl ?_ ?_
          · exact Frame.then (Frame.then (Frame.ite1 (Frame.refl _ _) (Frame.then (Frame.refl _ _) (withSegGrant_frame _ _ _ _ _) rfl)) frame_set_acts rfl) (runLayers_frame _ _ _ _ _ _ _ _ _ _ (by assumption)) rfl
          · intro _ _
            try dsimp only
            refine Frame.then ?_ (watchRemote_frame _ _ _ _) rfl
            exact Frame.refl _ _

theorem execEncoderSegment_frame : ∀ slot seg bad s t, execEncoderSegment slot seg bad s = .next t → Frame [.counters, .queues, .rings, .images, .remotes, .acts, .streams, .queries, .fab, .errorLog, .out, .free] s t := by
  intro slot seg bad s t h
  unfold execEncoderSegment at h
  injection h with h
  subst h
  try dsimp only [onHost, onMb]
  refine Frame.ite ?_ ?_
  · split
    · try dsimp only
      exact Frame.refl _ _
    · try dsimp only
      refine Frame.ite ?_ ?_
      · refine Frame.then ?_ (runHomeSegment_frame _ _ _ _) rfl
        exact Frame.refl _ _
      · exact Frame.refl _ _
  · refine Frame.foldl ?_ ?_
    · exact Frame.refl _ _
    · intro _ _
      try dsimp only
      refine Frame.then ?_ (runRemoteSegment_frame _ _ _) rfl
      exact Frame.refl _ _

theorem shareImage_frame : ∀ s img, Frame [.fab, .out] s (shareImage s img) := by
  intro s img
  unfold shareImage
  try dsimp only [onHost, onMb]
  refine Frame.ite ?_ ?_
  · exact Frame.refl _ _
  · refine Frame.foldl ?_ ?_
    · exact Frame.refl _ _
    · intro _ _
      try dsimp only
      refine Frame.then ?_ (memoPut_frame _ _ _) rfl
      exact Frame.refl _ _

theorem execUnload_frame : ∀ slot s t, execUnload slot s = .next t → Frame [.objs, .images, .flash] s t := by
  intro slot s t h
  unfold execUnload at h
  injection h with h
  subst h
  try dsimp only [onHost, onMb]
  refine Frame.then ?_ (testUnload_frame _ _) rfl
  refine Frame.then ?_ (writeUnload_frame _ _) rfl
  exact Frame.refl _ _

theorem slotFail_frame : ∀ s n cause, Frame [.objs, .counters, .queues, .rings, .images, .errorLog] s (slotFail s n cause) := by
  intro s n cause
  unfold slotFail
  try dsimp only [onHost, onMb]
  refine Frame.then ?_ (postEvent_frame _ _ _) rfl
  refine Frame.then ?_ (setObj_frame _ _ _) rfl
  refine Frame.then ?_ (setObj_frame _ _ _) rfl
  refine Frame.then ?_ (setObj_frame _ _ _) rfl
  refine Frame.then ?_ (setObj_frame _ _ _) rfl
  refine Frame.then ?_ frame_set_images rfl
  exact Frame.refl _ _

theorem execImageLoad_frame : ∀ slot s t, execImageLoad slot s = .next t → Frame [.objs] s t := by
  intro slot s t h
  unfold execImageLoad at h
  injection h with h
  subst h
  try dsimp only [onHost, onMb]
  refine Frame.then ?_ (doImageLoad_frame _ _) rfl
  exact Frame.refl _ _

theorem sendSegment_frame : ∀ s p, Frame [.counters, .images, .fab, .out] s (sendSegment s p) := by
  intro s p
  unfold sendSegment
  try dsimp only [onHost, onMb]
  refine Frame.then ?_ (setImg_frame _ _ _) rfl
  refine Frame.foldl ?_ ?_
  · refine Frame.foldl ?_ ?_
    · exact Frame.refl _ _
    · intro _ _
      try dsimp only
      refine Frame.then ?_ (readBlocks_frame _ _ _) rfl
      exact Frame.refl _ _
  · intro _ _
    try dsimp only
    refine Frame.then ?_ (sendAll_frame _ _ _) rfl
    exact Frame.refl _ _

theorem sendSegments_frame : ∀ s, Frame [.counters, .images, .fab, .out] s (sendSegments s) := by
  intro s
  unfold sendSegments
  try dsimp only [onHost, onMb]
  refine Frame.ite ?_ ?_
  · refine Frame.foldl ?_ ?_
    · exact Frame.refl _ _
    · intro _ _
      try dsimp only
      refine Frame.then ?_ (sendSegment_frame _ _) rfl
      exact Frame.refl _ _
  · exact Frame.refl _ _

theorem keepImage_frame : ∀ s n b, Frame [.flash] s (keepImage s n b) := by
  intro s n b
  unfold keepImage
  try dsimp only [onHost, onMb]
  refine Frame.then ?_ frame_set_flash rfl
  exact Frame.refl _ _

theorem placeImage_frame : ∀ s n role img b peers, Frame [.objs, .counters, .queues, .rings, .images, .flash, .fab, .errorLog, .out] s (placeImage s n role img b peers) := by
  intro s n role img b peers
  unfold placeImage
  try dsimp only [onHost, onMb]
  refine Frame.ite ?_ ?_
  · refine Frame.then ?_ (slotFail_frame _ _ _) rfl
    refine Frame.then ?_ (setObj_frame _ _ _) rfl
    refine Frame.then ?_ (setObj_frame _ _ _) rfl
    exact Frame.refl _ _
  · refine Frame.ite ?_ ?_
    · refine Frame.then ?_ (setObj_frame _ _ _) rfl
      refine Frame.then ?_ (setObj_frame _ _ _) rfl
      refine Frame.then ?_ (shareImage_frame _ _) rfl
      refine Frame.then ?_ (keepImage_frame _ _ _) rfl
      refine Frame.then ?_ (setImg_frame _ _ _) rfl
      refine Frame.then ?_ (setObj_frame _ _ _) rfl
      refine Frame.then ?_ (setObj_frame _ _ _) rfl
      exact Frame.refl _ _
    · refine Frame.ite ?_ ?_
      · refine Frame.then ?_ (slotFail_frame _ _ _) rfl
        refine Frame.then ?_ (setObj_frame _ _ _) rfl
        refine Frame.then ?_ (setObj_frame _ _ _) rfl
        exact Frame.refl _ _
      · split
        · try dsimp only
          refine Frame.then ?_ (slotFail_frame _ _ _) rfl
          refine Frame.then ?_ (setObj_frame _ _ _) rfl
          refine Frame.then ?_ (setObj_frame _ _ _) rfl
          exact Frame.refl _ _
        · try dsimp only
          refine Frame.ite ?_ ?_
          · refine Frame.then ?_ (slotFail_frame _ _ _) rfl
            refine Frame.then ?_ (setObj_frame _ _ _) rfl
            refine Frame.then ?_ (setObj_frame _ _ _) rfl
            exact Frame.refl _ _
          · refine Frame.then ?_ (setObj_frame _ _ _) rfl
            refine Frame.then ?_ (setObj_frame _ _ _) rfl
            refine Frame.then ?_ (setObj_frame _ _ _) rfl
            refine Frame.then ?_ (shareImage_frame _ _) rfl
            refine Frame.then ?_ (keepImage_frame _ _ _) rfl
            refine Frame.then ?_ (setImg_frame _ _ _) rfl
            refine Frame.then ?_ (setObj_frame _ _ _) rfl
            refine Frame.then ?_ (setObj_frame _ _ _) rfl
            exact Frame.refl _ _

theorem doImageLoadComplete_frame : ∀ s n f peers, Frame [.objs, .counters, .queues, .rings, .images, .flash, .fab, .errorLog, .out] s (doImageLoadComplete s n f peers) := by
  intro s n f peers
  unfold doImageLoadComplete
  try dsimp only [onHost, onMb]
  refine Frame.ite ?_ ?_
  · exact Frame.refl _ _
  · split
    · try dsimp only
      refine Frame.ite ?_ ?_
      · refine Frame.then ?_ (slotFail_frame _ _ _) rfl
        refine Frame.then ?_ (loadAttempt_frame _ _) rfl
        exact Frame.refl _ _
      · refine Frame.then ?_ (loadAttempt_frame _ _) rfl
        exact Frame.refl _ _
    · try dsimp only
      split
      · try dsimp only
        refine Frame.then ?_ (slotFail_frame _ _ _) rfl
        refine Frame.then ?_ (loadFetched_frame _ _) rfl
        exact Frame.refl _ _
      · try dsimp only
        refine Frame.then ?_ (placeImage_frame _ _ _ _ _ _) rfl
        refine Frame.then ?_ (loadFetched_frame _ _) rfl
        exact Frame.refl _ _

theorem execImageLoadComplete_frame : ∀ slot image peers s t, execImageLoadComplete slot image peers s = .next t → Frame [.objs, .counters, .queues, .rings, .images, .flash, .fab, .errorLog, .out] s t := by
  intro slot image peers s t h
  unfold execImageLoadComplete at h
  injection h with h
  subst h
  try dsimp only [onHost, onMb]
  refine Frame.then ?_ (doImageLoadComplete_frame _ _ _ _) rfl
  exact Frame.refl _ _

theorem execLayerReloadComplete_frame : ∀ slot layer s t, execLayerReloadComplete slot layer s = .next t → Frame [.images, .remotes] s t := by
  intro slot layer s t h
  unfold execLayerReloadComplete at h
  injection h with h
  subst h
  try dsimp only [onHost, onMb]
  refine Frame.then ?_ frame_set_remotes rfl
  split
  · try dsimp only
    exact Frame.refl _ _
  · try dsimp only
    refine Frame.then ?_ (setImg_frame _ _ _) rfl
    exact Frame.refl _ _

end Sys2Proof.Machine
end

