-- ==== Sys2Proof/Laws/FrameSearch.lean ====
section
/-! SUPPORT. Which parts of the state the functions of Machine/Search.lean may change. -/

set_option maxRecDepth 4000

namespace Sys2Proof.Machine

open Sys2Proof

theorem placeProbes_frame : ∀ s q had ks, Frame [.counters, .fab] s (placeProbes s q had ks).1 := by
  intro s q had ks
  induction ks generalizing s had with
  | nil => exact Frame.refl _ _
  | cons k ks ih =>
    unfold placeProbes
    split
    · exact Frame.then (Frame.then (Frame.refl _ _) (bump_frame _ _ _) rfl) (ih _ _) rfl
    · exact Frame.then (Frame.then (Frame.refl _ _) (bump_frame _ _ _) rfl) (ih _ _) rfl
    · refine Frame.then ?_ (ih _ _) rfl
      have hg : ∀ (c : Prop) [Decidable c] n g, Frame [.counters, .fab] s (if c then useGrant s .shard n 1 else drawGrant s g) :=
        fun c _ n g => Frame.ite (Frame.then (Frame.refl _ _) (useGrant_frame _ _ _ _) rfl) (Frame.then (Frame.refl _ _) (drawGrant_frame _ _) rfl)
      exact Frame.ite (Frame.then (hg _ _ _) (bump_frame _ _ _) rfl) (hg _ _ _)

theorem sendProbes_frame : ∀ s q round keys, Frame [.counters, .queries, .fab] s (sendProbes s q round keys) := by
  intro s q round keys
  unfold sendProbes
  try dsimp only [onHost, onMb]
  refine Frame.then ?_ (onQuery_frame _ _ _) rfl
  refine Frame.ite ?_ ?_
  · refine Frame.foldl ?_ ?_
    · refine Frame.then ?_ (placeProbes_frame _ _ _ _) rfl
      exact Frame.refl _ _
    · intro _ _
      try dsimp only
      refine Frame.then ?_ (sendStage_frame _ _ _) rfl
      exact Frame.refl _ _
  · refine Frame.then ?_ (slipQuery_frame _ _) rfl
    refine Frame.foldl ?_ ?_
    · refine Frame.then ?_ (placeProbes_frame _ _ _ _) rfl
      exact Frame.refl _ _
    · intro _ _
      try dsimp only
      refine Frame.then ?_ (sendStage_frame _ _ _) rfl
      exact Frame.refl _ _

theorem routeFirst_frame : ∀ s q, Frame [.counters, .streams, .queries, .fab] s (routeFirst s q) := by
  intro s q
  unfold routeFirst
  try dsimp only [onHost, onMb]
  split
  · try dsimp only
    refine Frame.then ?_ (onQuery_frame _ _ _) rfl
    exact Frame.refl _ _
  · try dsimp only
    refine Frame.then ?_ (sendProbes_frame _ _ _ _) rfl
    refine Frame.ite ?_ ?_
    · refine Frame.then ?_ (onQuery_frame _ _ _) rfl
      refine Frame.then ?_ (bump_frame _ _ _) rfl
      refine Frame.ite1 ?_ ?_
      · try dsimp only
        exact Frame.refl _ _
      · try dsimp only
        refine Frame.then ?_ (strmConv_frame _ _ _ _ _ _) rfl
        exact Frame.refl _ _
    · refine Frame.then ?_ (slipQuery_frame _ _) rfl
      refine Frame.then ?_ (onQuery_frame _ _ _) rfl
      refine Frame.then ?_ (bump_frame _ _ _) rfl
      refine Frame.ite1 ?_ ?_
      · try dsimp only
        exact Frame.refl _ _
      · try dsimp only
        refine Frame.then ?_ (strmConv_frame _ _ _ _ _ _) rfl
        exact Frame.refl _ _

theorem onUnit_frame : ∀ s n f, Frame [.units] s (onUnit s n f) := by
  intro s n f
  unfold onUnit
  try dsimp only [onHost, onMb]
  refine Frame.then ?_ frame_set_units rfl
  exact Frame.refl _ _

theorem holdT4_frame : ∀ s n, Frame [.units] s (holdT4 s n) := by
  intro s n
  unfold holdT4
  try dsimp only [onHost, onMb]
  refine Frame.then ?_ (onUnit_frame _ _ _) rfl
  exact Frame.refl _ _

theorem quarantine_frame : ∀ s key, Frame [.counters, .queues, .rings, .lists, .ledger, .errorLog] s (quarantine s key) := by
  intro s key
  unfold quarantine
  try dsimp only [onHost, onMb]
  split
  · try dsimp only
    exact Frame.refl _ _
  · try dsimp only
    refine Frame.ite ?_ ?_
    · exact Frame.refl _ _
    · refine Frame.then ?_ (bump_frame _ _ _) rfl
      refine Frame.then ?_ (postEvent_frame _ _ _) rfl
      refine Frame.then ?_ (ledgerRequest_frame _ _) rfl
      refine Frame.then ?_ (setList_frame _ _) rfl
      exact Frame.refl _ _

theorem doExactRerank_frame : ∀ s n bad, Frame [.counters, .queues, .rings, .lists, .units, .ledger, .errorLog] s (doExactRerank s n bad) := by
  intro s n bad
  unfold doExactRerank
  try dsimp only [onHost, onMb]
  split
  · try dsimp only
    exact Frame.refl _ _
  · try dsimp only
    refine Frame.ite ?_ ?_
    · exact Frame.refl _ _
    · refine Frame.ite ?_ ?_
      · refine Frame.ite ?_ ?_
        · exact Frame.refl _ _
        · refine Frame.ite ?_ ?_
          · refine Frame.foldl ?_ ?_
            · refine Frame.then ?_ (onUnit_frame _ _ _) rfl
              refine Frame.then ?_ (holdT4_frame _ _) rfl
              exact Frame.refl _ _
            · intro _ _
              try dsimp only
              refine Frame.then ?_ (quarantine_frame _ _) rfl
              exact Frame.refl _ _
          · refine Frame.then ?_ (onUnit_frame _ _ _) rfl
            refine Frame.then ?_ (holdT4_frame _ _) rfl
            exact Frame.refl _ _
      · refine Frame.then ?_ (onUnit_frame _ _ _) rfl
        exact Frame.refl _ _

theorem execExactRerank_frame : ∀ unit uncorrectable s t, execExactRerank unit uncorrectable s = .next t → Frame [.counters, .queues, .rings, .lists, .units, .ledger, .errorLog] s t := by
  intro unit uncorrectable s t h
  unfold execExactRerank at h
  injection h with h
  subst h
  try dsimp only [onHost, onMb]
  refine Frame.then ?_ (doExactRerank_frame _ _ _) rfl
  exact Frame.refl _ _

theorem clearWay_frame : ∀ s gone, Frame [.way] s (clearWay s gone) := by
  intro s gone
  unfold clearWay
  try dsimp only [onHost, onMb]
  refine Frame.then ?_ frame_set_way rfl
  exact Frame.refl _ _

theorem unitDone_frame : ∀ s n, Frame [.turnMisc, .way] s (unitDone s n) := by
  intro s n
  unfold unitDone
  try dsimp only [onHost, onMb]
  refine Frame.then ?_ (clearWay_frame _ _) rfl
  refine Frame.then ?_ (unplace_frame _ _ _) rfl
  exact Frame.refl _ _

theorem postResult_frame : ∀ s r, Frame [.rings] s (postResult s r) := by
  intro s r
  unfold postResult
  try dsimp only [onHost, onMb]
  refine Frame.ite ?_ ?_
  · exact Frame.refl _ _
  · refine Frame.then ?_ frame_set_host_results rfl
    exact Frame.refl _ _

theorem setWayQ_frame : ∀ s w1 q, Frame [.way] s (setWayQ s w1 q) := by
  intro s w1 q
  unfold setWayQ
  try dsimp only [onHost, onMb]
  refine Frame.then ?_ frame_set_way rfl
  exact Frame.refl _ _

theorem wayResult_frame : ∀ s way1 r, Frame [.way] s (wayResult s way1 r) := by
  intro s way1 r
  unfold wayResult
  try dsimp only [onHost, onMb]
  refine Frame.then ?_ frame_set_way rfl
  exact Frame.refl _ _

theorem wayFailed_frame : ∀ s way1 unit id ctag wst, Frame [.way, .free] s (wayFailed s way1 unit id ctag wst) := by
  intro s way1 unit id ctag wst
  unfold wayFailed
  try dsimp only [onHost, onMb]
  refine Frame.then ?_ (wayResult_frame _ _ _) rfl
  refine Frame.then ?_ (drawFree_frame _) rfl
  exact Frame.refl _ _

theorem writeRequests_frame : ∀ s, Frame [.way, .free] s (writeRequests s) := by
  intro s
  unfold writeRequests
  try dsimp only [onHost, onMb]
  refine Frame.then ?_ frame_set_way rfl
  refine Frame.foldl ?_ ?_
  · exact Frame.refl _ _
  · intro _ _
    try dsimp only
    refine Frame.ite ?_ ?_
    · refine Frame.then ?_ (wayFailed_frame _ _ _ _ _ _) rfl
      exact Frame.refl _ _
    · refine Frame.then ?_ (setWayQ_frame _ _ _) rfl
      exact Frame.refl _ _

theorem heatList_frame : ∀ s key n, Frame [.lists] s (heatList s key n) := by
  intro s key n
  unfold heatList
  try dsimp only [onHost, onMb]
  refine Frame.then ?_ frame_set_lists rfl
  exact Frame.refl _ _

theorem onCand_frame : ∀ s n ctag f, Frame [.units] s (onCand s n ctag f) := by
  intro s n ctag f
  unfold onCand
  try dsimp only [onHost, onMb]
  refine Frame.then ?_ (onUnit_frame _ _ _) rfl
  exact Frame.refl _ _

theorem candDone_frame : ∀ s way1 u c, Frame [.lists, .units, .way] s (candDone s way1 u c) := by
  intro s way1 u c
  unfold candDone
  try dsimp only [onHost, onMb]
  split
  · try dsimp only
    exact Frame.refl _ _
  · try dsimp only
    refine Frame.then ?_ (heatList_frame _ _ _) rfl
    refine Frame.then ?_ (onCand_frame _ _ _ _) rfl
    refine Frame.then ?_ (holdT4_frame _ _) rfl
    refine Frame.then ?_ (wayResult_frame _ _ _) rfl
    exact Frame.refl _ _

theorem candFailed_frame : ∀ s way1 u c, Frame [.counters, .queues, .rings, .lists, .units, .way, .ledger, .errorLog, .free] s (candFailed s way1 u c) := by
  intro s way1 u c
  unfold candFailed
  try dsimp only [onHost, onMb]
  refine Frame.then ?_ (quarantine_frame _ _) rfl
  refine Frame.then ?_ (postEvent_frame _ _ _) rfl
  refine Frame.then ?_ (bump_frame _ _ _) rfl
  refine Frame.then ?_ (onUnit_frame _ _ _) rfl
  refine Frame.then ?_ (onCand_frame _ _ _ _) rfl
  refine Frame.then ?_ (holdT4_frame _ _) rfl
  refine Frame.then ?_ (wayFailed_frame _ _ _ _ _ _) rfl
  exact Frame.refl _ _

theorem markPage_frame : ∀ s loc, Frame [.flash] s (markPage s loc) := by
  intro s loc
  unfold markPage
  try dsimp only [onHost, onMb]
  split
  · try dsimp only
    exact Frame.refl _ _
  · try dsimp only
    refine Frame.then ?_ (markBlock_frame _ _ _) rfl
    exact Frame.refl _ _

theorem doCandidateReadComplete_frame : ∀ s way1 outcome, Frame [.counters, .queues, .rings, .lists, .units, .way, .flash, .ledger, .errorLog, .free] s (doCandidateReadComplete s way1 outcome) := by
  intro s way1 outcome
  unfold doCandidateReadComplete
  try dsimp only [onHost, onMb]
  split
  · try dsimp only
    exact Frame.refl _ _
  · try dsimp only
    split
    · try dsimp only
      refine Frame.then ?_ (setWayQ_frame _ _ _) rfl
      exact Frame.refl _ _
    · try dsimp only
      split
      · try dsimp only
        refine Frame.then ?_ (setWayQ_frame _ _ _) rfl
        exact Frame.refl _ _
      · try dsimp only
        refine Frame.ite ?_ ?_
        · refine Frame.then ?_ (candDone_frame _ _ _ _) rfl
          refine Frame.then ?_ (setWayQ_frame _ _ _) rfl
          exact Frame.refl _ _
        · refine Frame.ite ?_ ?_
          · refine Frame.then ?_ (markPage_frame _ _) rfl
            refine Frame.then ?_ (bump_frame _ _ _) rfl
            refine Frame.then ?_ (candDone_frame _ _ _ _) rfl
            refine Frame.then ?_ (setWayQ_frame _ _ _) rfl
            exact Frame.refl _ _
          · refine Frame.ite ?_ ?_
            · refine Frame.ite ?_ ?_
              · refine Frame.then ?_ (candFailed_frame _ _ _ _) rfl
                refine Frame.then ?_ (setWayQ_frame _ _ _) rfl
                exact Frame.refl _ _
              · refine Frame.then ?_ (onCand_frame _ _ _ _) rfl
                refine Frame.then ?_ (holdT4_frame _ _) rfl
                refine Frame.then ?_ (setWayQ_frame _ _ _) rfl
                exact Frame.refl _ _
            · refine Frame.ite ?_ ?_
              · refine Frame.ite ?_ ?_
                · refine Frame.then ?_ frame_set_way rfl
                  refine Frame.then ?_ (setWayQ_frame _ _ _) rfl
                  refine Frame.then ?_ (onCand_frame _ _ _ _) rfl
                  refine Frame.then ?_ (bump_frame _ _ _) rfl
                  refine Frame.then ?_ (markPage_frame _ _) rfl
                  refine Frame.then ?_ (setWayQ_frame _ _ _) rfl
                  exact Frame.refl _ _
                · refine Frame.then ?_ (bump_frame _ _ _) rfl
                  refine Frame.then ?_ (onCand_frame _ _ _ _) rfl
                  refine Frame.then ?_ (bump_frame _ _ _) rfl
                  refine Frame.then ?_ (markPage_frame _ _) rfl
                  refine Frame.then ?_ (setWayQ_frame _ _ _) rfl
                  exact Frame.refl _ _
              · refine Frame.then ?_ (candFailed_frame _ _ _ _) rfl
                refine Frame.then ?_ (markPage_frame _ _) rfl
                refine Frame.then ?_ (setWayQ_frame _ _ _) rfl
                exact Frame.refl _ _

theorem execCandidateReadComplete_frame : ∀ way1 outcome s t, execCandidateReadComplete way1 outcome s = .next t → Frame [.counters, .queues, .rings, .lists, .units, .way, .flash, .ledger, .errorLog, .free] s t := by
  intro way1 outcome s t h
  unfold execCandidateReadComplete at h
  injection h with h
  subst h
  try dsimp only [onHost, onMb]
  refine Frame.then ?_ (doCandidateReadComplete_frame _ _ _) rfl
  exact Frame.refl _ _

theorem doLocalSelect_frame : ∀ s n, Frame [.turnMisc, .units, .way, .fab, .free] s (doLocalSelect s n) := by
  intro s n
  unfold doLocalSelect
  try dsimp only [onHost, onMb]
  split
  · try dsimp only
    exact Frame.refl _ _
  · try dsimp only
    refine Frame.ite ?_ ?_
    · exact Frame.refl _ _
    · refine Frame.ite ?_ ?_
      · refine Frame.then ?_ (onUnit_frame _ _ _) rfl
        refine Frame.then ?_ (sendStage_frame _ _ _) rfl
        refine Frame.then ?_ (unitDone_frame _ _) rfl
        exact Frame.refl _ _
      · refine Frame.ite ?_ ?_
        · exact Frame.refl _ _
        · refine Frame.then ?_ (onUnit_frame _ _ _) rfl
          refine Frame.then ?_ (sendStage_frame _ _ _) rfl
          refine Frame.then ?_ (drawFree_frame _) rfl
          refine Frame.then ?_ (unitDone_frame _ _) rfl
          refine Frame.then ?_ frame_set_turn_selSteps rfl
          exact Frame.refl _ _

theorem answerQuery_frame : ∀ s q st replica ids, Frame [.rings, .turnMisc, .queries] s (answerQuery s q st replica ids) := by
  intro s q st replica ids
  unfold answerQuery
  try dsimp only [onHost, onMb]
  refine Frame.then ?_ frame_set_queries rfl
  refine Frame.then ?_ (postResult_frame _ _) rfl
  refine Frame.then ?_ (crossBridge_frame _ _ _) rfl
  exact Frame.refl _ _

theorem sendCancels_frame : ∀ s q, Frame [.fab] s (sendCancels s q) := by
  intro s q
  unfold sendCancels
  try dsimp only [onHost, onMb]
  refine Frame.then ?_ (sendAll_frame _ _ _) rfl
  exact Frame.refl _ _

theorem storeMemo_frame : ∀ s q st replica ids, Frame [.fab, .out] s (storeMemo s q st replica ids) := by
  intro s q st replica ids
  unfold storeMemo
  try dsimp only [onHost, onMb]
  refine Frame.ite ?_ ?_
  · refine Frame.then ?_ (memoPut_frame _ _ _) rfl
    exact Frame.refl _ _
  · exact Frame.refl _ _

theorem doBazaarMerge_frame : ∀ s qh, Frame [.counters, .rings, .turnMisc, .queries, .fab, .out, .free] s (doBazaarMerge s qh) := by
  intro s qh
  unfold doBazaarMerge
  try dsimp only [onHost, onMb]
  split
  · try dsimp only
    exact Frame.refl _ _
  · try dsimp only
    refine Frame.ite ?_ ?_
    · exact Frame.refl _ _
    · refine Frame.ite ?_ ?_
      · refine Frame.then ?_ (slipQuery_frame _ _) rfl
        exact Frame.refl _ _
      · refine Frame.ite ?_ ?_
        · refine Frame.then ?_ (answerQuery_frame _ _ _ _ _) rfl
          refine Frame.then ?_ (sendCancels_frame _ _) rfl
          exact Frame.refl _ _
        · refine Frame.ite ?_ ?_
          · exact Frame.refl _ _
          · refine Frame.then ?_ (answerQuery_frame _ _ _ _ _) rfl
            refine Frame.then ?_ (storeMemo_frame _ _ _ _ _) rfl
            refine Frame.ite ?_ ?_
            · refine Frame.then ?_ (sendCancels_frame _ _) rfl
              refine Frame.then ?_ (bump_frame _ _ _) rfl
              refine Frame.then ?_ (bump_frame _ _ _) rfl
              refine Frame.then ?_ (bump_frame _ _ _) rfl
              refine Frame.then ?_ (bump_frame _ _ _) rfl
              refine Frame.then ?_ (drawFree_frame _) rfl
              refine Frame.then ?_ frame_set_turn_bazSteps rfl
              refine Frame.then ?_ (unplace_frame _ _ _) rfl
              exact Frame.refl _ _
            · refine Frame.then ?_ (bump_frame _ _ _) rfl
              refine Frame.then ?_ (bump_frame _ _ _) rfl
              refine Frame.then ?_ (bump_frame _ _ _) rfl
              refine Frame.then ?_ (drawFree_frame _) rfl
              refine Frame.then ?_ frame_set_turn_bazSteps rfl
              refine Frame.then ?_ (unplace_frame _ _ _) rfl
              exact Frame.refl _ _

theorem execBazaarMerge_frame : ∀ qh s t, execBazaarMerge qh s = .next t → Frame [.counters, .rings, .turnMisc, .queries, .fab, .out, .free] s t := by
  intro qh s t h
  unfold execBazaarMerge at h
  injection h with h
  subst h
  try dsimp only [onHost, onMb]
  refine Frame.then ?_ (doBazaarMerge_frame _ _) rfl
  exact Frame.refl _ _

theorem failUnit_frame : ∀ s n, Frame [.units] s (failUnit s n) := by
  intro s n
  unfold failUnit
  try dsimp only [onHost, onMb]
  refine Frame.then ?_ (onUnit_frame _ _ _) rfl
  exact Frame.refl _ _

theorem doRescore_frame : ∀ s c bad, Frame [.counters, .queues, .rings, .images, .streams, .units, .fab, .errorLog, .out, .free] s (doRescore s c bad) := by
  intro s c bad
  unfold doRescore
  try dsimp only [onHost, onMb]
  split
  · try dsimp only
    exact Frame.refl _ _
  · try dsimp only
    split
    · try dsimp only
      exact Frame.refl _ _
    · try dsimp only
      refine Frame.ite ?_ ?_
      · exact Frame.refl _ _
      · split
        · try dsimp only
          refine Frame.foldl ?_ ?_
          · refine Frame.then ?_ (weightError_frame _ _ _) rfl
            exact Frame.refl _ _
          · intro _ _
            try dsimp only
            refine Frame.then ?_ (failUnit_frame _ _) rfl
            exact Frame.refl _ _
        · try dsimp only
          refine Frame.then ?_ (bump_frame _ _ _) rfl
          refine Frame.foldl ?_ ?_
          · refine Frame.foldl ?_ ?_
            · refine Frame.foldl ?_ ?_
              · exact Frame.then (Frame.refl _ _) (runLayers_frame _ _ _ _ _ _ _ _ _ _ (by assumption)) rfl
              · intro _ _
                try dsimp only
                refine Frame.then ?_ (holdT4_frame _ _) rfl
                exact Frame.refl _ _
            · intro _ _
              try dsimp only
              refine Frame.then ?_ (watchLayer_frame _ _ _ _) rfl
              exact Frame.refl _ _
          · intro _ _
            try dsimp only
            refine Frame.then ?_ (onCand_frame _ _ _ _) rfl
            exact Frame.refl _ _

theorem comeReq_frame : ∀ s w1 u c slot wst, Frame [.way] s (comeReq s w1 u c slot wst) := by
  intro s w1 u c slot wst
  unfold comeReq
  try dsimp only [onHost, onMb]
  refine Frame.then ?_ frame_set_way rfl
  exact Frame.refl _ _

theorem deferCand_frame : ∀ s w1 u c, Frame [.counters, .way] s (deferCand s w1 u c) := by
  intro s w1 u c
  unfold deferCand
  try dsimp only [onHost, onMb]
  refine Frame.then ?_ (bump_frame _ _ _) rfl
  refine Frame.then ?_ (comeReq_frame _ _ _ _ _ _) rfl
  exact Frame.refl _ _

theorem enterDesc_frame : ∀ s w1 u, Frame [.way] s (enterDesc s w1 u).1 := by
  intro s w1 u
  unfold enterDesc
  try dsimp only [onHost, onMb]
  split
  · try dsimp only
    try dsimp only
    exact Frame.refl _ _
  · try dsimp only
    try dsimp only
    refine Frame.then ?_ frame_set_way rfl
    exact Frame.refl _ _

theorem assignCand_frame : ∀ slipped u p c, Frame [.counters, .way] p.1 (assignCand slipped u p c).1 := by
  intro slipped u p c
  unfold assignCand
  try dsimp only [onHost, onMb]
  refine Frame.ite1 ?_ ?_
  · exact Frame.refl _ _
  · refine Frame.ite1 ?_ ?_
    · refine Frame.ite1 ?_ ?_
      · try dsimp only
        refine Frame.then ?_ frame_set_way rfl
        refine Frame.then ?_ (comeReq_frame _ _ _ _ _ _) rfl
        refine Frame.then ?_ (enterDesc_frame _ _ _) rfl
        exact Frame.refl _ _
      · try dsimp only
        refine Frame.then ?_ (deferCand_frame _ _ _ _) rfl
        exact Frame.refl _ _
    · refine Frame.ite1 ?_ ?_
      · try dsimp only
        refine Frame.then ?_ frame_set_way rfl
        refine Frame.then ?_ (comeReq_frame _ _ _ _ _ _) rfl
        refine Frame.then ?_ (enterDesc_frame _ _ _) rfl
        exact Frame.refl _ _
      · try dsimp only
        refine Frame.then ?_ (deferCand_frame _ _ _ _) rfl
        exact Frame.refl _ _

theorem execLocalSelect_frame : ∀ unit s t, execLocalSelect unit s = .next t → Frame [.turnMisc, .units, .way, .fab, .free] s t := by
  intro unit s t h
  unfold execLocalSelect at h
  injection h with h
  subst h
  try dsimp only [onHost, onMb]
  refine Frame.then ?_ (doLocalSelect_frame _ _) rfl
  exact Frame.refl _ _

theorem clearTables_frame : ∀ s keep, Frame [.way] s (clearTables s keep) := by
  intro s keep
  unfold clearTables
  try dsimp only [onHost, onMb]
  refine Frame.then ?_ frame_set_way rfl
  exact Frame.refl _ _

theorem assignCandidates_frame : ∀ s, Frame [.counters, .way] s (assignCandidates s) := by
  intro s
  unfold assignCandidates
  try dsimp only [onHost, onMb]
  refine Frame.foldl1 ?_ ?_
  · try dsimp only
    refine Frame.then ?_ (clearTables_frame _ _) rfl
    refine Frame.then ?_ frame_set_way rfl
    exact Frame.refl _ _
  · intro _ _
    try dsimp only
    refine Frame.foldl1 ?_ ?_
    · exact Frame.refl _ _
    · intro _ _
      try dsimp only
      refine Frame.then ?_ (assignCand_frame _ _ _ _) rfl
      exact Frame.refl _ _

theorem doCoarseRoute_frame : ∀ s qh, Frame [.counters, .rings, .turnMisc, .streams, .queries, .fab] s (doCoarseRoute s qh) := by
  intro s qh
  unfold doCoarseRoute
  try dsimp only [onHost, onMb]
  split
  · try dsimp only
    exact Frame.refl _ _
  · try dsimp only
    refine Frame.ite ?_ ?_
    · exact Frame.refl _ _
    · refine Frame.ite ?_ ?_
      · split
        · try dsimp only
          refine Frame.then ?_ (routeFirst_frame _ _) rfl
          refine Frame.then ?_ (unplace_frame _ _ _) rfl
          refine Frame.ite ?_ ?_
          · exact Frame.refl _ _
          · refine Frame.then ?_ (slipQuery_frame _ _) rfl
            exact Frame.refl _ _
        · try dsimp only
          refine Frame.ite ?_ ?_
          · refine Frame.then ?_ (bump_frame _ _ _) rfl
            refine Frame.then ?_ (answerQuery_frame _ _ _ _ _) rfl
            refine Frame.then ?_ (unplace_frame _ _ _) rfl
            refine Frame.ite ?_ ?_
            · exact Frame.refl _ _
            · refine Frame.then ?_ (slipQuery_frame _ _) rfl
              exact Frame.refl _ _
          · refine Frame.then ?_ (routeFirst_frame _ _) rfl
            refine Frame.then ?_ (unplace_frame _ _ _) rfl
            refine Frame.ite ?_ ?_
            · exact Frame.refl _ _
            · refine Frame.then ?_ (slipQuery_frame _ _) rfl
              exact Frame.refl _ _
      · refine Frame.ite ?_ ?_
        · refine Frame.then ?_ (sendProbes_frame _ _ _ _) rfl
          refine Frame.then ?_ (unplace_frame _ _ _) rfl
          refine Frame.ite ?_ ?_
          · exact Frame.refl _ _
          · refine Frame.then ?_ (slipQuery_frame _ _) rfl
            exact Frame.refl _ _
        · refine Frame.then ?_ (unplace_frame _ _ _) rfl
          refine Frame.ite ?_ ?_
          · exact Frame.refl _ _
          · refine Frame.then ?_ (slipQuery_frame _ _) rfl
            exact Frame.refl _ _

theorem doCandidateRequest_frame : ∀ s way1 busy, Frame [.counters, .way, .flash, .out, .free] s (doCandidateRequest s way1 busy) := by
  intro s way1 busy
  unfold doCandidateRequest
  try dsimp only [onHost, onMb]
  split
  · try dsimp only
    exact Frame.refl _ _
  · try dsimp only
    refine Frame.ite ?_ ?_
    · exact Frame.refl _ _
    · refine Frame.ite ?_ ?_
      · refine Frame.then ?_ (bump_frame _ _ _) rfl
        refine Frame.then ?_ (setWayQ_frame _ _ _) rfl
        exact Frame.refl _ _
      · split
        · try dsimp only
          refine Frame.then ?_ (emit_frame _ _) rfl
          refine Frame.then ?_ (countRead_frame _ _ _) rfl
          refine Frame.then ?_ (bump_frame _ _ _) rfl
          refine Frame.then ?_ (setWayQ_frame _ _ _) rfl
          refine Frame.then ?_ frame_set_way rfl
          exact Frame.refl _ _
        · try dsimp only
          refine Frame.ite ?_ ?_
          · refine Frame.then ?_ (emit_frame _ _) rfl
            refine Frame.then ?_ (emit_frame _ _) rfl
            refine Frame.then ?_ (countRead_frame _ _ _) rfl
            refine Frame.then ?_ (bump_frame _ _ _) rfl
            refine Frame.then ?_ (setWayQ_frame _ _ _) rfl
            refine Frame.then ?_ (bump_frame _ _ _) rfl
            refine Frame.then ?_ frame_set_way rfl
            exact Frame.refl _ _
          · refine Frame.then ?_ (wayFailed_frame _ _ _ _ _ _) rfl
            refine Frame.then ?_ (bump_frame _ _ _) rfl
            refine Frame.then ?_ (setWayQ_frame _ _ _) rfl
            exact Frame.refl _ _

theorem execCoarseRoute_frame : ∀ qh s t, execCoarseRoute qh s = .next t → Frame [.counters, .rings, .turnMisc, .streams, .queries, .fab] s t := by
  intro qh s t h
  unfold execCoarseRoute at h
  injection h with h
  subst h
  try dsimp only [onHost, onMb]
  refine Frame.then ?_ (doCoarseRoute_frame _ _) rfl
  exact Frame.refl _ _

theorem execCandidateRequest_frame : ∀ way1 busy s t, execCandidateRequest way1 busy s = .next t → Frame [.counters, .way, .flash, .out, .free] s t := by
  intro way1 busy s t h
  unfold execCandidateRequest at h
  injection h with h
  subst h
  try dsimp only [onHost, onMb]
  refine Frame.then ?_ (doCandidateRequest_frame _ _ _) rfl
  exact Frame.refl _ _

theorem doWiden_frame : ∀ s qh, Frame [.counters, .turnMisc, .queries, .fab] s (doWiden s qh) := by
  intro s qh
  unfold doWiden
  try dsimp only [onHost, onMb]
  split
  · try dsimp only
    exact Frame.refl _ _
  · try dsimp only
    refine Frame.ite ?_ ?_
    · exact Frame.refl _ _
    · refine Frame.ite ?_ ?_
      · refine Frame.then ?_ (slipQuery_frame _ _) rfl
        exact Frame.refl _ _
      · refine Frame.ite ?_ ?_
        · exact Frame.refl _ _
        · refine Frame.ite ?_ ?_
          · refine Frame.then ?_ (bump_frame _ _ _) rfl
            exact Frame.refl _ _
          · refine Frame.then ?_ (sendProbes_frame _ _ _ _) rfl
            refine Frame.then ?_ (holdAhead_frame _ _ _ _ _) rfl
            refine Frame.then ?_ (onQuery_frame _ _ _) rfl
            refine Frame.then ?_ (bump_frame _ _ _) rfl
            exact Frame.refl _ _

theorem execWiden_frame : ∀ qh s t, execWiden qh s = .next t → Frame [.counters, .turnMisc, .queries, .fab] s t := by
  intro qh s t h
  unfold execWiden at h
  injection h with h
  subst h
  try dsimp only [onHost, onMb]
  refine Frame.then ?_ (doWiden_frame _ _) rfl
  exact Frame.refl _ _

theorem execRescore_frame : ∀ coll bad s t, execRescore coll bad s = .next t → Frame [.counters, .queues, .rings, .images, .streams, .units, .fab, .errorLog, .out, .free] s t := by
  intro coll bad s t h
  unfold execRescore at h
  injection h with h
  subst h
  try dsimp only [onHost, onMb]
  refine Frame.then ?_ (doRescore_frame _ _ _) rfl
  exact Frame.refl _ _

end Sys2Proof.Machine
end

