-- ==== Sys2Proof/Laws/FrameIngest.lean ====
section
/-! SUPPORT. Which parts of the state the functions of Machine/Ingest.lean may change. -/

set_option maxRecDepth 4000

namespace Sys2Proof.Machine

open Sys2Proof

theorem onShard_frame : ∀ s c sh f, Frame [.ing] s (onShard s c sh f) := by
  intro s c sh f
  unfold onShard
  try dsimp only [onHost, onMb]
  refine Frame.then ?_ frame_set_ing rfl
  exact Frame.refl _ _

theorem sendStamps_frame : ∀ s t1 sh c xs, Frame [.fab] s (sendStamps s t1 sh c xs) := by
  intro s t1 sh c xs
  unfold sendStamps
  try dsimp only [onHost, onMb]
  refine Frame.foldl ?_ ?_
  · exact Frame.refl _ _
  · intro _ _
    try dsimp only
    refine Frame.then ?_ (send_frame _ _ _) rfl
    exact Frame.refl _ _

theorem doOrdering_frame : ∀ s c sh t1, Frame [.counters, .ing, .fab] s (doOrdering s c sh t1) := by
  intro s c sh t1
  unfold doOrdering
  try dsimp only [onHost, onMb]
  split
  · try dsimp only
    exact Frame.refl _ _
  · try dsimp only
    refine Frame.ite ?_ ?_
    · exact Frame.refl _ _
    · refine Frame.ite ?_ ?_
      · refine Frame.then ?_ (sendStamps_frame _ _ _ _ _) rfl
        refine Frame.then ?_ (bump_frame _ _ _) rfl
        refine Frame.then ?_ (bump_frame _ _ _) rfl
        refine Frame.then ?_ (onShard_frame _ _ _ _) rfl
        exact Frame.refl _ _
      · refine Frame.then ?_ (onShard_frame _ _ _ _) rfl
        exact Frame.refl _ _

theorem logCopy_frame : ∀ s key r, Frame [.place] s (logCopy s key r) := by
  intro s key r
  unfold logCopy
  try dsimp only [onHost, onMb]
  refine Frame.then ?_ frame_set_place rfl
  exact Frame.refl _ _

theorem applyStamp_frame : ∀ s x1, Frame [.lists, .place] s (applyStamp s x1) := by
  intro s x1
  unfold applyStamp
  try dsimp only [onHost, onMb]
  split
  · try dsimp only
    exact Frame.refl _ _
  · try dsimp only
    refine Frame.foldl ?_ ?_
    · refine Frame.then ?_ frame_set_lists rfl
      exact Frame.refl _ _
    · intro _ _
      try dsimp only
      refine Frame.then ?_ (logCopy_frame _ _ _) rfl
      exact Frame.refl _ _

theorem countStamp_frame : ∀ s t1 shard c xs, Frame [.lists, .ing, .place] s (countStamp s t1 shard c xs) := by
  intro s t1 shard c xs
  unfold countStamp
  try dsimp only [onHost, onMb]
  refine Frame.ite ?_ ?_
  · refine Frame.foldl ?_ ?_
    · exact Frame.refl _ _
    · intro _ _
      try dsimp only
      refine Frame.then ?_ (applyStamp_frame _ _) rfl
      exact Frame.refl _ _
  · refine Frame.ite ?_ ?_
    · exact Frame.refl _ _
    · refine Frame.then ?_ frame_set_ing rfl
      refine Frame.foldl ?_ ?_
      · exact Frame.refl _ _
      · intro _ _
        try dsimp only
        refine Frame.then ?_ (applyStamp_frame _ _) rfl
        exact Frame.refl _ _

theorem addDrift_frame : ∀ s w1, Frame [.colls] s (addDrift s w1) := by
  intro s w1
  unfold addDrift
  try dsimp only [onHost, onMb]
  refine Frame.ite ?_ ?_
  · exact Frame.refl _ _
  · refine Frame.then ?_ (setColl_frame _ _ _) rfl
    exact Frame.refl _ _

theorem commitRec_frame : ∀ s w1 abort, Frame [.ing] s (commitRec s w1 abort) := by
  intro s w1 abort
  unfold commitRec
  try dsimp only [onHost, onMb]
  refine Frame.then ?_ frame_set_ing rfl
  exact Frame.refl _ _

theorem commitEffect_frame : ∀ s w1, Frame [.comp, .colls, .ing] s (commitEffect s w1) := by
  intro s w1
  unfold commitEffect
  try dsimp only [onHost, onMb]
  refine Frame.ite ?_ ?_
  · exact Frame.refl _ _
  · split
    · try dsimp only
      split
      · try dsimp only
        exact Frame.refl _ _
      · try dsimp only
        refine Frame.then ?_ (replaceRow_frame _ _ _ _ _) rfl
        exact Frame.refl _ _
    · try dsimp only
      refine Frame.ite ?_ ?_
      · refine Frame.then ?_ (addDrift_frame _ _) rfl
        refine Frame.then ?_ (commitRec_frame _ _ _) rfl
        exact Frame.refl _ _
      · refine Frame.then ?_ (commitRec_frame _ _ _) rfl
        exact Frame.refl _ _

theorem sendOwed_frame : ∀ s k, Frame [.ing, .fab] s (sendOwed s k) := by
  intro s k
  unfold sendOwed
  try dsimp only [onHost, onMb]
  split
  · try dsimp only
    refine Frame.then ?_ frame_set_ing rfl
    exact Frame.refl _ _
  · try dsimp only
    refine Frame.ite ?_ ?_
    · refine Frame.then ?_ (send_frame _ _ _) rfl
      refine Frame.then ?_ frame_set_ing rfl
      exact Frame.refl _ _
    · exact Frame.refl _ _

theorem finishWrite_frame : ∀ s w1 st, Frame [.rings, .ing] s (finishWrite s w1 st) := by
  intro s w1 st
  unfold finishWrite
  try dsimp only [onHost, onMb]
  refine Frame.then ?_ frame_set_ing rfl
  refine Frame.then ?_ (postResult_frame _ _) rfl
  exact Frame.refl _ _

theorem postRefused_frame : ∀ q n s, Frame [.rings, .ing] s (postRefused q n s) := by
  intro q n
  induction n with
  | zero => intro s; exact Frame.refl _ _
  | succ n ih =>
    intro s
    unfold postRefused
    split
    · exact Frame.refl _ _
    · split
      · exact Frame.refl _ _
      · exact Frame.then (Frame.then (Frame.refl _ _) (finishWrite_frame _ _ _) rfl) (ih _) rfl

theorem countAck_frame : ∀ s src wids refused short, Frame [.ing, .fab] s (countAck s src wids refused short) := by
  intro s src wids refused short
  unfold countAck
  try dsimp only [onHost, onMb]
  refine Frame.foldl ?_ ?_
  · refine Frame.then ?_ frame_set_ing rfl
    exact Frame.refl _ _
  · intro _ _
    try dsimp only
    refine Frame.then ?_ (send_frame _ _ _) rfl
    exact Frame.refl _ _

theorem onEntries_frame : ∀ s c f, Frame [.lists] s (onEntries s c f) := by
  intro s c f
  unfold onEntries
  try dsimp only [onHost, onMb]
  refine Frame.then ?_ frame_set_lists rfl
  exact Frame.refl _ _

theorem applyCommit_frame : ∀ t1 origin s r, Frame [.lists] s (applyCommit t1 origin s r) := by
  intro t1 origin s r
  unfold applyCommit
  try dsimp only [onHost, onMb]
  refine Frame.then ?_ (onEntries_frame _ _ _) rfl
  exact Frame.refl _ _

theorem countCommit_frame : ∀ s src t1 rs, Frame [.lists, .ing, .place] s (countCommit s src t1 rs) := by
  intro s src t1 rs
  unfold countCommit
  try dsimp only [onHost, onMb]
  refine Frame.then ?_ frame_set_ing_place rfl
  refine Frame.foldl ?_ ?_
  · exact Frame.refl _ _
  · intro _ _
    try dsimp only
    refine Frame.then ?_ (applyCommit_frame _ _ _ _) rfl
    exact Frame.refl _ _

theorem countDirRecords_frame : ∀ s src c sh rs, Frame [.ing, .fab, .ledger] s (countDirRecords s src c sh rs) := by
  intro s src c sh rs
  unfold countDirRecords
  try dsimp only [onHost, onMb]
  split
  · try dsimp only
    exact Frame.refl _ _
  · try dsimp only
    refine Frame.ite ?_ ?_
    · refine Frame.then ?_ (ledgerRequest_frame _ _) rfl
      refine Frame.ite ?_ ?_
      · refine Frame.ite ?_ ?_
        · refine Frame.then ?_ (onShard_frame _ _ _ _) rfl
          exact Frame.refl _ _
        · refine Frame.then ?_ (sendStamps_frame _ _ _ _ _) rfl
          refine Frame.then ?_ (onShard_frame _ _ _ _) rfl
          exact Frame.refl _ _
      · refine Frame.then ?_ (send_frame _ _ _) rfl
        refine Frame.ite ?_ ?_
        · refine Frame.then ?_ (onShard_frame _ _ _ _) rfl
          exact Frame.refl _ _
        · refine Frame.then ?_ (sendStamps_frame _ _ _ _ _) rfl
          refine Frame.then ?_ (onShard_frame _ _ _ _) rfl
          exact Frame.refl _ _
    · refine Frame.ite ?_ ?_
      · refine Frame.then ?_ (onShard_frame _ _ _ _) rfl
        exact Frame.refl _ _
      · refine Frame.then ?_ (sendStamps_frame _ _ _ _ _) rfl
        refine Frame.then ?_ (onShard_frame _ _ _ _) rfl
        exact Frame.refl _ _

theorem takeShard_frame : ∀ s c sh done rs, Frame [.ing] s (takeShard s c sh done rs) := by
  intro s c sh done rs
  unfold takeShard
  try dsimp only [onHost, onMb]
  refine Frame.then ?_ (onShard_frame _ _ _ _) rfl
  exact Frame.refl _ _

theorem ackEntry_frame : ∀ s origin wid, Frame [.ing] s (ackEntry s origin wid) := by
  intro s origin wid
  unfold ackEntry
  try dsimp only [onHost, onMb]
  refine Frame.then ?_ frame_set_ing rfl
  exact Frame.refl _ _

theorem refuseEntry_frame : ∀ s origin wid, Frame [.counters, .ing] s (refuseEntry s origin wid) := by
  intro s origin wid
  unfold refuseEntry
  try dsimp only [onHost, onMb]
  refine Frame.then ?_ (bump_frame _ _ _) rfl
  refine Frame.then ?_ frame_set_ing rfl
  exact Frame.refl _ _

theorem stageEntry_frame : ∀ s e, Frame [.counters, .lists, .ing, .place] s (stageEntry s e) := by
  intro s e
  unfold stageEntry
  try dsimp only [onHost, onMb]
  refine Frame.ite ?_ ?_
  · exact Frame.refl _ _
  · refine Frame.ite ?_ ?_
    · refine Frame.then ?_ (ackEntry_frame _ _ _) rfl
      exact Frame.refl _ _
    · refine Frame.ite ?_ ?_
      · refine Frame.then ?_ (refuseEntry_frame _ _ _) rfl
        exact Frame.refl _ _
      · refine Frame.ite ?_ ?_
        · refine Frame.then ?_ (bump_frame _ _ _) rfl
          refine Frame.then ?_ (refuseEntry_frame _ _ _) rfl
          exact Frame.refl _ _
        · refine Frame.then ?_ (logCopy_frame _ _ _) rfl
          refine Frame.then ?_ (ackEntry_frame _ _ _) rfl
          refine Frame.then ?_ (setList_frame _ _) rfl
          exact Frame.refl _ _

theorem cancelDemotion_frame : ∀ s t1 g, Frame [.comp] s (cancelDemotion s t1 g) := by
  intro s t1 g
  unfold cancelDemotion
  try dsimp only [onHost, onMb]
  refine Frame.then ?_ (onGroup_frame _ _ _ _) rfl
  exact Frame.refl _ _

theorem onWrite_frame : ∀ s wid f, Frame [.ing] s (onWrite s wid f) := by
  intro s wid f
  unfold onWrite
  try dsimp only [onHost, onMb]
  refine Frame.then ?_ frame_set_ing rfl
  exact Frame.refl _ _

theorem takeRow_frame : ∀ s w1, Frame [.comp, .ing] s (takeRow s w1) := by
  intro s w1
  unfold takeRow
  try dsimp only [onHost, onMb]
  split
  · try dsimp only
    refine Frame.then ?_ (onWrite_frame _ _ _) rfl
    exact Frame.refl _ _
  · try dsimp only
    refine Frame.ite ?_ ?_
    · refine Frame.then ?_ (onWrite_frame _ _ _) rfl
      refine Frame.then ?_ (cancelDemotion_frame _ _ _) rfl
      exact Frame.refl _ _
    · refine Frame.then ?_ (onGroup_frame _ _ _ _) rfl
      refine Frame.then ?_ (startGroupMove_frame _ _ _ _) rfl
      refine Frame.then ?_ (onWrite_frame _ _ _) rfl
      refine Frame.then ?_ (cancelDemotion_frame _ _ _) rfl
      exact Frame.refl _ _

theorem tryCommit_frame : ∀ s wid, Frame [.counters, .rings, .comp, .colls, .ing] s (tryCommit s wid) := by
  intro s wid
  unfold tryCommit
  try dsimp only [onHost, onMb]
  split
  · try dsimp only
    exact Frame.refl _ _
  · try dsimp only
    refine Frame.ite ?_ ?_
    · refine Frame.ite ?_ ?_
      · refine Frame.then ?_ (postRefused_frame _ _ _) rfl
        exact Frame.refl _ _
      · exact Frame.refl _ _
    · refine Frame.ite ?_ ?_
      · exact Frame.refl _ _
      · refine Frame.ite ?_ ?_
        · refine Frame.then ?_ (takeRow_frame _ _) rfl
          exact Frame.refl _ _
        · refine Frame.then ?_ (postRefused_frame _ _ _) rfl
          refine Frame.then ?_ (finishWrite_frame _ _ _) rfl
          refine Frame.then ?_ (bump_frame _ _ _) rfl
          refine Frame.then ?_ (commitEffect_frame _ _) rfl
          exact Frame.refl _ _

theorem strmPq_frame : ∀ s c v codes, Frame [.streams] s (strmPq s c v codes) := by
  intro s c v codes
  unfold strmPq
  try dsimp only [onHost, onMb]
  refine Frame.ite ?_ ?_
  · refine Frame.then ?_ (setStrm_frame _ _ _) rfl
    exact Frame.refl _ _
  · exact Frame.refl _ _

theorem convertOne_frame : ∀ c batch s p, Frame [.counters, .streams] s (convertOne c batch s p).1 := by
  intro c batch s p
  unfold convertOne
  try dsimp only [onHost, onMb]
  refine Frame.ite1 ?_ ?_
  · try dsimp only
    exact Frame.refl _ _
  · try dsimp only
    refine Frame.then ?_ (strmPq_frame _ _ _ _) rfl
    refine Frame.then ?_ (strmSat_frame _ _ _) rfl
    refine Frame.then ?_ (strmConv_frame _ _ _ _ _ _) rfl
    exact Frame.refl _ _

theorem reportStale_frame : ∀ s key silent, Frame [.counters, .ledger] s (reportStale s key silent) := by
  intro s key silent
  unfold reportStale
  try dsimp only [onHost, onMb]
  refine Frame.then ?_ (bump_frame _ _ _) rfl
  refine Frame.then ?_ (ledgerRequest_frame _ _) rfl
  exact Frame.refl _ _

theorem startRebuild_frame : ∀ s c sh primary replica n, Frame [.ing] s (startRebuild s c sh primary replica n) := by
  intro s c sh primary replica n
  unfold startRebuild
  try dsimp only [onHost, onMb]
  refine Frame.then ?_ frame_set_ing rfl
  exact Frame.refl _ _

theorem execDirectoryRebuildComplete_frame : ∀ coll shard s t, execDirectoryRebuildComplete coll shard s = .next t → Frame [.counters, .queues, .rings, .ing, .errorLog] s t := by
  intro coll shard s t h
  unfold execDirectoryRebuildComplete at h
  injection h with h
  subst h
  try dsimp only [onHost, onMb]
  split
  · try dsimp only
    exact Frame.refl _ _
  · try dsimp only
    refine Frame.ite ?_ ?_
    · refine Frame.then ?_ (postEvent_frame _ _ _) rfl
      refine Frame.then ?_ frame_set_ing rfl
      exact Frame.refl _ _
    · exact Frame.refl _ _

theorem stageWrite_frame : ∀ s w1, Frame [.ing, .fab] s (stageWrite s w1) := by
  intro s w1
  unfold stageWrite
  try dsimp only [onHost, onMb]
  refine Frame.then ?_ (onWrite_frame _ _ _) rfl
  refine Frame.then ?_ (sendAll_frame _ _ _) rfl
  exact Frame.refl _ _

theorem doAckExpiry_frame : ∀ s wid, Frame [.counters, .rings, .comp, .colls, .ing, .fab, .ledger] s (doAckExpiry s wid) := by
  intro s wid
  unfold doAckExpiry
  try dsimp only [onHost, onMb]
  split
  · try dsimp only
    exact Frame.refl _ _
  · try dsimp only
    refine Frame.ite ?_ ?_
    · exact Frame.refl _ _
    · refine Frame.ite ?_ ?_
      · refine Frame.then ?_ (tryCommit_frame _ _) rfl
        refine Frame.then ?_ (onWrite_frame _ _ _) rfl
        refine Frame.then ?_ (reportStale_frame _ _ _) rfl
        exact Frame.refl _ _
      · refine Frame.ite ?_ ?_
        · refine Frame.then ?_ (tryCommit_frame _ _) rfl
          refine Frame.then ?_ (onWrite_frame _ _ _) rfl
          refine Frame.then ?_ (commitRec_frame _ _ _) rfl
          exact Frame.refl _ _
        · refine Frame.then ?_ (bump_frame _ _ _) rfl
          generalize hg : getWrite (onWrite _ _ _) wid = g
          cases g with
          | none =>
            refine Frame.then ?_ (onWrite_frame _ _ _) rfl
            exact Frame.then (Frame.then (Frame.refl _ _) (commitRec_frame _ _ _) rfl) frame_set_ing rfl
          | some g =>
            refine Frame.then ?_ (stageWrite_frame _ _) rfl
            refine Frame.then ?_ (onWrite_frame _ _ _) rfl
            exact Frame.then (Frame.then (Frame.refl _ _) (commitRec_frame _ _ _) rfl) frame_set_ing rfl

theorem execIngestCommit_frame : ∀ wid s t, execIngestCommit wid s = .next t → Frame [.counters, .rings, .comp, .colls, .ing] s t := by
  intro wid s t h
  unfold execIngestCommit at h
  injection h with h
  subst h
  try dsimp only [onHost, onMb]
  refine Frame.ite ?_ ?_
  · refine Frame.then ?_ (tryCommit_frame _ _) rfl
    exact Frame.refl _ _
  · exact Frame.refl _ _

theorem takeUp_frame : ∀ s op wid, Frame [.counters, .comp, .ing, .fab] s (takeUp s op wid) := by
  intro s op wid
  unfold takeUp
  try dsimp only [onHost, onMb]
  split
  · try dsimp only
    exact Frame.refl _ _
  · try dsimp only
    refine Frame.ite ?_ ?_
    · exact Frame.refl _ _
    · refine Frame.ite ?_ ?_
      · refine Frame.then ?_ (bump_frame _ _ _) rfl
        refine Frame.then ?_ (onWrite_frame _ _ _) rfl
        exact Frame.refl _ _
      · split
        · try dsimp only
          refine Frame.then ?_ (onWrite_frame _ _ _) rfl
          exact Frame.refl _ _
        · try dsimp only
          refine Frame.then ?_ (takeRow_frame _ _) rfl
          exact Frame.refl _ _
        · try dsimp only
          refine Frame.then ?_ (onWrite_frame _ _ _) rfl
          exact Frame.refl _ _
        · try dsimp only
          refine Frame.then ?_ (stageWrite_frame _ _) rfl
          exact Frame.refl _ _

theorem execUpsert_frame : ∀ wid s t, execUpsert wid s = .next t → Frame [.counters, .comp, .ing, .fab] s t := by
  intro wid s t h
  unfold execUpsert at h
  injection h with h
  subst h
  try dsimp only [onHost, onMb]
  refine Frame.then ?_ (takeUp_frame _ _ _) rfl
  exact Frame.refl _ _

theorem execDirectoryOrdering_frame : ∀ coll shard turn s t, execDirectoryOrdering coll shard turn s = .next t → Frame [.counters, .ing, .fab] s t := by
  intro coll shard turn s t h
  unfold execDirectoryOrdering at h
  injection h with h
  subst h
  try dsimp only [onHost, onMb]
  refine Frame.then ?_ (doOrdering_frame _ _ _ _) rfl
  exact Frame.refl _ _

theorem execInsert_frame : ∀ wid s t, execInsert wid s = .next t → Frame [.counters, .comp, .ing, .fab] s t := by
  intro wid s t h
  unfold execInsert at h
  injection h with h
  subst h
  try dsimp only [onHost, onMb]
  refine Frame.then ?_ (takeUp_frame _ _ _) rfl
  exact Frame.refl _ _

theorem execAckWaitExpiry_frame : ∀ wid s t, execAckWaitExpiry wid s = .next t → Frame [.counters, .rings, .comp, .colls, .ing, .fab, .ledger] s t := by
  intro wid s t h
  unfold execAckWaitExpiry at h
  injection h with h
  subst h
  try dsimp only [onHost, onMb]
  refine Frame.ite ?_ ?_
  · refine Frame.then ?_ (doAckExpiry_frame _ _) rfl
    exact Frame.refl _ _
  · exact Frame.refl _ _

theorem execTableVersionSwitch_frame : ∀ table s t, execTableVersionSwitch table s = .next t → Frame [.objs, .counters, .comp, .ing, .flash] s t := by
  intro table s t h
  unfold execTableVersionSwitch at h
  injection h with h
  subst h
  try dsimp only [onHost, onMb]
  refine Frame.ite ?_ ?_
  · refine Frame.foldl ?_ ?_
    · refine Frame.then ?_ (switchTable_frame _ _) rfl
      exact Frame.refl _ _
    · intro _ _
      try dsimp only
      split
      · try dsimp only
        exact Frame.refl _ _
      · try dsimp only
        refine Frame.then ?_ (takeRow_frame _ _) rfl
        exact Frame.refl _ _
  · exact Frame.refl _ _

theorem execGroupPromotionComplete_frame : ∀ table group s t, execGroupPromotionComplete table group s = .next t → Frame [.counters, .rings, .comp, .colls, .ing] s t := by
  intro table group s t h
  unfold execGroupPromotionComplete at h
  injection h with h
  subst h
  try dsimp only [onHost, onMb]
  split
  · try dsimp only
    exact Frame.refl _ _
  · try dsimp only
    refine Frame.ite ?_ ?_
    · exact Frame.refl _ _
    · refine Frame.foldl ?_ ?_
      · refine Frame.foldl ?_ ?_
        · refine Frame.then ?_ (onGroup_frame _ _ _ _) rfl
          exact Frame.refl _ _
        · intro _ _
          try dsimp only
          refine Frame.then ?_ (onWrite_frame _ _ _) rfl
          exact Frame.refl _ _
      · intro _ _
        try dsimp only
        refine Frame.then ?_ (tryCommit_frame _ _) rfl
        exact Frame.refl _ _

theorem execDelete_frame : ∀ wid s t, execDelete wid s = .next t → Frame [.counters, .comp, .ing, .fab] s t := by
  intro wid s t h
  unfold execDelete at h
  injection h with h
  subst h
  try dsimp only [onHost, onMb]
  refine Frame.then ?_ (takeUp_frame _ _ _) rfl
  exact Frame.refl _ _

theorem execIngestNop_frame : ∀ wid s t, execIngestNop wid s = .next t → Frame [.counters, .comp, .ing, .fab] s t := by
  intro wid s t h
  unfold execIngestNop at h
  injection h with h
  subst h
  try dsimp only [onHost, onMb]
  refine Frame.then ?_ (takeUp_frame _ _ _) rfl
  exact Frame.refl _ _

end Sys2Proof.Machine
end

