-- ==== Sys2Proof/Laws/FrameAdmission.lean ====
section
/-! SUPPORT. Which parts of the state the functions of Machine/Admission.lean may change. -/

set_option maxRecDepth 4000

namespace Sys2Proof.Machine

open Sys2Proof

theorem takeEntry_frame : ∀ s qn, Frame [.queues, .rings] s (takeEntry s qn) := by
  intro s qn
  unfold takeEntry
  try dsimp only [onHost, onMb]
  refine Frame.then ?_ frame_set_host_fetched rfl
  refine Frame.then ?_ (setQ_frame _ _ _) rfl
  refine Frame.then ?_ (setQ_frame _ _ _) rfl
  exact Frame.refl _ _

theorem refuseIngest_frame : ∀ a qn q tag st, Frame [.queues, .rings] a.s (refuseIngest a qn q tag st).s := by
  intro a qn q tag st
  unfold refuseIngest
  try dsimp only [onHost, onMb]
  try dsimp only
  refine Frame.then ?_ (takeEntry_frame _ _) rfl
  exact Frame.refl _ _

theorem countColour_frame : ∀ s c, Frame [.counters] s (countColour s c) := by
  intro s c
  unfold countColour
  try dsimp only [onHost, onMb]
  split
  · try dsimp only
    refine Frame.then ?_ (bump_frame _ _ _) rfl
    exact Frame.refl _ _
  · try dsimp only
    refine Frame.then ?_ (bump_frame _ _ _) rfl
    exact Frame.refl _ _
  · try dsimp only
    refine Frame.then ?_ (bump_frame _ _ _) rfl
    exact Frame.refl _ _

theorem acceptIngest_frame : ∀ a qn k w1 p, Frame [.counters, .queues, .rings, .turnMisc, .adm, .fab] a.s (acceptIngest a qn k w1 p).s := by
  intro a qn k w1 p
  unfold acceptIngest
  try dsimp only [onHost, onMb]
  try dsimp only
  refine Frame.then ?_ (takeEntry_frame _ _) rfl
  refine Frame.ite ?_ ?_
  · refine Frame.foldl ?_ ?_
    · refine Frame.then ?_ frame_set_turn_yellowI_turn_takenI rfl
      refine Frame.then ?_ (debit_frame _ _ _) rfl
      refine Frame.then ?_ (debit_frame _ _ _) rfl
      refine Frame.then ?_ (countColour_frame _ _) rfl
      exact Frame.refl _ _
    · intro _ _
      try dsimp only
      refine Frame.then ?_ (useGrant_frame _ _ _ _) rfl
      exact Frame.refl _ _
  · refine Frame.then ?_ frame_set_turn_yellowI_turn_takenI rfl
    refine Frame.then ?_ (debit_frame _ _ _) rfl
    refine Frame.then ?_ (debit_frame _ _ _) rfl
    refine Frame.then ?_ (countColour_frame _ _) rfl
    exact Frame.refl _ _

theorem offerVector_frame : ∀ a qn k w1 attr tag, Frame [.counters, .queues, .rings, .turnMisc, .adm, .fab] a.s (offerVector a qn k w1 attr tag).1.s := by
  intro a qn k w1 attr tag
  unfold offerVector
  try dsimp only [onHost, onMb]
  refine Frame.iteA1 ?_ ?_
  · try dsimp only
    exact Frame.refl _ _
  · refine Frame.iteA1 ?_ ?_
    · try dsimp only
      refine Frame.then ?_ (acceptIngest_frame _ _ _ _ _) rfl
      exact Frame.refl _ _
    · split
      · try dsimp only
        try dsimp only
        exact Frame.refl _ _
      · try dsimp only
        refine Frame.iteA1 ?_ ?_
        · try dsimp only
          exact Frame.refl _ _
        · try dsimp only
          refine Frame.then ?_ (acceptIngest_frame _ _ _ _ _) rfl
          exact Frame.refl _ _

theorem handIngest_frame : ∀ news s x1, Frame [.counters, .streams, .ing] s (handIngest news s x1) := by
  intro news s x1
  unfold handIngest
  try dsimp only [onHost, onMb]
  refine Frame.then ?_ frame_set_ing rfl
  split
  · try dsimp only
    refine Frame.then ?_ (convertOne_frame _ _ _ _) rfl
    exact Frame.refl _ _
  · try dsimp only
    try dsimp only
    exact Frame.refl _ _

theorem handAll_frame : ∀ s news, Frame [.counters, .rings, .streams, .ing] s (handAll s news) := by
  intro s news
  unfold handAll
  try dsimp only [onHost, onMb]
  refine Frame.foldl ?_ ?_
  · refine Frame.foldl ?_ ?_
    · exact Frame.refl _ _
    · intro _ _
      try dsimp only
      refine Frame.then ?_ (handIngest_frame _ _ _) rfl
      exact Frame.refl _ _
  · intro _ _
    try dsimp only
    refine Frame.then ?_ (postRefused_frame _ _ _) rfl
    exact Frame.refl _ _

theorem holdAll_frame : ∀ s qs, Frame [.counters] s (holdAll s qs) := by
  intro s qs
  unfold holdAll
  try dsimp only [onHost, onMb]
  refine Frame.foldl ?_ ?_
  · exact Frame.refl _ _
  · intro _ _
    try dsimp only
    refine Frame.then ?_ (bump_frame _ _ _) rfl
    exact Frame.refl _ _

theorem answerNow_frame : ∀ s qn q e st yellow, Frame [.queues, .rings] s (answerNow s qn q e st yellow) := by
  intro s qn q e st yellow
  unfold answerNow
  try dsimp only [onHost, onMb]
  refine Frame.then ?_ (postResult_frame _ _) rfl
  refine Frame.then ?_ (takeEntry_frame _ _) rfl
  exact Frame.refl _ _

theorem failFetch_frame : ∀ a qn f, Frame [.counters, .hostRegs, .queues, .rings, .errorLog] a.s (failFetch a qn f).s := by
  intro a qn f
  unfold failFetch
  try dsimp only [onHost, onMb]
  split
  · try dsimp only
    try dsimp only
    refine Frame.then ?_ (answerNow_frame _ _ _ _ _ _) rfl
    refine Frame.then ?_ (bump_frame _ _ _) rfl
    refine Frame.then ?_ (postEvent_frame _ _ _) rfl
    refine Frame.then ?_ frame_set_host_fetchErrors rfl
    exact Frame.refl _ _
  · try dsimp only
    try dsimp only
    refine Frame.then ?_ (postResult_frame _ _) rfl
    refine Frame.then ?_ (takeEntry_frame _ _) rfl
    refine Frame.then ?_ (postEvent_frame _ _ _) rfl
    refine Frame.then ?_ frame_set_host_fetchErrors rfl
    exact Frame.refl _ _
  · try dsimp only
    refine Frame.then ?_ (refuseIngest_frame _ _ _ _ _) rfl
    try dsimp only
    refine Frame.then ?_ (postEvent_frame _ _ _) rfl
    refine Frame.then ?_ frame_set_host_fetchErrors rfl
    exact Frame.refl _ _
  · try dsimp only
    refine Frame.then ?_ (refuseIngest_frame _ _ _ _ _) rfl
    try dsimp only
    refine Frame.then ?_ (postEvent_frame _ _ _) rfl
    refine Frame.then ?_ frame_set_host_fetchErrors rfl
    exact Frame.refl _ _

theorem offerRow_frame : ∀ a qn t1 k w1, Frame [.counters, .queues, .rings, .turnMisc, .adm, .comp, .fab] a.s (offerRow a qn t1 k w1).1.s := by
  intro a qn t1 k w1
  unfold offerRow
  try dsimp only [onHost, onMb]
  split
  · try dsimp only
    try dsimp only
    refine Frame.then ?_ (acceptIngest_frame _ _ _ _ _) rfl
    exact Frame.refl _ _
  · try dsimp only
    try dsimp only
    refine Frame.then ?_ (acceptIngest_frame _ _ _ _ _) rfl
    try dsimp only
    refine Frame.ite ?_ ?_
    · refine Frame.then ?_ (bump_frame _ _ _) rfl
      refine Frame.then ?_ (cancelDemotion_frame _ _ _) rfl
      exact Frame.refl _ _
    · refine Frame.then ?_ (cancelDemotion_frame _ _ _) rfl
      exact Frame.refl _ _

theorem offerIngest_frame : ∀ a qn b payload, Frame [.counters, .queues, .rings, .turnMisc, .adm, .comp, .fab] a.s (offerIngest a qn b payload).1.s := by
  intro a qn b payload
  unfold offerIngest
  try dsimp only [onHost, onMb]
  refine Frame.iteA1 ?_ ?_
  · try dsimp only
    try dsimp only
    refine Frame.then ?_ (bump_frame _ _ _) rfl
    exact Frame.refl _ _
  · refine Frame.iteA1 ?_ ?_
    · try dsimp only
      try dsimp only
      refine Frame.then ?_ (bump_frame _ _ _) rfl
      exact Frame.refl _ _
    · refine Frame.iteA1 ?_ ?_
      · try dsimp only
        refine Frame.then ?_ (refuseIngest_frame _ _ _ _ _) rfl
        try dsimp only
        refine Frame.then ?_ (bump_frame _ _ _) rfl
        exact Frame.refl _ _
      · refine Frame.iteA1 ?_ ?_
        · try dsimp only
          refine Frame.then ?_ (refuseIngest_frame _ _ _ _ _) rfl
          try dsimp only
          refine Frame.then ?_ (countColour_frame _ _) rfl
          exact Frame.refl _ _
        · refine Frame.iteA1 ?_ ?_
          · try dsimp only
            try dsimp only
            refine Frame.then ?_ (bump_frame _ _ _) rfl
            exact Frame.refl _ _
          · refine Frame.iteA1 ?_ ?_
            · try dsimp only
              try dsimp only
              refine Frame.then ?_ (bump_frame _ _ _) rfl
              exact Frame.refl _ _
            · refine Frame.iteA1 ?_ ?_
              · try dsimp only
                refine Frame.then ?_ (acceptIngest_frame _ _ _ _ _) rfl
                exact Frame.refl _ _
              · refine Frame.iteA1 ?_ ?_
                · try dsimp only
                  refine Frame.then ?_ (acceptIngest_frame _ _ _ _ _) rfl
                  exact Frame.refl _ _
                · generalize writeOf _ _ _ _ _ = wr
                  refine Frame.iteA1 ?_ (Frame.then (Frame.refl _ _) (bump_frame _ _ _) rfl)
                  split
                  · exact Frame.then (Frame.refl _ _) (offerRow_frame _ _ _ _ _) rfl
                  · exact Frame.then (Frame.refl _ _) (offerVector_frame _ _ _ _ _ _) rfl

theorem debitQuery_frame : ∀ s qn c k, Frame [.adm] s (debitQuery s qn c k) := by
  intro s qn c k
  unfold debitQuery
  try dsimp only [onHost, onMb]
  refine Frame.then ?_ (debit_frame _ _ _) rfl
  refine Frame.then ?_ (debit_frame _ _ _) rfl
  refine Frame.then ?_ (debit_frame _ _ _) rfl
  exact Frame.refl _ _

theorem holdPath_frame : ∀ s x1, Frame [.turnMisc] s (holdPath s x1) := by
  intro s x1
  unfold holdPath
  try dsimp only [onHost, onMb]
  refine Frame.foldl ?_ ?_
  · refine Frame.then ?_ (crossBridge_frame _ _ _) rfl
    exact Frame.refl _ _
  · intro _ _
    try dsimp only
    refine Frame.then ?_ (holdAhead_frame _ _ _ _ _) rfl
    exact Frame.refl _ _

theorem admitQuery_frame : ∀ s qn q e k x1, Frame [.counters, .queues, .rings, .turnMisc, .adm, .comp, .queries] s (admitQuery s qn q e k x1) := by
  intro s qn q e k x1
  unfold admitQuery
  try dsimp only [onHost, onMb]
  refine Frame.ite ?_ ?_
  · refine Frame.then ?_ (answerNow_frame _ _ _ _ _ _) rfl
    refine Frame.then ?_ (bump_frame _ _ _) rfl
    refine Frame.then ?_ frame_set_turn_yellowQ_turn_takenQ_turn_gathersUsed rfl
    refine Frame.then ?_ (useStaged_frame _ _ _) rfl
    refine Frame.then ?_ (debitQuery_frame _ _ _ _) rfl
    refine Frame.then ?_ (countColour_frame _ _) rfl
    exact Frame.refl _ _
  · refine Frame.then ?_ frame_set_queries rfl
    refine Frame.then ?_ (takeEntry_frame _ _) rfl
    refine Frame.then ?_ (holdPath_frame _ _) rfl
    refine Frame.then ?_ frame_set_turn_yellowQ_turn_takenQ_turn_gathersUsed rfl
    refine Frame.then ?_ (useStaged_frame _ _ _) rfl
    refine Frame.then ?_ (debitQuery_frame _ _ _ _) rfl
    refine Frame.then ?_ (countColour_frame _ _) rfl
    exact Frame.refl _ _

theorem offerQuery_frame : ∀ s qn b payload, Frame [.counters, .queues, .rings, .turnMisc, .adm, .comp, .queries] s (offerQuery s qn b payload).1 := by
  intro s qn b payload
  unfold offerQuery
  try dsimp only [onHost, onMb]
  refine Frame.ite1 ?_ ?_
  · try dsimp only
    exact Frame.refl _ _
  · refine Frame.ite1 ?_ ?_
    · try dsimp only
      refine Frame.then ?_ (bump_frame _ _ _) rfl
      exact Frame.refl _ _
    · refine Frame.ite1 ?_ ?_
      · try dsimp only
        refine Frame.then ?_ (bump_frame _ _ _) rfl
        exact Frame.refl _ _
      · refine Frame.ite1 ?_ ?_
        · try dsimp only
          refine Frame.then ?_ (bump_frame _ _ _) rfl
          refine Frame.then ?_ (answerNow_frame _ _ _ _ _ _) rfl
          refine Frame.then ?_ (bump_frame _ _ _) rfl
          exact Frame.refl _ _
        · refine Frame.ite1 ?_ ?_
          · try dsimp only
            refine Frame.then ?_ (countColour_frame _ _) rfl
            refine Frame.then ?_ (answerNow_frame _ _ _ _ _ _) rfl
            refine Frame.then ?_ (bump_frame _ _ _) rfl
            exact Frame.refl _ _
          · split
            · try dsimp only
              try dsimp only
              refine Frame.then ?_ (bump_frame _ _ _) rfl
              exact Frame.refl _ _
            · try dsimp only
              try dsimp only
              refine Frame.then ?_ (admitQuery_frame _ _ _ _ _ _) rfl
              refine Frame.then ?_ (bump_frame _ _ _) rfl
              exact Frame.refl _ _

theorem offer_frame : ∀ a qn, Frame [.counters, .hostRegs, .queues, .rings, .turnMisc, .adm, .comp, .queries, .fab, .errorLog] a.s (offer a qn).1.s := by
  intro a qn
  unfold offer
  try dsimp only [onHost, onMb]
  refine Frame.iteA1 ?_ ?_
  · try dsimp only
    exact Frame.refl _ _
  · split
    · try dsimp only
      try dsimp only
      exact Frame.refl _ _
    · try dsimp only
      split
      · try dsimp only
        refine Frame.iteA1 ?_ ?_
        · refine Frame.then ?_ (offerIngest_frame _ _ _ _) rfl
          exact Frame.refl _ _
        · try dsimp only
          try dsimp only
          refine Frame.then ?_ (offerQuery_frame _ _ _ _) rfl
          exact Frame.refl _ _
      · try dsimp only
        refine Frame.iteA1 ?_ ?_
        · try dsimp only
          exact Frame.refl _ _
        · refine Frame.iteA1 ?_ ?_
          · try dsimp only
            refine Frame.then ?_ (failFetch_frame _ _ _) rfl
            exact Frame.refl _ _
          · try dsimp only
            try dsimp only
            refine Frame.then ?_ (bump_frame _ _ _) rfl
            exact Frame.refl _ _

theorem oneRound_frame : ∀ a qs, Frame [.counters, .hostRegs, .queues, .rings, .turnMisc, .adm, .comp, .queries, .fab, .errorLog] a.s (oneRound a qs).1.s := by
  intro a qs
  unfold oneRound
  try dsimp only [onHost, onMb]
  refine Frame.foldlA1 ?_ ?_
  · try dsimp only
    exact Frame.refl _ _
  · intro _ _
    try dsimp only
    try dsimp only
    refine Frame.then ?_ (offer_frame _ _) rfl
    exact Frame.refl _ _

theorem rounds_frame : ∀ n qs a, Frame [.counters, .hostRegs, .queues, .rings, .turnMisc, .adm, .comp, .queries, .fab, .errorLog] a.s (rounds n qs a).s := by
  intro n
  induction n with
  | zero => intro qs a; exact Frame.refl _ _
  | succ n ih =>
    intro qs a
    cases qs with
    | nil => exact Frame.refl _ _
    | cons q qs => exact Frame.then (Frame.then (Frame.refl _ _) (oneRound_frame _ _) rfl) (ih _ _) rfl

theorem doAdmission_frame : ∀ s, Frame [.counters, .hostRegs, .queues, .rings, .turnMisc, .adm, .comp, .streams, .queries, .ing, .fab, .errorLog] s (doAdmission s) := by
  intro s
  unfold doAdmission
  try dsimp only [onHost, onMb]
  refine Frame.ite ?_ ?_
  · refine Frame.then ?_ frame_set_turn_admitted rfl
    exact Frame.refl _ _
  · refine Frame.then ?_ (handAll_frame _ _) rfl
    refine Frame.then ?_ (rounds_frame _ _ _) rfl
    try dsimp only
    refine Frame.then ?_ (holdAll_frame _ _) rfl
    refine Frame.then ?_ frame_set_turn_admitted rfl
    exact Frame.refl _ _

theorem execEntryAdmission_frame : ∀ s t, execEntryAdmission s = .next t → Frame [.counters, .hostRegs, .queues, .rings, .turnMisc, .adm, .comp, .streams, .queries, .ing, .fab, .errorLog] s t := by
  intro s t h
  unfold execEntryAdmission at h
  injection h with h
  subst h
  try dsimp only [onHost, onMb]
  refine Frame.ite ?_ ?_
  · refine Frame.then ?_ (doAdmission_frame _) rfl
    exact Frame.refl _ _
  · exact Frame.refl _ _

end Sys2Proof.Machine
end

