-- ==== Sys2Proof/Laws/FrameBarriers.lean ====
section
/-! SUPPORT. Which parts of the state the functions of Machine/Barriers.lean may change. -/

set_option maxRecDepth 4000

namespace Sys2Proof.Machine

open Sys2Proof

theorem barrierSend_frame : ∀ s dsts kind n gen cause, Frame [.out] s (barrierSend s dsts kind n gen cause) := by
  intro s dsts kind n gen cause
  unfold barrierSend
  try dsimp only [onHost, onMb]
  refine Frame.foldl ?_ ?_
  · exact Frame.refl _ _
  · intro _ _
    try dsimp only
    refine Frame.then ?_ (emit_frame _ _) rfl
    exact Frame.refl _ _

theorem beginGen_frame : ∀ s n, Frame [.out] s (beginGen s n) := by
  intro s n
  unfold beginGen
  try dsimp only [onHost, onMb]
  refine Frame.ite ?_ ?_
  · refine Frame.then ?_ (barrierSend_frame _ _ _ _ _ _) rfl
    exact Frame.refl _ _
  · exact Frame.refl _ _

theorem setBslot_frame : ∀ s n v, Frame [.bslots] s (setBslot s n v) := by
  intro s n v
  unfold setBslot
  try dsimp only [onHost, onMb]
  refine Frame.then ?_ frame_set_bslots rfl
  exact Frame.refl _ _

theorem applyBslotEnable_frame : ∀ s n v, Frame [.objs, .bslots, .out] s (applyBslotEnable s n v) := by
  intro s n v
  unfold applyBslotEnable
  try dsimp only [onHost, onMb]
  refine Frame.ite ?_ ?_
  · refine Frame.ite ?_ ?_
    · refine Frame.then ?_ (beginGen_frame _ _) rfl
      refine Frame.then ?_ (setBslot_frame _ _ _) rfl
      refine Frame.then ?_ (setObj_frame _ _ _) rfl
      exact Frame.refl _ _
    · refine Frame.then ?_ (setObj_frame _ _ _) rfl
      exact Frame.refl _ _
  · refine Frame.then ?_ (setBslot_frame _ _ _) rfl
    refine Frame.then ?_ (setObj_frame _ _ _) rfl
    exact Frame.refl _ _

theorem clearSlot_frame : ∀ s n, Frame [.bslots, .out] s (clearSlot s n) := by
  intro s n
  unfold clearSlot
  try dsimp only [onHost, onMb]
  refine Frame.ite ?_ ?_
  · refine Frame.then ?_ (beginGen_frame _ _) rfl
    refine Frame.then ?_ (setBslot_frame _ _ _) rfl
    exact Frame.refl _ _
  · refine Frame.then ?_ (setBslot_frame _ _ _) rfl
    exact Frame.refl _ _

theorem releaseSlot_frame : ∀ s n, Frame [.counters, .bslots, .out] s (releaseSlot s n) := by
  intro s n
  unfold releaseSlot
  try dsimp only [onHost, onMb]
  refine Frame.then ?_ (beginGen_frame _ _) rfl
  refine Frame.then ?_ (bump_frame _ _ _) rfl
  refine Frame.then ?_ (setBslot_frame _ _ _) rfl
  exact Frame.refl _ _

theorem execReleaseMessage_frame : ∀ src slot gen s t, execReleaseMessage src slot gen s = .next t → Frame [.counters, .bslots, .out] s t := by
  intro src slot gen s t h
  unfold execReleaseMessage at h
  injection h with h
  subst h
  try dsimp only [onHost, onMb]
  refine Frame.ite ?_ ?_
  · refine Frame.then ?_ (bump_frame _ _ _) rfl
    exact Frame.refl _ _
  · refine Frame.ite ?_ ?_
    · exact Frame.refl _ _
    · refine Frame.then ?_ (releaseSlot_frame _ _) rfl
      exact Frame.refl _ _

theorem clearsAtBoundary_frame : ∀ s n, Frame [.bslots, .out] s (clearsAtBoundary s n) := by
  intro s n
  unfold clearsAtBoundary
  try dsimp only [onHost, onMb]
  refine Frame.foldl ?_ ?_
  · exact Frame.refl _ _
  · intro _ _
    try dsimp only
    refine Frame.ite ?_ ?_
    · refine Frame.then ?_ (clearSlot_frame _ _) rfl
      exact Frame.refl _ _
    · exact Frame.refl _ _

theorem failSlot_frame : ∀ s n cause tell, Frame [.objs, .counters, .queues, .rings, .bslots, .errorLog, .out] s (failSlot s n cause tell) := by
  intro s n cause tell
  unfold failSlot
  try dsimp only [onHost, onMb]
  refine Frame.then ?_ (postEvent_frame _ _ _) rfl
  refine Frame.ite ?_ ?_
  · refine Frame.then ?_ (barrierSend_frame _ _ _ _ _ _) rfl
    refine Frame.then ?_ (bump_frame _ _ _) rfl
    refine Frame.then ?_ (setObj_frame _ _ _) rfl
    refine Frame.then ?_ (setBslot_frame _ _ _) rfl
    exact Frame.refl _ _
  · refine Frame.then ?_ (bump_frame _ _ _) rfl
    refine Frame.then ?_ (setObj_frame _ _ _) rfl
    refine Frame.then ?_ (setBslot_frame _ _ _) rfl
    exact Frame.refl _ _

theorem barrierLost_frame : ∀ s d, Frame [.objs, .counters, .queues, .rings, .bslots, .errorLog, .out] s (barrierLost s d) := by
  intro s d
  unfold barrierLost
  try dsimp only [onHost, onMb]
  refine Frame.foldl ?_ ?_
  · exact Frame.refl _ _
  · intro _ _
    try dsimp only
    refine Frame.ite ?_ ?_
    · refine Frame.then ?_ (failSlot_frame _ _ _ _) rfl
      exact Frame.refl _ _
    · exact Frame.refl _ _

theorem testSlot_frame : ∀ s n, Frame [.counters, .bslots, .out] s (testSlot s n) := by
  intro s n
  unfold testSlot
  try dsimp only [onHost, onMb]
  refine Frame.ite ?_ ?_
  · refine Frame.then ?_ (releaseSlot_frame _ _) rfl
    refine Frame.then ?_ (barrierSend_frame _ _ _ _ _ _) rfl
    exact Frame.refl _ _
  · exact Frame.refl _ _

theorem execArriveMessage_frame : ∀ src slot gen s t, execArriveMessage src slot gen s = .next t → Frame [.counters, .bslots, .out] s t := by
  intro src slot gen s t h
  unfold execArriveMessage at h
  injection h with h
  subst h
  try dsimp only [onHost, onMb]
  refine Frame.ite ?_ ?_
  · refine Frame.then ?_ (bump_frame _ _ _) rfl
    exact Frame.refl _ _
  · refine Frame.ite ?_ ?_
    · exact Frame.refl _ _
    · refine Frame.then ?_ (testSlot_frame _ _) rfl
      refine Frame.then ?_ (setBslot_frame _ _ _) rfl
      exact Frame.refl _ _

theorem execBarrierTimeout_frame : ∀ slot s t, execBarrierTimeout slot s = .next t → Frame [.objs, .counters, .queues, .rings, .bslots, .errorLog, .out] s t := by
  intro slot s t h
  unfold execBarrierTimeout at h
  injection h with h
  subst h
  try dsimp only [onHost, onMb]
  refine Frame.ite ?_ ?_
  · refine Frame.then ?_ (failSlot_frame _ _ _ _) rfl
    exact Frame.refl _ _
  · exact Frame.refl _ _

theorem doClear_frame : ∀ s n due, Frame [.bslots] s (doClear s n due) := by
  intro s n due
  unfold doClear
  try dsimp only [onHost, onMb]
  refine Frame.ite ?_ ?_
  · refine Frame.then ?_ (setBslot_frame _ _ _) rfl
    exact Frame.refl _ _
  · exact Frame.refl _ _

theorem execClear_frame : ∀ slot s t, execClear slot s = .next t → Frame [.bslots] s t := by
  intro slot s t h
  unfold execClear at h
  injection h with h
  subst h
  try dsimp only [onHost, onMb]
  refine Frame.then ?_ (doClear_frame _ _ _) rfl
  exact Frame.refl _ _

theorem afterArrival_frame : ∀ s n b, Frame [.counters, .bslots, .out] s (afterArrival s n b) := by
  intro s n b
  unfold afterArrival
  try dsimp only [onHost, onMb]
  refine Frame.ite ?_ ?_
  · refine Frame.then ?_ (barrierSend_frame _ _ _ _ _ _) rfl
    refine Frame.then ?_ (setBslot_frame _ _ _) rfl
    exact Frame.refl _ _
  · refine Frame.then ?_ (testSlot_frame _ _) rfl
    refine Frame.then ?_ (setBslot_frame _ _ _) rfl
    exact Frame.refl _ _

theorem execBslotArrive_frame : ∀ slot s t, execBslotArrive slot s = .next t → Frame [.counters, .bslots, .out] s t := by
  intro slot s t h
  unfold execBslotArrive at h
  injection h with h
  subst h
  try dsimp only [onHost, onMb]
  refine Frame.ite ?_ ?_
  · exact Frame.refl _ _
  · refine Frame.ite ?_ ?_
    · refine Frame.then ?_ (setBslot_frame _ _ _) rfl
      exact Frame.refl _ _
    · refine Frame.ite ?_ ?_
      · exact Frame.refl _ _
      · refine Frame.ite ?_ ?_
        · refine Frame.then ?_ (bump_frame _ _ _) rfl
          exact Frame.refl _ _
        · refine Frame.then ?_ (afterArrival_frame _ _ _) rfl
          exact Frame.refl _ _

theorem execArrive_frame : ∀ slot tile s t, execArrive slot tile s = .next t → Frame [.counters, .bslots, .out] s t := by
  intro slot tile s t h
  unfold execArrive at h
  injection h with h
  subst h
  try dsimp only [onHost, onMb]
  refine Frame.ite ?_ ?_
  · exact Frame.refl _ _
  · refine Frame.ite ?_ ?_
    · refine Frame.then ?_ (setBslot_frame _ _ _) rfl
      exact Frame.refl _ _
    · refine Frame.ite ?_ ?_
      · exact Frame.refl _ _
      · refine Frame.then ?_ (afterArrival_frame _ _ _) rfl
        exact Frame.refl _ _

theorem execAbortMessage_frame : ∀ src slot gen cause s t, execAbortMessage src slot gen cause s = .next t → Frame [.objs, .counters, .queues, .rings, .bslots, .errorLog, .out] s t := by
  intro src slot gen cause s t h
  unfold execAbortMessage at h
  injection h with h
  subst h
  try dsimp only [onHost, onMb]
  refine Frame.ite ?_ ?_
  · refine Frame.then ?_ (bump_frame _ _ _) rfl
    exact Frame.refl _ _
  · refine Frame.ite ?_ ?_
    · exact Frame.refl _ _
    · refine Frame.then ?_ (failSlot_frame _ _ _ _) rfl
      exact Frame.refl _ _

end Sys2Proof.Machine
end

