-- ==== Sys2Proof/Laws/FrameScratch.lean ====
section
/-! SUPPORT. Which parts of the state the functions of Machine/Scratch.lean may change. -/

set_option maxRecDepth 4000

namespace Sys2Proof.Machine

open Sys2Proof

theorem setScr_frame : ∀ s b v, Frame [.scrMisc] s (setScr s b v) := by
  intro s b v
  unfold setScr
  try dsimp only [onHost, onMb]
  refine Frame.then ?_ frame_set_scratch_banks rfl
  exact Frame.refl _ _

theorem ownerWrite_frame : ∀ s a d, Frame [.scrCells, .scrMisc] s (ownerWrite s a d) := by
  intro s a d
  unfold ownerWrite
  try dsimp only [onHost, onMb]
  refine Frame.ite ?_ ?_
  · refine Frame.then ?_ frame_set_scratch_cells_scratch_bad rfl
    exact Frame.refl _ _
  · refine Frame.then ?_ (setScr_frame _ _ _) rfl
    refine Frame.then ?_ frame_set_scratch_cells_scratch_bad rfl
    exact Frame.refl _ _

theorem foreign_frame : ∀ s b code write, Frame [.counters, .scrMisc] s (foreign s b code write) := by
  intro s b code write
  unfold foreign
  try dsimp only [onHost, onMb]
  refine Frame.then ?_ (bump_frame _ _ _) rfl
  refine Frame.then ?_ (bump_frame _ _ _) rfl
  refine Frame.then ?_ (setScr_frame _ _ _) rfl
  exact Frame.refl _ _

theorem failWork_frame : ∀ s work, Frame [.queries, .units] s (failWork s work) := by
  intro s work
  unfold failWork
  try dsimp only [onHost, onMb]
  split
  · try dsimp only
    exact Frame.refl _ _
  · try dsimp only
    refine Frame.ite ?_ ?_
    · refine Frame.then ?_ (markError_frame _ _) rfl
      refine Frame.then ?_ frame_set_units rfl
      exact Frame.refl _ _
    · refine Frame.then ?_ frame_set_units rfl
      exact Frame.refl _ _

theorem scrError_frame : ∀ s a work, Frame [.counters, .queues, .rings, .queries, .units, .errorLog, .out] s (scrError s a work) := by
  intro s a work
  unfold scrError
  try dsimp only [onHost, onMb]
  refine Frame.then ?_ (emit_frame _ _) rfl
  refine Frame.then ?_ (failWork_frame _ _) rfl
  refine Frame.then ?_ (postEvent_frame _ _ _) rfl
  exact Frame.refl _ _

theorem secded_frame : ∀ s word fault, Frame [.counters, .scrMisc] s (secded s word fault) := by
  intro s word fault
  unfold secded
  try dsimp only [onHost, onMb]
  refine Frame.ite ?_ ?_
  · exact Frame.refl _ _
  · refine Frame.ite ?_ ?_
    · refine Frame.then ?_ (bump_frame _ _ _) rfl
      exact Frame.refl _ _
    · refine Frame.ite ?_ ?_
      · exact Frame.refl _ _
      · refine Frame.then ?_ frame_set_scratch_bad rfl
        exact Frame.refl _ _

theorem atomic_frame : ∀ s w1 addr code fault work f, Frame [.counters, .queues, .rings, .queries, .units, .scrCells, .scrMisc, .errorLog, .out] s (atomic s w1 addr code fault work f) := by
  intro s w1 addr code fault work f
  unfold atomic
  try dsimp only [onHost, onMb]
  refine Frame.ite ?_ ?_
  · refine Frame.then ?_ (emit_frame _ _) rfl
    refine Frame.then ?_ (foreign_frame _ _ _ _) rfl
    exact Frame.refl _ _
  · refine Frame.ite ?_ ?_
    · refine Frame.then ?_ (scrError_frame _ _ _) rfl
      refine Frame.then ?_ (secded_frame _ _ _) rfl
      exact Frame.refl _ _
    · refine Frame.then ?_ (emit_frame _ _) rfl
      refine Frame.then ?_ (bump_frame _ _ _) rfl
      refine Frame.then ?_ frame_set_scratch_cells rfl
      refine Frame.then ?_ (secded_frame _ _ _) rfl
      exact Frame.refl _ _

theorem execSwap64_frame : ∀ addr operand code fault work s t, execSwap64 addr operand code fault work s = .next t → Frame [.counters, .queues, .rings, .queries, .units, .scrCells, .scrMisc, .errorLog, .out] s t := by
  intro addr operand code fault work s t h
  unfold execSwap64 at h
  injection h with h
  subst h
  try dsimp only [onHost, onMb]
  refine Frame.then ?_ (atomic_frame _ _ _ _ _ _ _) rfl
  exact Frame.refl _ _

theorem handOver_frame : ∀ s b code, Frame [.counters, .scrMisc] s (handOver s b code) := by
  intro s b code
  unfold handOver
  try dsimp only [onHost, onMb]
  refine Frame.ite ?_ ?_
  · exact Frame.refl _ _
  · refine Frame.then ?_ (bump_frame _ _ _) rfl
    refine Frame.then ?_ (setScr_frame _ _ _) rfl
    exact Frame.refl _ _

theorem execAdd64_frame : ∀ addr operand code fault work s t, execAdd64 addr operand code fault work s = .next t → Frame [.counters, .queues, .rings, .queries, .units, .scrCells, .scrMisc, .errorLog, .out] s t := by
  intro addr operand code fault work s t h
  unfold execAdd64 at h
  injection h with h
  subst h
  try dsimp only [onHost, onMb]
  refine Frame.then ?_ (atomic_frame _ _ _ _ _ _ _) rfl
  exact Frame.refl _ _

theorem latchOwners_frame : ∀ s n, Frame [.turnMisc, .scrMisc] s (latchOwners s n) := by
  intro s n
  unfold latchOwners
  try dsimp only [onHost, onMb]
  refine Frame.foldl ?_ ?_
  · exact Frame.refl _ _
  · intro _ _
    try dsimp only
    refine Frame.ite ?_ ?_
    · refine Frame.then ?_ (shadowPush_frame _ _) rfl
      refine Frame.then ?_ (setScr_frame _ _ _) rfl
      exact Frame.refl _ _
    · exact Frame.refl _ _

theorem doScratchWrite_frame : ∀ s addr data code fault, Frame [.counters, .scrCells, .scrMisc] s (doScratchWrite s addr data code fault) := by
  intro s addr data code fault
  unfold doScratchWrite
  try dsimp only [onHost, onMb]
  refine Frame.ite ?_ ?_
  · refine Frame.then ?_ (foreign_frame _ _ _ _) rfl
    exact Frame.refl _ _
  · refine Frame.then ?_ (ownerWrite_frame _ _ _) rfl
    refine Frame.then ?_ (secded_frame _ _ _) rfl
    exact Frame.refl _ _

theorem execAdd32_frame : ∀ addr operand code fault work s t, execAdd32 addr operand code fault work s = .next t → Frame [.counters, .queues, .rings, .queries, .units, .scrCells, .scrMisc, .errorLog, .out] s t := by
  intro addr operand code fault work s t h
  unfold execAdd32 at h
  injection h with h
  subst h
  try dsimp only [onHost, onMb]
  refine Frame.then ?_ (atomic_frame _ _ _ _ _ _ _) rfl
  exact Frame.refl _ _

theorem doScratchRead_frame : ∀ s addr len code fault work, Frame [.counters, .queues, .rings, .queries, .units, .scrMisc, .errorLog, .out] s (doScratchRead s addr len code fault work) := by
  intro s addr len code fault work
  unfold doScratchRead
  try dsimp only [onHost, onMb]
  refine Frame.ite ?_ ?_
  · refine Frame.then ?_ (emit_frame _ _) rfl
    refine Frame.then ?_ (foreign_frame _ _ _ _) rfl
    exact Frame.refl _ _
  · refine Frame.ite ?_ ?_
    · refine Frame.then ?_ (scrError_frame _ _ _) rfl
      refine Frame.then ?_ (secded_frame _ _ _) rfl
      exact Frame.refl _ _
    · refine Frame.then ?_ (emit_frame _ _) rfl
      refine Frame.then ?_ (secded_frame _ _ _) rfl
      exact Frame.refl _ _

theorem latchOwner_frame : ∀ s bank, Frame [.turnMisc, .scrMisc] s (latchOwner s bank) := by
  intro s bank
  unfold latchOwner
  try dsimp only [onHost, onMb]
  refine Frame.ite ?_ ?_
  · refine Frame.then ?_ (shadowPush_frame _ _) rfl
    refine Frame.then ?_ (setScr_frame _ _ _) rfl
    exact Frame.refl _ _
  · exact Frame.refl _ _

theorem execNextOwnerWrite_frame : ∀ bank code s t, execNextOwnerWrite bank code s = .next t → Frame [.turnMisc, .scrMisc] s t := by
  intro bank code s t h
  unfold execNextOwnerWrite at h
  dsimp only at h
  split at h
  · injection h with h
    subst h
    exact Frame.refl _ _
  · injection h with h
    subst h
    exact Frame.then (Frame.then (Frame.refl _ _) (latchOwner_frame _ _) rfl) (setScr_frame _ _ _) rfl

theorem execScratchRead_frame : ∀ addr len code fault work s t, execScratchRead addr len code fault work s = .next t → Frame [.counters, .queues, .rings, .queries, .units, .scrMisc, .errorLog, .out] s t := by
  intro addr len code fault work s t h
  unfold execScratchRead at h
  injection h with h
  subst h
  try dsimp only [onHost, onMb]
  refine Frame.then ?_ (doScratchRead_frame _ _ _ _ _ _) rfl
  exact Frame.refl _ _

theorem execSwap32_frame : ∀ addr operand code fault work s t, execSwap32 addr operand code fault work s = .next t → Frame [.counters, .queues, .rings, .queries, .units, .scrCells, .scrMisc, .errorLog, .out] s t := by
  intro addr operand code fault work s t h
  unfold execSwap32 at h
  injection h with h
  subst h
  try dsimp only [onHost, onMb]
  refine Frame.then ?_ (atomic_frame _ _ _ _ _ _ _) rfl
  exact Frame.refl _ _

theorem execScratchWrite_frame : ∀ addr data code fault s t, execScratchWrite addr data code fault s = .next t → Frame [.counters, .scrCells, .scrMisc] s t := by
  intro addr data code fault s t h
  unfold execScratchWrite at h
  injection h with h
  subst h
  try dsimp only [onHost, onMb]
  refine Frame.then ?_ (doScratchWrite_frame _ _ _ _ _) rfl
  exact Frame.refl _ _

end Sys2Proof.Machine
end

