-- ==== Sys2Proof/Laws/FrameClocks.lean ====
section
/-! SUPPORT. Which parts of the state the functions of Machine/Clocks.lean may change. -/

set_option maxRecDepth 4000

namespace Sys2Proof.Machine

open Sys2Proof

theorem doFmcStart_frame : ∀ s, Frame [.objs, .clk] s (doFmcStart s) := by
  intro s
  unfold doFmcStart
  try dsimp only [onHost, onMb]
  refine Frame.then ?_ (setObj_frame _ _ _) rfl
  refine Frame.then ?_ (setObj_frame _ _ _) rfl
  refine Frame.then ?_ frame_set_clk rfl
  exact Frame.refl _ _

theorem execThermalTrip_frame : ∀ s t, execThermalTrip s = .next t → Frame [.errorLog, .clk, .out, .free] s t := by
  intro s t h
  unfold execThermalTrip at h
  injection h with h
  subst h
  try dsimp only [onHost, onMb]
  refine Frame.ite ?_ ?_
  · exact Frame.refl _ _
  · refine Frame.then ?_ (emit_frame _ _) rfl
    refine Frame.then ?_ frame_set_clk rfl
    refine Frame.then ?_ (logEvent_frame _ _) rfl
    refine Frame.then ?_ (drawFree_frame _) rfl
    refine Frame.then ?_ (drawFree_frame _) rfl
    exact Frame.refl _ _

theorem endStep_frame : ∀ s n ms, Frame [.clk] s (endStep s n ms) := by
  intro s n ms
  unfold endStep
  try dsimp only [onHost, onMb]
  refine Frame.then ?_ frame_set_clk rfl
  exact Frame.refl _ _

theorem startFirmware_frame : ∀ s b svn ms, Frame [.dictMisc, .sec, .clk] s (startFirmware s b svn ms) := by
  intro s b svn ms
  unfold startFirmware
  try dsimp only [onHost, onMb]
  refine Frame.then ?_ frame_set_dict_served_sec_clk rfl
  refine Frame.then ?_ (endStep_frame _ _ _) rfl
  exact Frame.refl _ _

theorem publishPower_frame : ∀ s q, Frame [.objs, .clk] s (publishPower s q) := by
  intro s q
  unfold publishPower
  try dsimp only [onHost, onMb]
  refine Frame.then ?_ frame_set_clk rfl
  refine Frame.foldl ?_ ?_
  · refine Frame.then ?_ (setObj_frame _ _ _) rfl
    exact Frame.refl _ _
  · intro _ _
    try dsimp only
    refine Frame.then ?_ (setObj_frame _ _ _) rfl
    exact Frame.refl _ _

theorem publishTemps_frame : ∀ s, Frame [.objs] s (publishTemps s) := by
  intro s
  unfold publishTemps
  try dsimp only [onHost, onMb]
  refine Frame.foldl ?_ ?_
  · refine Frame.then ?_ (setObj_frame _ _ _) rfl
    refine Frame.then ?_ (setObj_frame _ _ _) rfl
    refine Frame.then ?_ (setObj_frame _ _ _) rfl
    exact Frame.refl _ _
  · intro _ _
    try dsimp only
    refine Frame.then ?_ (setObj_frame _ _ _) rfl
    exact Frame.refl _ _

theorem readingsAtBoundary_frame : ∀ s n, Frame [.objs, .clk] s (readingsAtBoundary s n) := by
  intro s n
  unfold readingsAtBoundary
  try dsimp only [onHost, onMb]
  refine Frame.ite ?_ ?_
  · exact Frame.refl _ _
  · refine Frame.then ?_ (publishTemps_frame _) rfl
    refine Frame.ite ?_ ?_
    · exact Frame.refl _ _
    · refine Frame.then ?_ (publishPower_frame _ _) rfl
      exact Frame.refl _ _

theorem recordFail_frame : ∀ s units, Frame [.ras] s (recordFail s units) := by
  intro s units
  unfold recordFail
  try dsimp only [onHost, onMb]
  refine Frame.then ?_ frame_set_ras rfl
  exact Frame.refl _ _

theorem retireBank_frame : ∀ s b, Frame [.scrMisc] s (retireBank s b) := by
  intro s b
  unfold retireBank
  try dsimp only [onHost, onMb]
  refine Frame.then ?_ (setScr_frame _ _ _) rfl
  exact Frame.refl _ _

theorem hostLinkDown_frame : ∀ s, Frame [.link] s (hostLinkDown s) := by
  intro s
  unfold hostLinkDown
  try dsimp only [onHost, onMb]
  refine Frame.then ?_ frame_set_host_linkUp rfl
  exact Frame.refl _ _

theorem loseSource_frame : ∀ s src, Frame [.objs, .counters, .link, .queues, .rings, .turnMisc, .fab, .ledger, .errorLog, .clk, .out] s (loseSource s src) := by
  intro s src
  unfold loseSource
  try dsimp only [onHost, onMb]
  split
  · try dsimp only
    refine Frame.then ?_ (withdrawSoon_frame _) rfl
    refine Frame.then ?_ frame_set_clk rfl
    exact Frame.refl _ _
  · try dsimp only
    refine Frame.then ?_ (hostLinkDown_frame _) rfl
    refine Frame.then ?_ frame_set_clk rfl
    exact Frame.refl _ _
  · try dsimp only
    refine Frame.then ?_ (withdrawSoon_frame _) rfl
    refine Frame.foldl ?_ ?_
    · refine Frame.then ?_ frame_set_clk rfl
      exact Frame.refl _ _
    · intro _ _
      try dsimp only
      refine Frame.ite ?_ ?_
      · refine Frame.then ?_ (portDown_frame _ _ _) rfl
        exact Frame.refl _ _
      · exact Frame.refl _ _
  · try dsimp only
    refine Frame.then ?_ frame_set_clk rfl
    exact Frame.refl _ _

theorem declare_frame : ∀ s, Frame [.objs, .counters, .link, .queues, .rings, .turnMisc, .fab, .ledger, .errorLog, .clk, .out] s (declare s) := by
  intro s
  unfold declare
  try dsimp only [onHost, onMb]
  refine Frame.foldl ?_ ?_
  · refine Frame.foldl ?_ ?_
    · exact Frame.refl _ _
    · intro _ _
      try dsimp only
      refine Frame.then ?_ (loseSource_frame _ _) rfl
      exact Frame.refl _ _
  · intro _ _
    try dsimp only
    refine Frame.then ?_ (setObj_frame _ _ _) rfl
    refine Frame.then ?_ (postEvent_frame _ _ _) rfl
    exact Frame.refl _ _

theorem doReady_frame : ∀ s ms, Frame [.dictMisc, .tenancy, .errorLog, .nvMisc, .clk] s (doReady s ms) := by
  intro s ms
  unfold doReady
  try dsimp only [onHost, onMb]
  refine Frame.then ?_ frame_set_dict_readyObj_and_5_more rfl
  refine Frame.ite ?_ ?_
  · refine Frame.then ?_ (logEvent_frame _ _) rfl
    exact Frame.refl _ _
  · exact Frame.refl _ _

theorem volatileLost_frame : ∀ s, Frame [.objs, .doms, .counters, .txns, .mailbox, .dictMisc, .link, .hostRegs, .queues, .rings, .doe, .turnNo, .phase, .boards, .turnMisc, .adm, .comp, .images, .remotes, .acts, .streams, .remoteStats, .colls, .lists, .queries, .units, .nextUnit, .smemCells, .smemMisc, .way, .ing, .place, .scrCells, .scrMisc, .flash, .fab, .ledger, .bslots, .nvMisc, .sec, .ras, .clk] s (volatileLost s) := by
  intro s
  unfold volatileLost
  try dsimp only [onHost, onMb]
  refine Frame.then ?_ frame_set_dict_and_27_more rfl
  exact Frame.refl _ _

theorem countPair_frame : ∀ s pair ok, Frame [.clk] s (countPair s pair ok) := by
  intro s pair ok
  unfold countPair
  try dsimp only [onHost, onMb]
  refine Frame.then ?_ frame_set_clk rfl
  exact Frame.refl _ _

theorem countWindow_frame : ∀ s z, Frame [.clk] s (countWindow s z) := by
  intro s z
  unfold countWindow
  try dsimp only [onHost, onMb]
  split
  · try dsimp only
    refine Frame.then ?_ (countPair_frame _ _ _) rfl
    refine Frame.then ?_ (countPair_frame _ _ _) rfl
    exact Frame.refl _ _
  · try dsimp only
    refine Frame.then ?_ (countPair_frame _ _ _) rfl
    refine Frame.then ?_ (countPair_frame _ _ _) rfl
    exact Frame.refl _ _
  · try dsimp only
    refine Frame.then ?_ (countPair_frame _ _ _) rfl
    exact Frame.refl _ _

theorem restore_frame : ∀ s, Frame [.counters, .queues, .rings, .errorLog, .clk] s (restore s) := by
  intro s
  unfold restore
  try dsimp only [onHost, onMb]
  refine Frame.foldl ?_ ?_
  · exact Frame.refl _ _
  · intro _ _
    try dsimp only
    refine Frame.then ?_ (postEvent_frame _ _ _) rfl
    refine Frame.then ?_ frame_set_clk rfl
    exact Frame.refl _ _

theorem execClockMonitorWindow_frame : ∀ w1 s t, execClockMonitorWindow w1 s = .next t → Frame [.objs, .counters, .link, .queues, .rings, .turnMisc, .fab, .ledger, .errorLog, .clk, .out] s t := by
  intro w1 s t h
  unfold execClockMonitorWindow at h
  injection h with h
  subst h
  try dsimp only [onHost, onMb]
  refine Frame.ite ?_ ?_
  · refine Frame.then ?_ (restore_frame _) rfl
    refine Frame.then ?_ (declare_frame _) rfl
    refine Frame.then ?_ (countWindow_frame _ _) rfl
    exact Frame.refl _ _
  · exact Frame.refl _ _

theorem porLow_frame : ∀ s, Frame [.objs, .doms, .counters, .txns, .mailbox, .dictMisc, .link, .hostRegs, .queues, .rings, .doe, .turnNo, .phase, .boards, .turnMisc, .adm, .comp, .images, .remotes, .acts, .streams, .remoteStats, .colls, .lists, .queries, .units, .nextUnit, .smemCells, .smemMisc, .way, .ing, .place, .scrCells, .scrMisc, .flash, .fab, .ledger, .bslots, .nvMisc, .sec, .ras, .clk] s (porLow s) := by
  intro s
  unfold porLow
  try dsimp only [onHost, onMb]
  refine Frame.then ?_ frame_set_clk rfl
  refine Frame.then ?_ (volatileLost_frame _) rfl
  exact Frame.refl _ _

theorem doBoot_frame : ∀ s copyA copyB ms, Frame [.dictMisc, .sec, .clk] s (doBoot s copyA copyB ms) := by
  intro s copyA copyB ms
  unfold doBoot
  try dsimp only [onHost, onMb]
  refine Frame.ite ?_ ?_
  · exact Frame.refl _ _
  · refine Frame.ite ?_ ?_
    · refine Frame.ite ?_ ?_
      · refine Frame.then ?_ (startFirmware_frame _ _ _ _) rfl
        exact Frame.refl _ _
      · exact Frame.refl _ _
    · refine Frame.ite ?_ ?_
      · refine Frame.then ?_ (startFirmware_frame _ _ _ _) rfl
        exact Frame.refl _ _
      · refine Frame.ite ?_ ?_
        · refine Frame.then ?_ (startFirmware_frame _ _ _ _) rfl
          exact Frame.refl _ _
        · refine Frame.then ?_ frame_set_clk rfl
          exact Frame.refl _ _

theorem doMount_frame : ∀ s present trained differ margins targets luns rawGb ms, Frame [.objs, .counters, .queues, .rings, .flash, .errorLog, .nvMisc, .ras, .clk] s (doMount s present trained differ margins targets luns rawGb ms) := by
  intro s present trained differ margins targets luns rawGb ms
  unfold doMount
  try dsimp only [onHost, onMb]
  refine Frame.then ?_ (setObj_frame _ _ _) rfl
  refine Frame.foldl ?_ ?_
  · refine Frame.then ?_ (recordFail_frame _ _) rfl
    refine Frame.foldl ?_ ?_
    · refine Frame.ite ?_ ?_
      · refine Frame.then ?_ (setObj_frame _ _ _) rfl
        refine Frame.then ?_ (setObj_frame _ _ _) rfl
        refine Frame.then ?_ (setObj_frame _ _ _) rfl
        refine Frame.foldl ?_ ?_
        · refine Frame.foldl ?_ ?_
          · refine Frame.then ?_ (setObj_frame _ _ _) rfl
            refine Frame.then ?_ (endStep_frame _ _ _) rfl
            exact Frame.refl _ _
          · intro _ _
            try dsimp only
            refine Frame.then ?_ (setObj_frame _ _ _) rfl
            exact Frame.refl _ _
        · intro _ _
          try dsimp only
          refine Frame.then ?_ (setObj_frame _ _ _) rfl
          exact Frame.refl _ _
      · refine Frame.then ?_ frame_set_flash_nv_retained rfl
        refine Frame.then ?_ (setObj_frame _ _ _) rfl
        refine Frame.then ?_ (setObj_frame _ _ _) rfl
        refine Frame.then ?_ (setObj_frame _ _ _) rfl
        refine Frame.foldl ?_ ?_
        · refine Frame.foldl ?_ ?_
          · refine Frame.then ?_ (setObj_frame _ _ _) rfl
            refine Frame.then ?_ (endStep_frame _ _ _) rfl
            exact Frame.refl _ _
          · intro _ _
            try dsimp only
            refine Frame.then ?_ (setObj_frame _ _ _) rfl
            exact Frame.refl _ _
        · intro _ _
          try dsimp only
          refine Frame.then ?_ (setObj_frame _ _ _) rfl
          exact Frame.refl _ _
    · intro _ _
      try dsimp only
      refine Frame.then ?_ (setObj_frame _ _ _) rfl
      exact Frame.refl _ _
  · intro _ _
    try dsimp only
    refine Frame.then ?_ (postEvent_frame _ _ _) rfl
    exact Frame.refl _ _

theorem execReady_frame : ∀ ms s t, execReady ms s = .next t → Frame [.dictMisc, .tenancy, .errorLog, .nvMisc, .clk] s t := by
  intro ms s t h
  unfold execReady at h
  injection h with h
  subst h
  try dsimp only [onHost, onMb]
  refine Frame.ite ?_ ?_
  · refine Frame.then ?_ (doReady_frame _ _) rfl
    exact Frame.refl _ _
  · exact Frame.refl _ _

theorem execFmcStart_frame : ∀ s t, execFmcStart s = .next t → Frame [.objs, .clk] s t := by
  intro s t h
  unfold execFmcStart at h
  injection h with h
  subst h
  try dsimp only [onHost, onMb]
  refine Frame.ite ?_ ?_
  · refine Frame.then ?_ (doFmcStart_frame _) rfl
    exact Frame.refl _ _
  · exact Frame.refl _ _

theorem execPerstRelease_frame : ∀ s t, execPerstRelease s = .next t → Frame [.link] s t := by
  intro s t h
  unfold execPerstRelease at h
  injection h with h
  subst h
  try dsimp only [onHost, onMb]
  refine Frame.then ?_ frame_set_host_perstLow rfl
  exact Frame.refl _ _

theorem scratchHot_frame : ∀ s old, Frame [.counters, .queues, .rings, .errorLog] s (scratchHot s old) := by
  intro s old
  unfold scratchHot
  try dsimp only [onHost, onMb]
  refine Frame.foldl ?_ ?_
  · exact Frame.refl _ _
  · intro _ _
    try dsimp only
    refine Frame.ite ?_ ?_
    · refine Frame.then ?_ (postEvent_frame _ _ _) rfl
      exact Frame.refl _ _
    · exact Frame.refl _ _

theorem throttle_frame : ∀ s tj tj1, Frame [.counters, .queues, .rings, .errorLog, .clk] s (throttle s tj tj1) := by
  intro s tj tj1
  unfold throttle
  try dsimp only [onHost, onMb]
  refine Frame.ite ?_ ?_
  · refine Frame.ite ?_ ?_
    · refine Frame.ite ?_ ?_
      · refine Frame.then ?_ (postEvent_frame _ _ _) rfl
        refine Frame.then ?_ frame_set_clk rfl
        exact Frame.refl _ _
      · refine Frame.then ?_ frame_set_clk rfl
        exact Frame.refl _ _
    · refine Frame.then ?_ (postEvent_frame _ _ _) rfl
      refine Frame.ite ?_ ?_
      · refine Frame.then ?_ (postEvent_frame _ _ _) rfl
        refine Frame.then ?_ frame_set_clk rfl
        exact Frame.refl _ _
      · refine Frame.then ?_ frame_set_clk rfl
        exact Frame.refl _ _
  · refine Frame.then ?_ (bump_frame _ _ _) rfl
    refine Frame.then ?_ frame_set_clk rfl
    refine Frame.ite ?_ ?_
    · refine Frame.ite ?_ ?_
      · refine Frame.then ?_ (postEvent_frame _ _ _) rfl
        refine Frame.then ?_ frame_set_clk rfl
        exact Frame.refl _ _
      · refine Frame.then ?_ frame_set_clk rfl
        exact Frame.refl _ _
    · refine Frame.then ?_ (postEvent_frame _ _ _) rfl
      refine Frame.ite ?_ ?_
      · refine Frame.then ?_ (postEvent_frame _ _ _) rfl
        refine Frame.then ?_ frame_set_clk rfl
        exact Frame.refl _ _
      · refine Frame.then ?_ frame_set_clk rfl
        exact Frame.refl _ _

theorem doPowerSample_frame : ∀ s rails tj tj1 scratch, Frame [.objs, .counters, .queues, .rings, .errorLog, .clk] s (doPowerSample s rails tj tj1 scratch) := by
  intro s rails tj tj1 scratch
  unfold doPowerSample
  try dsimp only [onHost, onMb]
  refine Frame.then ?_ (throttle_frame _ _ _) rfl
  refine Frame.then ?_ (scratchHot_frame _ _) rfl
  refine Frame.ite ?_ ?_
  · refine Frame.then ?_ (publishTemps_frame _) rfl
    refine Frame.then ?_ (publishPower_frame _ _) rfl
    refine Frame.then ?_ frame_set_clk rfl
    exact Frame.refl _ _
  · refine Frame.then ?_ frame_set_clk rfl
    exact Frame.refl _ _

theorem execPowerSample_frame : ∀ rails tj tj1 scratch s t, execPowerSample rails tj tj1 scratch s = .next t → Frame [.objs, .counters, .queues, .rings, .errorLog, .clk] s t := by
  intro rails tj tj1 scratch s t h
  unfold execPowerSample at h
  injection h with h
  subst h
  try dsimp only [onHost, onMb]
  refine Frame.ite ?_ ?_
  · refine Frame.then ?_ (doPowerSample_frame _ _ _ _ _) rfl
    exact Frame.refl _ _
  · exact Frame.refl _ _

theorem dropResults_frame : ∀ s, Frame [.comp, .queries, .ing] s (dropResults s) := by
  intro s
  unfold dropResults
  try dsimp only [onHost, onMb]
  refine Frame.then ?_ frame_set_comp_queries_ing rfl
  exact Frame.refl _ _

theorem execPerstAssert_frame : ∀ s t, execPerstAssert s = .next t → Frame [.mailbox, .link, .hostRegs, .queues, .rings, .doe, .comp, .queries, .ing] s t := by
  intro s t h
  unfold execPerstAssert at h
  injection h with h
  subst h
  try dsimp only [onHost, onMb]
  refine Frame.ite ?_ ?_
  · exact Frame.refl _ _
  · refine Frame.then ?_ frame_set_dict_mb_and_26_more rfl
    refine Frame.then ?_ (dropResults_frame _) rfl
    exact Frame.refl _ _

theorem execFmcGateEnd_frame : ∀ count s t, execFmcGateEnd count s = .next t → Frame [.objs, .clk] s t := by
  intro count s t h
  unfold execFmcGateEnd at h
  injection h with h
  subst h
  try dsimp only [onHost, onMb]
  refine Frame.ite ?_ ?_
  · exact Frame.refl _ _
  · refine Frame.ite ?_ ?_
    · refine Frame.then ?_ (setObj_frame _ _ _) rfl
      refine Frame.then ?_ (setObj_frame _ _ _) rfl
      refine Frame.then ?_ frame_set_clk rfl
      exact Frame.refl _ _
    · refine Frame.then ?_ (setObj_frame _ _ _) rfl
      refine Frame.then ?_ (setObj_frame _ _ _) rfl
      refine Frame.then ?_ (setObj_frame _ _ _) rfl
      refine Frame.then ?_ (setObj_frame _ _ _) rfl
      refine Frame.then ?_ frame_set_clk rfl
      exact Frame.refl _ _

theorem execBootComplete_frame : ∀ copyA copyB ms s t, execBootComplete copyA copyB ms s = .next t → Frame [.dictMisc, .sec, .clk] s t := by
  intro copyA copyB ms s t h
  unfold execBootComplete at h
  injection h with h
  subst h
  try dsimp only [onHost, onMb]
  refine Frame.then ?_ (doBoot_frame _ _ _ _) rfl
  exact Frame.refl _ _

theorem execPowerLoss_frame : ∀ s t, execPowerLoss s = .next t → Frame [.objs, .doms, .counters, .txns, .mailbox, .dictMisc, .link, .hostRegs, .queues, .rings, .doe, .turnNo, .phase, .boards, .turnMisc, .adm, .comp, .images, .remotes, .acts, .streams, .remoteStats, .colls, .lists, .queries, .units, .nextUnit, .smemCells, .smemMisc, .way, .ing, .place, .scrCells, .scrMisc, .flash, .fab, .ledger, .bslots, .nvMisc, .sec, .ras, .clk] s t := by
  intro s t h
  unfold execPowerLoss at h
  injection h with h
  subst h
  try dsimp only [onHost, onMb]
  refine Frame.then ?_ frame_set_clk rfl
  refine Frame.then ?_ (porLow_frame _) rfl
  exact Frame.refl _ _

theorem doVersionsSwitch_frame : ∀ s ms, Frame [.flash, .nvMisc, .sec, .clk] s (doVersionsSwitch s ms) := by
  intro s ms
  unfold doVersionsSwitch
  try dsimp only [onHost, onMb]
  refine Frame.then ?_ frame_set_sec_clk rfl
  refine Frame.then ?_ (endStep_frame _ _ _) rfl
  refine Frame.ite ?_ ?_
  · refine Frame.then ?_ frame_set_flash_nv_retained rfl
    exact Frame.refl _ _
  · exact Frame.refl _ _

theorem execFlashTranslationMount_frame : ∀ present trained differ margins targets luns rawGb ms s t, execFlashTranslationMount present trained differ margins targets luns rawGb ms s = .next t → Frame [.objs, .counters, .queues, .rings, .flash, .errorLog, .nvMisc, .ras, .clk] s t := by
  intro present trained differ margins targets luns rawGb ms s t h
  unfold execFlashTranslationMount at h
  injection h with h
  subst h
  try dsimp only [onHost, onMb]
  refine Frame.ite ?_ ?_
  · refine Frame.then ?_ (doMount_frame _ _ _ _ _ _ _ _ _) rfl
    exact Frame.refl _ _
  · exact Frame.refl _ _

theorem execMemoryTrainingComplete_frame : ∀ failed ms s t, execMemoryTrainingComplete failed ms s = .next t → Frame [.ras, .clk] s t := by
  intro failed ms s t h
  unfold execMemoryTrainingComplete at h
  injection h with h
  subst h
  try dsimp only [onHost, onMb]
  refine Frame.ite ?_ ?_
  · refine Frame.then ?_ (recordFail_frame _ _) rfl
    refine Frame.then ?_ (endStep_frame _ _ _) rfl
    exact Frame.refl _ _
  · exact Frame.refl _ _

theorem porHigh_frame : ∀ s, Frame [.clk] s (porHigh s) := by
  intro s
  unfold porHigh
  try dsimp only [onHost, onMb]
  refine Frame.ite ?_ ?_
  · exact Frame.refl _ _
  · refine Frame.then ?_ frame_set_clk rfl
    exact Frame.refl _ _

theorem execPor_frame : ∀ level s t, execPor level s = .next t → Frame [.objs, .doms, .counters, .txns, .mailbox, .dictMisc, .link, .hostRegs, .queues, .rings, .doe, .turnNo, .phase, .boards, .turnMisc, .adm, .comp, .images, .remotes, .acts, .streams, .remoteStats, .colls, .lists, .queries, .units, .nextUnit, .smemCells, .smemMisc, .way, .ing, .place, .scrCells, .scrMisc, .flash, .fab, .ledger, .bslots, .nvMisc, .sec, .ras, .clk] s t := by
  intro level s t h
  unfold execPor at h
  injection h with h
  subst h
  try dsimp only [onHost, onMb]
  refine Frame.ite ?_ ?_
  · refine Frame.then ?_ (porHigh_frame _) rfl
    exact Frame.refl _ _
  · refine Frame.then ?_ (porLow_frame _) rfl
    exact Frame.refl _ _

theorem execIndexVersionsSwitch_frame : ∀ ms s t, execIndexVersionsSwitch ms s = .next t → Frame [.flash, .nvMisc, .sec, .clk] s t := by
  intro ms s t h
  unfold execIndexVersionsSwitch at h
  injection h with h
  subst h
  try dsimp only [onHost, onMb]
  refine Frame.ite ?_ ?_
  · refine Frame.then ?_ (doVersionsSwitch_frame _ _) rfl
    exact Frame.refl _ _
  · exact Frame.refl _ _

theorem doRepairLoad_frame : ∀ s fuses badBanks badTiles ms, Frame [.objs, .scrMisc, .ras, .clk] s (doRepairLoad s fuses badBanks badTiles ms) := by
  intro s fuses badBanks badTiles ms
  unfold doRepairLoad
  try dsimp only [onHost, onMb]
  refine Frame.then ?_ (recordFail_frame _ _) rfl
  refine Frame.then ?_ (setObj_frame _ _ _) rfl
  refine Frame.foldl ?_ ?_
  · refine Frame.then ?_ (endStep_frame _ _ _) rfl
    refine Frame.then ?_ frame_set_scratch_fuses_scratch_soft_scratch_steered rfl
    exact Frame.refl _ _
  · intro _ _
    try dsimp only
    refine Frame.then ?_ (retireBank_frame _ _) rfl
    exact Frame.refl _ _

theorem execRepairFuseLoadComplete_frame : ∀ fuses badBanks badTiles ms s t, execRepairFuseLoadComplete fuses badBanks badTiles ms s = .next t → Frame [.objs, .scrMisc, .ras, .clk] s t := by
  intro fuses badBanks badTiles ms s t h
  unfold execRepairFuseLoadComplete at h
  injection h with h
  subst h
  try dsimp only [onHost, onMb]
  refine Frame.ite ?_ ?_
  · refine Frame.then ?_ (doRepairLoad_frame _ _ _ _ _) rfl
    exact Frame.refl _ _
  · exact Frame.refl _ _

theorem execRetainedMediaDiscard_frame : ∀ s t, execRetainedMediaDiscard s = .next t → Frame [.counters, .flash, .nvMisc] s t := by
  intro s t h
  unfold execRetainedMediaDiscard at h
  injection h with h
  subst h
  try dsimp only [onHost, onMb]
  refine Frame.ite ?_ ?_
  · refine Frame.then ?_ (discardPages_frame _ _) rfl
    refine Frame.then ?_ frame_set_nv_retained rfl
    exact Frame.refl _ _
  · exact Frame.refl _ _

end Sys2Proof.Machine
end

