-- ==== Sys2Proof/Laws/FrameCollections.lean ====
section
/-! SUPPORT. Which parts of the state the functions of Machine/Collections.lean may change. -/

set_option maxRecDepth 4000

namespace Sys2Proof.Machine

open Sys2Proof

theorem doDrop_frame : ∀ s c, Frame [.objs, .colls, .ledger] s (doDrop s c) := by
  intro s c
  unfold doDrop
  try dsimp only [onHost, onMb]
  refine Frame.ite ?_ ?_
  · exact Frame.refl _ _
  · refine Frame.then ?_ (ledgerRequest_frame _ _) rfl
    refine Frame.then ?_ (setObj_frame _ _ _) rfl
    refine Frame.then ?_ (setColl_frame _ _ _) rfl
    exact Frame.refl _ _

theorem doImgLoad_frame : ∀ s c, Frame [.objs, .colls] s (doImgLoad s c) := by
  intro s c
  unfold doImgLoad
  try dsimp only [onHost, onMb]
  refine Frame.ite ?_ ?_
  · refine Frame.then ?_ (setObj_frame _ _ _) rfl
    exact Frame.refl _ _
  · refine Frame.then ?_ (setObj_frame _ _ _) rfl
    refine Frame.then ?_ (setObj_frame _ _ _) rfl
    refine Frame.then ?_ (setObj_frame _ _ _) rfl
    refine Frame.then ?_ (setColl_frame _ _ _) rfl
    exact Frame.refl _ _

theorem doRun_frame : ∀ s c, Frame [.objs, .colls, .ledger] s (doRun s c) := by
  intro s c
  unfold doRun
  try dsimp only [onHost, onMb]
  refine Frame.ite ?_ ?_
  · exact Frame.refl _ _
  · refine Frame.ite ?_ ?_
    · refine Frame.then ?_ (setObj_frame _ _ _) rfl
      exact Frame.refl _ _
    · refine Frame.then ?_ (ledgerRequest_frame _ _) rfl
      refine Frame.then ?_ (setObj_frame _ _ _) rfl
      refine Frame.then ?_ (setColl_frame _ _ _) rfl
      exact Frame.refl _ _

theorem doStop_frame : ∀ s c, Frame [.colls, .ledger] s (doStop s c) := by
  intro s c
  unfold doStop
  try dsimp only [onHost, onMb]
  refine Frame.ite ?_ ?_
  · exact Frame.refl _ _
  · refine Frame.then ?_ (ledgerRequest_frame _ _) rfl
    refine Frame.then ?_ (setColl_frame _ _ _) rfl
    exact Frame.refl _ _

theorem execDrop_frame : ∀ coll s t, execDrop coll s = .next t → Frame [.objs, .colls, .ledger] s t := by
  intro coll s t h
  unfold execDrop at h
  injection h with h
  subst h
  try dsimp only [onHost, onMb]
  refine Frame.then ?_ (doDrop_frame _ _) rfl
  exact Frame.refl _ _

theorem openDirectory_frame : ∀ s c n, Frame [.ing] s (openDirectory s c n) := by
  intro s c n
  unfold openDirectory
  try dsimp only [onHost, onMb]
  refine Frame.then ?_ frame_set_ing rfl
  exact Frame.refl _ _

theorem execEdgeRewriteComplete_frame : ∀ coll centroid s t, execEdgeRewriteComplete coll centroid s = .next t → Frame [.colls] s t := by
  intro coll centroid s t h
  unfold execEdgeRewriteComplete at h
  injection h with h
  subst h
  try dsimp only [onHost, onMb]
  refine Frame.ite ?_ ?_
  · refine Frame.then ?_ (setColl_frame _ _ _) rfl
    exact Frame.refl _ _
  · exact Frame.refl _ _

theorem freeMirrors_frame : ∀ s key, Frame [.place] s (freeMirrors s key) := by
  intro s key
  unfold freeMirrors
  try dsimp only [onHost, onMb]
  refine Frame.then ?_ frame_set_place rfl
  exact Frame.refl _ _

theorem freeCopy_frame : ∀ s key, Frame [.counters, .lists, .place, .flash] s (freeCopy s key) := by
  intro s key
  unfold freeCopy
  try dsimp only [onHost, onMb]
  split
  · try dsimp only
    exact Frame.refl _ _
  · try dsimp only
    refine Frame.then ?_ (freeMirrors_frame _ _) rfl
    refine Frame.then ?_ (discardPages_frame _ _) rfl
    refine Frame.then ?_ frame_set_lists rfl
    exact Frame.refl _ _

theorem applyRewrites_frame : ∀ s n, Frame [.colls] s (applyRewrites s n) := by
  intro s n
  unfold applyRewrites
  try dsimp only [onHost, onMb]
  refine Frame.foldl ?_ ?_
  · exact Frame.refl _ _
  · intro _ _
    try dsimp only
    refine Frame.ite ?_ ?_
    · exact Frame.refl _ _
    · refine Frame.then ?_ (setColl_frame _ _ _) rfl
      exact Frame.refl _ _

theorem collFail_frame : ∀ s c cause, Frame [.objs, .counters, .queues, .rings, .colls, .errorLog] s (collFail s c cause) := by
  intro s c cause
  unfold collFail
  try dsimp only [onHost, onMb]
  refine Frame.then ?_ (postEvent_frame _ _ _) rfl
  refine Frame.then ?_ (setObj_frame _ _ _) rfl
  refine Frame.then ?_ (setObj_frame _ _ _) rfl
  refine Frame.then ?_ (setObj_frame _ _ _) rfl
  refine Frame.then ?_ (setColl_frame _ _ _) rfl
  exact Frame.refl _ _

theorem doCollLoaded_frame : ∀ s c f, Frame [.objs, .counters, .queues, .rings, .colls, .fab, .ledger, .errorLog] s (doCollLoaded s c f) := by
  intro s c f
  unfold doCollLoaded
  try dsimp only [onHost, onMb]
  refine Frame.ite ?_ ?_
  · exact Frame.refl _ _
  · split
    · try dsimp only
      refine Frame.ite ?_ ?_
      · refine Frame.then ?_ (collFail_frame _ _ _) rfl
        refine Frame.then ?_ (loadAttempt_frame _ _) rfl
        exact Frame.refl _ _
      · refine Frame.then ?_ (loadAttempt_frame _ _) rfl
        exact Frame.refl _ _
    · try dsimp only
      split
      · try dsimp only
        refine Frame.then ?_ (collFail_frame _ _ _) rfl
        refine Frame.then ?_ (loadFetched_frame _ _) rfl
        exact Frame.refl _ _
      · try dsimp only
        refine Frame.ite ?_ ?_
        · refine Frame.then ?_ (collFail_frame _ _ _) rfl
          refine Frame.then ?_ (loadFetched_frame _ _) rfl
          exact Frame.refl _ _
        · refine Frame.ite ?_ ?_
          · refine Frame.then ?_ (collFail_frame _ _ _) rfl
            refine Frame.then ?_ (loadFetched_frame _ _) rfl
            exact Frame.refl _ _
          · refine Frame.then ?_ (ledgerRequest_frame _ _) rfl
            refine Frame.then ?_ (setObj_frame _ _ _) rfl
            refine Frame.then ?_ (sendAll_frame _ _ _) rfl
            refine Frame.then ?_ (setColl_frame _ _ _) rfl
            refine Frame.then ?_ (loadFetched_frame _ _) rfl
            exact Frame.refl _ _

theorem execCollectionImageLoadComplete_frame : ∀ coll image s t, execCollectionImageLoadComplete coll image s = .next t → Frame [.objs, .counters, .queues, .rings, .colls, .fab, .ledger, .errorLog] s t := by
  intro coll image s t h
  unfold execCollectionImageLoadComplete at h
  injection h with h
  subst h
  try dsimp only [onHost, onMb]
  refine Frame.then ?_ (doCollLoaded_frame _ _ _) rfl
  exact Frame.refl _ _

theorem execImgLoad_frame : ∀ coll s t, execImgLoad coll s = .next t → Frame [.objs, .colls] s t := by
  intro coll s t h
  unfold execImgLoad at h
  injection h with h
  subst h
  try dsimp only [onHost, onMb]
  refine Frame.then ?_ (doImgLoad_frame _ _) rfl
  exact Frame.refl _ _

theorem unbindTables_frame : ∀ s c, Frame [.objs, .counters, .queues, .rings, .errorLog] s (unbindTables s c) := by
  intro s c
  unfold unbindTables
  try dsimp only [onHost, onMb]
  refine Frame.foldl ?_ ?_
  · exact Frame.refl _ _
  · intro _ _
    try dsimp only
    refine Frame.ite ?_ ?_
    · refine Frame.then ?_ (postEvent_frame _ _ _) rfl
      refine Frame.then ?_ (setObj_frame _ _ _) rfl
      exact Frame.refl _ _
    · exact Frame.refl _ _

theorem applyCollLoad_frame : ∀ s c from1 n, Frame [.objs, .counters, .queues, .rings, .colls, .ing, .errorLog] s (applyCollLoad s c from1 n) := by
  intro s c from1 n
  unfold applyCollLoad
  try dsimp only [onHost, onMb]
  refine Frame.ite ?_ ?_
  · exact Frame.refl _ _
  · split
    · try dsimp only
      refine Frame.then ?_ (unbindTables_frame _ _) rfl
      refine Frame.then ?_ (openDirectory_frame _ _ _) rfl
      refine Frame.then ?_ (setColl_frame _ _ _) rfl
      refine Frame.ite ?_ ?_
      · refine Frame.then ?_ (collFail_frame _ _ _) rfl
        exact Frame.refl _ _
      · exact Frame.refl _ _
    · try dsimp only
      split
      · try dsimp only
        refine Frame.ite ?_ ?_
        · refine Frame.then ?_ (collFail_frame _ _ _) rfl
          refine Frame.ite ?_ ?_
          · refine Frame.then ?_ (collFail_frame _ _ _) rfl
            exact Frame.refl _ _
          · exact Frame.refl _ _
        · refine Frame.then ?_ (setColl_frame _ _ _) rfl
          refine Frame.ite ?_ ?_
          · refine Frame.then ?_ (collFail_frame _ _ _) rfl
            exact Frame.refl _ _
          · exact Frame.refl _ _
      · try dsimp only
        refine Frame.ite ?_ ?_
        · refine Frame.ite ?_ ?_
          · refine Frame.then ?_ (collFail_frame _ _ _) rfl
            refine Frame.ite ?_ ?_
            · refine Frame.then ?_ (collFail_frame _ _ _) rfl
              exact Frame.refl _ _
            · exact Frame.refl _ _
          · refine Frame.then ?_ (setColl_frame _ _ _) rfl
            refine Frame.ite ?_ ?_
            · refine Frame.then ?_ (collFail_frame _ _ _) rfl
              exact Frame.refl _ _
            · exact Frame.refl _ _
        · refine Frame.then ?_ (unbindTables_frame _ _) rfl
          refine Frame.ite ?_ ?_
          · refine Frame.then ?_ (setObj_frame _ _ _) rfl
            refine Frame.ite ?_ ?_
            · refine Frame.then ?_ (setObj_frame _ _ _) rfl
              refine Frame.then ?_ (openDirectory_frame _ _ _) rfl
              refine Frame.then ?_ (setColl_frame _ _ _) rfl
              refine Frame.ite ?_ ?_
              · refine Frame.then ?_ (collFail_frame _ _ _) rfl
                exact Frame.refl _ _
              · exact Frame.refl _ _
            · refine Frame.then ?_ (openDirectory_frame _ _ _) rfl
              refine Frame.then ?_ (setColl_frame _ _ _) rfl
              refine Frame.ite ?_ ?_
              · refine Frame.then ?_ (collFail_frame _ _ _) rfl
                exact Frame.refl _ _
              · exact Frame.refl _ _
          · refine Frame.ite ?_ ?_
            · refine Frame.then ?_ (setObj_frame _ _ _) rfl
              refine Frame.then ?_ (openDirectory_frame _ _ _) rfl
              refine Frame.then ?_ (setColl_frame _ _ _) rfl
              refine Frame.ite ?_ ?_
              · refine Frame.then ?_ (collFail_frame _ _ _) rfl
                exact Frame.refl _ _
              · exact Frame.refl _ _
            · refine Frame.then ?_ (openDirectory_frame _ _ _) rfl
              refine Frame.then ?_ (setColl_frame _ _ _) rfl
              refine Frame.ite ?_ ?_
              · refine Frame.then ?_ (collFail_frame _ _ _) rfl
                exact Frame.refl _ _
              · exact Frame.refl _ _

theorem applyLife_frame : ∀ s c what ok n, Frame [.objs, .colls] s (applyLife s c what ok n) := by
  intro s c what ok n
  unfold applyLife
  try dsimp only [onHost, onMb]
  split
  · try dsimp only
    refine Frame.ite ?_ ?_
    · refine Frame.then ?_ (setObj_frame _ _ _) rfl
      refine Frame.then ?_ (setColl_frame _ _ _) rfl
      exact Frame.refl _ _
    · refine Frame.ite ?_ ?_
      · refine Frame.then ?_ (setObj_frame _ _ _) rfl
        refine Frame.then ?_ (setColl_frame _ _ _) rfl
        exact Frame.refl _ _
      · exact Frame.refl _ _
  · try dsimp only
    refine Frame.ite ?_ ?_
    · refine Frame.then ?_ (setObj_frame _ _ _) rfl
      refine Frame.then ?_ (setColl_frame _ _ _) rfl
      exact Frame.refl _ _
    · exact Frame.refl _ _
  · try dsimp only
    refine Frame.ite ?_ ?_
    · refine Frame.then ?_ (setObj_frame _ _ _) rfl
      refine Frame.then ?_ (setColl_frame _ _ _) rfl
      exact Frame.refl _ _
    · exact Frame.refl _ _

theorem freeStates_frame : ∀ s n, Frame [.counters, .colls, .lists, .ing, .place, .flash, .ledger] s (freeStates s n) := by
  intro s n
  unfold freeStates
  try dsimp only [onHost, onMb]
  refine Frame.foldl ?_ ?_
  · refine Frame.then ?_ frame_set_ledger rfl
    refine Frame.foldl ?_ ?_
    · refine Frame.foldl ?_ ?_
      · exact Frame.refl _ _
      · intro _ _
        try dsimp only
        refine Frame.ite ?_ ?_
        · exact Frame.refl _ _
        · refine Frame.ite ?_ ?_
          · refine Frame.then ?_ (bump_frame _ _ _) rfl
            refine Frame.then ?_ (freeCopy_frame _ _) rfl
            exact Frame.refl _ _
          · refine Frame.then ?_ (bump_frame _ _ _) rfl
            refine Frame.then ?_ (freeMirrors_frame _ _) rfl
            refine Frame.then ?_ (discardPages_frame _ _) rfl
            refine Frame.then ?_ (setList_frame _ _) rfl
            exact Frame.refl _ _
    · intro _ _
      try dsimp only
      refine Frame.then ?_ (freeCopy_frame _ _) rfl
      exact Frame.refl _ _
  · intro _ _
    try dsimp only
    refine Frame.ite ?_ ?_
    · refine Frame.then ?_ (setColl_frame _ _ _) rfl
      refine Frame.then ?_ frame_set_ing_ledger rfl
      refine Frame.foldl ?_ ?_
      · exact Frame.refl _ _
      · intro _ _
        try dsimp only
        refine Frame.then ?_ (freeCopy_frame _ _) rfl
        exact Frame.refl _ _
    · split
      · try dsimp only
        refine Frame.then ?_ (setColl_frame _ _ _) rfl
        exact Frame.refl _ _
      · try dsimp only
        refine Frame.then ?_ (setColl_frame _ _ _) rfl
        refine Frame.then ?_ frame_set_ing rfl
        exact Frame.refl _ _

theorem execStateFree_frame : ∀ s t, execStateFree s = .next t → Frame [.counters, .colls, .lists, .ing, .place, .flash, .ledger] s t := by
  intro s t h
  unfold execStateFree at h
  injection h with h
  subst h
  try dsimp only [onHost, onMb]
  refine Frame.ite ?_ ?_
  · refine Frame.then ?_ (freeStates_frame _ _) rfl
    exact Frame.refl _ _
  · exact Frame.refl _ _

theorem execCollectionStop_frame : ∀ coll s t, execCollectionStop coll s = .next t → Frame [.colls, .ledger] s t := by
  intro coll s t h
  unfold execCollectionStop at h
  injection h with h
  subst h
  try dsimp only [onHost, onMb]
  refine Frame.then ?_ (doStop_frame _ _) rfl
  exact Frame.refl _ _

theorem execRun_frame : ∀ coll s t, execRun coll s = .next t → Frame [.objs, .colls, .ledger] s t := by
  intro coll s t h
  unfold execRun at h
  injection h with h
  subst h
  try dsimp only [onHost, onMb]
  refine Frame.then ?_ (doRun_frame _ _) rfl
  exact Frame.refl _ _

end Sys2Proof.Machine
end

