-- ==== Sys2Proof/Laws/FrameHostRings.lean ====
section
/-! SUPPORT. Which parts of the state the functions of Machine/HostRings.lean may change. -/

set_option maxRecDepth 4000

namespace Sys2Proof.Machine

open Sys2Proof

theorem toHost_frame : ∀ s o, Frame [.rings, .out] s (toHost s o) := by
  intro s o
  unfold toHost
  try dsimp only [onHost, onMb]
  refine Frame.ite ?_ ?_
  · refine Frame.then ?_ (emit_frame _ _) rfl
    exact Frame.refl _ _
  · refine Frame.then ?_ frame_set_host_kept rfl
    exact Frame.refl _ _

theorem msixSend_frame : ∀ s v, Frame [.hostRegs, .rings, .out] s (msixSend s v) := by
  intro s v
  unfold msixSend
  try dsimp only [onHost, onMb]
  refine Frame.ite ?_ ?_
  · refine Frame.then ?_ frame_set_host_pba rfl
    exact Frame.refl _ _
  · refine Frame.then ?_ (toHost_frame _ _) rfl
    exact Frame.refl _ _

theorem advanceTally_frame : ∀ s qn, Frame [.hostRegs, .queues, .rings, .out] s (advanceTally s qn) := by
  intro s qn
  unfold advanceTally
  try dsimp only [onHost, onMb]
  refine Frame.ite ?_ ?_
  · refine Frame.ite ?_ ?_
    · refine Frame.then ?_ (setQ_frame _ _ _) rfl
      exact Frame.refl _ _
    · refine Frame.then ?_ (toHost_frame _ _) rfl
      refine Frame.then ?_ (setQ_frame _ _ _) rfl
      exact Frame.refl _ _
  · refine Frame.then ?_ (msixSend_frame _ _) rfl
    refine Frame.ite ?_ ?_
    · refine Frame.then ?_ (setQ_frame _ _ _) rfl
      exact Frame.refl _ _
    · refine Frame.then ?_ (toHost_frame _ _) rfl
      refine Frame.then ?_ (setQ_frame _ _ _) rfl
      exact Frame.refl _ _

theorem ringWrite_frame : ∀ s q off b, Frame [.rings, .smemCells, .out] s (ringWrite s q off b) := by
  intro s q off b
  unfold ringWrite
  try dsimp only [onHost, onMb]
  refine Frame.ite ?_ ?_
  · exact Frame.refl _ _
  · refine Frame.ite ?_ ?_
    · refine Frame.then ?_ (toHost_frame _ _) rfl
      exact Frame.refl _ _
    · refine Frame.ite ?_ ?_
      · refine Frame.then ?_ frame_set_smem_cells rfl
        exact Frame.refl _ _
      · exact Frame.refl _ _

theorem writeEntry_frame : ∀ s q t1 header body, Frame [.rings, .smemCells, .out] s (writeEntry s q t1 header body) := by
  intro s q t1 header body
  unfold writeEntry
  try dsimp only [onHost, onMb]
  refine Frame.then ?_ (ringWrite_frame _ _ _ _) rfl
  refine Frame.then ?_ (ringWrite_frame _ _ _ _) rfl
  refine Frame.then ?_ (ringWrite_frame _ _ _ _) rfl
  exact Frame.refl _ _

theorem resultDone_frame : ∀ s sq rq, Frame [.queues] s (resultDone s sq rq) := by
  intro s sq rq
  unfold resultDone
  try dsimp only [onHost, onMb]
  refine Frame.then ?_ (setQ_frame _ _ _) rfl
  refine Frame.then ?_ (setQ_frame _ _ _) rfl
  exact Frame.refl _ _

theorem writeResult_frame : ∀ s r, Frame [.queues, .rings, .smemCells, .out] s (writeResult s r) := by
  intro s r
  unfold writeResult
  try dsimp only [onHost, onMb]
  refine Frame.ite ?_ ?_
  · refine Frame.then ?_ (resultDone_frame _ _ _) rfl
    refine Frame.then ?_ (setQ_frame _ _ _) rfl
    refine Frame.then ?_ (writeEntry_frame _ _ _ _ _) rfl
    exact Frame.refl _ _
  · refine Frame.then ?_ frame_set_host_kept rfl
    refine Frame.then ?_ (setQ_frame _ _ _) rfl
    refine Frame.then ?_ (writeEntry_frame _ _ _ _ _) rfl
    exact Frame.refl _ _

theorem publishQueue_frame : ∀ s qn, Frame [.hostRegs, .queues, .rings, .smemCells, .out] s (publishQueue s qn) := by
  intro s qn
  unfold publishQueue
  try dsimp only [onHost, onMb]
  refine Frame.ite ?_ ?_
  · exact Frame.refl _ _
  · split
    · try dsimp only
      refine Frame.ite ?_ ?_
      · exact Frame.refl _ _
      · refine Frame.then ?_ (advanceTally_frame _ _) rfl
        refine Frame.foldl ?_ ?_
        · refine Frame.then ?_ frame_set_host_results rfl
          exact Frame.refl _ _
        · intro _ _
          try dsimp only
          refine Frame.then ?_ (writeResult_frame _ _) rfl
          exact Frame.refl _ _
    · try dsimp only
      refine Frame.ite ?_ ?_
      · exact Frame.refl _ _
      · refine Frame.then ?_ (advanceTally_frame _ _) rfl
        refine Frame.foldl ?_ ?_
        · refine Frame.then ?_ frame_set_host_events rfl
          exact Frame.refl _ _
        · intro _ _
          try dsimp only
          refine Frame.then ?_ (writeEntry_frame _ _ _ _ _) rfl
          exact Frame.refl _ _
    · try dsimp only
      refine Frame.ite ?_ ?_
      · exact Frame.refl _ _
      · refine Frame.then ?_ (advanceTally_frame _ _) rfl
        exact Frame.refl _ _

theorem flushKept_frame : ∀ s, Frame [.queues, .rings, .out] s (flushKept s) := by
  intro s
  unfold flushKept
  try dsimp only [onHost, onMb]
  refine Frame.then ?_ frame_set_host_kept_out rfl
  refine Frame.foldl ?_ ?_
  · exact Frame.refl _ _
  · intro _ _
    try dsimp only
    refine Frame.then ?_ (resultDone_frame _ _ _) rfl
    exact Frame.refl _ _

theorem execQueueTallyPublish_frame : ∀ q s t, execQueueTallyPublish q s = .next t → Frame [.hostRegs, .queues, .rings, .smemCells, .out] s t := by
  intro q s t h
  unfold execQueueTallyPublish at h
  injection h with h
  subst h
  try dsimp only [onHost, onMb]
  refine Frame.ite ?_ ?_
  · refine Frame.then ?_ (publishQueue_frame _ _) rfl
    exact Frame.refl _ _
  · exact Frame.refl _ _

end Sys2Proof.Machine
end

