-- ==== Sys2Proof/Laws/FramePlacement.lean ====
section
/-! SUPPORT. Which parts of the state the functions of Machine/Placement.lean may change. -/

set_option maxRecDepth 4000

namespace Sys2Proof.Machine

open Sys2Proof

theorem dropOptional_frame : ∀ s o, Frame [.counters, .lists, .place, .fab, .ledger] s (dropOptional s o) := by
  intro s o
  unfold dropOptional
  try dsimp only [onHost, onMb]
  refine Frame.then ?_ (bump_frame _ _ _) rfl
  split
  · try dsimp only
    refine Frame.then ?_ frame_set_place rfl
    exact Frame.refl _ _
  · try dsimp only
    refine Frame.then ?_ frame_set_fab rfl
    exact Frame.refl _ _
  · try dsimp only
    refine Frame.then ?_ frame_set_lists rfl
    exact Frame.refl _ _
  · try dsimp only
    refine Frame.then ?_ (ledgerRequest_frame _ _) rfl
    refine Frame.then ?_ frame_set_place rfl
    exact Frame.refl _ _

theorem dropWhile_frame : ∀ s os a b c, Frame [.counters, .lists, .place, .fab, .ledger] s (dropWhile s os a b c) := by
  intro s os
  induction os generalizing s with
  | nil => intro a b c; exact Frame.refl _ _
  | cons o os ih =>
    intro a b c
    unfold dropWhile
    refine Frame.ite (Frame.refl _ _) ?_
    exact Frame.then (dropOptional_frame _ _) (ih _ _ _ _) rfl

theorem doCopyDrop_frame : ∀ s c, Frame [.counters, .queues, .rings, .lists, .place, .fab, .ledger, .errorLog] s (doCopyDrop s c) := by
  intro s c
  unfold doCopyDrop
  try dsimp only [onHost, onMb]
  refine Frame.ite ?_ ?_
  · refine Frame.then ?_ (dropWhile_frame _ _ _ _ _) rfl
    exact Frame.refl _ _
  · refine Frame.then ?_ (dropWhile_frame _ _ _ _ _) rfl
    refine Frame.ite ?_ ?_
    · refine Frame.then ?_ (dropWhile_frame _ _ _ _ _) rfl
      exact Frame.refl _ _
    · refine Frame.then ?_ (postEvent_frame _ _ _) rfl
      refine Frame.then ?_ frame_set_place rfl
      refine Frame.then ?_ (dropWhile_frame _ _ _ _ _) rfl
      exact Frame.refl _ _

theorem setRange_frame : ∀ s r base size, Frame [.objs] s (setRange s r base size) := by
  intro s r base size
  unfold setRange
  try dsimp only [onHost, onMb]
  refine Frame.then ?_ (setObj_frame _ _ _) rfl
  refine Frame.then ?_ (setObj_frame _ _ _) rfl
  refine Frame.then ?_ (setObj_frame _ _ _) rfl
  exact Frame.refl _ _

theorem rangesAtBoundary_frame : ∀ s n, Frame [.objs, .place] s (rangesAtBoundary s n) := by
  intro s n
  unfold rangesAtBoundary
  try dsimp only [onHost, onMb]
  refine Frame.foldl ?_ ?_
  · exact Frame.refl _ _
  · intro _ _
    try dsimp only
    refine Frame.then ?_ frame_set_place rfl
    refine Frame.then ?_ (setRange_frame _ _ _ _) rfl
    exact Frame.refl _ _

theorem dropMirrors_frame : ∀ s r, Frame [.place] s (dropMirrors s r) := by
  intro s r
  unfold dropMirrors
  try dsimp only [onHost, onMb]
  refine Frame.then ?_ frame_set_place rfl
  exact Frame.refl _ _

theorem applyRange_frame : ∀ s r base size sized, Frame [.objs, .place] s (applyRange s r base size sized) := by
  intro s r base size sized
  unfold applyRange
  try dsimp only [onHost, onMb]
  split
  · try dsimp only
    refine Frame.then ?_ frame_set_place rfl
    refine Frame.then ?_ (setObj_frame _ _ _) rfl
    refine Frame.then ?_ (dropMirrors_frame _ _) rfl
    exact Frame.refl _ _
  · try dsimp only
    refine Frame.then ?_ frame_set_place rfl
    exact Frame.refl _ _
  · try dsimp only
    refine Frame.ite ?_ ?_
    · refine Frame.then ?_ (setRange_frame _ _ _ _) rfl
      exact Frame.refl _ _
    · refine Frame.then ?_ (setObj_frame _ _ _) rfl
      exact Frame.refl _ _
  · try dsimp only
    refine Frame.then ?_ (setRange_frame _ _ _ _) rfl
    exact Frame.refl _ _

theorem sendHeats_frame : ∀ s, Frame [.fab] s (sendHeats s) := by
  intro s
  unfold sendHeats
  try dsimp only [onHost, onMb]
  refine Frame.foldl ?_ ?_
  · exact Frame.refl _ _
  · intro _ _
    try dsimp only
    refine Frame.ite ?_ ?_
    · exact Frame.refl _ _
    · refine Frame.then ?_ (send_frame _ _ _) rfl
      exact Frame.refl _ _

theorem sendLogs_frame : ∀ s, Frame [.place, .fab] s (sendLogs s) := by
  intro s
  unfold sendLogs
  try dsimp only [onHost, onMb]
  refine Frame.then ?_ frame_set_place rfl
  refine Frame.foldl ?_ ?_
  · exact Frame.refl _ _
  · intro _ _
    try dsimp only
    refine Frame.then ?_ (send_frame _ _ _) rfl
    exact Frame.refl _ _

theorem listOfSnap_frame : ∀ s key a hot es, Frame [.counters, .lists, .place, .flash, .nvMisc] s (listOfSnap s key a hot es) := by
  intro s key a hot es
  unfold listOfSnap
  dsimp only
  refine Frame.then ?_ (addMirrors_frame _ _ _) rfl
  refine Frame.then ?_ (setList_frame _ _) rfl
  refine Frame.foldl1 (Frame.refl _ _) ?_
  intro _ _
  split
  · exact Frame.then (Frame.refl _ _) frame_set_nv_retained rfl
  · exact Frame.then (Frame.refl _ _) (placeSegment_frame _ _ _) rfl

theorem onJob_frame : ∀ s key f, Frame [.place] s (onJob s key f) := by
  intro s key f
  unfold onJob
  try dsimp only [onHost, onMb]
  refine Frame.then ?_ frame_set_place rfl
  exact Frame.refl _ _

theorem countListPart_frame : ∀ s key mib last hot es, Frame [.counters, .lists, .place, .flash, .nvMisc] s (countListPart s key mib last hot es) := by
  intro s key mib last hot es
  unfold countListPart
  try dsimp only [onHost, onMb]
  split
  · try dsimp only
    exact Frame.refl _ _
  · try dsimp only
    refine Frame.ite ?_ ?_
    · exact Frame.refl _ _
    · refine Frame.ite ?_ ?_
      · refine Frame.then ?_ (listOfSnap_frame _ _ _ _ _) rfl
        refine Frame.then ?_ (onJob_frame _ _ _) rfl
        exact Frame.refl _ _
      · refine Frame.then ?_ (onJob_frame _ _ _) rfl
        exact Frame.refl _ _

theorem hotDecision_frame : ∀ s key heat, Frame [.counters, .lists] s (hotDecision s key heat) := by
  intro s key heat
  unfold hotDecision
  try dsimp only [onHost, onMb]
  split
  · try dsimp only
    exact Frame.refl _ _
  · try dsimp only
    refine Frame.ite ?_ ?_
    · exact Frame.refl _ _
    · refine Frame.ite ?_ ?_
      · refine Frame.ite ?_ ?_
        · exact Frame.refl _ _
        · refine Frame.ite ?_ ?_
          · refine Frame.then ?_ (setList_frame _ _) rfl
            exact Frame.refl _ _
          · refine Frame.then ?_ (bump_frame _ _ _) rfl
            exact Frame.refl _ _
      · refine Frame.ite ?_ ?_
        · refine Frame.ite ?_ ?_
          · refine Frame.then ?_ (setList_frame _ _) rfl
            exact Frame.refl _ _
          · refine Frame.then ?_ (setList_frame _ _) rfl
            exact Frame.refl _ _
        · exact Frame.refl _ _

theorem countHeat_frame : ∀ s hs, Frame [.counters, .lists, .place] s (countHeat s hs) := by
  intro s hs
  unfold countHeat
  try dsimp only [onHost, onMb]
  refine Frame.foldl ?_ ?_
  · exact Frame.refl _ _
  · intro _ _
    try dsimp only
    refine Frame.ite ?_ ?_
    · refine Frame.then ?_ frame_set_place rfl
      exact Frame.refl _ _
    · refine Frame.then ?_ (hotDecision_frame _ _ _) rfl
      exact Frame.refl _ _

theorem replayRec_frame : ∀ key kept s r, Frame [.lists] s (replayRec key kept s r) := by
  intro key kept s r
  unfold replayRec
  try dsimp only [onHost, onMb]
  split
  · try dsimp only
    exact Frame.refl _ _
  · try dsimp only
    split
    · try dsimp only
      refine Frame.ite ?_ ?_
      · exact Frame.refl _ _
      · refine Frame.then ?_ (setList_frame _ _) rfl
        exact Frame.refl _ _
    · try dsimp only
      refine Frame.then ?_ (setList_frame _ _) rfl
      exact Frame.refl _ _

theorem countMoveLog_frame : ∀ s key turn rs, Frame [.counters, .lists, .place] s (countMoveLog s key turn rs) := by
  intro s key turn rs
  unfold countMoveLog
  try dsimp only [onHost, onMb]
  split
  · try dsimp only
    exact Frame.refl _ _
  · try dsimp only
    refine Frame.ite ?_ ?_
    · refine Frame.then ?_ (bump_frame _ _ _) rfl
      refine Frame.then ?_ frame_set_place rfl
      refine Frame.foldl ?_ ?_
      · exact Frame.refl _ _
      · intro _ _
        try dsimp only
        refine Frame.then ?_ (replayRec_frame _ _ _ _) rfl
        exact Frame.refl _ _
    · refine Frame.then ?_ frame_set_place rfl
      refine Frame.then ?_ (onJob_frame _ _ _) rfl
      exact Frame.refl _ _

theorem readEye_frame : ∀ s e, Frame [.doms, .counters, .queues, .rings, .errorLog] s (readEye s e) := by
  intro s e
  unfold readEye
  try dsimp only [onHost, onMb]
  refine Frame.ite ?_ ?_
  · refine Frame.then ?_ (postEvent_frame _ _ _) rfl
    refine Frame.then ?_ (setDom_frame _ _ _) rfl
    exact Frame.refl _ _
  · refine Frame.then ?_ (setDom_frame _ _ _) rfl
    exact Frame.refl _ _

theorem readChannel_frame : ∀ s h, Frame [.objs] s (readChannel s h) := by
  intro s h
  unfold readChannel
  try dsimp only [onHost, onMb]
  refine Frame.then ?_ (setObj_frame _ _ _) rfl
  refine Frame.then ?_ (setObj_frame _ _ _) rfl
  refine Frame.then ?_ (setObj_frame _ _ _) rfl
  refine Frame.then ?_ (setObj_frame _ _ _) rfl
  exact Frame.refl _ _

theorem readModule_frame : ∀ s m, Frame [.objs, .counters, .queues, .rings, .errorLog] s (readModule s m) := by
  intro s m
  unfold readModule
  try dsimp only [onHost, onMb]
  refine Frame.ite ?_ ?_
  · exact Frame.refl _ _
  · refine Frame.ite ?_ ?_
    · refine Frame.then ?_ (setObj_frame _ _ _) rfl
      refine Frame.then ?_ (setObj_frame _ _ _) rfl
      refine Frame.then ?_ (setObj_frame _ _ _) rfl
      exact Frame.refl _ _
    · refine Frame.then ?_ (postEvent_frame _ _ _) rfl
      refine Frame.then ?_ (setObj_frame _ _ _) rfl
      refine Frame.then ?_ (setObj_frame _ _ _) rfl
      refine Frame.then ?_ (setObj_frame _ _ _) rfl
      exact Frame.refl _ _

theorem reviewDrop_frame : ∀ s key, Frame [.ledger] s (reviewDrop s key) := by
  intro s key
  unfold reviewDrop
  try dsimp only [onHost, onMb]
  refine Frame.ite ?_ ?_
  · refine Frame.ite ?_ ?_
    · exact Frame.refl _ _
    · split
      · try dsimp only
        exact Frame.refl _ _
      · try dsimp only
        refine Frame.then ?_ (ledgerRequest_frame _ _) rfl
        exact Frame.refl _ _
  · exact Frame.refl _ _

theorem reviewGroup_frame : ∀ s t1 g, Frame [.comp] s (reviewGroup s t1 g) := by
  intro s t1 g
  unfold reviewGroup
  try dsimp only [onHost, onMb]
  split
  · try dsimp only
    exact Frame.refl _ _
  · try dsimp only
    refine Frame.ite ?_ ?_
    · refine Frame.then ?_ (onGroup_frame _ _ _ _) rfl
      exact Frame.refl _ _
    · refine Frame.ite ?_ ?_
      · refine Frame.ite ?_ ?_
        · refine Frame.then ?_ (startGroupMove_frame _ _ _ _) rfl
          refine Frame.then ?_ (onGroup_frame _ _ _ _) rfl
          exact Frame.refl _ _
        · refine Frame.then ?_ (onGroup_frame _ _ _ _) rfl
          exact Frame.refl _ _
      · refine Frame.ite ?_ ?_
        · refine Frame.then ?_ (onGroup_frame _ _ _ _) rfl
          refine Frame.then ?_ (startGroupMove_frame _ _ _ _) rfl
          refine Frame.then ?_ (onGroup_frame _ _ _ _) rfl
          exact Frame.refl _ _
        · refine Frame.then ?_ (onGroup_frame _ _ _ _) rfl
          exact Frame.refl _ _

theorem proposeCopy_frame : ∀ s key target move, Frame [.ledger] s (proposeCopy s key target move) := by
  intro s key target move
  unfold proposeCopy
  try dsimp only [onHost, onMb]
  refine Frame.then ?_ (ledgerRequest_frame _ _) rfl
  exact Frame.refl _ _

theorem reviewMove_frame : ∀ heatPct ms s, Frame [.ledger] s (reviewMove heatPct ms s) := by
  intro heatPct ms s
  unfold reviewMove
  try dsimp only [onHost, onMb]
  refine Frame.ite ?_ ?_
  · split
    · try dsimp only
      refine Frame.ite ?_ ?_
      · split
        · try dsimp only
          exact Frame.refl _ _
        · try dsimp only
          split
          · try dsimp only
            exact Frame.refl _ _
          · try dsimp only
            refine Frame.ite ?_ ?_
            · refine Frame.then ?_ (proposeCopy_frame _ _ _ _) rfl
              exact Frame.refl _ _
            · exact Frame.refl _ _
      · exact Frame.refl _ _
    · try dsimp only
      split
      · try dsimp only
        refine Frame.ite ?_ ?_
        · split
          · try dsimp only
            exact Frame.refl _ _
          · try dsimp only
            split
            · try dsimp only
              exact Frame.refl _ _
            · try dsimp only
              refine Frame.ite ?_ ?_
              · refine Frame.then ?_ (proposeCopy_frame _ _ _ _) rfl
                exact Frame.refl _ _
              · exact Frame.refl _ _
        · exact Frame.refl _ _
      · try dsimp only
        refine Frame.ite ?_ ?_
        · refine Frame.then ?_ (proposeCopy_frame _ _ _ _) rfl
          refine Frame.ite ?_ ?_
          · split
            · try dsimp only
              exact Frame.refl _ _
            · try dsimp only
              split
              · try dsimp only
                exact Frame.refl _ _
              · try dsimp only
                refine Frame.ite ?_ ?_
                · refine Frame.then ?_ (proposeCopy_frame _ _ _ _) rfl
                  exact Frame.refl _ _
                · exact Frame.refl _ _
          · exact Frame.refl _ _
        · refine Frame.ite ?_ ?_
          · split
            · try dsimp only
              exact Frame.refl _ _
            · try dsimp only
              split
              · try dsimp only
                exact Frame.refl _ _
              · try dsimp only
                refine Frame.ite ?_ ?_
                · refine Frame.then ?_ (proposeCopy_frame _ _ _ _) rfl
                  exact Frame.refl _ _
                · exact Frame.refl _ _
          · exact Frame.refl _ _
  · refine Frame.ite ?_ ?_
    · split
      · try dsimp only
        exact Frame.refl _ _
      · try dsimp only
        split
        · try dsimp only
          exact Frame.refl _ _
        · try dsimp only
          refine Frame.ite ?_ ?_
          · refine Frame.then ?_ (proposeCopy_frame _ _ _ _) rfl
            exact Frame.refl _ _
          · exact Frame.refl _ _
    · exact Frame.refl _ _

theorem reviewRebuild_frame : ∀ s key, Frame [.ledger] s (reviewRebuild s key) := by
  intro s key
  unfold reviewRebuild
  try dsimp only [onHost, onMb]
  split
  · try dsimp only
    exact Frame.refl _ _
  · try dsimp only
    refine Frame.ite ?_ ?_
    · refine Frame.then ?_ (proposeCopy_frame _ _ _ _) rfl
      exact Frame.refl _ _
    · exact Frame.refl _ _

theorem reviewReplica_frame : ∀ ms want s key, Frame [.ledger] s (reviewReplica ms want s key) := by
  intro ms want s key
  unfold reviewReplica
  try dsimp only [onHost, onMb]
  refine Frame.ite ?_ ?_
  · exact Frame.refl _ _
  · split
    · try dsimp only
      exact Frame.refl _ _
    · try dsimp only
      refine Frame.then ?_ (proposeCopy_frame _ _ _ _) rfl
      exact Frame.refl _ _

theorem doReview_frame : ∀ s heatPct ms modules eyes life health, Frame [.objs, .doms, .counters, .queues, .rings, .comp, .lists, .place, .fab, .ledger, .errorLog] s (doReview s heatPct ms modules eyes life health) := by
  intro s heatPct ms modules eyes life health
  unfold doReview
  try dsimp only [onHost, onMb]
  refine Frame.ite ?_ ?_
  · exact Frame.refl _ _
  · refine Frame.then ?_ frame_set_place rfl
    refine Frame.foldl ?_ ?_
    · refine Frame.foldl ?_ ?_
      · refine Frame.then ?_ (reviewMove_frame _ _ _) rfl
        refine Frame.foldl ?_ ?_
        · refine Frame.foldl ?_ ?_
          · refine Frame.foldl ?_ ?_
            · refine Frame.foldl ?_ ?_
              · refine Frame.then ?_ frame_set_place rfl
                refine Frame.then ?_ (setObj_frame _ _ _) rfl
                refine Frame.foldl ?_ ?_
                · refine Frame.foldl ?_ ?_
                  · refine Frame.foldl ?_ ?_
                    · exact Frame.refl _ _
                    · intro _ _
                      try dsimp only
                      refine Frame.then ?_ (readModule_frame _ _) rfl
                      exact Frame.refl _ _
                  · intro _ _
                    try dsimp only
                    refine Frame.then ?_ (readEye_frame _ _) rfl
                    exact Frame.refl _ _
                · intro _ _
                  try dsimp only
                  refine Frame.then ?_ (readChannel_frame _ _) rfl
                  exact Frame.refl _ _
              · intro _ _
                try dsimp only
                refine Frame.then ?_ (sendAll_frame _ _ _) rfl
                refine Frame.then ?_ (hotDecision_frame _ _ _) rfl
                exact Frame.refl _ _
            · intro _ _
              try dsimp only
              refine Frame.then ?_ (reviewRebuild_frame _ _) rfl
              exact Frame.refl _ _
          · intro _ _
            try dsimp only
            refine Frame.then ?_ (reviewReplica_frame _ _ _ _) rfl
            exact Frame.refl _ _
        · intro _ _
          try dsimp only
          refine Frame.then ?_ (reviewReplica_frame _ _ _ _) rfl
          exact Frame.refl _ _
      · intro _ _
        try dsimp only
        refine Frame.then ?_ (reviewDrop_frame _ _) rfl
        exact Frame.refl _ _
    · intro _ _
      try dsimp only
      refine Frame.foldl ?_ ?_
      · exact Frame.refl _ _
      · intro _ _
        try dsimp only
        refine Frame.then ?_ (reviewGroup_frame _ _ _) rfl
        exact Frame.refl _ _

theorem dropJob_frame : ∀ s j, Frame [.counters, .lists, .place, .flash] s (dropJob s j) := by
  intro s j
  unfold dropJob
  try dsimp only [onHost, onMb]
  refine Frame.ite ?_ ?_
  · refine Frame.then ?_ (freeCopy_frame _ _) rfl
    refine Frame.then ?_ frame_set_place rfl
    exact Frame.refl _ _
  · refine Frame.then ?_ frame_set_place rfl
    exact Frame.refl _ _

theorem abortJob_frame : ∀ cause s j, Frame [.counters, .queues, .rings, .lists, .place, .flash, .ledger, .errorLog] s (abortJob cause s j) := by
  intro cause s j
  unfold abortJob
  try dsimp only [onHost, onMb]
  refine Frame.then ?_ (bump_frame _ _ _) rfl
  refine Frame.then ?_ (postEvent_frame _ _ _) rfl
  refine Frame.then ?_ (ledgerRequest_frame _ _) rfl
  refine Frame.then ?_ (dropJob_frame _ _) rfl
  exact Frame.refl _ _

theorem abortJobs_frame : ∀ s, Frame [.counters, .queues, .rings, .lists, .place, .flash, .ledger, .errorLog] s (abortJobs s) := by
  intro s
  unfold abortJobs
  try dsimp only [onHost, onMb]
  refine Frame.foldl ?_ ?_
  · exact Frame.refl _ _
  · intro _ _
    try dsimp only
    refine Frame.then ?_ (abortJob_frame _ _ _) rfl
    exact Frame.refl _ _

theorem copiesAtBoundary_frame : ∀ s n, Frame [.place] s (copiesAtBoundary s n) := by
  intro s n
  unfold copiesAtBoundary
  try dsimp only [onHost, onMb]
  refine Frame.then ?_ frame_set_place rfl
  exact Frame.refl _ _

theorem heatAtBoundary_frame : ∀ s, Frame [.comp, .images, .remotes, .lists] s (heatAtBoundary s) := by
  intro s
  unfold heatAtBoundary
  try dsimp only [onHost, onMb]
  refine Frame.then ?_ frame_set_comp_images_remotes_lists rfl
  exact Frame.refl _ _

theorem hotAtBoundary_frame : ∀ s n, Frame [.lists] s (hotAtBoundary s n) := by
  intro s n
  unfold hotAtBoundary
  try dsimp only [onHost, onMb]
  refine Frame.then ?_ frame_set_lists rfl
  exact Frame.refl _ _

theorem applyList_frame : ∀ s from1 key new n, Frame [.counters, .lists, .place, .flash, .ledger] s (applyList s from1 key new n) := by
  intro s from1 key new n
  unfold applyList
  try dsimp only [onHost, onMb]
  refine Frame.then ?_ frame_set_place_ledger rfl
  refine Frame.foldl ?_ ?_
  · exact Frame.refl _ _
  · intro _ _
    try dsimp only
    refine Frame.then ?_ (dropJob_frame _ _) rfl
    exact Frame.refl _ _

theorem finishCopy_frame : ∀ s node key a n, Frame [.counters, .queues, .rings, .place, .ledger, .errorLog] s (finishCopy s node key a n) := by
  intro s node key a n
  unfold finishCopy
  try dsimp only [onHost, onMb]
  split
  · try dsimp only
    exact Frame.refl _ _
  · try dsimp only
    split
    · try dsimp only
      refine Frame.then ?_ frame_set_ledger rfl
      exact Frame.refl _ _
    · try dsimp only
      refine Frame.then ?_ (bump_frame _ _ _) rfl
      refine Frame.then ?_ (postEvent_frame _ _ _) rfl
      refine Frame.then ?_ (onJob_frame _ _ _) rfl
      refine Frame.then ?_ frame_set_ledger rfl
      exact Frame.refl _ _

theorem mirrorFailed_frame : ∀ s r, Frame [.objs, .counters, .queues, .rings, .place, .errorLog] s (mirrorFailed s r) := by
  intro s r
  unfold mirrorFailed
  try dsimp only [onHost, onMb]
  refine Frame.then ?_ (postEvent_frame _ _ _) rfl
  refine Frame.then ?_ (dropMirrors_frame _ _) rfl
  refine Frame.then ?_ (setObj_frame _ _ _) rfl
  refine Frame.then ?_ (bump_frame _ _ _) rfl
  exact Frame.refl _ _

theorem readMirrors_frame : ∀ s1 key1 bad1, Frame [.objs, .counters, .queues, .rings, .place, .errorLog] s1 (readMirrors s1 key1 bad1) := by
  intro s key bad
  unfold readMirrors
  cases bad with
  | none => exact Frame.refl _ _
  | some r =>
    refine Frame.ite ?_ (Frame.refl _ _)
    exact Frame.then (Frame.refl _ _) (mirrorFailed_frame _ _) rfl

theorem doSnapshotTransfer_frame : ∀ s key mirrorBad, Frame [.objs, .counters, .queues, .rings, .place, .fab, .errorLog] s (doSnapshotTransfer s key mirrorBad) := by
  intro s key mirrorBad
  unfold doSnapshotTransfer
  try dsimp only [onHost, onMb]
  split
  · try dsimp only
    exact Frame.refl _ _
  · try dsimp only
    refine Frame.ite ?_ ?_
    · exact Frame.refl _ _
    · refine Frame.then ?_ (send_frame _ _ _) rfl
      refine Frame.then ?_ (onJob_frame _ _ _) rfl
      refine Frame.then ?_ (bump_frame _ _ _) rfl
      refine Frame.then ?_ frame_set_place rfl
      refine Frame.then ?_ (readMirrors_frame _ _ _) rfl
      exact Frame.refl _ _

theorem execCopySnapshotTransfer_frame : ∀ key mirrorBad s t, execCopySnapshotTransfer key mirrorBad s = .next t → Frame [.objs, .counters, .queues, .rings, .place, .fab, .errorLog] s t := by
  intro key mirrorBad s t h
  unfold execCopySnapshotTransfer at h
  injection h with h
  subst h
  try dsimp only [onHost, onMb]
  refine Frame.then ?_ (doSnapshotTransfer_frame _ _ _) rfl
  exact Frame.refl _ _

theorem doCopyAbort_frame : ∀ s key cause, Frame [.counters, .queues, .rings, .lists, .place, .flash, .ledger, .errorLog] s (doCopyAbort s key cause) := by
  intro s key cause
  unfold doCopyAbort
  try dsimp only [onHost, onMb]
  split
  · try dsimp only
    exact Frame.refl _ _
  · try dsimp only
    refine Frame.ite ?_ ?_
    · refine Frame.then ?_ (abortJob_frame _ _ _) rfl
      exact Frame.refl _ _
    · exact Frame.refl _ _

theorem doLogReplay_frame : ∀ s key, Frame [.counters, .lists, .place, .ledger] s (doLogReplay s key) := by
  intro s key
  unfold doLogReplay
  try dsimp only [onHost, onMb]
  split
  · try dsimp only
    exact Frame.refl _ _
  · try dsimp only
    refine Frame.ite ?_ ?_
    · exact Frame.refl _ _
    · refine Frame.then ?_ (ledgerRequest_frame _ _) rfl
      refine Frame.then ?_ (bump_frame _ _ _) rfl
      refine Frame.then ?_ (onJob_frame _ _ _) rfl
      refine Frame.foldl ?_ ?_
      · split
        · try dsimp only
          exact Frame.refl _ _
        · try dsimp only
          refine Frame.then ?_ (setList_frame _ _) rfl
          exact Frame.refl _ _
      · intro _ _
        try dsimp only
        refine Frame.then ?_ (replayRec_frame _ _ _ _) rfl
        exact Frame.refl _ _

theorem execLogReplay_frame : ∀ key s t, execLogReplay key s = .next t → Frame [.counters, .lists, .place, .ledger] s t := by
  intro key s t h
  unfold execLogReplay at h
  injection h with h
  subst h
  try dsimp only [onHost, onMb]
  refine Frame.then ?_ (doLogReplay_frame _ _) rfl
  exact Frame.refl _ _

theorem execRangeDrainComplete_frame : ∀ range s t, execRangeDrainComplete range s = .next t → Frame [.place] s t := by
  intro range s t h
  unfold execRangeDrainComplete at h
  injection h with h
  subst h
  try dsimp only [onHost, onMb]
  refine Frame.ite ?_ ?_
  · refine Frame.then ?_ frame_set_place rfl
    exact Frame.refl _ _
  · exact Frame.refl _ _

theorem execPlacementReview_frame : ∀ heatPct members modules eyes lifePct health s t, execPlacementReview heatPct members modules eyes lifePct health s = .next t → Frame [.objs, .doms, .counters, .queues, .rings, .comp, .lists, .place, .fab, .ledger, .errorLog] s t := by
  intro heatPct members modules eyes lifePct health s t h
  unfold execPlacementReview at h
  injection h with h
  subst h
  try dsimp only [onHost, onMb]
  refine Frame.then ?_ (doReview_frame _ _ _ _ _ _ _) rfl
  exact Frame.refl _ _

theorem execCopyAbort_frame : ∀ key cause s t, execCopyAbort key cause s = .next t → Frame [.counters, .queues, .rings, .lists, .place, .flash, .ledger, .errorLog] s t := by
  intro key cause s t h
  unfold execCopyAbort at h
  injection h with h
  subst h
  try dsimp only [onHost, onMb]
  refine Frame.then ?_ (doCopyAbort_frame _ _ _) rfl
  exact Frame.refl _ _

theorem execCopyDrop_frame : ∀ coll s t, execCopyDrop coll s = .next t → Frame [.counters, .queues, .rings, .lists, .place, .fab, .ledger, .errorLog] s t := by
  intro coll s t h
  unfold execCopyDrop at h
  injection h with h
  subst h
  try dsimp only [onHost, onMb]
  refine Frame.then ?_ (doCopyDrop_frame _ _) rfl
  exact Frame.refl _ _

theorem doCopyStart_frame : ∀ s key, Frame [.counters, .lists, .place, .flash] s (doCopyStart s key) := by
  intro s key
  unfold doCopyStart
  try dsimp only [onHost, onMb]
  split
  · try dsimp only
    exact Frame.refl _ _
  · try dsimp only
    refine Frame.ite ?_ ?_
    · exact Frame.refl _ _
    · refine Frame.ite ?_ ?_
      · split
        · try dsimp only
          exact Frame.refl _ _
        · try dsimp only
          refine Frame.ite ?_ ?_
          · exact Frame.refl _ _
          · refine Frame.then ?_ (onJob_frame _ _ _) rfl
            refine Frame.ite ?_ ?_
            · refine Frame.then ?_ (bump_frame _ _ _) rfl
              exact Frame.refl _ _
            · exact Frame.refl _ _
      · refine Frame.then ?_ (onJob_frame _ _ _) rfl
        refine Frame.then ?_ (freeCopy_frame _ _) rfl
        exact Frame.refl _ _

theorem execCopyStart_frame : ∀ key s t, execCopyStart key s = .next t → Frame [.counters, .lists, .place, .flash] s t := by
  intro key s t h
  unfold execCopyStart at h
  injection h with h
  subst h
  try dsimp only [onHost, onMb]
  refine Frame.then ?_ (doCopyStart_frame _ _) rfl
  exact Frame.refl _ _

theorem execHotCopyComplete_frame : ∀ key mirrorBad s t, execHotCopyComplete key mirrorBad s = .next t → Frame [.objs, .counters, .queues, .rings, .lists, .place, .errorLog] s t := by
  intro key mirrorBad s t h
  unfold execHotCopyComplete at h
  injection h with h
  subst h
  try dsimp only [onHost, onMb]
  split
  · try dsimp only
    exact Frame.refl _ _
  · try dsimp only
    refine Frame.ite ?_ ?_
    · refine Frame.then ?_ (setList_frame _ _) rfl
      refine Frame.then ?_ (readMirrors_frame _ _ _) rfl
      exact Frame.refl _ _
    · exact Frame.refl _ _

end Sys2Proof.Machine
end

