-- ==== Sys2Proof/Laws/FrameLedgerOps.lean ====
section
/-! SUPPORT. Which parts of the state the functions of Machine/LedgerOps.lean may change. -/

set_option maxRecDepth 4000

namespace Sys2Proof.Machine

open Sys2Proof

theorem freshMember_frame : ∀ s, Frame [.turnMisc, .remotes, .acts, .colls, .lists, .queries, .units, .ing, .place, .fab, .ledger] s (freshMember s) := by
  intro s
  unfold freshMember
  try dsimp only [onHost, onMb]
  refine Frame.then ?_ frame_set_turn_alignBad_and_14_more rfl
  exact Frame.refl _ _

theorem recordLinks_frame : ∀ s, Frame [.ledger] s (recordLinks s) := by
  intro s
  unfold recordLinks
  try dsimp only [onHost, onMb]
  refine Frame.foldl ?_ ?_
  · exact Frame.refl _ _
  · intro _ _
    try dsimp only
    refine Frame.then ?_ (linkRecord_frame _ _ _) rfl
    exact Frame.refl _ _

theorem doFound_frame : ∀ s, Frame [.objs, .turnMisc, .remotes, .acts, .colls, .lists, .queries, .units, .ing, .place, .fab, .ledger, .ras] s (doFound s) := by
  intro s
  unfold doFound
  try dsimp only [onHost, onMb]
  refine Frame.ite ?_ ?_
  · refine Frame.then ?_ (setObj_frame _ _ _) rfl
    exact Frame.refl _ _
  · refine Frame.then ?_ (setObj_frame _ _ _) rfl
    refine Frame.then ?_ (recordLinks_frame _) rfl
    refine Frame.then ?_ frame_set_ing_ledger_ras rfl
    refine Frame.then ?_ (freshMember_frame _) rfl
    exact Frame.refl _ _

theorem sendJoin_frame : ∀ s, Frame [.ledger, .out] s (sendJoin s) := by
  intro s
  unfold sendJoin
  try dsimp only [onHost, onMb]
  refine Frame.ite ?_ ?_
  · exact Frame.refl _ _
  · split
    · try dsimp only
      exact Frame.refl _ _
    · try dsimp only
      refine Frame.then ?_ (emit_frame _ _) rfl
      refine Frame.then ?_ frame_set_ledger rfl
      exact Frame.refl _ _

theorem doJoin_frame : ∀ s, Frame [.objs, .ledger, .out] s (doJoin s) := by
  intro s
  unfold doJoin
  try dsimp only [onHost, onMb]
  refine Frame.ite ?_ ?_
  · refine Frame.then ?_ (setObj_frame _ _ _) rfl
    exact Frame.refl _ _
  · refine Frame.then ?_ (sendJoin_frame _) rfl
    refine Frame.then ?_ (setObj_frame _ _ _) rfl
    refine Frame.then ?_ frame_set_ledger rfl
    exact Frame.refl _ _

theorem sendHeartbeats_frame : ∀ s, Frame [.out] s (sendHeartbeats s) := by
  intro s
  unfold sendHeartbeats
  try dsimp only [onHost, onMb]
  refine Frame.ite ?_ ?_
  · refine Frame.foldl ?_ ?_
    · exact Frame.refl _ _
    · intro _ _
      try dsimp only
      refine Frame.then ?_ (emit_frame _ _) rfl
      exact Frame.refl _ _
  · exact Frame.refl _ _

theorem countBeat_frame : ∀ s, Frame [.ledger] s (countBeat s) := by
  intro s
  unfold countBeat
  try dsimp only [onHost, onMb]
  refine Frame.ite ?_ ?_
  · refine Frame.then ?_ frame_set_ledger rfl
    exact Frame.refl _ _
  · exact Frame.refl _ _

theorem countCentroids_frame : ∀ s c version rows entries edges, Frame [.colls] s (countCentroids s c version rows entries edges) := by
  intro s c version rows entries edges
  unfold countCentroids
  try dsimp only [onHost, onMb]
  split
  · try dsimp only
    exact Frame.refl _ _
  · try dsimp only
    refine Frame.then ?_ (setColl_frame _ _ _) rfl
    exact Frame.refl _ _

theorem countImageCopy_frame : ∀ s src c b, Frame [.colls] s (countImageCopy s src c b) := by
  intro s src c b
  unfold countImageCopy
  try dsimp only [onHost, onMb]
  refine Frame.ite ?_ ?_
  · split
    · try dsimp only
      exact Frame.refl _ _
    · try dsimp only
      refine Frame.then ?_ (setColl_frame _ _ _) rfl
      exact Frame.refl _ _
  · refine Frame.then ?_ (setColl_frame _ _ _) rfl
    exact Frame.refl _ _

theorem addMember_frame : ∀ s m n, Frame [.ing, .ledger] s (addMember s m n) := by
  intro s m n
  unfold addMember
  try dsimp only [onHost, onMb]
  refine Frame.ite ?_ ?_
  · exact Frame.refl _ _
  · refine Frame.then ?_ frame_set_ing_ledger rfl
    exact Frame.refl _ _

theorem loadRec_frame : ∀ s r, Frame [.objs, .colls, .ing, .ledger] s (loadRec s r) := by
  intro s r
  unfold loadRec
  try dsimp only [onHost, onMb]
  split
  · try dsimp only
    refine Frame.then ?_ (addMember_frame _ _ _) rfl
    exact Frame.refl _ _
  · try dsimp only
    refine Frame.then ?_ frame_set_ledger rfl
    exact Frame.refl _ _
  · try dsimp only
    refine Frame.ite ?_ ?_
    · refine Frame.then ?_ (setColl_frame _ _ _) rfl
      exact Frame.refl _ _
    · refine Frame.then ?_ (setObj_frame _ _ _) rfl
      exact Frame.refl _ _
  · try dsimp only
    refine Frame.then ?_ frame_set_ledger rfl
    exact Frame.refl _ _
  · try dsimp only
    refine Frame.then ?_ frame_set_ledger rfl
    exact Frame.refl _ _
  · try dsimp only
    refine Frame.then ?_ frame_set_ledger rfl
    exact Frame.refl _ _
  · try dsimp only
    refine Frame.then ?_ frame_set_ledger rfl
    exact Frame.refl _ _
  · try dsimp only
    refine Frame.then ?_ frame_set_ledger rfl
    exact Frame.refl _ _
  · try dsimp only
    refine Frame.ite ?_ ?_
    · refine Frame.ite ?_ ?_
      · exact Frame.refl _ _
      · refine Frame.then ?_ (setObj_frame _ _ _) rfl
        exact Frame.refl _ _
    · refine Frame.then ?_ (setObj_frame _ _ _) rfl
      refine Frame.then ?_ (setObj_frame _ _ _) rfl
      exact Frame.refl _ _
  · try dsimp only
    refine Frame.then ?_ frame_set_ing rfl
    exact Frame.refl _ _
  · try dsimp only
    refine Frame.then ?_ frame_set_ing rfl
    exact Frame.refl _ _
  · try dsimp only
    refine Frame.then ?_ frame_set_ing rfl
    exact Frame.refl _ _
  · try dsimp only
    exact Frame.refl _ _

theorem reroute_frame : ∀ s, Frame [.fab] s (reroute s) := by
  intro s
  unfold reroute
  try dsimp only [onHost, onMb]
  refine Frame.then ?_ frame_set_fab rfl
  exact Frame.refl _ _

theorem countLedgerCopy_frame : ∀ s rs, Frame [.objs, .colls, .ing, .fab, .ledger] s (countLedgerCopy s rs) := by
  intro s rs
  unfold countLedgerCopy
  try dsimp only [onHost, onMb]
  refine Frame.ite ?_ ?_
  · exact Frame.refl _ _
  · refine Frame.then ?_ (reroute_frame _) rfl
    refine Frame.foldl ?_ ?_
    · exact Frame.refl _ _
    · intro _ _
      try dsimp only
      refine Frame.then ?_ (loadRec_frame _ _) rfl
      exact Frame.refl _ _

theorem countEpoch_frame : ∀ s e, Frame [.objs, .counters, .queues, .rings, .turnMisc, .ledger, .errorLog] s (countEpoch s e) := by
  intro s e
  unfold countEpoch
  try dsimp only [onHost, onMb]
  refine Frame.ite ?_ ?_
  · refine Frame.then ?_ (postEvent_frame _ _ _) rfl
    refine Frame.then ?_ (setObj_frame _ _ _) rfl
    refine Frame.then ?_ frame_set_ledger rfl
    exact Frame.refl _ _
  · refine Frame.ite ?_ ?_
    · exact Frame.refl _ _
    · refine Frame.ite ?_ ?_
      · refine Frame.then ?_ frame_set_ledger rfl
        exact Frame.refl _ _
      · refine Frame.ite ?_ ?_
        · refine Frame.then ?_ (withdrawSoon_frame _) rfl
          refine Frame.then ?_ (postEvent_frame _ _ _) rfl
          refine Frame.then ?_ frame_set_ledger rfl
          refine Frame.then ?_ frame_set_ledger rfl
          exact Frame.refl _ _
        · refine Frame.then ?_ (postEvent_frame _ _ _) rfl
          refine Frame.then ?_ frame_set_ledger rfl
          refine Frame.then ?_ frame_set_ledger rfl
          exact Frame.refl _ _

theorem countLedgerReq_frame : ∀ s r, Frame [.ledger] s (countLedgerReq s r) := by
  intro s r
  unfold countLedgerReq
  try dsimp only [onHost, onMb]
  refine Frame.ite ?_ ?_
  · refine Frame.then ?_ frame_set_ledger rfl
    exact Frame.refl _ _
  · exact Frame.refl _ _

theorem doVote_frame : ∀ s cands votes, Frame [.ledger, .out] s (doVote s cands votes) := by
  intro s cands votes
  unfold doVote
  try dsimp only [onHost, onMb]
  refine Frame.ite ?_ ?_
  · exact Frame.refl _ _
  · refine Frame.ite ?_ ?_
    · refine Frame.then ?_ frame_set_ledger rfl
      split
      · try dsimp only
        exact Frame.refl _ _
      · try dsimp only
        refine Frame.ite ?_ ?_
        · refine Frame.then ?_ frame_set_ledger rfl
          exact Frame.refl _ _
        · refine Frame.then ?_ (emit_frame _ _) rfl
          refine Frame.then ?_ frame_set_ledger rfl
          exact Frame.refl _ _
    · split
      · try dsimp only
        exact Frame.refl _ _
      · try dsimp only
        refine Frame.ite ?_ ?_
        · refine Frame.then ?_ frame_set_ledger rfl
          exact Frame.refl _ _
        · refine Frame.then ?_ (emit_frame _ _) rfl
          refine Frame.then ?_ frame_set_ledger rfl
          exact Frame.refl _ _

theorem copyLedger_frame : ∀ s node, Frame [.fab] s (copyLedger s node) := by
  intro s node
  unfold copyLedger
  try dsimp only [onHost, onMb]
  refine Frame.foldl ?_ ?_
  · refine Frame.then ?_ (send_frame _ _ _) rfl
    exact Frame.refl _ _
  · intro _ _
    try dsimp only
    split
    · try dsimp only
      exact Frame.refl _ _
    · try dsimp only
      refine Frame.then ?_ (send_frame _ _ _) rfl
      refine Frame.then ?_ (send_frame _ _ _) rfl
      exact Frame.refl _ _

theorem electAtBoundary_frame : ∀ s n, Frame [.counters, .queues, .rings, .ledger, .errorLog] s (electAtBoundary s n) := by
  intro s n
  unfold electAtBoundary
  try dsimp only [onHost, onMb]
  refine Frame.ite ?_ ?_
  · exact Frame.refl _ _
  · refine Frame.then ?_ (postEvent_frame _ _ _) rfl
    refine Frame.then ?_ frame_set_ledger rfl
    refine Frame.then ?_ frame_set_ledger rfl
    exact Frame.refl _ _

theorem applyHolders_frame : ∀ s hs l t1, Frame [.counters, .queues, .rings, .fab, .ledger, .errorLog] s (applyHolders s hs l t1) := by
  intro s hs l t1
  unfold applyHolders
  try dsimp only [onHost, onMb]
  refine Frame.then ?_ frame_set_ledger rfl
  refine Frame.ite ?_ ?_
  · refine Frame.ite ?_ ?_
    · refine Frame.then ?_ (sendAll_frame _ _ _) rfl
      exact Frame.refl _ _
    · exact Frame.refl _ _
  · refine Frame.then ?_ (postEvent_frame _ _ _) rfl
    refine Frame.ite ?_ ?_
    · refine Frame.then ?_ (sendAll_frame _ _ _) rfl
      exact Frame.refl _ _
    · exact Frame.refl _ _

theorem recount_frame : ∀ s n, Frame [.counters, .colls, .lists, .ing, .place, .flash, .ledger] s (recount s n) := by
  intro s n
  unfold recount
  try dsimp only [onHost, onMb]
  refine Frame.foldl ?_ ?_
  · refine Frame.foldl ?_ ?_
    · refine Frame.then ?_ frame_set_ledger rfl
      exact Frame.refl _ _
    · intro _ _
      try dsimp only
      refine Frame.then ?_ (applyDrift_frame _ _ _ _) rfl
      exact Frame.refl _ _
  · intro _ _
    try dsimp only
    refine Frame.then ?_ (applyReshape_frame _ _ _) rfl
    exact Frame.refl _ _

theorem doEpochCommit_frame : ∀ s acks, Frame [.counters, .fab, .ledger] s (doEpochCommit s acks) := by
  intro s acks
  unfold doEpochCommit
  try dsimp only [onHost, onMb]
  split
  · try dsimp only
    exact Frame.refl _ _
  · try dsimp only
    refine Frame.ite ?_ ?_
    · exact Frame.refl _ _
    · refine Frame.ite ?_ ?_
      · refine Frame.then ?_ (sendAll_frame _ _ _) rfl
        refine Frame.then ?_ frame_set_ledger rfl
        exact Frame.refl _ _
      · refine Frame.then ?_ (bump_frame _ _ _) rfl
        refine Frame.then ?_ frame_set_ledger rfl
        refine Frame.then ?_ frame_set_ledger rfl
        exact Frame.refl _ _

theorem adoptGrid_frame : ∀ s g, Frame [.objs] s (adoptGrid s g) := by
  intro s g
  unfold adoptGrid
  try dsimp only [onHost, onMb]
  split
  · try dsimp only
    refine Frame.then ?_ (setObj_frame _ _ _) rfl
    refine Frame.then ?_ (setObj_frame _ _ _) rfl
    refine Frame.then ?_ (setObj_frame _ _ _) rfl
    exact Frame.refl _ _
  · try dsimp only
    exact Frame.refl _ _

theorem adoptTurn_frame : ∀ s effect, Frame [.txns, .queues, .rings, .turnNo, .turnMisc, .comp, .images, .ing, .scrMisc, .bslots, .sec, .clk] s (adoptTurn s effect) := by
  intro s effect
  unfold adoptTurn
  try dsimp only [onHost, onMb]
  refine Frame.then ?_ frame_set_dict_reqs_and_14_more rfl
  exact Frame.refl _ _

theorem admitSelf_frame : ∀ s e, Frame [.objs, .counters, .txns, .queues, .rings, .turnNo, .turnMisc, .comp, .images, .remotes, .acts, .colls, .lists, .queries, .units, .ing, .place, .scrMisc, .fab, .ledger, .bslots, .errorLog, .sec, .ras, .clk] s (admitSelf s e) := by
  intro s e
  unfold admitSelf
  try dsimp only [onHost, onMb]
  refine Frame.then ?_ (postEvent_frame _ _ _) rfl
  refine Frame.then ?_ (setObj_frame _ _ _) rfl
  refine Frame.then ?_ (setObj_frame _ _ _) rfl
  refine Frame.then ?_ (recordLinks_frame _) rfl
  refine Frame.then ?_ frame_set_ing_ledger_ras rfl
  refine Frame.then ?_ (adoptGrid_frame _ _) rfl
  refine Frame.then ?_ (adoptTurn_frame _ _) rfl
  refine Frame.then ?_ (freshMember_frame _) rfl
  exact Frame.refl _ _

theorem finishSalvage_frame : ∀ s node key omitted n, Frame [.counters, .queues, .rings, .ledger, .errorLog] s (finishSalvage s node key omitted n) := by
  intro s node key omitted n
  unfold finishSalvage
  try dsimp only [onHost, onMb]
  refine Frame.ite ?_ ?_
  · refine Frame.then ?_ (postEvent_frame _ _ _) rfl
    refine Frame.then ?_ frame_set_ledger rfl
    exact Frame.refl _ _
  · refine Frame.then ?_ frame_set_ledger rfl
    exact Frame.refl _ _

theorem applySegment_frame : ∀ s home slot seg p q settings, Frame [.objs, .images, .remotes, .ledger] s (applySegment s home slot seg p q settings) := by
  intro s home slot seg p q settings
  unfold applySegment
  try dsimp only [onHost, onMb]
  refine Frame.ite ?_ ?_
  · refine Frame.then ?_ frame_set_remotes_ledger rfl
    exact Frame.refl _ _
  · refine Frame.ite ?_ ?_
    · refine Frame.then ?_ frame_set_remotes_ledger rfl
      exact Frame.refl _ _
    · split
      · try dsimp only
        refine Frame.then ?_ frame_set_remotes_ledger rfl
        exact Frame.refl _ _
      · try dsimp only
        refine Frame.ite ?_ ?_
        · refine Frame.then ?_ (setObj_frame _ _ _) rfl
          refine Frame.then ?_ (setObj_frame _ _ _) rfl
          refine Frame.then ?_ (setImg_frame _ _ _) rfl
          refine Frame.then ?_ frame_set_remotes_ledger rfl
          exact Frame.refl _ _
        · refine Frame.then ?_ (setImg_frame _ _ _) rfl
          refine Frame.then ?_ frame_set_remotes_ledger rfl
          exact Frame.refl _ _

theorem execEpochCommit_frame : ∀ acks s t, execEpochCommit acks s = .next t → Frame [.counters, .fab, .ledger] s t := by
  intro acks s t h
  unfold execEpochCommit at h
  injection h with h
  subst h
  try dsimp only [onHost, onMb]
  refine Frame.then ?_ (doEpochCommit_frame _ _) rfl
  exact Frame.refl _ _

theorem segsWithout_frame : ∀ s d, Frame [.counters, .queues, .rings, .images, .remotes, .ledger, .errorLog] s (segsWithout s d) := by
  intro s d
  unfold segsWithout
  try dsimp only [onHost, onMb]
  refine Frame.foldl ?_ ?_
  · refine Frame.then ?_ frame_set_images_remotes_ledger rfl
    exact Frame.refl _ _
  · intro _ _
    try dsimp only
    refine Frame.then ?_ (postEvent_frame _ _ _) rfl
    exact Frame.refl _ _

theorem promoteShard_frame : ∀ s c sh, Frame [.ing, .fab] s (promoteShard s c sh) := by
  intro s c sh
  unfold promoteShard
  try dsimp only [onHost, onMb]
  split
  · try dsimp only
    exact Frame.refl _ _
  · try dsimp only
    refine Frame.foldl ?_ ?_
    · refine Frame.then ?_ (onShard_frame _ _ _ _) rfl
      exact Frame.refl _ _
    · intro _ _
      try dsimp only
      refine Frame.then ?_ (sendStamps_frame _ _ _ _ _) rfl
      exact Frame.refl _ _

theorem setShard_frame : ∀ s c sh p q n, Frame [.ing, .fab, .ledger] s (setShard s c sh p q n) := by
  intro s c sh p q n
  unfold setShard
  try dsimp only [onHost, onMb]
  refine Frame.ite ?_ ?_
  · refine Frame.then ?_ (startRebuild_frame _ _ _ _ _ _) rfl
    refine Frame.ite ?_ ?_
    · split
      · try dsimp only
        refine Frame.ite ?_ ?_
        · refine Frame.then ?_ (promoteShard_frame _ _ _) rfl
          refine Frame.then ?_ frame_set_ledger rfl
          exact Frame.refl _ _
        · refine Frame.then ?_ frame_set_ledger rfl
          exact Frame.refl _ _
      · try dsimp only
        refine Frame.then ?_ (send_frame _ _ _) rfl
        refine Frame.ite ?_ ?_
        · refine Frame.then ?_ (promoteShard_frame _ _ _) rfl
          refine Frame.then ?_ frame_set_ledger rfl
          exact Frame.refl _ _
        · refine Frame.then ?_ frame_set_ledger rfl
          exact Frame.refl _ _
    · refine Frame.ite ?_ ?_
      · refine Frame.then ?_ (promoteShard_frame _ _ _) rfl
        refine Frame.then ?_ frame_set_ledger rfl
        exact Frame.refl _ _
      · refine Frame.then ?_ frame_set_ledger rfl
        exact Frame.refl _ _
  · refine Frame.ite ?_ ?_
    · refine Frame.then ?_ frame_set_ing rfl
      refine Frame.ite ?_ ?_
      · split
        · try dsimp only
          refine Frame.ite ?_ ?_
          · refine Frame.then ?_ (promoteShard_frame _ _ _) rfl
            refine Frame.then ?_ frame_set_ledger rfl
            exact Frame.refl _ _
          · refine Frame.then ?_ frame_set_ledger rfl
            exact Frame.refl _ _
        · try dsimp only
          refine Frame.then ?_ (send_frame _ _ _) rfl
          refine Frame.ite ?_ ?_
          · refine Frame.then ?_ (promoteShard_frame _ _ _) rfl
            refine Frame.then ?_ frame_set_ledger rfl
            exact Frame.refl _ _
          · refine Frame.then ?_ frame_set_ledger rfl
            exact Frame.refl _ _
      · refine Frame.ite ?_ ?_
        · refine Frame.then ?_ (promoteShard_frame _ _ _) rfl
          refine Frame.then ?_ frame_set_ledger rfl
          exact Frame.refl _ _
        · refine Frame.then ?_ frame_set_ledger rfl
          exact Frame.refl _ _
    · refine Frame.ite ?_ ?_
      · split
        · try dsimp only
          refine Frame.ite ?_ ?_
          · refine Frame.then ?_ (promoteShard_frame _ _ _) rfl
            refine Frame.then ?_ frame_set_ledger rfl
            exact Frame.refl _ _
          · refine Frame.then ?_ frame_set_ledger rfl
            exact Frame.refl _ _
        · try dsimp only
          refine Frame.then ?_ (send_frame _ _ _) rfl
          refine Frame.ite ?_ ?_
          · refine Frame.then ?_ (promoteShard_frame _ _ _) rfl
            refine Frame.then ?_ frame_set_ledger rfl
            exact Frame.refl _ _
          · refine Frame.then ?_ frame_set_ledger rfl
            exact Frame.refl _ _
      · refine Frame.ite ?_ ?_
        · refine Frame.then ?_ (promoteShard_frame _ _ _) rfl
          refine Frame.then ?_ frame_set_ledger rfl
          exact Frame.refl _ _
        · refine Frame.then ?_ frame_set_ledger rfl
          exact Frame.refl _ _

theorem admitNode_frame : ∀ s e j n, Frame [.objs, .counters, .txns, .queues, .rings, .turnNo, .turnMisc, .comp, .images, .remotes, .acts, .colls, .lists, .queries, .units, .ing, .place, .scrMisc, .fab, .ledger, .bslots, .errorLog, .sec, .ras, .clk] s (admitNode s e j n) := by
  intro s e j n
  unfold admitNode
  try dsimp only [onHost, onMb]
  refine Frame.ite ?_ ?_
  · refine Frame.ite ?_ ?_
    · exact Frame.refl _ _
    · refine Frame.then ?_ (admitSelf_frame _ _) rfl
      exact Frame.refl _ _
  · refine Frame.ite ?_ ?_
    · refine Frame.then ?_ (copyLedger_frame _ _) rfl
      refine Frame.then ?_ (reroute_frame _) rfl
      refine Frame.then ?_ (postEvent_frame _ _ _) rfl
      refine Frame.then ?_ (addMember_frame _ _ _) rfl
      exact Frame.refl _ _
    · refine Frame.then ?_ (reroute_frame _) rfl
      refine Frame.then ?_ (postEvent_frame _ _ _) rfl
      refine Frame.then ?_ (addMember_frame _ _ _) rfl
      exact Frame.refl _ _

theorem applyDescr_frame : ∀ s from1 a v n, Frame [.objs, .counters, .queues, .rings, .colls, .ing, .ledger, .errorLog] s (applyDescr s from1 a v n) := by
  intro s from1 a v n
  unfold applyDescr
  try dsimp only [onHost, onMb]
  refine Frame.ite ?_ ?_
  · refine Frame.then ?_ frame_set_ledger rfl
    exact Frame.refl _ _
  · refine Frame.ite ?_ ?_
    · refine Frame.ite ?_ ?_
      · refine Frame.then ?_ (applyCollLoad_frame _ _ _ _) rfl
        exact Frame.refl _ _
      · refine Frame.ite ?_ ?_
        · refine Frame.then ?_ (applyLife_frame _ _ _ _ _) rfl
          exact Frame.refl _ _
        · refine Frame.ite ?_ ?_
          · refine Frame.then ?_ (setObj_frame _ _ _) rfl
            exact Frame.refl _ _
          · refine Frame.ite ?_ ?_
            · refine Frame.then ?_ (setObj_frame _ _ _) rfl
              refine Frame.then ?_ (setObj_frame _ _ _) rfl
              exact Frame.refl _ _
            · refine Frame.ite ?_ ?_
              · refine Frame.ite ?_ ?_
                · refine Frame.then ?_ (setObj_frame _ _ _) rfl
                  refine Frame.then ?_ (setObj_frame _ _ _) rfl
                  exact Frame.refl _ _
                · refine Frame.then ?_ (setObj_frame _ _ _) rfl
                  refine Frame.then ?_ (setObj_frame _ _ _) rfl
                  refine Frame.then ?_ (setObj_frame _ _ _) rfl
                  exact Frame.refl _ _
              · refine Frame.then ?_ (setObj_frame _ _ _) rfl
                exact Frame.refl _ _
    · refine Frame.ite ?_ ?_
      · refine Frame.then ?_ (applyLife_frame _ _ _ _ _) rfl
        exact Frame.refl _ _
      · refine Frame.ite ?_ ?_
        · refine Frame.then ?_ (setObj_frame _ _ _) rfl
          exact Frame.refl _ _
        · refine Frame.ite ?_ ?_
          · refine Frame.then ?_ (setObj_frame _ _ _) rfl
            exact Frame.refl _ _
          · refine Frame.then ?_ (setObj_frame _ _ _) rfl
            exact Frame.refl _ _

theorem applyLink_frame : ∀ s l up, Frame [.counters, .queues, .rings, .turnMisc, .fab, .ledger, .errorLog] s (applyLink s l up) := by
  intro s l up
  unfold applyLink
  try dsimp only [onHost, onMb]
  refine Frame.ite ?_ ?_
  · refine Frame.then ?_ (withdrawNow_frame _) rfl
    refine Frame.foldl ?_ ?_
    · refine Frame.then ?_ (reroute_frame _) rfl
      refine Frame.then ?_ frame_set_ledger rfl
      exact Frame.refl _ _
    · intro _ _
      try dsimp only
      refine Frame.then ?_ (postEvent_frame _ _ _) rfl
      exact Frame.refl _ _
  · refine Frame.foldl ?_ ?_
    · refine Frame.then ?_ (reroute_frame _) rfl
      refine Frame.then ?_ frame_set_ledger rfl
      exact Frame.refl _ _
    · intro _ _
      try dsimp only
      refine Frame.then ?_ (postEvent_frame _ _ _) rfl
      exact Frame.refl _ _

theorem applyReport_frame : ∀ s node k key arg n, Frame [.objs, .counters, .queues, .rings, .colls, .lists, .ing, .place, .flash, .ledger, .errorLog] s (applyReport s node k key arg n) := by
  intro s node k key arg n
  unfold applyReport
  try dsimp only [onHost, onMb]
  split
  · try dsimp only
    refine Frame.ite ?_ ?_
    · refine Frame.then ?_ (applyDrift_frame _ _ _ _) rfl
      refine Frame.then ?_ frame_set_ledger rfl
      exact Frame.refl _ _
    · refine Frame.then ?_ frame_set_ledger rfl
      exact Frame.refl _ _
  · try dsimp only
    refine Frame.then ?_ (reshapeReport_frame _ _ _ _) rfl
    exact Frame.refl _ _
  · try dsimp only
    refine Frame.then ?_ (finishCopy_frame _ _ _ _ _) rfl
    exact Frame.refl _ _
  · try dsimp only
    split
    · try dsimp only
      exact Frame.refl _ _
    · try dsimp only
      refine Frame.then ?_ frame_set_ing rfl
      exact Frame.refl _ _
  · try dsimp only
    refine Frame.ite ?_ ?_
    · refine Frame.then ?_ (setObj_frame _ _ _) rfl
      exact Frame.refl _ _
    · exact Frame.refl _ _
  · try dsimp only
    refine Frame.then ?_ (finishSalvage_frame _ _ _ _ _) rfl
    exact Frame.refl _ _

theorem listsWithout_frame : ∀ s d, Frame [.ledger] s (listsWithout s d) := by
  intro s d
  unfold listsWithout
  try dsimp only [onHost, onMb]
  refine Frame.then ?_ frame_set_ledger rfl
  exact Frame.refl _ _

theorem reopenRebuilds_frame : ∀ s, Frame [.ing] s (reopenRebuilds s) := by
  intro s
  unfold reopenRebuilds
  try dsimp only [onHost, onMb]
  refine Frame.then ?_ frame_set_ing rfl
  exact Frame.refl _ _

theorem shardsWithout_frame : ∀ s d n, Frame [.ing, .fab, .ledger] s (shardsWithout s d n) := by
  intro s d n
  unfold shardsWithout
  try dsimp only [onHost, onMb]
  refine Frame.foldl ?_ ?_
  · exact Frame.refl _ _
  · intro _ _
    try dsimp only
    refine Frame.foldl ?_ ?_
    · exact Frame.refl _ _
    · intro _ _
      try dsimp only
      refine Frame.ite ?_ ?_
      · refine Frame.ite ?_ ?_
        · refine Frame.then ?_ (setShard_frame _ _ _ _ _ _) rfl
          exact Frame.refl _ _
        · refine Frame.then ?_ (startRebuild_frame _ _ _ _ _ _) rfl
          refine Frame.then ?_ frame_set_ledger rfl
          exact Frame.refl _ _
      · refine Frame.ite ?_ ?_
        · refine Frame.then ?_ (setShard_frame _ _ _ _ _ _) rfl
          exact Frame.refl _ _
        · exact Frame.refl _ _

theorem dismiss_frame : ∀ s d n, Frame [.objs, .counters, .queues, .rings, .turnMisc, .images, .remotes, .acts, .colls, .lists, .units, .ing, .place, .flash, .fab, .ledger, .bslots, .errorLog, .out] s (dismiss s d n) := by
  intro s d n
  unfold dismiss
  try dsimp only [onHost, onMb]
  refine Frame.ite ?_ ?_
  · refine Frame.then ?_ (withdrawNow_frame _) rfl
    exact Frame.refl _ _
  · refine Frame.ite ?_ ?_
    · exact Frame.refl _ _
    · refine Frame.then ?_ (reroute_frame _) rfl
      refine Frame.then ?_ frame_set_fab_ledger rfl
      refine Frame.then ?_ (recount_frame _ _) rfl
      refine Frame.then ?_ (reopenRebuilds_frame _) rfl
      refine Frame.then ?_ (segsWithout_frame _ _) rfl
      refine Frame.then ?_ frame_set_ledger rfl
      refine Frame.then ?_ (shardsWithout_frame _ _ _) rfl
      refine Frame.then ?_ (listsWithout_frame _ _) rfl
      refine Frame.then ?_ frame_set_acts_lists_units rfl
      refine Frame.then ?_ (barrierLost_frame _ _) rfl
      refine Frame.then ?_ (postEvent_frame _ _ _) rfl
      exact Frame.refl _ _

theorem applyRec_frame : ∀ e n s r, Frame [.objs, .counters, .txns, .queues, .rings, .turnNo, .turnMisc, .comp, .images, .remotes, .acts, .colls, .lists, .queries, .units, .ing, .place, .scrMisc, .flash, .fab, .ledger, .bslots, .errorLog, .sec, .ras, .clk, .out] s (applyRec e n s r) := by
  intro e n s r
  unfold applyRec
  try dsimp only [onHost, onMb]
  split
  · try dsimp only
    refine Frame.then ?_ (admitNode_frame _ _ _ _) rfl
    exact Frame.refl _ _
  · try dsimp only
    refine Frame.then ?_ (dismiss_frame _ _ _) rfl
    exact Frame.refl _ _
  · try dsimp only
    refine Frame.then ?_ (applyList_frame _ _ _ _ _) rfl
    exact Frame.refl _ _
  · try dsimp only
    refine Frame.then ?_ (setShard_frame _ _ _ _ _ _) rfl
    exact Frame.refl _ _
  · try dsimp only
    refine Frame.then ?_ (applySegment_frame _ _ _ _ _ _ _) rfl
    exact Frame.refl _ _
  · try dsimp only
    refine Frame.then ?_ (applyDescr_frame _ _ _ _ _) rfl
    exact Frame.refl _ _
  · try dsimp only
    refine Frame.then ?_ (setObj_frame _ _ _) rfl
    refine Frame.then ?_ (setObj_frame _ _ _) rfl
    exact Frame.refl _ _
  · try dsimp only
    refine Frame.then ?_ (applyHolders_frame _ _ _ _) rfl
    exact Frame.refl _ _
  · try dsimp only
    refine Frame.then ?_ (applyLink_frame _ _ _) rfl
    exact Frame.refl _ _
  · try dsimp only
    refine Frame.then ?_ (applyReport_frame _ _ _ _ _ _) rfl
    exact Frame.refl _ _
  · try dsimp only
    refine Frame.then ?_ frame_set_ledger rfl
    exact Frame.refl _ _
  · try dsimp only
    refine Frame.then ?_ (openReshape_frame _ _ _ _ _ _) rfl
    exact Frame.refl _ _

theorem applyEpoch_frame : ∀ n s e, Frame [.objs, .counters, .txns, .queues, .rings, .turnNo, .turnMisc, .comp, .images, .remotes, .acts, .colls, .lists, .queries, .units, .ing, .place, .scrMisc, .flash, .fab, .ledger, .bslots, .errorLog, .sec, .ras, .clk, .out] s (applyEpoch n s e) := by
  intro n s e
  unfold applyEpoch
  try dsimp only [onHost, onMb]
  refine Frame.then ?_ frame_set_ledger rfl
  refine Frame.foldl ?_ ?_
  · exact Frame.refl _ _
  · intro _ _
    try dsimp only
    refine Frame.then ?_ (applyRec_frame _ _ _ _) rfl
    exact Frame.refl _ _

theorem doEpochApply_frame : ∀ s, Frame [.objs, .counters, .txns, .queues, .rings, .turnNo, .turnMisc, .comp, .images, .remotes, .acts, .colls, .lists, .queries, .units, .ing, .place, .scrMisc, .flash, .fab, .ledger, .bslots, .errorLog, .sec, .ras, .clk, .out] s (doEpochApply s) := by
  intro s
  unfold doEpochApply
  try dsimp only [onHost, onMb]
  refine Frame.ite ?_ ?_
  · exact Frame.refl _ _
  · split
    · try dsimp only
      refine Frame.then ?_ (applyEpoch_frame _ _ _) rfl
      exact Frame.refl _ _
    · try dsimp only
      refine Frame.ite ?_ ?_
      · exact Frame.refl _ _
      · refine Frame.foldl ?_ ?_
        · exact Frame.refl _ _
        · intro _ _
          try dsimp only
          refine Frame.then ?_ (applyEpoch_frame _ _ _) rfl
          exact Frame.refl _ _

theorem execEpochApply_frame : ∀ s t, execEpochApply s = .next t → Frame [.objs, .counters, .txns, .queues, .rings, .turnNo, .turnMisc, .comp, .images, .remotes, .acts, .colls, .lists, .queries, .units, .ing, .place, .scrMisc, .flash, .fab, .ledger, .bslots, .errorLog, .sec, .ras, .clk, .out] s t := by
  intro s t h
  unfold execEpochApply at h
  injection h with h
  subst h
  try dsimp only [onHost, onMb]
  refine Frame.then ?_ (doEpochApply_frame _) rfl
  exact Frame.refl _ _

theorem doEpochForm_frame : ∀ s withdrawn, Frame [.fab, .ledger, .out] s (doEpochForm s withdrawn) := by
  intro s withdrawn
  unfold doEpochForm
  try dsimp only [onHost, onMb]
  refine Frame.ite ?_ ?_
  · exact Frame.refl _ _
  · refine Frame.ite ?_ ?_
    · refine Frame.then ?_ frame_set_ledger rfl
      refine Frame.then ?_ (sendAll_frame _ _ _) rfl
      exact Frame.refl _ _
    · refine Frame.foldl ?_ ?_
      · refine Frame.then ?_ frame_set_ledger rfl
        refine Frame.then ?_ frame_set_ledger rfl
        refine Frame.then ?_ (sendAll_frame _ _ _) rfl
        exact Frame.refl _ _
      · intro _ _
        try dsimp only
        refine Frame.then ?_ (emit_frame _ _) rfl
        exact Frame.refl _ _

theorem execLedgerEpochForm_frame : ∀ withdrawn s t, execLedgerEpochForm withdrawn s = .next t → Frame [.fab, .ledger, .out] s t := by
  intro withdrawn s t h
  unfold execLedgerEpochForm at h
  injection h with h
  subst h
  try dsimp only [onHost, onMb]
  refine Frame.then ?_ (doEpochForm_frame _ _) rfl
  exact Frame.refl _ _

theorem execFound_frame : ∀ s t, execFound s = .next t → Frame [.objs, .turnMisc, .remotes, .acts, .colls, .lists, .queries, .units, .ing, .place, .fab, .ledger, .ras] s t := by
  intro s t h
  unfold execFound at h
  injection h with h
  subst h
  try dsimp only [onHost, onMb]
  refine Frame.then ?_ (doFound_frame _) rfl
  exact Frame.refl _ _

theorem execMemberRequest_frame : ∀ node tag state s t, execMemberRequest node tag state s = .next t → Frame [.ledger] s t := by
  intro node tag state s t h
  unfold execMemberRequest at h
  injection h with h
  subst h
  try dsimp only [onHost, onMb]
  refine Frame.ite ?_ ?_
  · refine Frame.then ?_ (ledgerRequest_frame _ _) rfl
    exact Frame.refl _ _
  · exact Frame.refl _ _

theorem execVote_frame : ∀ cands votes s t, execVote cands votes s = .next t → Frame [.ledger, .out] s t := by
  intro cands votes s t h
  unfold execVote at h
  injection h with h
  subst h
  try dsimp only [onHost, onMb]
  refine Frame.then ?_ (doVote_frame _ _ _) rfl
  exact Frame.refl _ _

theorem doLeaderTimeout_frame : ∀ s, Frame [.ledger, .out] s (doLeaderTimeout s) := by
  intro s
  unfold doLeaderTimeout
  try dsimp only [onHost, onMb]
  refine Frame.ite ?_ ?_
  · refine Frame.then ?_ (emit_frame _ _) rfl
    refine Frame.then ?_ frame_set_ledger rfl
    exact Frame.refl _ _
  · exact Frame.refl _ _

theorem execLeaderTimeout_frame : ∀ s t, execLeaderTimeout s = .next t → Frame [.ledger, .out] s t := by
  intro s t h
  unfold execLeaderTimeout at h
  injection h with h
  subst h
  try dsimp only [onHost, onMb]
  refine Frame.then ?_ (doLeaderTimeout_frame _) rfl
  exact Frame.refl _ _

theorem execHeartbeat_frame : ∀ leader s t, execHeartbeat leader s = .next t → Frame [.ledger] s t := by
  intro leader s t h
  unfold execHeartbeat at h
  injection h with h
  subst h
  try dsimp only [onHost, onMb]
  refine Frame.ite ?_ ?_
  · refine Frame.then ?_ frame_set_ledger rfl
    exact Frame.refl _ _
  · exact Frame.refl _ _

theorem execEpochStore_frame : ∀ leader epoch s t, execEpochStore leader epoch s = .next t → Frame [.ledger, .out] s t := by
  intro leader epoch s t h
  unfold execEpochStore at h
  injection h with h
  subst h
  try dsimp only [onHost, onMb]
  refine Frame.ite ?_ ?_
  · refine Frame.then ?_ (emit_frame _ _) rfl
    refine Frame.then ?_ frame_set_ledger rfl
    exact Frame.refl _ _
  · exact Frame.refl _ _

theorem execJoin_frame : ∀ s t, execJoin s = .next t → Frame [.objs, .ledger, .out] s t := by
  intro s t h
  unfold execJoin at h
  injection h with h
  subst h
  try dsimp only [onHost, onMb]
  refine Frame.then ?_ (doJoin_frame _) rfl
  exact Frame.refl _ _

end Sys2Proof.Machine
end

