-- ==== Sys2Proof/Laws/FrameSecurity.lean ====
section
/-! SUPPORT. Which parts of the state the functions of Machine/Security.lean may change. -/

set_option maxRecDepth 4000

namespace Sys2Proof.Machine

open Sys2Proof

theorem doAttRequest_frame : ∀ s req data, Frame [.txns] s (doAttRequest s req data) := by
  intro s req data
  unfold doAttRequest
  try dsimp only [onHost, onMb]
  refine Frame.then ?_ frame_set_dict_reqs rfl
  exact Frame.refl _ _

theorem doFwActivate_frame : ∀ s, Frame [.objs, .nvMisc, .sec] s (doFwActivate s) := by
  intro s
  unfold doFwActivate
  try dsimp only [onHost, onMb]
  refine Frame.ite ?_ ?_
  · refine Frame.then ?_ (setObj_frame _ _ _) rfl
    refine Frame.then ?_ frame_set_nv_activateB_sec rfl
    exact Frame.refl _ _
  · refine Frame.then ?_ (setObj_frame _ _ _) rfl
    exact Frame.refl _ _

theorem endRequests_frame : ∀ s, Frame [.rings, .turnMisc, .queries, .ing] s (endRequests s) := by
  intro s
  unfold endRequests
  try dsimp only [onHost, onMb]
  refine Frame.then ?_ frame_set_host_results rfl
  refine Frame.foldl ?_ ?_
  · refine Frame.foldl ?_ ?_
    · exact Frame.refl _ _
    · intro _ _
      try dsimp only
      refine Frame.then ?_ (answerQuery_frame _ _ _ _ _) rfl
      exact Frame.refl _ _
  · intro _ _
    try dsimp only
    refine Frame.then ?_ (finishWrite_frame _ _ _) rfl
    exact Frame.refl _ _

theorem resetQueues_frame : ∀ s, Frame [.objs, .queues, .rings] s (resetQueues s) := by
  intro s
  unfold resetQueues
  try dsimp only [onHost, onMb]
  refine Frame.then ?_ (setObj_frame _ _ _) rfl
  refine Frame.then ?_ (setObj_frame _ _ _) rfl
  refine Frame.then ?_ frame_set_host_queues_host_fetched_host_results_host_events rfl
  exact Frame.refl _ _

theorem doTenantSwitch_frame : ∀ s, Frame [.objs, .counters, .hostRegs, .queues, .rings, .turnMisc, .lists, .queries, .smemCells, .ing, .place, .flash, .ledger, .errorLog, .out] s (doTenantSwitch s) := by
  intro s
  unfold doTenantSwitch
  try dsimp only [onHost, onMb]
  refine Frame.ite ?_ ?_
  · exact Frame.refl _ _
  · refine Frame.then ?_ (resetQueues_frame _) rfl
    refine Frame.foldl ?_ ?_
    · refine Frame.then ?_ (abortJobs_frame _) rfl
      refine Frame.then ?_ (endRequests_frame _) rfl
      exact Frame.refl _ _
    · intro _ _
      try dsimp only
      refine Frame.then ?_ (publishQueue_frame _ _) rfl
      exact Frame.refl _ _

theorem execTenantSwitch_frame : ∀ s t, execTenantSwitch s = .next t → Frame [.objs, .counters, .hostRegs, .queues, .rings, .turnMisc, .lists, .queries, .smemCells, .ing, .place, .flash, .ledger, .errorLog, .out] s t := by
  intro s t h
  unfold execTenantSwitch at h
  injection h with h
  subst h
  try dsimp only [onHost, onMb]
  refine Frame.then ?_ (doTenantSwitch_frame _) rfl
  exact Frame.refl _ _

theorem stageFirmware_frame : ∀ s b, Frame [.counters, .queues, .rings, .errorLog, .nvMisc, .sec] s (stageFirmware s b).1 := by
  intro s b
  unfold stageFirmware
  try dsimp only [onHost, onMb]
  split
  · try dsimp only
    try dsimp only
    refine Frame.then ?_ (postEvent_frame _ _ _) rfl
    refine Frame.then ?_ frame_set_sec rfl
    exact Frame.refl _ _
  · try dsimp only
    try dsimp only
    refine Frame.then ?_ frame_set_nv_fwA_nv_fwB_sec rfl
    exact Frame.refl _ _

theorem resetObjects_frame : ∀ s, Frame [.objs, .doms, .counters, .txns] s (resetObjects s) := by
  intro s
  unfold resetObjects
  try dsimp only [onHost, onMb]
  refine Frame.then ?_ frame_set_dict_objs_dict_doms_dict_ctrPend_dict_reqs rfl
  exact Frame.refl _ _

theorem scrubState_frame : ∀ s, Frame [.objs, .doms, .counters, .txns, .turnMisc, .adm, .comp, .images, .remotes, .acts, .streams, .remoteStats, .colls, .lists, .queries, .units, .smemCells, .smemMisc, .way, .ing, .place, .scrCells, .scrMisc, .flash, .fab, .bslots] s (scrubState s) := by
  intro s
  unfold scrubState
  try dsimp only [onHost, onMb]
  refine Frame.then ?_ frame_set_turn_buffers_and_21_more rfl
  refine Frame.then ?_ (resetObjects_frame _) rfl
  exact Frame.refl _ _

theorem endTransactions_frame : ∀ s, Frame [.txns] s (endTransactions s) := by
  intro s
  unfold endTransactions
  try dsimp only [onHost, onMb]
  refine Frame.then ?_ frame_set_dict_reqs rfl
  exact Frame.refl _ _

theorem doSwitch_frame : ∀ s, Frame [.counters, .txns, .queues, .rings, .turnMisc, .fab, .errorLog, .sec] s (doSwitch s) := by
  intro s
  unfold doSwitch
  try dsimp only [onHost, onMb]
  refine Frame.ite ?_ ?_
  · exact Frame.refl _ _
  · refine Frame.then ?_ (endTransactions_frame _) rfl
    refine Frame.then ?_ (withdrawNow_frame _) rfl
    refine Frame.then ?_ frame_set_sec rfl
    exact Frame.refl _ _

theorem doBind_frame : ∀ s nonce, Frame [.counters, .queues, .rings, .tenancy, .errorLog, .sec] s (doBind s nonce) := by
  intro s nonce
  unfold doBind
  try dsimp only [onHost, onMb]
  refine Frame.ite ?_ ?_
  · exact Frame.refl _ _
  · refine Frame.then ?_ (postEvent_frame _ _ _) rfl
    refine Frame.then ?_ frame_set_nv_tenant_nv_tag_nv_nonce_sec rfl
    exact Frame.refl _ _

theorem execScrubComplete_frame : ∀ ms s t, execScrubComplete ms s = .next t → Frame [.sec] s t := by
  intro ms s t h
  unfold execScrubComplete at h
  injection h with h
  subst h
  try dsimp only [onHost, onMb]
  refine Frame.ite ?_ ?_
  · refine Frame.then ?_ frame_set_sec rfl
    exact Frame.refl _ _
  · exact Frame.refl _ _

theorem doScrubStart_frame : ∀ s, Frame [.objs, .doms, .counters, .txns, .queues, .rings, .doe, .turnMisc, .adm, .comp, .images, .remotes, .acts, .streams, .remoteStats, .colls, .lists, .queries, .units, .smemCells, .smemMisc, .way, .ing, .place, .scrCells, .scrMisc, .flash, .fab, .bslots, .tenancy, .nvMisc, .sec, .ras] s (doScrubStart s) := by
  intro s
  unfold doScrubStart
  try dsimp only [onHost, onMb]
  refine Frame.ite ?_ ?_
  · exact Frame.refl _ _
  · refine Frame.ite ?_ ?_
    · refine Frame.then ?_ (setObj_frame _ _ _) rfl
      refine Frame.then ?_ (setObj_frame _ _ _) rfl
      refine Frame.then ?_ frame_set_host_kept_and_10_more rfl
      refine Frame.then ?_ (scrubState_frame _) rfl
      refine Frame.then ?_ (resetQueues_frame _) rfl
      exact Frame.refl _ _
    · refine Frame.then ?_ frame_set_host_kept_and_10_more rfl
      refine Frame.then ?_ (scrubState_frame _) rfl
      refine Frame.then ?_ (resetQueues_frame _) rfl
      exact Frame.refl _ _

theorem execScrubStart_frame : ∀ s t, execScrubStart s = .next t → Frame [.objs, .doms, .counters, .txns, .queues, .rings, .doe, .turnMisc, .adm, .comp, .images, .remotes, .acts, .streams, .remoteStats, .colls, .lists, .queries, .units, .smemCells, .smemMisc, .way, .ing, .place, .scrCells, .scrMisc, .flash, .fab, .bslots, .tenancy, .nvMisc, .sec, .ras] s t := by
  intro s t h
  unfold execScrubStart at h
  injection h with h
  subst h
  try dsimp only [onHost, onMb]
  refine Frame.then ?_ (doScrubStart_frame _) rfl
  exact Frame.refl _ _

theorem setIde_frame : ∀ s st v, Frame [.doe] s (setIde s st v) := by
  intro s st v
  unfold setIde
  try dsimp only [onHost, onMb]
  refine Frame.then ?_ frame_set_host_ide rfl
  exact Frame.refl _ _

theorem execBind_frame : ∀ nonce s t, execBind nonce s = .next t → Frame [.counters, .queues, .rings, .tenancy, .errorLog, .sec] s t := by
  intro nonce s t h
  unfold execBind at h
  injection h with h
  subst h
  try dsimp only [onHost, onMb]
  refine Frame.then ?_ (doBind_frame _ _) rfl
  exact Frame.refl _ _

theorem doScrubEnd_frame : ∀ s, Frame [.objs, .tenancy, .errorLog, .sec] s (doScrubEnd s) := by
  intro s
  unfold doScrubEnd
  try dsimp only [onHost, onMb]
  split
  · try dsimp only
    exact Frame.refl _ _
  · try dsimp only
    refine Frame.ite ?_ ?_
    · exact Frame.refl _ _
    · refine Frame.then ?_ (logEvent_frame _ _) rfl
      refine Frame.then ?_ (setObj_frame _ _ _) rfl
      refine Frame.then ?_ (setObj_frame _ _ _) rfl
      refine Frame.then ?_ frame_set_nv_tenant_nv_scrubPending_nv_switches_sec rfl
      exact Frame.refl _ _

theorem doDiag_frame : ∀ s nonce, Frame [.tenancy, .sec] s (doDiag s nonce) := by
  intro s nonce
  unfold doDiag
  try dsimp only [onHost, onMb]
  refine Frame.ite ?_ ?_
  · exact Frame.refl _ _
  · refine Frame.then ?_ frame_set_nv_tenant_nv_tag_sec rfl
    exact Frame.refl _ _

theorem execDiagEn_frame : ∀ nonce s t, execDiagEn nonce s = .next t → Frame [.tenancy, .sec] s t := by
  intro nonce s t h
  unfold execDiagEn at h
  injection h with h
  subst h
  try dsimp only [onHost, onMb]
  refine Frame.then ?_ (doDiag_frame _ _) rfl
  exact Frame.refl _ _

theorem execAttRequest_frame : ∀ req data s t, execAttRequest req data s = .next t → Frame [.doms, .txns] s t := by
  intro req data s t h
  unfold execAttRequest at h
  injection h with h
  subst h
  try dsimp only [onHost, onMb]
  refine Frame.then ?_ (doAttRequest_frame _ _ _) rfl
  refine Frame.then ?_ (setDom_frame _ _ _) rfl
  exact Frame.refl _ _

theorem execFwActivate_frame : ∀ s t, execFwActivate s = .next t → Frame [.objs, .nvMisc, .sec] s t := by
  intro s t h
  unfold execFwActivate at h
  injection h with h
  subst h
  try dsimp only [onHost, onMb]
  refine Frame.then ?_ (doFwActivate_frame _) rfl
  exact Frame.refl _ _

theorem execScrubEndBoundary_frame : ∀ s t, execScrubEndBoundary s = .next t → Frame [.objs, .tenancy, .errorLog, .sec] s t := by
  intro s t h
  unfold execScrubEndBoundary at h
  injection h with h
  subst h
  try dsimp only [onHost, onMb]
  refine Frame.then ?_ (doScrubEnd_frame _) rfl
  exact Frame.refl _ _

theorem execIdeIntegrityFailure_frame : ∀ stream s t, execIdeIntegrityFailure stream s = .next t → Frame [.counters, .queues, .rings, .doe, .errorLog] s t := by
  intro stream s t h
  unfold execIdeIntegrityFailure at h
  injection h with h
  subst h
  try dsimp only [onHost, onMb]
  refine Frame.ite ?_ ?_
  · refine Frame.then ?_ (postEvent_frame _ _ _) rfl
    refine Frame.then ?_ (setIde_frame _ _ _) rfl
    exact Frame.refl _ _
  · exact Frame.refl _ _

end Sys2Proof.Machine
end

