-- ==== Sys2Proof/Laws/FrameReliability.lean ====
section
/-! SUPPORT. Which parts of the state the functions of Machine/Reliability.lean may change. -/

set_option maxRecDepth 4000

namespace Sys2Proof.Machine

open Sys2Proof

theorem doSweepStart_frame : ∀ s, Frame [.objs, .ras] s (doSweepStart s) := by
  intro s
  unfold doSweepStart
  try dsimp only [onHost, onMb]
  refine Frame.ite ?_ ?_
  · refine Frame.then ?_ (setObj_frame _ _ _) rfl
    exact Frame.refl _ _
  · refine Frame.then ?_ (setObj_frame _ _ _) rfl
    refine Frame.then ?_ (setObj_frame _ _ _) rfl
    refine Frame.then ?_ frame_set_ras rfl
    exact Frame.refl _ _

theorem doSalvage_frame : ∀ s key unreadable, Frame [.counters, .lists, .flash, .ledger] s (doSalvage s key unreadable) := by
  intro s key unreadable
  unfold doSalvage
  try dsimp only [onHost, onMb]
  split
  · try dsimp only
    exact Frame.refl _ _
  · try dsimp only
    refine Frame.ite ?_ ?_
    · exact Frame.refl _ _
    · refine Frame.then ?_ (ledgerRequest_frame _ _) rfl
      refine Frame.then ?_ (bump_frame _ _ _) rfl
      refine Frame.then ?_ (setList_frame _ _) rfl
      refine Frame.then ?_ (placeSegment_frame _ _ _) rfl
      exact Frame.refl _ _

theorem execLedgerHolderWatchdog_frame : ∀ s t, execLedgerHolderWatchdog s = .next t → Frame [.counters, .queues, .rings, .ledger, .errorLog] s t := by
  intro s t h
  unfold execLedgerHolderWatchdog at h
  injection h with h
  subst h
  try dsimp only [onHost, onMb]
  refine Frame.ite ?_ ?_
  · refine Frame.then ?_ (postEvent_frame _ _ _) rfl
    refine Frame.then ?_ (bump_frame _ _ _) rfl
    refine Frame.then ?_ frame_set_ledger rfl
    exact Frame.refl _ _
  · exact Frame.refl _ _

theorem slipAll_frame : ∀ s qhs, Frame [.counters, .queries] s (slipAll s qhs) := by
  intro s qhs
  unfold slipAll
  try dsimp only [onHost, onMb]
  refine Frame.foldl ?_ ?_
  · exact Frame.refl _ _
  · intro _ _
    try dsimp only
    refine Frame.then ?_ (slipQuery_frame _ _) rfl
    exact Frame.refl _ _

theorem trip_frame : ∀ s level unit, Frame [.counters, .turnMisc] s (trip s level unit) := by
  intro s level unit
  unfold trip
  try dsimp only [onHost, onMb]
  refine Frame.then ?_ (bump_frame _ _ _) rfl
  refine Frame.then ?_ frame_set_turn_trips rfl
  exact Frame.refl _ _

theorem doTileWatchdog_frame : ∀ s tile work, Frame [.objs, .counters, .queues, .rings, .turnMisc, .queries, .errorLog] s (doTileWatchdog s tile work) := by
  intro s tile work
  unfold doTileWatchdog
  try dsimp only [onHost, onMb]
  refine Frame.ite ?_ ?_
  · exact Frame.refl _ _
  · refine Frame.ite ?_ ?_
    · refine Frame.then ?_ (postEvent_frame _ _ _) rfl
      refine Frame.then ?_ (setObj_frame _ _ _) rfl
      refine Frame.then ?_ frame_set_turn_tileIdle_turn_tileRetired rfl
      refine Frame.then ?_ (slipAll_frame _ _) rfl
      refine Frame.then ?_ (postEvent_frame _ _ _) rfl
      refine Frame.then ?_ (trip_frame _ _ _) rfl
      exact Frame.refl _ _
    · refine Frame.then ?_ frame_set_turn_tileIdle rfl
      refine Frame.then ?_ (slipAll_frame _ _) rfl
      refine Frame.then ?_ (postEvent_frame _ _ _) rfl
      refine Frame.then ?_ (trip_frame _ _ _) rfl
      exact Frame.refl _ _

theorem execTileWatchdog_frame : ∀ tile work s t, execTileWatchdog tile work s = .next t → Frame [.objs, .counters, .queues, .rings, .turnMisc, .queries, .errorLog] s t := by
  intro tile work s t h
  unfold execTileWatchdog at h
  injection h with h
  subst h
  try dsimp only [onHost, onMb]
  refine Frame.then ?_ (doTileWatchdog_frame _ _ _) rfl
  exact Frame.refl _ _

theorem execSweepStart_frame : ∀ s t, execSweepStart s = .next t → Frame [.objs, .ras] s t := by
  intro s t h
  unfold execSweepStart at h
  injection h with h
  subst h
  try dsimp only [onHost, onMb]
  refine Frame.then ?_ (doSweepStart_frame _) rfl
  exact Frame.refl _ _

theorem escalate_frame : ∀ s level, Frame [.objs, .counters, .queues, .rings, .turnMisc, .fab, .errorLog, .out] s (escalate s level) := by
  intro s level
  unfold escalate
  try dsimp only [onHost, onMb]
  refine Frame.ite ?_ ?_
  · exact Frame.refl _ _
  · refine Frame.foldl ?_ ?_
    · refine Frame.then ?_ (withdrawSoon_frame _) rfl
      refine Frame.then ?_ (postEvent_frame _ _ _) rfl
      refine Frame.then ?_ frame_set_turn_escalated rfl
      exact Frame.refl _ _
    · intro _ _
      try dsimp only
      refine Frame.ite ?_ ?_
      · exact Frame.refl _ _
      · refine Frame.then ?_ (emit_frame _ _) rfl
        refine Frame.then ?_ (setPort_frame _ _ _) rfl
        refine Frame.then ?_ (setObj_frame _ _ _) rfl
        exact Frame.refl _ _

theorem doSequencerWatchdog_frame : ∀ s half late, Frame [.objs, .counters, .queues, .rings, .turnMisc, .fab, .errorLog, .out] s (doSequencerWatchdog s half late) := by
  intro s half late
  unfold doSequencerWatchdog
  try dsimp only [onHost, onMb]
  refine Frame.ite ?_ ?_
  · exact Frame.refl _ _
  · refine Frame.ite ?_ ?_
    · refine Frame.then ?_ (escalate_frame _ _) rfl
      refine Frame.then ?_ frame_set_turn_seqMissed rfl
      refine Frame.then ?_ (postEvent_frame _ _ _) rfl
      refine Frame.then ?_ (trip_frame _ _ _) rfl
      exact Frame.refl _ _
    · refine Frame.then ?_ frame_set_turn_seqMissed rfl
      refine Frame.then ?_ (postEvent_frame _ _ _) rfl
      refine Frame.then ?_ (trip_frame _ _ _) rfl
      exact Frame.refl _ _

theorem centroidBad_frame : ∀ s c, Frame [.counters, .queues, .rings, .colls, .fab, .errorLog] s (centroidBad s c) := by
  intro s c
  unfold centroidBad
  try dsimp only [onHost, onMb]
  refine Frame.ite ?_ ?_
  · exact Frame.refl _ _
  · refine Frame.ite ?_ ?_
    · refine Frame.then ?_ (send_frame _ _ _) rfl
      refine Frame.then ?_ (postEvent_frame _ _ _) rfl
      refine Frame.then ?_ (setColl_frame _ _ _) rfl
      exact Frame.refl _ _
    · refine Frame.then ?_ (postEvent_frame _ _ _) rfl
      refine Frame.then ?_ (setColl_frame _ _ _) rfl
      exact Frame.refl _ _

theorem shardBad_frame : ∀ s c sh, Frame [.ing, .ledger] s (shardBad s c sh) := by
  intro s c sh
  unfold shardBad
  try dsimp only [onHost, onMb]
  split
  · try dsimp only
    exact Frame.refl _ _
  · try dsimp only
    refine Frame.ite ?_ ?_
    · exact Frame.refl _ _
    · refine Frame.ite ?_ ?_
      · refine Frame.then ?_ (ledgerRequest_frame _ _) rfl
        refine Frame.then ?_ (onShard_frame _ _ _ _) rfl
        exact Frame.refl _ _
      · refine Frame.then ?_ (ledgerRequest_frame _ _) rfl
        refine Frame.then ?_ (onShard_frame _ _ _ _) rfl
        exact Frame.refl _ _

theorem doPatrol_frame : ∀ s hit, Frame [.counters, .queues, .rings, .comp, .images, .colls, .lists, .ing, .scrMisc, .fab, .ledger, .errorLog, .out] s (doPatrol s hit) := by
  intro s hit
  unfold doPatrol
  try dsimp only [onHost, onMb]
  refine Frame.ite ?_ ?_
  · exact Frame.refl _ _
  · split
    · try dsimp only
      refine Frame.then ?_ (bump_frame _ _ _) rfl
      exact Frame.refl _ _
    · try dsimp only
      refine Frame.then ?_ (postEvent_frame _ _ _) rfl
      refine Frame.then ?_ (bump_frame _ _ _) rfl
      exact Frame.refl _ _
    · try dsimp only
      refine Frame.then ?_ (quarantine_frame _ _) rfl
      refine Frame.then ?_ (bump_frame _ _ _) rfl
      exact Frame.refl _ _
    · try dsimp only
      refine Frame.then ?_ (shardBad_frame _ _ _) rfl
      refine Frame.then ?_ (bump_frame _ _ _) rfl
      exact Frame.refl _ _
    · try dsimp only
      split
      · try dsimp only
        refine Frame.then ?_ (bump_frame _ _ _) rfl
        exact Frame.refl _ _
      · try dsimp only
        refine Frame.ite ?_ ?_
        · refine Frame.then ?_ (bump_frame _ _ _) rfl
          exact Frame.refl _ _
        · refine Frame.then ?_ (postEvent_frame _ _ _) rfl
          refine Frame.then ?_ (onActive_frame _ _ _) rfl
          refine Frame.then ?_ (bump_frame _ _ _) rfl
          exact Frame.refl _ _
    · try dsimp only
      refine Frame.ite ?_ ?_
      · refine Frame.then ?_ (weightError_frame _ _ _) rfl
        refine Frame.then ?_ (bump_frame _ _ _) rfl
        exact Frame.refl _ _
      · refine Frame.then ?_ (bump_frame _ _ _) rfl
        exact Frame.refl _ _
    · try dsimp only
      refine Frame.then ?_ (centroidBad_frame _ _) rfl
      refine Frame.then ?_ (bump_frame _ _ _) rfl
      exact Frame.refl _ _
    · try dsimp only
      refine Frame.then ?_ (secded_frame _ _ _) rfl
      refine Frame.then ?_ (postEvent_frame _ _ _) rfl
      refine Frame.then ?_ (bump_frame _ _ _) rfl
      exact Frame.refl _ _

theorem execPatrolRead_frame : ∀ hit s t, execPatrolRead hit s = .next t → Frame [.counters, .queues, .rings, .comp, .images, .colls, .lists, .ing, .scrMisc, .fab, .ledger, .errorLog, .out] s t := by
  intro hit s t h
  unfold execPatrolRead at h
  injection h with h
  subst h
  try dsimp only [onHost, onMb]
  refine Frame.then ?_ (doPatrol_frame _ _) rfl
  exact Frame.refl _ _

theorem doEngineWatchdog_frame : ∀ s quarter e work, Frame [.objs, .counters, .queues, .rings, .turnMisc, .queries, .fab, .errorLog, .out] s (doEngineWatchdog s quarter e work) := by
  intro s quarter e work
  unfold doEngineWatchdog
  try dsimp only [onHost, onMb]
  refine Frame.ite ?_ ?_
  · exact Frame.refl _ _
  · refine Frame.ite ?_ ?_
    · refine Frame.then ?_ (escalate_frame _ _) rfl
      refine Frame.then ?_ (slipAll_frame _ _) rfl
      refine Frame.then ?_ (postEvent_frame _ _ _) rfl
      refine Frame.then ?_ (trip_frame _ _ _) rfl
      exact Frame.refl _ _
    · refine Frame.then ?_ (slipAll_frame _ _) rfl
      refine Frame.then ?_ (postEvent_frame _ _ _) rfl
      refine Frame.then ?_ (trip_frame _ _ _) rfl
      exact Frame.refl _ _

theorem execStageEngineWatchdog_frame : ∀ quarter engine work s t, execStageEngineWatchdog quarter engine work s = .next t → Frame [.objs, .counters, .queues, .rings, .turnMisc, .queries, .fab, .errorLog, .out] s t := by
  intro quarter engine work s t h
  unfold execStageEngineWatchdog at h
  injection h with h
  subst h
  try dsimp only [onHost, onMb]
  refine Frame.then ?_ (doEngineWatchdog_frame _ _ _ _) rfl
  exact Frame.refl _ _

theorem execCentroidReloadComplete_frame : ∀ coll s t, execCentroidReloadComplete coll s = .next t → Frame [.colls] s t := by
  intro coll s t h
  unfold execCentroidReloadComplete at h
  injection h with h
  subst h
  try dsimp only [onHost, onMb]
  refine Frame.ite ?_ ?_
  · refine Frame.then ?_ (setColl_frame _ _ _) rfl
    exact Frame.refl _ _
  · exact Frame.refl _ _

theorem execDroopEvent_frame : ∀ half s t, execDroopEvent half s = .next t → Frame [.ras] s t := by
  intro half s t h
  unfold execDroopEvent at h
  injection h with h
  subst h
  try dsimp only [onHost, onMb]
  refine Frame.then ?_ frame_set_ras rfl
  exact Frame.refl _ _

theorem endSweep_frame : ∀ s kind, Frame [.objs, .doms, .counters, .queues, .rings, .errorLog, .ras] s (endSweep s kind) := by
  intro s kind
  unfold endSweep
  try dsimp only [onHost, onMb]
  refine Frame.then ?_ (setObj_frame _ _ _) rfl
  refine Frame.then ?_ (setObj_frame _ _ _) rfl
  refine Frame.then ?_ frame_set_ras rfl
  refine Frame.foldl ?_ ?_
  · refine Frame.then ?_ (setDom_frame _ _ _) rfl
    exact Frame.refl _ _
  · intro _ _
    try dsimp only
    refine Frame.then ?_ (postEvent_frame _ _ _) rfl
    exact Frame.refl _ _

theorem doSweepStep_frame : ∀ s stack channel result, Frame [.objs, .doms, .counters, .queues, .rings, .errorLog, .ras] s (doSweepStep s stack channel result) := by
  intro s stack channel result
  unfold doSweepStep
  try dsimp only [onHost, onMb]
  split
  · try dsimp only
    exact Frame.refl _ _
  · try dsimp only
    refine Frame.ite ?_ ?_
    · exact Frame.refl _ _
    · refine Frame.ite ?_ ?_
      · refine Frame.then ?_ frame_set_ras rfl
        exact Frame.refl _ _
      · refine Frame.ite ?_ ?_
        · refine Frame.then ?_ (endSweep_frame _ _) rfl
          refine Frame.then ?_ frame_set_ras rfl
          refine Frame.then ?_ frame_set_ras rfl
          exact Frame.refl _ _
        · refine Frame.then ?_ frame_set_ras rfl
          refine Frame.then ?_ frame_set_ras rfl
          exact Frame.refl _ _

theorem doMcResetComplete_frame : ∀ s, Frame [.counters, .mailbox, .dictMisc, .queues, .rings, .errorLog, .sec, .ras] s (doMcResetComplete s) := by
  intro s
  unfold doMcResetComplete
  try dsimp only [onHost, onMb]
  refine Frame.ite ?_ ?_
  · exact Frame.refl _ _
  · refine Frame.then ?_ (postEvent_frame _ _ _) rfl
    refine Frame.then ?_ frame_set_dict_mb_dict_served_sec_ras rfl
    exact Frame.refl _ _

theorem execMcResetComplete_frame : ∀ s t, execMcResetComplete s = .next t → Frame [.counters, .mailbox, .dictMisc, .queues, .rings, .errorLog, .sec, .ras] s t := by
  intro s t h
  unfold execMcResetComplete at h
  injection h with h
  subst h
  try dsimp only [onHost, onMb]
  refine Frame.then ?_ (doMcResetComplete_frame _) rfl
  exact Frame.refl _ _

theorem doMcWatchdog_frame : ∀ s unservicedMs, Frame [.counters, .txns, .dictMisc, .doe, .ras] s (doMcWatchdog s unservicedMs) := by
  intro s unservicedMs
  unfold doMcWatchdog
  try dsimp only [onHost, onMb]
  refine Frame.ite ?_ ?_
  · exact Frame.refl _ _
  · refine Frame.then ?_ frame_set_dict_reqs_and_4_more rfl
    refine Frame.then ?_ (endTransactions_frame _) rfl
    refine Frame.then ?_ (bump_frame _ _ _) rfl
    exact Frame.refl _ _

theorem execMcWatchdog_frame : ∀ unservicedMs s t, execMcWatchdog unservicedMs s = .next t → Frame [.counters, .txns, .dictMisc, .doe, .ras] s t := by
  intro unservicedMs s t h
  unfold execMcWatchdog at h
  injection h with h
  subst h
  try dsimp only [onHost, onMb]
  refine Frame.then ?_ (doMcWatchdog_frame _ _) rfl
  exact Frame.refl _ _

theorem doPlannerWatchdog_frame : ∀ s, Frame [.objs, .counters, .queues, .rings, .boards, .turnMisc, .fab, .errorLog, .out] s (doPlannerWatchdog s) := by
  intro s
  unfold doPlannerWatchdog
  try dsimp only [onHost, onMb]
  refine Frame.ite ?_ ?_
  · exact Frame.refl _ _
  · refine Frame.ite ?_ ?_
    · refine Frame.then ?_ (escalate_frame _ _) rfl
      refine Frame.then ?_ frame_set_turn_repeats rfl
      refine Frame.then ?_ (postEvent_frame _ _ _) rfl
      refine Frame.then ?_ (trip_frame _ _ _) rfl
      exact Frame.refl _ _
    · refine Frame.then ?_ frame_set_turn_repeats rfl
      refine Frame.then ?_ (postEvent_frame _ _ _) rfl
      refine Frame.then ?_ (trip_frame _ _ _) rfl
      exact Frame.refl _ _

theorem execTurnSequencerWatchdog_frame : ∀ half late s t, execTurnSequencerWatchdog half late s = .next t → Frame [.objs, .counters, .queues, .rings, .turnMisc, .fab, .errorLog, .out] s t := by
  intro half late s t h
  unfold execTurnSequencerWatchdog at h
  injection h with h
  subst h
  try dsimp only [onHost, onMb]
  refine Frame.then ?_ (doSequencerWatchdog_frame _ _ _) rfl
  exact Frame.refl _ _

theorem execSweepStep_frame : ∀ stack channel result s t, execSweepStep stack channel result s = .next t → Frame [.objs, .doms, .counters, .queues, .rings, .errorLog, .ras] s t := by
  intro stack channel result s t h
  unfold execSweepStep at h
  injection h with h
  subst h
  try dsimp only [onHost, onMb]
  refine Frame.then ?_ (doSweepStep_frame _ _ _ _) rfl
  exact Frame.refl _ _

theorem execSalvageComplete_frame : ∀ key unreadable s t, execSalvageComplete key unreadable s = .next t → Frame [.counters, .lists, .flash, .ledger] s t := by
  intro key unreadable s t h
  unfold execSalvageComplete at h
  injection h with h
  subst h
  try dsimp only [onHost, onMb]
  refine Frame.then ?_ (doSalvage_frame _ _ _) rfl
  exact Frame.refl _ _

theorem execMemberLoadComplete_frame : ∀ s t, execMemberLoadComplete s = .next t → Frame [.ledger] s t := by
  intro s t h
  unfold execMemberLoadComplete at h
  injection h with h
  subst h
  try dsimp only [onHost, onMb]
  refine Frame.ite ?_ ?_
  · refine Frame.then ?_ (ledgerRequest_frame _ _) rfl
    exact Frame.refl _ _
  · exact Frame.refl _ _

theorem execPlannerWatchdog_frame : ∀ s t, execPlannerWatchdog s = .next t → Frame [.objs, .counters, .queues, .rings, .boards, .turnMisc, .fab, .errorLog, .out] s t := by
  intro s t h
  unfold execPlannerWatchdog at h
  injection h with h
  subst h
  try dsimp only [onHost, onMb]
  refine Frame.then ?_ (doPlannerWatchdog_frame _) rfl
  exact Frame.refl _ _

end Sys2Proof.Machine
end

