-- ==== Sys2Proof/Laws/FrameObjWrite.lean ====
section
/-! SUPPORT. Which parts of the state the functions of Machine/ObjWrite.lean may change. -/

set_option maxRecDepth 4000

namespace Sys2Proof.Machine

open Sys2Proof

theorem applyDom_frame : ∀ s req a b, Frame [.doms, .txns, .nvMisc] s (applyDom s req a b) := by
  intro s req a b
  unfold applyDom
  try dsimp only [onHost, onMb]
  refine Frame.ite ?_ ?_
  · refine Frame.then ?_ frame_set_nv_softRepair rfl
    exact Frame.refl _ _
  · refine Frame.ite ?_ ?_
    · refine Frame.then ?_ (doAttRequest_frame _ _ _) rfl
      refine Frame.then ?_ (setDom_frame _ _ _) rfl
      exact Frame.refl _ _
    · refine Frame.ite ?_ ?_
      · refine Frame.then ?_ (setDom_frame _ _ _) rfl
        exact Frame.refl _ _
      · refine Frame.then ?_ (setDom_frame _ _ _) rfl
        exact Frame.refl _ _

theorem applyBslot_frame : ∀ s a v, Frame [.objs, .bslots, .out] s (applyBslot s a v) := by
  intro s a v
  unfold applyBslot
  try dsimp only [onHost, onMb]
  refine Frame.ite ?_ ?_
  · refine Frame.then ?_ (applyBslotEnable_frame _ _ _) rfl
    exact Frame.refl _ _
  · refine Frame.ite ?_ ?_
    · refine Frame.ite ?_ ?_
      · refine Frame.then ?_ (clearSlot_frame _ _) rfl
        exact Frame.refl _ _
      · exact Frame.refl _ _
    · refine Frame.then ?_ (setObj_frame _ _ _) rfl
      exact Frame.refl _ _

theorem applyColl_frame : ∀ s a v, Frame [.objs, .colls, .ledger] s (applyColl s a v) := by
  intro s a v
  unfold applyColl
  try dsimp only [onHost, onMb]
  refine Frame.ite ?_ ?_
  · refine Frame.ite ?_ ?_
    · refine Frame.ite ?_ ?_
      · refine Frame.then ?_ (doRun_frame _ _) rfl
        exact Frame.refl _ _
      · refine Frame.then ?_ (doStop_frame _ _) rfl
        exact Frame.refl _ _
    · refine Frame.then ?_ (ledgerRequest_frame _ _) rfl
      exact Frame.refl _ _
  · refine Frame.ite ?_ ?_
    · exact Frame.refl _ _
    · refine Frame.ite ?_ ?_
      · refine Frame.then ?_ (doImgLoad_frame _ _) rfl
        exact Frame.refl _ _
      · refine Frame.then ?_ (doDrop_frame _ _) rfl
        exact Frame.refl _ _

theorem onReq_frame : ∀ s req f, Frame [.txns] s (onReq s req f) := by
  intro s req f
  unfold onReq
  try dsimp only [onHost, onMb]
  refine Frame.then ?_ frame_set_dict_reqs rfl
  exact Frame.refl _ _

theorem applyFixed_frame : ∀ s req a v, Frame [.objs, .counters, .txns, .queues, .rings, .turnMisc, .remotes, .acts, .colls, .lists, .queries, .units, .ing, .place, .fab, .ledger, .errorLog, .nvMisc, .sec, .ras, .clk, .out] s (applyFixed s req a v) := by
  intro s req a v
  unfold applyFixed
  try dsimp only [onHost, onMb]
  refine Frame.ite ?_ ?_
  · refine Frame.then ?_ (setObj_frame _ _ _) rfl
    refine Frame.then ?_ (setObj_frame _ _ _) rfl
    exact Frame.refl _ _
  · refine Frame.ite ?_ ?_
    · refine Frame.then ?_ (ledgerRequest_frame _ _) rfl
      exact Frame.refl _ _
    · refine Frame.ite ?_ ?_
      · refine Frame.then ?_ frame_set_turn_statEnd rfl
        refine Frame.then ?_ (setObj_frame _ _ _) rfl
        exact Frame.refl _ _
      · refine Frame.ite ?_ ?_
        · refine Frame.then ?_ (onReq_frame _ _ _) rfl
          exact Frame.refl _ _
        · refine Frame.ite ?_ ?_
          · refine Frame.then ?_ (onReq_frame _ _ _) rfl
            exact Frame.refl _ _
          · refine Frame.ite ?_ ?_
            · refine Frame.ite ?_ ?_
              · refine Frame.then ?_ (doFound_frame _) rfl
                exact Frame.refl _ _
              · exact Frame.refl _ _
            · refine Frame.ite ?_ ?_
              · refine Frame.ite ?_ ?_
                · refine Frame.then ?_ (doJoin_frame _) rfl
                  exact Frame.refl _ _
                · refine Frame.then ?_ (setObj_frame _ _ _) rfl
                  exact Frame.refl _ _
              · refine Frame.ite ?_ ?_
                · refine Frame.then ?_ (applyPortEn_frame _ _) rfl
                  exact Frame.refl _ _
                · refine Frame.ite ?_ ?_
                  · refine Frame.then ?_ (ledgerRequest_frame _ _) rfl
                    refine Frame.then ?_ (trimCache_frame _) rfl
                    refine Frame.then ?_ (setObj_frame _ _ _) rfl
                    exact Frame.refl _ _
                  · refine Frame.ite ?_ ?_
                    · refine Frame.ite ?_ ?_
                      · refine Frame.then ?_ frame_set_sec rfl
                        refine Frame.then ?_ (setObj_frame _ _ _) rfl
                        exact Frame.refl _ _
                      · exact Frame.refl _ _
                    · refine Frame.ite ?_ ?_
                      · refine Frame.ite ?_ ?_
                        · refine Frame.then ?_ (doFwActivate_frame _) rfl
                          exact Frame.refl _ _
                        · exact Frame.refl _ _
                      · refine Frame.ite ?_ ?_
                        · refine Frame.then ?_ (flushKept_frame _) rfl
                          refine Frame.then ?_ (setObj_frame _ _ _) rfl
                          exact Frame.refl _ _
                        · refine Frame.ite ?_ ?_
                          · refine Frame.ite ?_ ?_
                            · refine Frame.then ?_ (doSweepStart_frame _) rfl
                              exact Frame.refl _ _
                            · exact Frame.refl _ _
                          · refine Frame.ite ?_ ?_
                            · refine Frame.ite ?_ ?_
                              · refine Frame.then ?_ (doFmcStart_frame _) rfl
                                exact Frame.refl _ _
                              · exact Frame.refl _ _
                            · refine Frame.then ?_ (setObj_frame _ _ _) rfl
                              exact Frame.refl _ _

theorem applyRangeObj_frame : ∀ s a v, Frame [.objs, .place] s (applyRangeObj s a v) := by
  intro s a v
  unfold applyRangeObj
  try dsimp only [onHost, onMb]
  refine Frame.ite ?_ ?_
  · refine Frame.then ?_ (applyRange_frame _ _ _ _ _) rfl
    exact Frame.refl _ _
  · refine Frame.then ?_ (applyRange_frame _ _ _ _ _) rfl
    exact Frame.refl _ _

theorem applySlot_frame : ∀ s a v, Frame [.objs, .images, .flash] s (applySlot s a v) := by
  intro s a v
  unfold applySlot
  try dsimp only [onHost, onMb]
  refine Frame.ite ?_ ?_
  · refine Frame.ite ?_ ?_
    · refine Frame.then ?_ (doImageLoad_frame _ _) rfl
      exact Frame.refl _ _
    · exact Frame.refl _ _
  · refine Frame.ite ?_ ?_
    · refine Frame.ite ?_ ?_
      · refine Frame.then ?_ (writeUnload_frame _ _) rfl
        exact Frame.refl _ _
      · exact Frame.refl _ _
    · refine Frame.then ?_ (setObj_frame _ _ _) rfl
      exact Frame.refl _ _

theorem applyTable_frame : ∀ s a v, Frame [.objs, .counters, .comp, .flash] s (applyTable s a v) := by
  intro s a v
  unfold applyTable
  try dsimp only [onHost, onMb]
  refine Frame.ite ?_ ?_
  · refine Frame.ite ?_ ?_
    · refine Frame.then ?_ (doTableLoad_frame _ _) rfl
      exact Frame.refl _ _
    · exact Frame.refl _ _
  · refine Frame.ite ?_ ?_
    · refine Frame.ite ?_ ?_
      · refine Frame.then ?_ (doTableSwitch_frame _ _) rfl
        exact Frame.refl _ _
      · exact Frame.refl _ _
    · refine Frame.ite ?_ ?_
      · refine Frame.then ?_ (setObj_frame _ _ _) rfl
        refine Frame.then ?_ (setObj_frame _ _ _) rfl
        exact Frame.refl _ _
      · refine Frame.then ?_ (setObj_frame _ _ _) rfl
        exact Frame.refl _ _

theorem storeFreq_frame : ∀ s a v, Frame [.nvMisc] s (storeFreq s a v) := by
  intro s a v
  unfold storeFreq
  try dsimp only [onHost, onMb]
  refine Frame.then ?_ frame_set_nv_freqs rfl
  exact Frame.refl _ _

theorem applyVal_frame : ∀ s req a v, Frame [.objs, .counters, .txns, .queues, .rings, .turnMisc, .adm, .comp, .images, .remotes, .acts, .streams, .colls, .lists, .queries, .units, .ing, .place, .flash, .fab, .ledger, .bslots, .errorLog, .nvMisc, .sec, .ras, .clk, .out] s (applyVal s req a v) := by
  intro s req a v
  unfold applyVal
  try dsimp only [onHost, onMb]
  refine Frame.ite ?_ ?_
  · refine Frame.then ?_ (applyColl_frame _ _ _) rfl
    exact Frame.refl _ _
  · refine Frame.ite ?_ ?_
    · refine Frame.then ?_ (ledgerRequest_frame _ _) rfl
      exact Frame.refl _ _
    · refine Frame.ite ?_ ?_
      · refine Frame.ite ?_ ?_
        · refine Frame.then ?_ (applyMeterEn_frame _ _ _) rfl
          exact Frame.refl _ _
        · refine Frame.ite ?_ ?_
          · refine Frame.then ?_ (setObj_frame _ _ _) rfl
            exact Frame.refl _ _
          · refine Frame.then ?_ (applyMeterParam_frame _ _ _) rfl
            exact Frame.refl _ _
      · refine Frame.ite ?_ ?_
        · refine Frame.then ?_ (applyTable_frame _ _ _) rfl
          exact Frame.refl _ _
        · refine Frame.ite ?_ ?_
          · refine Frame.then ?_ (applySlot_frame _ _ _) rfl
            exact Frame.refl _ _
          · refine Frame.ite ?_ ?_
            · refine Frame.then ?_ (applyPrecisionMode_frame _ _ _) rfl
              refine Frame.then ?_ (setObj_frame _ _ _) rfl
              exact Frame.refl _ _
            · refine Frame.ite ?_ ?_
              · refine Frame.then ?_ (setScaleN_frame _ _ _ _) rfl
                exact Frame.refl _ _
              · refine Frame.ite ?_ ?_
                · refine Frame.then ?_ (setScaleN_frame _ _ _ _) rfl
                  exact Frame.refl _ _
                · refine Frame.ite ?_ ?_
                  · refine Frame.then ?_ (applyRangeObj_frame _ _ _) rfl
                    exact Frame.refl _ _
                  · refine Frame.ite ?_ ?_
                    · refine Frame.then ?_ (applyBslot_frame _ _ _) rfl
                      exact Frame.refl _ _
                    · refine Frame.ite ?_ ?_
                      · refine Frame.then ?_ (storeFreq_frame _ _ _) rfl
                        exact Frame.refl _ _
                      · refine Frame.then ?_ (applyFixed_frame _ _ _ _) rfl
                        exact Frame.refl _ _

theorem applyWrite_frame : ∀ s req a b, Frame [.objs, .doms, .counters, .txns, .queues, .rings, .turnMisc, .adm, .comp, .images, .remotes, .acts, .streams, .colls, .lists, .queries, .units, .ing, .place, .flash, .fab, .ledger, .bslots, .errorLog, .nvMisc, .sec, .ras, .clk, .out] s (applyWrite s req a b) := by
  intro s req a b
  unfold applyWrite
  try dsimp only [onHost, onMb]
  split
  · try dsimp only
    exact Frame.refl _ _
  · try dsimp only
    refine Frame.ite ?_ ?_
    · refine Frame.then ?_ (applyDom_frame _ _ _ _) rfl
      exact Frame.refl _ _
    · refine Frame.then ?_ (applyVal_frame _ _ _ _) rfl
      exact Frame.refl _ _

theorem forwardDue_frame : ∀ s, Frame [.ledger] s (forwardDue s) := by
  intro s
  unfold forwardDue
  try dsimp only [onHost, onMb]
  refine Frame.ite ?_ ?_
  · refine Frame.then ?_ frame_set_ledger rfl
    exact Frame.refl _ _
  · exact Frame.refl _ _

theorem applyStaged_frame : ∀ tagged req s w1, Frame [.objs, .doms, .counters, .txns, .queues, .rings, .turnMisc, .adm, .comp, .images, .remotes, .acts, .streams, .colls, .lists, .queries, .units, .ing, .place, .flash, .fab, .ledger, .bslots, .errorLog, .nvMisc, .sec, .ras, .clk, .out] s (applyStaged tagged req s w1) := by
  intro tagged req s w1
  unfold applyStaged
  try dsimp only [onHost, onMb]
  refine Frame.ite ?_ ?_
  · refine Frame.ite ?_ ?_
    · refine Frame.then ?_ frame_set_sec rfl
      refine Frame.then ?_ (setObj_frame _ _ _) rfl
      exact Frame.refl _ _
    · refine Frame.then ?_ (setObj_frame _ _ _) rfl
      exact Frame.refl _ _
  · refine Frame.ite ?_ ?_
    · refine Frame.then ?_ (setObj_frame _ _ _) rfl
      exact Frame.refl _ _
    · refine Frame.then ?_ (applyWrite_frame _ _ _ _) rfl
      exact Frame.refl _ _

theorem applyJob_frame : ∀ s j, Frame [.objs, .doms, .counters, .txns, .queues, .rings, .turnMisc, .adm, .comp, .images, .remotes, .acts, .streams, .colls, .lists, .queries, .units, .ing, .place, .flash, .fab, .ledger, .bslots, .errorLog, .nvMisc, .sec, .ras, .clk, .out] s (applyJob s j) := by
  intro s j
  unfold applyJob
  try dsimp only [onHost, onMb]
  split
  · try dsimp only
    refine Frame.then ?_ (bump_frame _ _ _) rfl
    refine Frame.then ?_ (onReq_frame _ _ _) rfl
    exact Frame.refl _ _
  · try dsimp only
    refine Frame.then ?_ (bump_frame _ _ _) rfl
    refine Frame.then ?_ (onReq_frame _ _ _) rfl
    refine Frame.ite ?_ ?_
    · refine Frame.then ?_ (pendGates_frame _ _) rfl
      refine Frame.foldl ?_ ?_
      · refine Frame.foldl ?_ ?_
        · exact Frame.refl _ _
        · intro _ _
          try dsimp only
          refine Frame.then ?_ (applyStaged_frame _ _ _ _) rfl
          exact Frame.refl _ _
      · intro _ _
        try dsimp only
        refine Frame.then ?_ (fillMeter_frame _ _) rfl
        exact Frame.refl _ _
    · refine Frame.foldl ?_ ?_
      · refine Frame.foldl ?_ ?_
        · exact Frame.refl _ _
        · intro _ _
          try dsimp only
          refine Frame.then ?_ (applyStaged_frame _ _ _ _) rfl
          exact Frame.refl _ _
      · intro _ _
        try dsimp only
        refine Frame.then ?_ (fillMeter_frame _ _) rfl
        exact Frame.refl _ _

theorem applyCommits_frame : ∀ s due, Frame [.objs, .doms, .counters, .txns, .queues, .rings, .turnMisc, .adm, .comp, .images, .remotes, .acts, .streams, .colls, .lists, .queries, .units, .ing, .place, .flash, .fab, .ledger, .bslots, .errorLog, .nvMisc, .sec, .ras, .clk, .out] s (applyCommits s due) := by
  intro s due
  unfold applyCommits
  try dsimp only [onHost, onMb]
  refine Frame.then ?_ frame_set_ledger rfl
  refine Frame.foldl ?_ ?_
  · refine Frame.then ?_ frame_set_ledger rfl
    exact Frame.refl _ _
  · intro _ _
    try dsimp only
    refine Frame.then ?_ (applyJob_frame _ _) rfl
    exact Frame.refl _ _

theorem doTxnApply_frame : ∀ s, Frame [.objs, .doms, .counters, .txns, .queues, .rings, .turnMisc, .adm, .comp, .images, .remotes, .acts, .streams, .colls, .lists, .queries, .units, .ing, .place, .flash, .fab, .ledger, .bslots, .errorLog, .nvMisc, .sec, .ras, .clk, .out] s (doTxnApply s) := by
  intro s
  unfold doTxnApply
  try dsimp only [onHost, onMb]
  refine Frame.ite ?_ ?_
  · exact Frame.refl _ _
  · refine Frame.ite ?_ ?_
    · refine Frame.then ?_ (applyCommits_frame _ _) rfl
      refine Frame.then ?_ frame_set_dict_commits rfl
      exact Frame.refl _ _
    · refine Frame.ite ?_ ?_
      · refine Frame.then ?_ (setObj_frame _ _ _) rfl
        refine Frame.then ?_ (applyCommits_frame _ _) rfl
        refine Frame.then ?_ frame_set_dict_commits rfl
        exact Frame.refl _ _
      · refine Frame.then ?_ (doSwitch_frame _) rfl
        refine Frame.then ?_ (applyCommits_frame _ _) rfl
        refine Frame.then ?_ frame_set_dict_commits rfl
        exact Frame.refl _ _

theorem execTxnApply_frame : ∀ s t, execTxnApply s = .next t → Frame [.objs, .doms, .counters, .txns, .queues, .rings, .turnMisc, .adm, .comp, .images, .remotes, .acts, .streams, .colls, .lists, .queries, .units, .ing, .place, .flash, .fab, .ledger, .bslots, .errorLog, .nvMisc, .sec, .ras, .clk, .out] s t := by
  intro s t h
  unfold execTxnApply at h
  injection h with h
  subst h
  try dsimp only [onHost, onMb]
  refine Frame.then ?_ (doTxnApply_frame _) rfl
  exact Frame.refl _ _

end Sys2Proof.Machine
end

