-- ==== Sys2Proof/Laws/FrameDictionary.lean ====
section
/-! SUPPORT. Which parts of the state the functions of Machine/Dictionary.lean may change. -/

set_option maxRecDepth 4000

namespace Sys2Proof.Machine

open Sys2Proof

theorem hideJobs_frame : ∀ s req, Frame [.txns] s (hideJobs s req) := by
  intro s req
  unfold hideJobs
  try dsimp only [onHost, onMb]
  refine Frame.then ?_ frame_set_dict_commits rfl
  exact Frame.refl _ _

theorem pushCommit_frame : ∀ s req ws shown, Frame [.txns] s (pushCommit s req ws shown) := by
  intro s req ws shown
  unfold pushCommit
  try dsimp only [onHost, onMb]
  refine Frame.then ?_ frame_set_dict_commits rfl
  exact Frame.refl _ _

theorem commitOne_frame : ∀ s req a b, Frame [.txns] s (commitOne s req a b) := by
  intro s req a b
  unfold commitOne
  try dsimp only [onHost, onMb]
  refine Frame.ite ?_ ?_
  · refine Frame.then ?_ (pushCommit_frame _ _ _ _) rfl
    exact Frame.refl _ _
  · refine Frame.then ?_ (pushCommit_frame _ _ _ _) rfl
    refine Frame.then ?_ (onReq_frame _ _ _) rfl
    refine Frame.then ?_ (hideJobs_frame _ _) rfl
    exact Frame.refl _ _

theorem refuse_frame : ∀ s code, Frame [] s (refuse s code).1 := by
  intro s code
  unfold refuse
  try dsimp only [onHost, onMb]
  try dsimp only
  exact Frame.refl _ _

theorem doWrite_frame : ∀ s req source session m, Frame [.objs, .doms, .counters, .txns, .queues, .rings, .turnMisc, .adm, .comp, .images, .remotes, .acts, .streams, .colls, .lists, .queries, .units, .ing, .place, .flash, .fab, .ledger, .bslots, .errorLog, .nvMisc, .sec, .ras, .clk, .out] s (doWrite s req source session m).1 := by
  intro s req source session m
  unfold doWrite
  try dsimp only [onHost, onMb]
  refine Frame.ite1 ?_ ?_
  · refine Frame.then ?_ (refuse_frame _ _) rfl
    exact Frame.refl _ _
  · refine Frame.ite1 ?_ ?_
    · refine Frame.then ?_ (refuse_frame _ _) rfl
      exact Frame.refl _ _
    · split
      · try dsimp only
        refine Frame.then ?_ (refuse_frame _ _) rfl
        exact Frame.refl _ _
      · try dsimp only
        refine Frame.ite1 ?_ ?_
        · refine Frame.then ?_ (refuse_frame _ _) rfl
          exact Frame.refl _ _
        · refine Frame.ite1 ?_ ?_
          · refine Frame.then ?_ (refuse_frame _ _) rfl
            exact Frame.refl _ _
          · refine Frame.ite1 ?_ ?_
            · split
              · try dsimp only
                refine Frame.then ?_ (refuse_frame _ _) rfl
                exact Frame.refl _ _
              · try dsimp only
                try dsimp only
                refine Frame.then ?_ (onReq_frame _ _ _) rfl
                exact Frame.refl _ _
            · refine Frame.ite1 ?_ ?_
              · try dsimp only
                refine Frame.then ?_ (commitOne_frame _ _ _ _) rfl
                exact Frame.refl _ _
              · try dsimp only
                refine Frame.then ?_ (applyWrite_frame _ _ _ _) rfl
                exact Frame.refl _ _

theorem setSeg_frame : ∀ s req g, Frame [.txns] s (setSeg s req g) := by
  intro s req g
  unfold setSeg
  try dsimp only [onHost, onMb]
  refine Frame.then ?_ (onReq_frame _ _ _) rfl
  exact Frame.refl _ _

theorem doSegRead_frame : ∀ s req source m, Frame [.txns] s (doSegRead s req source m).1 := by
  intro s req source m
  unfold doSegRead
  try dsimp only [onHost, onMb]
  split
  · try dsimp only
    refine Frame.then ?_ (refuse_frame _ _) rfl
    exact Frame.refl _ _
  · try dsimp only
    try dsimp only
    refine Frame.then ?_ (setSeg_frame _ _ _) rfl
    exact Frame.refl _ _

theorem doCommit_frame : ∀ s req source, Frame [.txns] s (doCommit s req source).1 := by
  intro s req source
  unfold doCommit
  try dsimp only [onHost, onMb]
  refine Frame.ite1 ?_ ?_
  · refine Frame.then ?_ (refuse_frame _ _) rfl
    exact Frame.refl _ _
  · try dsimp only
    refine Frame.then ?_ (pushCommit_frame _ _ _ _) rfl
    refine Frame.then ?_ (onReq_frame _ _ _) rfl
    refine Frame.then ?_ (hideJobs_frame _ _) rfl
    exact Frame.refl _ _

theorem doBegin_frame : ∀ s req source, Frame [.txns] s (doBegin s req source).1 := by
  intro s req source
  unfold doBegin
  try dsimp only [onHost, onMb]
  refine Frame.ite1 ?_ ?_
  · refine Frame.then ?_ (refuse_frame _ _) rfl
    exact Frame.refl _ _
  · try dsimp only
    refine Frame.then ?_ (onReq_frame _ _ _) rfl
    refine Frame.then ?_ (hideJobs_frame _ _) rfl
    exact Frame.refl _ _

theorem doRead_frame : ∀ s req source m, Frame [] s (doRead s req source m).1 := by
  intro s req source m
  unfold doRead
  try dsimp only [onHost, onMb]
  refine Frame.ite1 ?_ ?_
  · refine Frame.then ?_ (refuse_frame _ _) rfl
    exact Frame.refl _ _
  · refine Frame.ite1 ?_ ?_
    · refine Frame.ite1 ?_ ?_
      · refine Frame.then ?_ (refuse_frame _ _) rfl
        exact Frame.refl _ _
      · refine Frame.ite1 ?_ ?_
        · refine Frame.then ?_ (refuse_frame _ _) rfl
          exact Frame.refl _ _
        · try dsimp only
          exact Frame.refl _ _
    · split
      · try dsimp only
        refine Frame.then ?_ (refuse_frame _ _) rfl
        exact Frame.refl _ _
      · try dsimp only
        refine Frame.ite1 ?_ ?_
        · refine Frame.then ?_ (refuse_frame _ _) rfl
          exact Frame.refl _ _
        · refine Frame.ite1 ?_ ?_
          · refine Frame.then ?_ (refuse_frame _ _) rfl
            exact Frame.refl _ _
          · try dsimp only
            exact Frame.refl _ _

theorem doRollback_frame : ∀ s req source, Frame [.counters, .txns] s (doRollback s req source).1 := by
  intro s req source
  unfold doRollback
  try dsimp only [onHost, onMb]
  refine Frame.ite1 ?_ ?_
  · refine Frame.then ?_ (refuse_frame _ _) rfl
    exact Frame.refl _ _
  · try dsimp only
    refine Frame.then ?_ (bump_frame _ _ _) rfl
    refine Frame.then ?_ (onReq_frame _ _ _) rfl
    exact Frame.refl _ _

theorem doSegAbort_frame : ∀ s req source, Frame [.txns] s (doSegAbort s req source).1 := by
  intro s req source
  unfold doSegAbort
  try dsimp only [onHost, onMb]
  split
  · try dsimp only
    refine Frame.then ?_ (refuse_frame _ _) rfl
    exact Frame.refl _ _
  · try dsimp only
    refine Frame.ite1 ?_ ?_
    · refine Frame.then ?_ (refuse_frame _ _) rfl
      exact Frame.refl _ _
    · try dsimp only
      refine Frame.then ?_ (setSeg_frame _ _ _) rfl
      exact Frame.refl _ _

theorem doSegReadInit_frame : ∀ s req source m, Frame [.txns] s (doSegReadInit s req source m).1 := by
  intro s req source m
  unfold doSegReadInit
  try dsimp only [onHost, onMb]
  refine Frame.ite1 ?_ ?_
  · refine Frame.then ?_ (refuse_frame _ _) rfl
    exact Frame.refl _ _
  · split
    · try dsimp only
      refine Frame.then ?_ (refuse_frame _ _) rfl
      exact Frame.refl _ _
    · try dsimp only
      refine Frame.ite1 ?_ ?_
      · refine Frame.then ?_ (refuse_frame _ _) rfl
        exact Frame.refl _ _
      · refine Frame.ite1 ?_ ?_
        · refine Frame.then ?_ (refuse_frame _ _) rfl
          exact Frame.refl _ _
        · refine Frame.ite1 ?_ ?_
          · refine Frame.then ?_ (refuse_frame _ _) rfl
            exact Frame.refl _ _
          · try dsimp only
            refine Frame.then ?_ (setSeg_frame _ _ _) rfl
            exact Frame.refl _ _

theorem doSegWrite_frame : ∀ s req source m, Frame [.txns] s (doSegWrite s req source m).1 := by
  intro s req source m
  unfold doSegWrite
  try dsimp only [onHost, onMb]
  split
  · try dsimp only
    refine Frame.then ?_ (refuse_frame _ _) rfl
    exact Frame.refl _ _
  · try dsimp only
    refine Frame.ite1 ?_ ?_
    · try dsimp only
      refine Frame.then ?_ (setSeg_frame _ _ _) rfl
      exact Frame.refl _ _
    · refine Frame.ite1 ?_ ?_
      · try dsimp only
        refine Frame.then ?_ (setSeg_frame _ _ _) rfl
        exact Frame.refl _ _
      · try dsimp only
        refine Frame.then ?_ (setSeg_frame _ _ _) rfl
        exact Frame.refl _ _

theorem doSegWriteEnd_frame : ∀ s req source session m, Frame [.counters, .txns, .queues, .rings, .errorLog, .nvMisc, .sec] s (doSegWriteEnd s req source session m).1 := by
  intro s req source session m
  unfold doSegWriteEnd
  try dsimp only [onHost, onMb]
  split
  · try dsimp only
    refine Frame.then ?_ (refuse_frame _ _) rfl
    exact Frame.refl _ _
  · try dsimp only
    refine Frame.ite1 ?_ ?_
    · try dsimp only
      refine Frame.then ?_ (setSeg_frame _ _ _) rfl
      exact Frame.refl _ _
    · refine Frame.ite1 ?_ ?_
      · try dsimp only
        refine Frame.then ?_ (bump_frame _ _ _) rfl
        refine Frame.then ?_ (setSeg_frame _ _ _) rfl
        exact Frame.refl _ _
      · split
        · try dsimp only
          refine Frame.then ?_ (refuse_frame _ _) rfl
          exact Frame.refl _ _
        · try dsimp only
          refine Frame.ite1 ?_ ?_
          · try dsimp only
            refine Frame.then ?_ (setSeg_frame _ _ _) rfl
            exact Frame.refl _ _
          · refine Frame.ite1 ?_ ?_
            · try dsimp only
              refine Frame.then ?_ (stageFirmware_frame _ _) rfl
              refine Frame.then ?_ (setSeg_frame _ _ _) rfl
              exact Frame.refl _ _
            · refine Frame.ite1 ?_ ?_
              · split
                · try dsimp only
                  try dsimp only
                  refine Frame.then ?_ (setSeg_frame _ _ _) rfl
                  exact Frame.refl _ _
                · try dsimp only
                  try dsimp only
                  refine Frame.then ?_ (onReq_frame _ _ _) rfl
                  refine Frame.then ?_ (setSeg_frame _ _ _) rfl
                  exact Frame.refl _ _
              · try dsimp only
                refine Frame.then ?_ (commitOne_frame _ _ _ _) rfl
                refine Frame.then ?_ (setSeg_frame _ _ _) rfl
                exact Frame.refl _ _

theorem doSegWriteInit_frame : ∀ s req source session m, Frame [.txns] s (doSegWriteInit s req source session m).1 := by
  intro s req source session m
  unfold doSegWriteInit
  try dsimp only [onHost, onMb]
  refine Frame.ite1 ?_ ?_
  · refine Frame.then ?_ (refuse_frame _ _) rfl
    exact Frame.refl _ _
  · split
    · try dsimp only
      refine Frame.then ?_ (refuse_frame _ _) rfl
      exact Frame.refl _ _
    · try dsimp only
      refine Frame.ite1 ?_ ?_
      · refine Frame.then ?_ (refuse_frame _ _) rfl
        exact Frame.refl _ _
      · refine Frame.ite1 ?_ ?_
        · refine Frame.then ?_ (refuse_frame _ _) rfl
          exact Frame.refl _ _
        · refine Frame.ite1 ?_ ?_
          · refine Frame.then ?_ (refuse_frame _ _) rfl
            exact Frame.refl _ _
          · try dsimp only
            refine Frame.then ?_ (setSeg_frame _ _ _) rfl
            exact Frame.refl _ _

theorem runCommand_frame : ∀ s req source session m, Frame [.objs, .doms, .counters, .txns, .queues, .rings, .turnMisc, .adm, .comp, .images, .remotes, .acts, .streams, .colls, .lists, .queries, .units, .ing, .place, .flash, .fab, .ledger, .bslots, .errorLog, .nvMisc, .sec, .ras, .clk, .out] s (runCommand s req source session m).1 := by
  intro s req source session m
  unfold runCommand
  try dsimp only [onHost, onMb]
  refine Frame.ite1 ?_ ?_
  · refine Frame.then ?_ (refuse_frame _ _) rfl
    exact Frame.refl _ _
  · refine Frame.ite1 ?_ ?_
    · refine Frame.then ?_ (doRead_frame _ _ _ _) rfl
      exact Frame.refl _ _
    · refine Frame.ite1 ?_ ?_
      · refine Frame.then ?_ (doWrite_frame _ _ _ _ _) rfl
        exact Frame.refl _ _
      · refine Frame.ite1 ?_ ?_
        · refine Frame.then ?_ (doBegin_frame _ _ _) rfl
          exact Frame.refl _ _
        · refine Frame.ite1 ?_ ?_
          · refine Frame.then ?_ (doCommit_frame _ _ _) rfl
            exact Frame.refl _ _
          · refine Frame.ite1 ?_ ?_
            · refine Frame.then ?_ (doRollback_frame _ _ _) rfl
              exact Frame.refl _ _
            · refine Frame.ite1 ?_ ?_
              · refine Frame.then ?_ (doSegReadInit_frame _ _ _ _) rfl
                exact Frame.refl _ _
              · refine Frame.ite1 ?_ ?_
                · refine Frame.then ?_ (doSegRead_frame _ _ _ _) rfl
                  exact Frame.refl _ _
                · refine Frame.ite1 ?_ ?_
                  · refine Frame.then ?_ (doSegWriteInit_frame _ _ _ _ _) rfl
                    exact Frame.refl _ _
                  · refine Frame.ite1 ?_ ?_
                    · refine Frame.then ?_ (doSegWrite_frame _ _ _ _) rfl
                      exact Frame.refl _ _
                    · refine Frame.ite1 ?_ ?_
                      · refine Frame.then ?_ (doSegWriteEnd_frame _ _ _ _ _) rfl
                        exact Frame.refl _ _
                      · refine Frame.ite1 ?_ ?_
                        · refine Frame.then ?_ (doSegAbort_frame _ _ _) rfl
                          exact Frame.refl _ _
                        · refine Frame.then ?_ (refuse_frame _ _) rfl
                          exact Frame.refl _ _

theorem serve_frame : ∀ s req source session msg, Frame [.objs, .doms, .counters, .txns, .queues, .rings, .turnMisc, .adm, .comp, .images, .remotes, .acts, .streams, .colls, .lists, .queries, .units, .ing, .place, .flash, .fab, .ledger, .bslots, .errorLog, .nvMisc, .sec, .ras, .clk, .out] s (serve s req source session msg).1 := by
  intro s req source session msg
  unfold serve
  try dsimp only [onHost, onMb]
  refine Frame.ite1 ?_ ?_
  · try dsimp only
    exact Frame.refl _ _
  · split
    · try dsimp only
      try dsimp only
      refine Frame.then ?_ (bump_frame _ _ _) rfl
      exact Frame.refl _ _
    · try dsimp only
      try dsimp only
      refine Frame.then ?_ (onReq_frame _ _ _) rfl
      refine Frame.then ?_ (runCommand_frame _ _ _ _ _) rfl
      exact Frame.refl _ _

theorem serveTo_frame : ∀ s req source m, Frame [.objs, .doms, .counters, .txns, .queues, .rings, .turnMisc, .adm, .comp, .images, .remotes, .acts, .streams, .colls, .lists, .queries, .units, .ing, .place, .flash, .fab, .ledger, .bslots, .errorLog, .nvMisc, .sec, .ras, .clk, .out] s (serveTo s req source m) := by
  intro s req source m
  unfold serveTo
  try dsimp only [onHost, onMb]
  split
  · try dsimp only
    refine Frame.then ?_ (emit_frame _ _) rfl
    refine Frame.then ?_ (serve_frame _ _ _ _ _) rfl
    exact Frame.refl _ _
  · try dsimp only
    refine Frame.then ?_ (serve_frame _ _ _ _ _) rfl
    exact Frame.refl _ _

theorem execFnFrame_frame : ∀ frame s t, execFnFrame frame s = .next t → Frame [.objs, .doms, .counters, .txns, .queues, .rings, .turnMisc, .adm, .comp, .images, .remotes, .acts, .streams, .colls, .lists, .queries, .units, .ing, .place, .flash, .fab, .ledger, .bslots, .errorLog, .nvMisc, .sec, .ras, .clk, .out] s t := by
  intro frame s t h
  unfold execFnFrame at h
  injection h with h
  subst h
  try dsimp only [onHost, onMb]
  refine Frame.ite ?_ ?_
  · exact Frame.refl _ _
  · refine Frame.ite ?_ ?_
    · refine Frame.then ?_ (serveTo_frame _ _ _ _) rfl
      refine Frame.then ?_ (bump_frame _ _ _) rfl
      exact Frame.refl _ _
    · refine Frame.then ?_ (bump_frame _ _ _) rfl
      exact Frame.refl _ _

theorem mailboxGo_frame : ∀ s1, Frame [.objs, .doms, .counters, .txns, .mailbox, .hostRegs, .queues, .rings, .turnMisc, .adm, .comp, .images, .remotes, .acts, .streams, .colls, .lists, .queries, .units, .ing, .place, .flash, .fab, .ledger, .bslots, .errorLog, .nvMisc, .sec, .ras, .clk, .out] s1 (mailboxGo s1) := by
  intro s
  have hs := serve_frame s 1 0 false (mailboxMsg s.dict.mb)
  unfold mailboxGo onMb
  dsimp only
  generalize serve s 1 0 false (mailboxMsg s.dict.mb) = p at hs ⊢
  refine Frame.ite ?_ (Frame.ite ?_ ?_)
  · exact Frame.then (Frame.refl _ _) frame_set_dict_mb rfl
  · exact Frame.then (Frame.refl _ _) frame_set_dict_mb rfl
  · obtain ⟨a, b⟩ := p
    cases b with
    | none => exact Frame.then (Frame.refl _ _) hs rfl
    | some r =>
      refine Frame.ite ?_ ?_
      · exact Frame.then (Frame.then (Frame.then (Frame.refl _ _) hs rfl) frame_set_dict_mb rfl) (msixSend_frame _ _) rfl
      · exact Frame.then (Frame.then (Frame.refl _ _) hs rfl) frame_set_dict_mb rfl

theorem execSegRead_frame : ∀ req msg s t, execSegRead req msg s = .next t → Frame [.objs, .doms, .counters, .txns, .queues, .rings, .turnMisc, .adm, .comp, .images, .remotes, .acts, .streams, .colls, .lists, .queries, .units, .ing, .place, .flash, .fab, .ledger, .bslots, .errorLog, .nvMisc, .sec, .ras, .clk, .out] s t := by
  intro req msg s t h
  unfold execSegRead at h
  injection h with h
  subst h
  try dsimp only [onHost, onMb]
  refine Frame.then ?_ (serveTo_frame _ _ _ _) rfl
  exact Frame.refl _ _

theorem execWrite_frame : ∀ req msg s t, execWrite req msg s = .next t → Frame [.objs, .doms, .counters, .txns, .queues, .rings, .turnMisc, .adm, .comp, .images, .remotes, .acts, .streams, .colls, .lists, .queries, .units, .ing, .place, .flash, .fab, .ledger, .bslots, .errorLog, .nvMisc, .sec, .ras, .clk, .out] s t := by
  intro req msg s t h
  unfold execWrite at h
  injection h with h
  subst h
  try dsimp only [onHost, onMb]
  refine Frame.then ?_ (serveTo_frame _ _ _ _) rfl
  exact Frame.refl _ _

theorem execMbGo_frame : ∀ secure s t, execMbGo secure s = .next t → Frame [.objs, .doms, .counters, .txns, .mailbox, .hostRegs, .queues, .rings, .turnMisc, .adm, .comp, .images, .remotes, .acts, .streams, .colls, .lists, .queries, .units, .ing, .place, .flash, .fab, .ledger, .bslots, .errorLog, .nvMisc, .sec, .ras, .clk, .out] s t := by
  intro secure s t h
  unfold execMbGo at h
  injection h with h
  subst h
  try dsimp only [onHost, onMb]
  refine Frame.ite ?_ ?_
  · refine Frame.then ?_ (bump_frame _ _ _) rfl
    exact Frame.refl _ _
  · refine Frame.then ?_ (mailboxGo_frame _) rfl
    exact Frame.refl _ _

theorem doeAnswer_frame : ∀ s r, Frame [.doe] s (doeAnswer s r) := by
  intro s r
  unfold doeAnswer
  try dsimp only [onHost, onMb]
  refine Frame.then ?_ frame_set_host_doeResp rfl
  exact Frame.refl _ _

theorem doeFail_frame : ∀ s cause, Frame [.counters, .doe] s (doeFail s cause) := by
  intro s cause
  unfold doeFail
  try dsimp only [onHost, onMb]
  refine Frame.then ?_ (bump_frame _ _ _) rfl
  refine Frame.then ?_ (doeAnswer_frame _ _) rfl
  exact Frame.refl _ _

theorem securedAnswer_frame : ∀ s r, Frame [.doe] s (securedAnswer s r) := by
  intro s r
  unfold securedAnswer
  try dsimp only [onHost, onMb]
  split
  · try dsimp only
    exact Frame.refl _ _
  · try dsimp only
    refine Frame.then ?_ (doeAnswer_frame _ _) rfl
    refine Frame.then ?_ frame_set_host_session rfl
    exact Frame.refl _ _

theorem doSecured_frame : ∀ s seq tagOk body, Frame [.objs, .doms, .counters, .txns, .queues, .rings, .doe, .turnMisc, .adm, .comp, .images, .remotes, .acts, .streams, .colls, .lists, .queries, .units, .ing, .place, .flash, .fab, .ledger, .bslots, .errorLog, .nvMisc, .sec, .ras, .clk, .out] s (doSecured s seq tagOk body) := by
  intro s seq tagOk body
  unfold doSecured
  try dsimp only [onHost, onMb]
  split
  · try dsimp only
    refine Frame.then ?_ (doeFail_frame _ _) rfl
    exact Frame.refl _ _
  · try dsimp only
    refine Frame.ite ?_ ?_
    · refine Frame.then ?_ (doeFail_frame _ _) rfl
      exact Frame.refl _ _
    · refine Frame.ite ?_ ?_
      · refine Frame.then ?_ (postEvent_frame _ _ _) rfl
        refine Frame.then ?_ (doeFail_frame _ _) rfl
        refine Frame.then ?_ frame_set_host_session rfl
        exact Frame.refl _ _
      · split
        · try dsimp only
          refine Frame.then ?_ (doeFail_frame _ _) rfl
          refine Frame.then ?_ frame_set_host_session rfl
          exact Frame.refl _ _
        · try dsimp only
          split
          · try dsimp only
            refine Frame.then ?_ (securedAnswer_frame _ _) rfl
            refine Frame.then ?_ (serve_frame _ _ _ _ _) rfl
            refine Frame.then ?_ frame_set_host_session rfl
            exact Frame.refl _ _
          · try dsimp only
            refine Frame.then ?_ (serve_frame _ _ _ _ _) rfl
            refine Frame.then ?_ frame_set_host_session rfl
            exact Frame.refl _ _
        · try dsimp only
          refine Frame.then ?_ (securedAnswer_frame _ _) rfl
          refine Frame.then ?_ (flushKept_frame _) rfl
          refine Frame.then ?_ frame_set_host_ideSet rfl
          refine Frame.then ?_ (setIde_frame _ _ _) rfl
          refine Frame.then ?_ frame_set_host_session rfl
          exact Frame.refl _ _

theorem execDoeAbort_frame : ∀ s t, execDoeAbort s = .next t → Frame [.doe] s t := by
  intro s t h
  unfold execDoeAbort at h
  injection h with h
  subst h
  try dsimp only [onHost, onMb]
  refine Frame.then ?_ frame_set_host_doeResp rfl
  exact Frame.refl _ _

theorem execTxnBegin_frame : ∀ req msg s t, execTxnBegin req msg s = .next t → Frame [.objs, .doms, .counters, .txns, .queues, .rings, .turnMisc, .adm, .comp, .images, .remotes, .acts, .streams, .colls, .lists, .queries, .units, .ing, .place, .flash, .fab, .ledger, .bslots, .errorLog, .nvMisc, .sec, .ras, .clk, .out] s t := by
  intro req msg s t h
  unfold execTxnBegin at h
  injection h with h
  subst h
  try dsimp only [onHost, onMb]
  refine Frame.then ?_ (serveTo_frame _ _ _ _) rfl
  exact Frame.refl _ _

theorem execRollback_frame : ∀ req msg s t, execRollback req msg s = .next t → Frame [.objs, .doms, .counters, .txns, .queues, .rings, .turnMisc, .adm, .comp, .images, .remotes, .acts, .streams, .colls, .lists, .queries, .units, .ing, .place, .flash, .fab, .ledger, .bslots, .errorLog, .nvMisc, .sec, .ras, .clk, .out] s t := by
  intro req msg s t h
  unfold execRollback at h
  injection h with h
  subst h
  try dsimp only [onHost, onMb]
  refine Frame.then ?_ (serveTo_frame _ _ _ _) rfl
  exact Frame.refl _ _

theorem execSegReadInit_frame : ∀ req msg s t, execSegReadInit req msg s = .next t → Frame [.objs, .doms, .counters, .txns, .queues, .rings, .turnMisc, .adm, .comp, .images, .remotes, .acts, .streams, .colls, .lists, .queries, .units, .ing, .place, .flash, .fab, .ledger, .bslots, .errorLog, .nvMisc, .sec, .ras, .clk, .out] s t := by
  intro req msg s t h
  unfold execSegReadInit at h
  injection h with h
  subst h
  try dsimp only [onHost, onMb]
  refine Frame.then ?_ (serveTo_frame _ _ _ _) rfl
  exact Frame.refl _ _

theorem onMb_frame : ∀ s f, Frame [.mailbox] s (onMb s f) := by
  intro s f
  unfold onMb
  try dsimp only [onHost, onMb]
  refine Frame.then ?_ frame_set_dict_mb rfl
  exact Frame.refl _ _

theorem execSegIdleTimeout_frame : ∀ req s t, execSegIdleTimeout req s = .next t → Frame [.txns] s t := by
  intro req s t h
  unfold execSegIdleTimeout at h
  injection h with h
  subst h
  try dsimp only [onHost, onMb]
  split
  · try dsimp only
    refine Frame.ite ?_ ?_
    · refine Frame.then ?_ (setSeg_frame _ _ _) rfl
      exact Frame.refl _ _
    · exact Frame.refl _ _
  · try dsimp only
    exact Frame.refl _ _

theorem execSegWriteInit_frame : ∀ req msg s t, execSegWriteInit req msg s = .next t → Frame [.objs, .doms, .counters, .txns, .queues, .rings, .turnMisc, .adm, .comp, .images, .remotes, .acts, .streams, .colls, .lists, .queries, .units, .ing, .place, .flash, .fab, .ledger, .bslots, .errorLog, .nvMisc, .sec, .ras, .clk, .out] s t := by
  intro req msg s t h
  unfold execSegWriteInit at h
  injection h with h
  subst h
  try dsimp only [onHost, onMb]
  refine Frame.then ?_ (serveTo_frame _ _ _ _) rfl
  exact Frame.refl _ _

theorem execSegAbort_frame : ∀ req msg s t, execSegAbort req msg s = .next t → Frame [.objs, .doms, .counters, .txns, .queues, .rings, .turnMisc, .adm, .comp, .images, .remotes, .acts, .streams, .colls, .lists, .queries, .units, .ing, .place, .flash, .fab, .ledger, .bslots, .errorLog, .nvMisc, .sec, .ras, .clk, .out] s t := by
  intro req msg s t h
  unfold execSegAbort at h
  injection h with h
  subst h
  try dsimp only [onHost, onMb]
  refine Frame.then ?_ (serveTo_frame _ _ _ _) rfl
  exact Frame.refl _ _

theorem execSegWrite_frame : ∀ req msg s t, execSegWrite req msg s = .next t → Frame [.objs, .doms, .counters, .txns, .queues, .rings, .turnMisc, .adm, .comp, .images, .remotes, .acts, .streams, .colls, .lists, .queries, .units, .ing, .place, .flash, .fab, .ledger, .bslots, .errorLog, .nvMisc, .sec, .ras, .clk, .out] s t := by
  intro req msg s t h
  unfold execSegWrite at h
  injection h with h
  subst h
  try dsimp only [onHost, onMb]
  refine Frame.then ?_ (serveTo_frame _ _ _ _) rfl
  exact Frame.refl _ _

theorem execCommit_frame : ∀ req msg s t, execCommit req msg s = .next t → Frame [.objs, .doms, .counters, .txns, .queues, .rings, .turnMisc, .adm, .comp, .images, .remotes, .acts, .streams, .colls, .lists, .queries, .units, .ing, .place, .flash, .fab, .ledger, .bslots, .errorLog, .nvMisc, .sec, .ras, .clk, .out] s t := by
  intro req msg s t h
  unfold execCommit at h
  injection h with h
  subst h
  try dsimp only [onHost, onMb]
  refine Frame.then ?_ (serveTo_frame _ _ _ _) rfl
  exact Frame.refl _ _

theorem execDoeRequest_frame : ∀ obj s t, execDoeRequest obj s = .next t → Frame [.objs, .doms, .counters, .txns, .queues, .rings, .doe, .turnMisc, .adm, .comp, .images, .remotes, .acts, .streams, .colls, .lists, .queries, .units, .ing, .place, .flash, .fab, .ledger, .bslots, .errorLog, .nvMisc, .sec, .ras, .clk, .out] s t := by
  intro obj s t h
  unfold execDoeRequest at h
  injection h with h
  subst h
  try dsimp only [onHost, onMb]
  refine Frame.ite ?_ ?_
  · exact Frame.refl _ _
  · split
    · try dsimp only
      refine Frame.then ?_ (doeAnswer_frame _ _) rfl
      exact Frame.refl _ _
    · try dsimp only
      split
      · try dsimp only
        refine Frame.then ?_ (doeAnswer_frame _ _) rfl
        refine Frame.then ?_ (serve_frame _ _ _ _ _) rfl
        exact Frame.refl _ _
      · try dsimp only
        refine Frame.then ?_ (serve_frame _ _ _ _ _) rfl
        exact Frame.refl _ _

theorem doGetReport_frame : ∀ s data coins, Frame [.doe] s (doGetReport s data coins) := by
  intro s data coins
  unfold doGetReport
  try dsimp only [onHost, onMb]
  refine Frame.ite ?_ ?_
  · refine Frame.then ?_ (doeAnswer_frame _ _) rfl
    exact Frame.refl _ _
  · refine Frame.then ?_ frame_set_host_session rfl
    refine Frame.then ?_ (doeAnswer_frame _ _) rfl
    exact Frame.refl _ _

theorem execGetReport_frame : ∀ data coins s t, execGetReport data coins s = .next t → Frame [.doe] s t := by
  intro data coins s t h
  unfold execGetReport at h
  injection h with h
  subst h
  try dsimp only [onHost, onMb]
  refine Frame.ite ?_ ?_
  · refine Frame.then ?_ (doGetReport_frame _ _ _) rfl
    exact Frame.refl _ _
  · exact Frame.refl _ _

theorem execSecured_frame : ∀ seq tagOk body s t, execSecured seq tagOk body s = .next t → Frame [.objs, .doms, .counters, .txns, .queues, .rings, .doe, .turnMisc, .adm, .comp, .images, .remotes, .acts, .streams, .colls, .lists, .queries, .units, .ing, .place, .flash, .fab, .ledger, .bslots, .errorLog, .nvMisc, .sec, .ras, .clk, .out] s t := by
  intro seq tagOk body s t h
  unfold execSecured at h
  injection h with h
  subst h
  try dsimp only [onHost, onMb]
  refine Frame.ite ?_ ?_
  · refine Frame.then ?_ (doSecured_frame _ _ _ _) rfl
    exact Frame.refl _ _
  · exact Frame.refl _ _

theorem execRead_frame : ∀ req msg s t, execRead req msg s = .next t → Frame [.objs, .doms, .counters, .txns, .queues, .rings, .turnMisc, .adm, .comp, .images, .remotes, .acts, .streams, .colls, .lists, .queries, .units, .ing, .place, .flash, .fab, .ledger, .bslots, .errorLog, .nvMisc, .sec, .ras, .clk, .out] s t := by
  intro req msg s t h
  unfold execRead at h
  injection h with h
  subst h
  try dsimp only [onHost, onMb]
  refine Frame.then ?_ (serveTo_frame _ _ _ _) rfl
  exact Frame.refl _ _

theorem execSegWriteEnd_frame : ∀ req msg s t, execSegWriteEnd req msg s = .next t → Frame [.objs, .doms, .counters, .txns, .queues, .rings, .turnMisc, .adm, .comp, .images, .remotes, .acts, .streams, .colls, .lists, .queries, .units, .ing, .place, .flash, .fab, .ledger, .bslots, .errorLog, .nvMisc, .sec, .ras, .clk, .out] s t := by
  intro req msg s t h
  unfold execSegWriteEnd at h
  injection h with h
  subst h
  try dsimp only [onHost, onMb]
  refine Frame.then ?_ (serveTo_frame _ _ _ _) rfl
  exact Frame.refl _ _

theorem execTxnWatchdog_frame : ∀ req s t, execTxnWatchdog req s = .next t → Frame [.counters, .txns, .queues, .rings, .errorLog] s t := by
  intro req s t h
  unfold execTxnWatchdog at h
  injection h with h
  subst h
  try dsimp only [onHost, onMb]
  refine Frame.ite ?_ ?_
  · refine Frame.then ?_ (postEvent_frame _ _ _) rfl
    refine Frame.then ?_ (bump_frame _ _ _) rfl
    refine Frame.then ?_ (onReq_frame _ _ _) rfl
    exact Frame.refl _ _
  · exact Frame.refl _ _

end Sys2Proof.Machine
end

