-- ==== Sys2Proof/Laws/FrameFlags.lean ====
section
/-! SUPPORT. Which parts of the state the functions of Machine/Flags.lean may change. -/

set_option maxRecDepth 4000

namespace Sys2Proof.Machine

open Sys2Proof

theorem foldCounters_frame : ∀ s, Frame [.objs, .counters] s (foldCounters s) := by
  intro s
  unfold foldCounters
  try dsimp only [onHost, onMb]
  refine Frame.then ?_ frame_set_dict_ctrPend rfl
  refine Frame.foldl ?_ ?_
  · exact Frame.refl _ _
  · intro _ _
    try dsimp only
    refine Frame.then ?_ (setObj_frame _ _ _) rfl
    exact Frame.refl _ _

end Sys2Proof.Machine
end

