-- ==== Sys2Proof/Laws/FrameRowLogic.lean ====
section
/-! SUPPORT. Which parts of the state the functions of Machine/RowLogic.lean may change. -/

set_option maxRecDepth 4000

namespace Sys2Proof.Machine

open Sys2Proof

theorem setBank_frame : ∀ s b v, Frame [.smemMisc] s (setBank s b v) := by
  intro s b v
  unfold setBank
  try dsimp only [onHost, onMb]
  refine Frame.then ?_ frame_set_smem_banks rfl
  exact Frame.refl _ _

theorem ownSeen_frame : ∀ s b f, Frame [.smemMisc] s (ownSeen s b f) := by
  intro s b f
  unfold ownSeen
  try dsimp only [onHost, onMb]
  refine Frame.ite ?_ ?_
  · exact Frame.refl _ _
  · refine Frame.then ?_ (setBank_frame _ _ _) rfl
    exact Frame.refl _ _

theorem setHist_frame : ∀ s b h, Frame [.smemMisc] s (setHist s b h) := by
  intro s b h
  unfold setHist
  try dsimp only [onHost, onMb]
  refine Frame.then ?_ frame_set_smem_hists rfl
  exact Frame.refl _ _

theorem clearHist_frame : ∀ s b, Frame [.smemMisc] s (clearHist s b) := by
  intro s b
  unfold clearHist
  try dsimp only [onHost, onMb]
  refine Frame.then ?_ (ownSeen_frame _ _ _) rfl
  refine Frame.then ?_ frame_set_smem_clears rfl
  refine Frame.then ?_ (setHist_frame _ _ _) rfl
  exact Frame.refl _ _

theorem writeSmem_frame : ∀ s a d, Frame [.smemCells] s (writeSmem s a d) := by
  intro s a d
  unfold writeSmem
  try dsimp only [onHost, onMb]
  refine Frame.then ?_ frame_set_smem_cells rfl
  exact Frame.refl _ _

theorem runRowOp_frame : ∀ s b c, Frame [.counters, .smemCells] s (runRowOp s b c) := by
  intro s b c
  unfold runRowOp
  try dsimp only [onHost, onMb]
  refine Frame.then ?_ (bump_frame _ _ _) rfl
  refine Frame.then ?_ (writeSmem_frame _ _ _) rfl
  exact Frame.refl _ _

theorem setPred_frame : ∀ s b p, Frame [.smemMisc] s (setPred s b p) := by
  intro s b p
  unfold setPred
  try dsimp only [onHost, onMb]
  refine Frame.then ?_ (ownSeen_frame _ _ _) rfl
  refine Frame.then ?_ frame_set_smem_preds rfl
  exact Frame.refl _ _

theorem runCmd_frame : ∀ s src b c bad seq x1, Frame [.counters, .smemCells, .smemMisc] s (runCmd s src b c bad seq x1).1 := by
  intro s src b c bad seq x1
  unfold runCmd
  try dsimp only [onHost, onMb]
  split
  · try dsimp only
    try dsimp only
    exact Frame.refl _ _
  · try dsimp only
    try dsimp only
    refine Frame.then ?_ (runRowOp_frame _ _ _) rfl
    exact Frame.refl _ _
  · try dsimp only
    try dsimp only
    refine Frame.then ?_ (runRowOp_frame _ _ _) rfl
    exact Frame.refl _ _
  · try dsimp only
    try dsimp only
    refine Frame.then ?_ (runRowOp_frame _ _ _) rfl
    exact Frame.refl _ _
  · try dsimp only
    try dsimp only
    refine Frame.then ?_ (runRowOp_frame _ _ _) rfl
    exact Frame.refl _ _
  · try dsimp only
    try dsimp only
    refine Frame.then ?_ (setPred_frame _ _ _) rfl
    exact Frame.refl _ _
  · try dsimp only
    try dsimp only
    refine Frame.then ?_ (clearHist_frame _ _) rfl
    exact Frame.refl _ _
  · try dsimp only
    try dsimp only
    refine Frame.ite ?_ ?_
    · refine Frame.then ?_ (bump_frame _ _ _) rfl
      refine Frame.foldl ?_ ?_
      · exact Frame.refl _ _
      · intro _ _
        try dsimp only
        refine Frame.then ?_ (writeSmem_frame _ _ _) rfl
        exact Frame.refl _ _
    · refine Frame.foldl ?_ ?_
      · exact Frame.refl _ _
      · intro _ _
        try dsimp only
        refine Frame.then ?_ (writeSmem_frame _ _ _) rfl
        exact Frame.refl _ _
  · try dsimp only
    split
    · try dsimp only
      try dsimp only
      refine Frame.then ?_ (bump_frame _ _ _) rfl
      exact Frame.refl _ _
    · try dsimp only
      try dsimp only
      refine Frame.ite ?_ ?_
      · refine Frame.then ?_ (setHist_frame _ _ _) rfl
        refine Frame.then ?_ (bump_frame _ _ _) rfl
        exact Frame.refl _ _
      · refine Frame.then ?_ (bump_frame _ _ _) rfl
        exact Frame.refl _ _
  · try dsimp only
    split
    · try dsimp only
      try dsimp only
      refine Frame.then ?_ (bump_frame _ _ _) rfl
      exact Frame.refl _ _
    · try dsimp only
      try dsimp only
      refine Frame.ite ?_ ?_
      · refine Frame.then ?_ (bump_frame _ _ _) rfl
        refine Frame.then ?_ (bump_frame _ _ _) rfl
        exact Frame.refl _ _
      · refine Frame.then ?_ (bump_frame _ _ _) rfl
        exact Frame.refl _ _

theorem setHostGroup_frame : ∀ s b g, Frame [.smemMisc] s (setHostGroup s b g) := by
  intro s b g
  unfold setHostGroup
  try dsimp only [onHost, onMb]
  refine Frame.then ?_ frame_set_smem_groups rfl
  exact Frame.refl _ _

theorem useOps_frame : ∀ s b n, Frame [.smemMisc] s (useOps s b n) := by
  intro s b n
  unfold useOps
  try dsimp only [onHost, onMb]
  split
  · try dsimp only
    exact Frame.refl _ _
  · try dsimp only
    refine Frame.then ?_ (setHostGroup_frame _ _ _) rfl
    exact Frame.refl _ _

theorem writeRecords_frame : ∀ s b slot rs, Frame [.smemCells] s (writeRecords s b slot rs) := by
  intro s b slot rs
  unfold writeRecords
  try dsimp only [onHost, onMb]
  refine Frame.foldl ?_ ?_
  · exact Frame.refl _ _
  · intro _ _
    try dsimp only
    refine Frame.then ?_ (writeSmem_frame _ _ _) rfl
    exact Frame.refl _ _

theorem hostRun_frame : ∀ s b c bad, Frame [.counters, .queues, .rings, .smemCells, .smemMisc, .errorLog] s (hostRun s b c bad) := by
  intro s b c bad
  unfold hostRun
  try dsimp only [onHost, onMb]
  refine Frame.then ?_ (setBank_frame _ _ _) rfl
  refine Frame.then ?_ (bump_frame _ _ _) rfl
  refine Frame.then ?_ (useOps_frame _ _ _) rfl
  split
  · try dsimp only
    refine Frame.ite ?_ ?_
    · refine Frame.then ?_ (postEvent_frame _ _ _) rfl
      refine Frame.then ?_ (writeRecords_frame _ _ _ _) rfl
      refine Frame.then ?_ (runCmd_frame _ _ _ _ _ _ _) rfl
      exact Frame.refl _ _
    · refine Frame.then ?_ (writeRecords_frame _ _ _ _) rfl
      refine Frame.then ?_ (runCmd_frame _ _ _ _ _ _ _) rfl
      exact Frame.refl _ _
  · try dsimp only
    refine Frame.then ?_ (writeRecords_frame _ _ _ _) rfl
    refine Frame.then ?_ (runCmd_frame _ _ _ _ _ _ _) rfl
    exact Frame.refl _ _

theorem rowCommand_frame : ∀ s op src b cmd bad, Frame [.counters, .queues, .rings, .smemCells, .smemMisc, .errorLog] s (rowCommand s op src b cmd bad) := by
  intro s op src b cmd bad
  unfold rowCommand
  try dsimp only [onHost, onMb]
  split
  · try dsimp only
    refine Frame.ite ?_ ?_
    · refine Frame.then ?_ (runCmd_frame _ _ _ _ _ _ _) rfl
      exact Frame.refl _ _
    · exact Frame.refl _ _
  · try dsimp only
    refine Frame.ite ?_ ?_
    · refine Frame.then ?_ (hostRun_frame _ _ _ _) rfl
      exact Frame.refl _ _
    · exact Frame.refl _ _

theorem execCount_frame : ∀ src bank cmd badRow s t, execCount src bank cmd badRow s = .next t → Frame [.counters, .queues, .rings, .smemCells, .smemMisc, .errorLog] s t := by
  intro src bank cmd badRow s t h
  unfold execCount at h
  injection h with h
  subst h
  try dsimp only [onHost, onMb]
  refine Frame.then ?_ (rowCommand_frame _ _ _ _ _ _) rfl
  exact Frame.refl _ _

theorem execNot_frame : ∀ src bank cmd s t, execNot src bank cmd s = .next t → Frame [.counters, .queues, .rings, .smemCells, .smemMisc, .errorLog] s t := by
  intro src bank cmd s t h
  unfold execNot at h
  injection h with h
  subst h
  try dsimp only [onHost, onMb]
  refine Frame.then ?_ (rowCommand_frame _ _ _ _ _ _) rfl
  exact Frame.refl _ _

theorem countRefresh_frame : ∀ s, Frame [.counters] s (countRefresh s) := by
  intro s
  unfold countRefresh
  try dsimp only [onHost, onMb]
  refine Frame.then ?_ (bump_frame _ _ _) rfl
  exact Frame.refl _ _

theorem holdGroups_frame : ∀ s, Frame [.smemMisc] s (holdGroups s) := by
  intro s
  unfold holdGroups
  try dsimp only [onHost, onMb]
  refine Frame.then ?_ frame_set_smem_groups rfl
  exact Frame.refl _ _

theorem clearBanks_frame : ∀ s st g, Frame [.smemMisc] s (clearBanks s st g) := by
  intro s st g
  unfold clearBanks
  try dsimp only [onHost, onMb]
  refine Frame.then ?_ frame_set_smem_banks_smem_low rfl
  exact Frame.refl _ _

theorem clearResults_frame : ∀ s st g, Frame [.smemCells] s (clearResults s st g) := by
  intro s st g
  unfold clearResults
  try dsimp only [onHost, onMb]
  refine Frame.then ?_ frame_set_smem_cells rfl
  exact Frame.refl _ _

theorem hostGroupsAtP5_frame : ∀ s, Frame [.smemCells, .smemMisc] s (hostGroupsAtP5 s) := by
  intro s
  unfold hostGroupsAtP5
  try dsimp only [onHost, onMb]
  refine Frame.then ?_ frame_set_smem_groups_smem_preds_smem_hists rfl
  refine Frame.foldl ?_ ?_
  · refine Frame.foldl ?_ ?_
    · exact Frame.refl _ _
    · intro _ _
      try dsimp only
      refine Frame.then ?_ (clearBanks_frame _ _ _) rfl
      exact Frame.refl _ _
  · intro _ _
    try dsimp only
    refine Frame.then ?_ (clearResults_frame _ _ _) rfl
    refine Frame.then ?_ (clearBanks_frame _ _ _) rfl
    exact Frame.refl _ _

theorem dropBar2_frame : ∀ s, Frame [.hostRegs] s (dropBar2 s) := by
  intro s
  unfold dropBar2
  try dsimp only [onHost, onMb]
  refine Frame.then ?_ frame_set_host_bar2Drops rfl
  exact Frame.refl _ _

theorem holdNext_frame : ∀ s named, Frame [.smemMisc] s (holdNext s named) := by
  intro s named
  unfold holdNext
  try dsimp only [onHost, onMb]
  refine Frame.then ?_ frame_set_smem_hostHeld rfl
  exact Frame.refl _ _

theorem execAnd_frame : ∀ src bank cmd s t, execAnd src bank cmd s = .next t → Frame [.counters, .queues, .rings, .smemCells, .smemMisc, .errorLog] s t := by
  intro src bank cmd s t h
  unfold execAnd at h
  injection h with h
  subst h
  try dsimp only [onHost, onMb]
  refine Frame.then ?_ (rowCommand_frame _ _ _ _ _ _) rfl
  exact Frame.refl _ _

theorem takeCmd_frame : ∀ s b c, Frame [.smemMisc] s (takeCmd s b c) := by
  intro s b c
  unfold takeCmd
  try dsimp only [onHost, onMb]
  split
  · try dsimp only
    exact Frame.refl _ _
  · try dsimp only
    refine Frame.ite ?_ ?_
    · exact Frame.refl _ _
    · refine Frame.ite ?_ ?_
      · refine Frame.then ?_ (setBank_frame _ _ _) rfl
        exact Frame.refl _ _
      · refine Frame.then ?_ (setBank_frame _ _ _) rfl
        exact Frame.refl _ _

theorem writeSlot_frame : ∀ s b slot off d, Frame [.smemMisc] s (writeSlot s b slot off d) := by
  intro s b slot off d
  unfold writeSlot
  try dsimp only [onHost, onMb]
  refine Frame.ite ?_ ?_
  · refine Frame.then ?_ (takeCmd_frame _ _ _) rfl
    refine Frame.ite ?_ ?_
    · refine Frame.then ?_ frame_set_smem_low rfl
      exact Frame.refl _ _
    · exact Frame.refl _ _
  · refine Frame.ite ?_ ?_
    · refine Frame.then ?_ frame_set_smem_low rfl
      exact Frame.refl _ _
    · exact Frame.refl _ _

theorem execPred_frame : ∀ src bank cmd s t, execPred src bank cmd s = .next t → Frame [.counters, .queues, .rings, .smemCells, .smemMisc, .errorLog] s t := by
  intro src bank cmd s t h
  unfold execPred at h
  injection h with h
  subst h
  try dsimp only [onHost, onMb]
  refine Frame.then ?_ (rowCommand_frame _ _ _ _ _ _) rfl
  exact Frame.refl _ _

theorem execHclear_frame : ∀ src bank cmd s t, execHclear src bank cmd s = .next t → Frame [.counters, .queues, .rings, .smemCells, .smemMisc, .errorLog] s t := by
  intro src bank cmd s t h
  unfold execHclear at h
  injection h with h
  subst h
  try dsimp only [onHost, onMb]
  refine Frame.then ?_ (rowCommand_frame _ _ _ _ _ _) rfl
  exact Frame.refl _ _

theorem execHdump_frame : ∀ src bank cmd s t, execHdump src bank cmd s = .next t → Frame [.counters, .queues, .rings, .smemCells, .smemMisc, .errorLog] s t := by
  intro src bank cmd s t h
  unfold execHdump at h
  injection h with h
  subst h
  try dsimp only [onHost, onMb]
  refine Frame.then ?_ (rowCommand_frame _ _ _ _ _ _) rfl
  exact Frame.refl _ _

theorem execSelect_frame : ∀ src bank cmd badRow s t, execSelect src bank cmd badRow s = .next t → Frame [.counters, .queues, .rings, .smemCells, .smemMisc, .errorLog] s t := by
  intro src bank cmd badRow s t h
  unfold execSelect at h
  injection h with h
  subst h
  try dsimp only [onHost, onMb]
  refine Frame.then ?_ (rowCommand_frame _ _ _ _ _ _) rfl
  exact Frame.refl _ _

theorem execXor_frame : ∀ src bank cmd s t, execXor src bank cmd s = .next t → Frame [.counters, .queues, .rings, .smemCells, .smemMisc, .errorLog] s t := by
  intro src bank cmd s t h
  unfold execXor at h
  injection h with h
  subst h
  try dsimp only [onHost, onMb]
  refine Frame.then ?_ (rowCommand_frame _ _ _ _ _ _) rfl
  exact Frame.refl _ _

theorem execOr_frame : ∀ src bank cmd s t, execOr src bank cmd s = .next t → Frame [.counters, .queues, .rings, .smemCells, .smemMisc, .errorLog] s t := by
  intro src bank cmd s t h
  unfold execOr at h
  injection h with h
  subst h
  try dsimp only [onHost, onMb]
  refine Frame.then ?_ (rowCommand_frame _ _ _ _ _ _) rfl
  exact Frame.refl _ _

theorem execStackBandChange_frame : ∀ stack temp s t, execStackBandChange stack temp s = .next t → Frame [.objs, .counters, .queues, .rings, .errorLog, .clk] s t := by
  intro stack temp s t h
  unfold execStackBandChange at h
  injection h with h
  subst h
  try dsimp only [onHost, onMb]
  refine Frame.ite ?_ ?_
  · refine Frame.then ?_ (postEvent_frame _ _ _) rfl
    refine Frame.then ?_ (setObj_frame _ _ _) rfl
    refine Frame.ite ?_ ?_
    · refine Frame.then ?_ (setObj_frame _ _ _) rfl
      refine Frame.then ?_ frame_set_clk rfl
      exact Frame.refl _ _
    · refine Frame.then ?_ frame_set_clk rfl
      exact Frame.refl _ _
  · refine Frame.then ?_ (setObj_frame _ _ _) rfl
    refine Frame.ite ?_ ?_
    · refine Frame.then ?_ (setObj_frame _ _ _) rfl
      refine Frame.then ?_ frame_set_clk rfl
      exact Frame.refl _ _
    · refine Frame.then ?_ frame_set_clk rfl
      exact Frame.refl _ _

theorem execNop_frame : ∀ src bank cmd s t, execNop src bank cmd s = .next t → Frame [.counters, .queues, .rings, .smemCells, .smemMisc, .errorLog] s t := by
  intro src bank cmd s t h
  unfold execNop at h
  injection h with h
  subst h
  try dsimp only [onHost, onMb]
  refine Frame.then ?_ (rowCommand_frame _ _ _ _ _ _) rfl
  exact Frame.refl _ _

end Sys2Proof.Machine
end

