-- ==== Sys2Proof/Laws/FrameHostIf.lean ====
section
/-! SUPPORT. Which parts of the state the functions of Machine/HostIf.lean may change. -/

set_option maxRecDepth 4000

namespace Sys2Proof.Machine

open Sys2Proof

theorem setBase_frame : ∀ s v, Frame [.hostRegs] s (setBase s v) := by
  intro s v
  unfold setBase
  try dsimp only [onHost, onMb]
  refine Frame.then ?_ frame_set_host_bar2Base rfl
  exact Frame.refl _ _

theorem writeMailbox_frame : ∀ s o v, Frame [.objs, .doms, .counters, .txns, .mailbox, .hostRegs, .queues, .rings, .turnMisc, .adm, .comp, .images, .remotes, .acts, .streams, .colls, .lists, .queries, .units, .ing, .place, .flash, .fab, .ledger, .bslots, .errorLog, .nvMisc, .sec, .ras, .clk, .out] s (writeMailbox s o v) := by
  intro s o v
  unfold writeMailbox
  try dsimp only [onHost, onMb]
  refine Frame.ite ?_ ?_
  · refine Frame.ite ?_ ?_
    · refine Frame.then ?_ (mailboxGo_frame _) rfl
      exact Frame.refl _ _
    · exact Frame.refl _ _
  · refine Frame.ite ?_ ?_
    · refine Frame.then ?_ frame_set_dict_mb rfl
      exact Frame.refl _ _
    · refine Frame.ite ?_ ?_
      · refine Frame.then ?_ frame_set_dict_mb rfl
        exact Frame.refl _ _
      · refine Frame.ite ?_ ?_
        · refine Frame.then ?_ frame_set_dict_mb rfl
          exact Frame.refl _ _
        · exact Frame.refl _ _

theorem writeMsix_frame : ∀ s o v, Frame [.hostRegs, .rings, .out] s (writeMsix s o v) := by
  intro s o v
  unfold writeMsix
  try dsimp only [onHost, onMb]
  refine Frame.ite ?_ ?_
  · refine Frame.then ?_ (toHost_frame _ _) rfl
    refine Frame.then ?_ frame_set_host_msixBytes_host_pba rfl
    exact Frame.refl _ _
  · refine Frame.then ?_ frame_set_host_msixBytes rfl
    exact Frame.refl _ _

theorem writeWord_frame : ∀ s o v, Frame [.objs, .doms, .counters, .txns, .mailbox, .hostRegs, .queues, .rings, .turnMisc, .adm, .comp, .images, .remotes, .acts, .streams, .colls, .lists, .queries, .units, .ing, .place, .flash, .fab, .ledger, .bslots, .errorLog, .nvMisc, .sec, .ras, .clk, .out] s (writeWord s o v) := by
  intro s o v
  unfold writeWord
  try dsimp only [onHost, onMb]
  refine Frame.ite ?_ ?_
  · refine Frame.then ?_ (setBase_frame _ _) rfl
    exact Frame.refl _ _
  · refine Frame.ite ?_ ?_
    · refine Frame.then ?_ (setBase_frame _ _) rfl
      exact Frame.refl _ _
    · refine Frame.ite ?_ ?_
      · refine Frame.then ?_ (writeMailbox_frame _ _ _) rfl
        exact Frame.refl _ _
      · refine Frame.ite ?_ ?_
        · refine Frame.then ?_ (writeMsix_frame _ _ _) rfl
          exact Frame.refl _ _
        · exact Frame.refl _ _

theorem applyDisable_frame : ∀ s qn n, Frame [.queues, .rings] s (applyDisable s qn n) := by
  intro s qn n
  unfold applyDisable
  try dsimp only [onHost, onMb]
  refine Frame.ite ?_ ?_
  · exact Frame.refl _ _
  · refine Frame.then ?_ frame_set_host_fetched rfl
    refine Frame.then ?_ (setQ_frame _ _ _) rfl
    exact Frame.refl _ _

theorem execQueueDisableApply_frame : ∀ q s t, execQueueDisableApply q s = .next t → Frame [.queues, .rings] s t := by
  intro q s t h
  unfold execQueueDisableApply at h
  injection h with h
  subst h
  try dsimp only [onHost, onMb]
  refine Frame.ite ?_ ?_
  · refine Frame.then ?_ (applyDisable_frame _ _ _) rfl
    exact Frame.refl _ _
  · exact Frame.refl _ _

theorem doQueueDisable_frame : ∀ s qn, Frame [.queues] s (doQueueDisable s qn) := by
  intro s qn
  unfold doQueueDisable
  try dsimp only [onHost, onMb]
  refine Frame.ite ?_ ?_
  · exact Frame.refl _ _
  · refine Frame.ite ?_ ?_
    · refine Frame.then ?_ (setQ_frame _ _ _) rfl
      exact Frame.refl _ _
    · refine Frame.then ?_ (setQ_frame _ _ _) rfl
      exact Frame.refl _ _

theorem doQueueEnable_frame : ∀ s qn, Frame [.queues] s (doQueueEnable s qn) := by
  intro s qn
  unfold doQueueEnable
  try dsimp only [onHost, onMb]
  refine Frame.ite ?_ ?_
  · exact Frame.refl _ _
  · refine Frame.then ?_ (setQ_frame _ _ _) rfl
    exact Frame.refl _ _

theorem writeDesc_frame : ∀ s qn ws, Frame [.queues] s (writeDesc s qn ws) := by
  intro s qn ws
  unfold writeDesc
  try dsimp only [onHost, onMb]
  split
  · try dsimp only
    refine Frame.ite ?_ ?_
    · exact Frame.refl _ _
    · refine Frame.then ?_ (setQ_frame _ _ _) rfl
      exact Frame.refl _ _
  · try dsimp only
    refine Frame.ite ?_ ?_
    · refine Frame.then ?_ (doQueueEnable_frame _ _) rfl
      refine Frame.ite ?_ ?_
      · exact Frame.refl _ _
      · refine Frame.then ?_ (setQ_frame _ _ _) rfl
        exact Frame.refl _ _
    · refine Frame.then ?_ (doQueueDisable_frame _ _) rfl
      refine Frame.ite ?_ ?_
      · exact Frame.refl _ _
      · refine Frame.then ?_ (setQ_frame _ _ _) rfl
        exact Frame.refl _ _

theorem rcClear_frame : ∀ s z, Frame [.hostRegs, .scrMisc] s (rcClear s z) := by
  intro s z
  unfold rcClear
  try dsimp only [onHost, onMb]
  split
  · try dsimp only
    refine Frame.then ?_ frame_set_host_doorbellDrops rfl
    exact Frame.refl _ _
  · try dsimp only
    refine Frame.then ?_ frame_set_host_bar2Drops rfl
    exact Frame.refl _ _
  · try dsimp only
    refine Frame.then ?_ frame_set_host_fetchErrors rfl
    exact Frame.refl _ _
  · try dsimp only
    refine Frame.then ?_ (setScr_frame _ _ _) rfl
    exact Frame.refl _ _

theorem writePiece_frame : ∀ acc p, Frame [.smemCells, .smemMisc] acc.1 (writePiece acc p).1 := by
  intro acc p
  unfold writePiece
  try dsimp only [onHost, onMb]
  refine Frame.ite1 ?_ ?_
  · try dsimp only
    refine Frame.then ?_ (writeSmem_frame _ _ _) rfl
    exact Frame.refl _ _
  · refine Frame.ite1 ?_ ?_
    · try dsimp only
      exact Frame.refl _ _
    · refine Frame.ite1 ?_ ?_
      · try dsimp only
        refine Frame.then ?_ (writeSmem_frame _ _ _) rfl
        exact Frame.refl _ _
      · refine Frame.ite1 ?_ ?_
        · try dsimp only
          refine Frame.then ?_ (writeSlot_frame _ _ _ _ _) rfl
          exact Frame.refl _ _
        · try dsimp only
          exact Frame.refl _ _

theorem settleLink_frame : ∀ s rate width, Frame [.counters, .link, .queues, .rings, .errorLog, .out] s (settleLink s rate width) := by
  intro s rate width
  unfold settleLink
  try dsimp only [onHost, onMb]
  refine Frame.then ?_ (flushKept_frame _) rfl
  refine Frame.ite ?_ ?_
  · refine Frame.then ?_ (postEvent_frame _ _ _) rfl
    refine Frame.then ?_ frame_set_host_linkUp_host_rate_host_width_host_degraded rfl
    exact Frame.refl _ _
  · refine Frame.then ?_ frame_set_host_linkUp_host_rate_host_width_host_degraded rfl
    exact Frame.refl _ _

theorem execQueueDisable_frame : ∀ q s t, execQueueDisable q s = .next t → Frame [.queues] s t := by
  intro q s t h
  unfold execQueueDisable at h
  injection h with h
  subst h
  try dsimp only [onHost, onMb]
  refine Frame.ite ?_ ?_
  · refine Frame.then ?_ (doQueueDisable_frame _ _) rfl
    exact Frame.refl _ _
  · exact Frame.refl _ _

theorem execRcRegisterRead_frame : ∀ reg s t, execRcRegisterRead reg s = .next t → Frame [.hostRegs, .scrMisc, .out] s t := by
  intro reg s t h
  unfold execRcRegisterRead at h
  injection h with h
  subst h
  try dsimp only [onHost, onMb]
  refine Frame.then ?_ (emit_frame _ _) rfl
  refine Frame.then ?_ (rcClear_frame _ _) rfl
  exact Frame.refl _ _

theorem dropDoorbell_frame : ∀ s, Frame [.hostRegs] s (dropDoorbell s) := by
  intro s
  unfold dropDoorbell
  try dsimp only [onHost, onMb]
  refine Frame.then ?_ frame_set_host_doorbellDrops rfl
  exact Frame.refl _ _

theorem doDoorbell_frame : ∀ s qn size value tick, Frame [.counters, .hostRegs, .queues] s (doDoorbell s qn size value tick) := by
  intro s qn size value tick
  unfold doDoorbell
  try dsimp only [onHost, onMb]
  refine Frame.ite ?_ ?_
  · refine Frame.then ?_ (dropDoorbell_frame _) rfl
    exact Frame.refl _ _
  · refine Frame.then ?_ (setQ_frame _ _ _) rfl
    refine Frame.ite ?_ ?_
    · exact Frame.refl _ _
    · refine Frame.then ?_ (bump_frame _ _ _) rfl
      exact Frame.refl _ _

theorem writeReg_frame : ∀ s o size v, Frame [.objs, .doms, .counters, .txns, .mailbox, .hostRegs, .queues, .rings, .turnMisc, .adm, .comp, .images, .remotes, .acts, .streams, .colls, .lists, .queries, .units, .ing, .place, .flash, .fab, .ledger, .bslots, .errorLog, .nvMisc, .sec, .ras, .clk, .out] s (writeReg s o size v) := by
  intro s o size v
  unfold writeReg
  try dsimp only [onHost, onMb]
  refine Frame.ite ?_ ?_
  · refine Frame.then ?_ (writeDesc_frame _ _ _) rfl
    exact Frame.refl _ _
  · refine Frame.ite ?_ ?_
    · refine Frame.ite ?_ ?_
      · refine Frame.then ?_ (doDoorbell_frame _ _ _ _ _) rfl
        exact Frame.refl _ _
      · exact Frame.refl _ _
    · refine Frame.foldl ?_ ?_
      · exact Frame.refl _ _
      · intro _ _
        try dsimp only
        refine Frame.then ?_ (writeWord_frame _ _ _) rfl
        exact Frame.refl _ _

theorem doFetch_frame : ∀ s qn tally entry payload, Frame [.counters, .rings] s (doFetch s qn tally entry payload) := by
  intro s qn tally entry payload
  unfold doFetch
  try dsimp only [onHost, onMb]
  refine Frame.ite ?_ ?_
  · exact Frame.refl _ _
  · refine Frame.ite ?_ ?_
    · exact Frame.refl _ _
    · refine Frame.then ?_ frame_set_host_fetched rfl
      refine Frame.ite ?_ ?_
      · exact Frame.refl _ _
      · refine Frame.then ?_ (bump_frame _ _ _) rfl
        exact Frame.refl _ _

theorem execEntryFetchComplete_frame : ∀ q tally entry payload s t, execEntryFetchComplete q tally entry payload s = .next t → Frame [.counters, .rings] s t := by
  intro q tally entry payload s t h
  unfold execEntryFetchComplete at h
  injection h with h
  subst h
  try dsimp only [onHost, onMb]
  refine Frame.ite ?_ ?_
  · refine Frame.then ?_ (doFetch_frame _ _ _ _ _) rfl
    exact Frame.refl _ _
  · exact Frame.refl _ _

theorem applyEnable_frame : ∀ s qn n, Frame [.queues] s (applyEnable s qn n) := by
  intro s qn n
  unfold applyEnable
  try dsimp only [onHost, onMb]
  refine Frame.ite ?_ ?_
  · exact Frame.refl _ _
  · split
    · try dsimp only
      refine Frame.then ?_ (setQ_frame _ _ _) rfl
      exact Frame.refl _ _
    · try dsimp only
      refine Frame.ite ?_ ?_
      · refine Frame.then ?_ (setQ_frame _ _ _) rfl
        exact Frame.refl _ _
      · refine Frame.then ?_ (setQ_frame _ _ _) rfl
        exact Frame.refl _ _

theorem onHost_frame : ∀ s f, Frame [.link, .hostRegs, .queues, .rings, .doe] s (onHost s f) := by
  intro s f
  unfold onHost
  try dsimp only [onHost, onMb]
  refine Frame.then ?_ frame_set_host rfl
  exact Frame.refl _ _

theorem execQueueEnableApply_frame : ∀ q s t, execQueueEnableApply q s = .next t → Frame [.queues] s t := by
  intro q s t h
  unfold execQueueEnableApply at h
  injection h with h
  subst h
  try dsimp only [onHost, onMb]
  refine Frame.ite ?_ ?_
  · refine Frame.then ?_ (applyEnable_frame _ _ _) rfl
    exact Frame.refl _ _
  · exact Frame.refl _ _

theorem execRegisterWrite_frame : ∀ offset size value secure s t, execRegisterWrite offset size value secure s = .next t → Frame [.objs, .doms, .counters, .txns, .mailbox, .hostRegs, .queues, .rings, .turnMisc, .adm, .comp, .images, .remotes, .acts, .streams, .colls, .lists, .queries, .units, .ing, .place, .flash, .fab, .ledger, .bslots, .errorLog, .nvMisc, .sec, .ras, .clk, .out] s t := by
  intro offset size value secure s t h
  unfold execRegisterWrite at h
  injection h with h
  subst h
  try dsimp only [onHost, onMb]
  refine Frame.ite ?_ ?_
  · exact Frame.refl _ _
  · refine Frame.ite ?_ ?_
    · refine Frame.then ?_ (bump_frame _ _ _) rfl
      exact Frame.refl _ _
    · refine Frame.ite ?_ ?_
      · refine Frame.then ?_ (dropDoorbell_frame _) rfl
        exact Frame.refl _ _
      · refine Frame.ite ?_ ?_
        · exact Frame.refl _ _
        · refine Frame.then ?_ (writeReg_frame _ _ _ _) rfl
          exact Frame.refl _ _

theorem cfgWrite_frame : ∀ s r v, Frame [.hostRegs, .queues, .rings, .doe, .out] s (cfgWrite s r v) := by
  intro s r v
  unfold cfgWrite
  try dsimp only [onHost, onMb]
  split
  · try dsimp only
    exact Frame.refl _ _
  · try dsimp only
    exact Frame.refl _ _
  · try dsimp only
    refine Frame.then ?_ frame_set_host_mps_host_mrrs rfl
    exact Frame.refl _ _
  · try dsimp only
    refine Frame.then ?_ frame_set_host_aer rfl
    exact Frame.refl _ _
  · try dsimp only
    refine Frame.then ?_ (setBase_frame _ _) rfl
    refine Frame.then ?_ frame_set_host_bar2Size rfl
    exact Frame.refl _ _
  · try dsimp only
    refine Frame.ite ?_ ?_
    · refine Frame.then ?_ (flushKept_frame _) rfl
      refine Frame.then ?_ frame_set_host_ideAssoc rfl
      exact Frame.refl _ _
    · exact Frame.refl _ _

theorem execConfigRequest_frame : ∀ req s t, execConfigRequest req s = .next t → Frame [.hostRegs, .queues, .rings, .doe, .out] s t := by
  intro req s t h
  unfold execConfigRequest at h
  injection h with h
  subst h
  try dsimp only [onHost, onMb]
  refine Frame.ite ?_ ?_
  · exact Frame.refl _ _
  · refine Frame.ite ?_ ?_
    · refine Frame.then ?_ (emit_frame _ _) rfl
      exact Frame.refl _ _
    · split
      · try dsimp only
        refine Frame.then ?_ (emit_frame _ _) rfl
        exact Frame.refl _ _
      · try dsimp only
        refine Frame.then ?_ (emit_frame _ _) rfl
        refine Frame.then ?_ (cfgWrite_frame _ _ _) rfl
        exact Frame.refl _ _

theorem bar2Write_frame : ∀ s a d, Frame [.hostRegs, .smemCells, .smemMisc] s (bar2Write s a d) := by
  intro s a d
  unfold bar2Write
  try dsimp only [onHost, onMb]
  refine Frame.ite ?_ ?_
  · refine Frame.foldl1 ?_ ?_
    · try dsimp only
      exact Frame.refl _ _
    · intro _ _
      try dsimp only
      refine Frame.then ?_ (writePiece_frame _ _) rfl
      exact Frame.refl _ _
  · refine Frame.then ?_ (dropBar2_frame _) rfl
    refine Frame.foldl1 ?_ ?_
    · try dsimp only
      exact Frame.refl _ _
    · intro _ _
      try dsimp only
      refine Frame.then ?_ (writePiece_frame _ _) rfl
      exact Frame.refl _ _

theorem heldAccess_frame : ∀ s busy a, Frame [.counters] s (heldAccess s busy a) := by
  intro s busy a
  unfold heldAccess
  try dsimp only [onHost, onMb]
  refine Frame.ite ?_ ?_
  · refine Frame.then ?_ (bump_frame _ _ _) rfl
    exact Frame.refl _ _
  · exact Frame.refl _ _

theorem execBar2Write_frame : ∀ offset data secure busy s t, execBar2Write offset data secure busy s = .next t → Frame [.counters, .hostRegs, .smemCells, .smemMisc] s t := by
  intro offset data secure busy s t h
  unfold execBar2Write at h
  injection h with h
  subst h
  try dsimp only [onHost, onMb]
  refine Frame.ite ?_ ?_
  · exact Frame.refl _ _
  · refine Frame.ite ?_ ?_
    · refine Frame.then ?_ (bump_frame _ _ _) rfl
      exact Frame.refl _ _
    · refine Frame.then ?_ (bar2Write_frame _ _ _) rfl
      refine Frame.then ?_ (heldAccess_frame _ _ _) rfl
      exact Frame.refl _ _

theorem logAbort_frame : ∀ s, Frame [.hostRegs] s (logAbort s) := by
  intro s
  unfold logAbort
  try dsimp only [onHost, onMb]
  refine Frame.then ?_ frame_set_host_aer rfl
  exact Frame.refl _ _

theorem execBar2Read_frame : ∀ offset len uncorrectable secure busy s t, execBar2Read offset len uncorrectable secure busy s = .next t → Frame [.counters, .hostRegs, .queues, .rings, .errorLog, .out] s t := by
  intro offset len uncorrectable secure busy s t h
  unfold execBar2Read at h
  injection h with h
  subst h
  try dsimp only [onHost, onMb]
  refine Frame.ite ?_ ?_
  · exact Frame.refl _ _
  · refine Frame.ite ?_ ?_
    · refine Frame.then ?_ (emit_frame _ _) rfl
      exact Frame.refl _ _
    · refine Frame.ite ?_ ?_
      · refine Frame.then ?_ (emit_frame _ _) rfl
        refine Frame.then ?_ (logAbort_frame _) rfl
        refine Frame.then ?_ (postEvent_frame _ _ _) rfl
        refine Frame.then ?_ (heldAccess_frame _ _ _) rfl
        exact Frame.refl _ _
      · refine Frame.then ?_ (emit_frame _ _) rfl
        refine Frame.then ?_ (heldAccess_frame _ _ _) rfl
        exact Frame.refl _ _

theorem execPcieLinkUp_frame : ∀ rate width s t, execPcieLinkUp rate width s = .next t → Frame [.counters, .link, .queues, .rings, .errorLog, .out] s t := by
  intro rate width s t h
  unfold execPcieLinkUp at h
  injection h with h
  subst h
  try dsimp only [onHost, onMb]
  refine Frame.ite ?_ ?_
  · refine Frame.then ?_ (settleLink_frame _ _ _) rfl
    exact Frame.refl _ _
  · exact Frame.refl _ _

theorem execDoorbellWrite_frame : ∀ q size value tick secure s t, execDoorbellWrite q size value tick secure s = .next t → Frame [.counters, .hostRegs, .queues] s t := by
  intro q size value tick secure s t h
  unfold execDoorbellWrite at h
  injection h with h
  subst h
  try dsimp only [onHost, onMb]
  refine Frame.ite ?_ ?_
  · exact Frame.refl _ _
  · refine Frame.ite ?_ ?_
    · refine Frame.then ?_ (bump_frame _ _ _) rfl
      exact Frame.refl _ _
    · refine Frame.then ?_ (doDoorbell_frame _ _ _ _ _) rfl
      exact Frame.refl _ _

theorem execBar2WindowBaseWrite_frame : ∀ value s t, execBar2WindowBaseWrite value s = .next t → Frame [.hostRegs] s t := by
  intro value s t h
  unfold execBar2WindowBaseWrite at h
  injection h with h
  subst h
  try dsimp only [onHost, onMb]
  refine Frame.ite ?_ ?_
  · refine Frame.then ?_ (setBase_frame _ _) rfl
    exact Frame.refl _ _
  · exact Frame.refl _ _

theorem execPcieLinkDown_frame : ∀ s t, execPcieLinkDown s = .next t → Frame [.link] s t := by
  intro s t h
  unfold execPcieLinkDown at h
  injection h with h
  subst h
  try dsimp only [onHost, onMb]
  refine Frame.then ?_ (hostLinkDown_frame _) rfl
  exact Frame.refl _ _

theorem execQueueEnable_frame : ∀ q s t, execQueueEnable q s = .next t → Frame [.queues] s t := by
  intro q s t h
  unfold execQueueEnable at h
  injection h with h
  subst h
  try dsimp only [onHost, onMb]
  refine Frame.ite ?_ ?_
  · refine Frame.then ?_ (doQueueEnable_frame _ _) rfl
    exact Frame.refl _ _
  · exact Frame.refl _ _

end Sys2Proof.Machine
end

