-- ==== Sys2Proof/Laws/FrameScan.lean ====
section
/-! SUPPORT. Which parts of the state the functions of Machine/Scan.lean may change. -/

set_option maxRecDepth 4000

namespace Sys2Proof.Machine

open Sys2Proof

theorem driveRows_frame : ∀ s p key out dists, Frame [.counters, .smemCells, .smemMisc] s (driveRows s p key out dists) := by
  intro s p key out dists
  unfold driveRows
  try dsimp only [onHost, onMb]
  split
  · try dsimp only
    refine Frame.then ?_ (bump_frame _ _ _) rfl
    refine Frame.then ?_ (bump_frame _ _ _) rfl
    refine Frame.then ?_ (bump_frame _ _ _) rfl
    refine Frame.then ?_ (setHist_frame _ _ _) rfl
    refine Frame.then ?_ (setPred_frame _ _ _) rfl
    refine Frame.foldl ?_ ?_
    · exact Frame.refl _ _
    · intro _ _
      try dsimp only
      refine Frame.then ?_ (writeSmem_frame _ _ _) rfl
      refine Frame.then ?_ (writeSmem_frame _ _ _) rfl
      exact Frame.refl _ _
  · try dsimp only
    exact Frame.refl _ _

theorem openHeld_frame : ∀ pin s key, Frame [.lists] s (openHeld pin s key) := by
  intro pin s key
  unfold openHeld
  try dsimp only [onHost, onMb]
  refine Frame.ite ?_ ?_
  · refine Frame.then ?_ (setList_frame _ _) rfl
    exact Frame.refl _ _
  · exact Frame.refl _ _

theorem doSketchScan_frame : ∀ s n badKeys, Frame [.counters, .queues, .rings, .turnMisc, .lists, .units, .smemCells, .smemMisc, .fab, .ledger, .errorLog, .free] s (doSketchScan s n badKeys) := by
  intro s n badKeys
  unfold doSketchScan
  try dsimp only [onHost, onMb]
  split
  · try dsimp only
    exact Frame.refl _ _
  · try dsimp only
    refine Frame.ite ?_ ?_
    · exact Frame.refl _ _
    · refine Frame.ite ?_ ?_
      · refine Frame.then ?_ (bump_frame _ _ _) rfl
        refine Frame.then ?_ (unplace_frame _ _ _) rfl
        exact Frame.refl _ _
      · refine Frame.ite ?_ ?_
        · refine Frame.then ?_ (unplace_frame _ _ _) rfl
          exact Frame.refl _ _
        · refine Frame.then ?_ (sendStage_frame _ _ _) rfl
          refine Frame.then ?_ (onUnit_frame _ _ _) rfl
          refine Frame.foldl ?_ ?_
          · refine Frame.then ?_ (drawFree_frame _) rfl
            refine Frame.then ?_ (drawFree_frame _) rfl
            refine Frame.ite ?_ ?_
            · refine Frame.then ?_ (bump_frame _ _ _) rfl
              refine Frame.then ?_ (bump_frame _ _ _) rfl
              refine Frame.foldl ?_ ?_
              · refine Frame.foldl ?_ ?_
                · refine Frame.foldl ?_ ?_
                  · refine Frame.then ?_ (unplace_frame _ _ _) rfl
                    exact Frame.refl _ _
                  · intro _ _
                    try dsimp only
                    refine Frame.then ?_ (openHeld_frame _ _ _) rfl
                    exact Frame.refl _ _
                · intro _ _
                  try dsimp only
                  split
                  · try dsimp only
                    refine Frame.then ?_ (heatList_frame _ _ _) rfl
                    exact Frame.refl _ _
                  · try dsimp only
                    exact Frame.refl _ _
                  · try dsimp only
                    exact Frame.refl _ _
              · intro _ _
                try dsimp only
                refine Frame.then ?_ (quarantine_frame _ _) rfl
                exact Frame.refl _ _
            · refine Frame.then ?_ (bump_frame _ _ _) rfl
              refine Frame.foldl ?_ ?_
              · refine Frame.foldl ?_ ?_
                · refine Frame.foldl ?_ ?_
                  · refine Frame.then ?_ (unplace_frame _ _ _) rfl
                    exact Frame.refl _ _
                  · intro _ _
                    try dsimp only
                    refine Frame.then ?_ (openHeld_frame _ _ _) rfl
                    exact Frame.refl _ _
                · intro _ _
                  try dsimp only
                  split
                  · try dsimp only
                    refine Frame.then ?_ (heatList_frame _ _ _) rfl
                    exact Frame.refl _ _
                  · try dsimp only
                    exact Frame.refl _ _
                  · try dsimp only
                    exact Frame.refl _ _
              · intro _ _
                try dsimp only
                refine Frame.then ?_ (quarantine_frame _ _) rfl
                exact Frame.refl _ _
          · intro _ _
            try dsimp only
            split
            · try dsimp only
              refine Frame.ite ?_ ?_
              · refine Frame.then ?_ (driveRows_frame _ _ _ _ _) rfl
                exact Frame.refl _ _
              · exact Frame.refl _ _
            · try dsimp only
              exact Frame.refl _ _
            · try dsimp only
              exact Frame.refl _ _

theorem execSketchScan_frame : ∀ unit uncorrectable s t, execSketchScan unit uncorrectable s = .next t → Frame [.counters, .queues, .rings, .turnMisc, .lists, .units, .smemCells, .smemMisc, .fab, .ledger, .errorLog, .free] s t := by
  intro unit uncorrectable s t h
  unfold execSketchScan at h
  injection h with h
  subst h
  try dsimp only [onHost, onMb]
  refine Frame.then ?_ (doSketchScan_frame _ _ _) rfl
  exact Frame.refl _ _

theorem countPath_frame : ∀ s p cap key row, Frame [.counters, .turnMisc] s (countPath s p cap key row) := by
  intro s p cap key row
  unfold countPath
  try dsimp only [onHost, onMb]
  split
  · try dsimp only
    exact Frame.refl _ _
  · try dsimp only
    refine Frame.ite ?_ ?_
    · refine Frame.then ?_ (bump_frame _ _ _) rfl
      refine Frame.then ?_ frame_set_turn_fallbacks rfl
      refine Frame.ite ?_ ?_
      · refine Frame.then ?_ frame_set_turn_busUsed rfl
        exact Frame.refl _ _
      · exact Frame.refl _ _
    · refine Frame.ite ?_ ?_
      · refine Frame.then ?_ (bump_frame _ _ _) rfl
        refine Frame.ite ?_ ?_
        · refine Frame.then ?_ frame_set_turn_busUsed rfl
          exact Frame.refl _ _
        · exact Frame.refl _ _
      · refine Frame.ite ?_ ?_
        · refine Frame.then ?_ frame_set_turn_busUsed rfl
          exact Frame.refl _ _
        · exact Frame.refl _ _

end Sys2Proof.Machine
end

