-- ==== Sys2Proof/Laws/FrameSections.lean ====
section
/-! SUPPORT. Which parts of the state the functions of Machine/Sections.lean may change. -/

set_option maxRecDepth 4000

namespace Sys2Proof.Machine

open Sys2Proof

theorem closeAcks_frame : ∀ s, Frame [.ing, .fab] s (closeAcks s) := by
  intro s
  unfold closeAcks
  try dsimp only [onHost, onMb]
  refine Frame.then ?_ frame_set_ing rfl
  refine Frame.foldl ?_ ?_
  · exact Frame.refl _ _
  · intro _ _
    try dsimp only
    refine Frame.then ?_ (send_frame _ _ _) rfl
    exact Frame.refl _ _

theorem closeCommits_frame : ∀ s, Frame [.ing, .fab] s (closeCommits s) := by
  intro s
  unfold closeCommits
  try dsimp only [onHost, onMb]
  refine Frame.then ?_ frame_set_ing rfl
  refine Frame.then ?_ (sendAll_frame _ _ _) rfl
  exact Frame.refl _ _

theorem closeOne_frame : ∀ s d, Frame [.turnMisc, .fab, .out] s (closeOne s d) := by
  intro s d
  unfold closeOne
  try dsimp only [onHost, onMb]
  refine Frame.ite ?_ ?_
  · refine Frame.then ?_ frame_set_turn_portUsed_fab rfl
    exact Frame.refl _ _
  · refine Frame.then ?_ frame_set_fab rfl
    refine Frame.then ?_ (sendFrame_frame _ _) rfl
    refine Frame.then ?_ (emit_frame _ _) rfl
    refine Frame.then ?_ frame_set_turn_portUsed_fab rfl
    exact Frame.refl _ _

theorem closeRequests_frame : ∀ s, Frame [.fab, .ledger] s (closeRequests s) := by
  intro s
  unfold closeRequests
  try dsimp only [onHost, onMb]
  refine Frame.then ?_ frame_set_ledger rfl
  refine Frame.foldl ?_ ?_
  · exact Frame.refl _ _
  · intro _ _
    try dsimp only
    refine Frame.then ?_ (send_frame _ _ _) rfl
    exact Frame.refl _ _

theorem closeCaravans_frame : ∀ s, Frame [.turnMisc, .ing, .place, .fab, .ledger, .out] s (closeCaravans s) := by
  intro s
  unfold closeCaravans
  try dsimp only [onHost, onMb]
  refine Frame.ite ?_ ?_
  · exact Frame.refl _ _
  · refine Frame.then ?_ frame_set_fab rfl
    refine Frame.foldl ?_ ?_
    · refine Frame.then ?_ (closeRequests_frame _) rfl
      refine Frame.then ?_ (closeAcks_frame _) rfl
      refine Frame.then ?_ (closeCommits_frame _) rfl
      refine Frame.ite ?_ ?_
      · refine Frame.then ?_ (sendHeats_frame _) rfl
        refine Frame.foldl ?_ ?_
        · refine Frame.then ?_ (sendLogs_frame _) rfl
          exact Frame.refl _ _
        · intro _ _
          try dsimp only
          refine Frame.then ?_ (sendOwed_frame _ _) rfl
          exact Frame.refl _ _
      · refine Frame.foldl ?_ ?_
        · refine Frame.then ?_ (sendLogs_frame _) rfl
          exact Frame.refl _ _
        · intro _ _
          try dsimp only
          refine Frame.then ?_ (sendOwed_frame _ _) rfl
          exact Frame.refl _ _
    · intro _ _
      try dsimp only
      refine Frame.then ?_ (closeOne_frame _ _) rfl
      exact Frame.refl _ _

theorem countActivation_frame : ∀ s home qh pin slot seg layer rows, Frame [.acts, .queries] s (countActivation s home qh pin slot seg layer rows) := by
  intro s home qh pin slot seg layer rows
  unfold countActivation
  try dsimp only [onHost, onMb]
  refine Frame.ite ?_ ?_
  · split
    · try dsimp only
      exact Frame.refl _ _
    · try dsimp only
      refine Frame.ite ?_ ?_
      · exact Frame.refl _ _
      · refine Frame.then ?_ (onQuery_frame _ _ _) rfl
        exact Frame.refl _ _
  · refine Frame.then ?_ frame_set_acts rfl
    exact Frame.refl _ _

theorem countCancel_frame : ∀ s src qh pin, Frame [.units] s (countCancel s src qh pin) := by
  intro s src qh pin
  unfold countCancel
  try dsimp only [onHost, onMb]
  refine Frame.then ?_ frame_set_units rfl
  exact Frame.refl _ _

theorem countSegment_frame : ∀ s src slot seg first count b settings, Frame [.remotes, .streams] s (countSegment s src slot seg first count b settings) := by
  intro s src slot seg first count b settings
  unfold countSegment
  try dsimp only [onHost, onMb]
  split
  · try dsimp only
    exact Frame.refl _ _
  · try dsimp only
    refine Frame.then ?_ frame_set_remotes rfl
    refine Frame.ite ?_ ?_
    · refine Frame.then ?_ (clearHists_frame _ _) rfl
      exact Frame.refl _ _
    · exact Frame.refl _ _

theorem countCopy_frame : ∀ s src z, Frame [.objs, .counters, .remotes, .streams, .colls, .lists, .ing, .place, .flash, .fab, .ledger, .nvMisc] s (countCopy s src z) := by
  intro s src z
  unfold countCopy
  try dsimp only [onHost, onMb]
  split
  · try dsimp only
    refine Frame.then ?_ (countListPart_frame _ _ _ _ _ _) rfl
    exact Frame.refl _ _
  · try dsimp only
    refine Frame.ite ?_ ?_
    · refine Frame.then ?_ (countDirRecords_frame _ _ _ _ _) rfl
      exact Frame.refl _ _
    · refine Frame.then ?_ (takeShard_frame _ _ _ _ _) rfl
      exact Frame.refl _ _
  · try dsimp only
    refine Frame.then ?_ (countCentroids_frame _ _ _ _ _ _) rfl
    exact Frame.refl _ _
  · try dsimp only
    refine Frame.then ?_ (countImageCopy_frame _ _ _ _) rfl
    exact Frame.refl _ _
  · try dsimp only
    refine Frame.then ?_ (countSegment_frame _ _ _ _ _ _ _ _) rfl
    exact Frame.refl _ _
  · try dsimp only
    refine Frame.then ?_ (countLedgerCopy_frame _ _) rfl
    exact Frame.refl _ _

theorem countGrant_frame : ∀ s g, Frame [.fab] s (countGrant s g) := by
  intro s g
  unfold countGrant
  try dsimp only [onHost, onMb]
  refine Frame.ite ?_ ?_
  · exact Frame.refl _ _
  · refine Frame.then ?_ frame_set_fab rfl
    exact Frame.refl _ _

theorem countMatch_frame : ∀ s qh pin round count, Frame [.queries] s (countMatch s qh pin round count) := by
  intro s qh pin round count
  unfold countMatch
  try dsimp only [onHost, onMb]
  split
  · try dsimp only
    exact Frame.refl _ _
  · try dsimp only
    refine Frame.ite ?_ ?_
    · exact Frame.refl _ _
    · refine Frame.then ?_ (onQuery_frame _ _ _) rfl
      exact Frame.refl _ _

theorem countPartial_frame : ∀ s src p, Frame [.counters, .queries] s (countPartial s src p) := by
  intro s src p
  unfold countPartial
  try dsimp only [onHost, onMb]
  split
  · try dsimp only
    refine Frame.then ?_ (bump_frame _ _ _) rfl
    exact Frame.refl _ _
  · try dsimp only
    refine Frame.ite ?_ ?_
    · refine Frame.then ?_ (onQuery_frame _ _ _) rfl
      exact Frame.refl _ _
    · refine Frame.ite ?_ ?_
      · refine Frame.then ?_ (bump_frame _ _ _) rfl
        exact Frame.refl _ _
      · refine Frame.ite ?_ ?_
        · refine Frame.then ?_ (slipQuery_frame _ _) rfl
          refine Frame.then ?_ (onQuery_frame _ _ _) rfl
          exact Frame.refl _ _
        · refine Frame.then ?_ (onQuery_frame _ _ _) rfl
          exact Frame.refl _ _

theorem meterProbe_frame : ∀ s1 src1 p1, Frame [.adm, .fab] s1 (meterProbe s1 src1 p1).2 := by
  intro s src p
  unfold meterProbe
  split
  · exact Frame.refl _ _
  · exact Frame.then (Frame.then (Frame.refl _ _) (debit_frame _ _ _) rfl) frame_set_fab rfl

theorem openUnit_frame : ∀ s p due, Frame [.units, .nextUnit] s (openUnit s p due) := by
  intro s p due
  unfold openUnit
  try dsimp only [onHost, onMb]
  refine Frame.then ?_ frame_set_units_nextUnit rfl
  exact Frame.refl _ _

theorem countProbe_frame : ∀ s src p, Frame [.counters, .adm, .units, .nextUnit, .fab] s (countProbe s src p) := by
  intro s src p
  unfold countProbe
  try dsimp only [onHost, onMb]
  refine Frame.ite ?_ ?_
  · refine Frame.then ?_ (openUnit_frame _ _ _) rfl
    exact Frame.refl _ _
  · split
    · try dsimp only
      refine Frame.then ?_ (openUnit_frame _ _ _) rfl
      refine Frame.then ?_ (bump_frame _ _ _) rfl
      exact Frame.then (Frame.refl _ _) (meterProbe_frame _ _ _) rfl
    · try dsimp only
      refine Frame.then ?_ (openUnit_frame _ _ _) rfl
      exact Frame.then (Frame.refl _ _) (meterProbe_frame _ _ _) rfl
    · try dsimp only
      refine Frame.then ?_ (openUnit_frame _ _ _) rfl
      exact Frame.then (Frame.refl _ _) (meterProbe_frame _ _ _) rfl

theorem countResend_frame : ∀ s src ty turn, Frame [.fab] s (countResend s src ty turn) := by
  intro s src ty turn
  unfold countResend
  try dsimp only [onHost, onMb]
  refine Frame.ite ?_ ?_
  · split
    · try dsimp only
      exact Frame.refl _ _
    · try dsimp only
      refine Frame.then ?_ (send_frame _ _ _) rfl
      exact Frame.refl _ _
  · refine Frame.foldl ?_ ?_
    · exact Frame.refl _ _
    · intro _ _
      try dsimp only
      refine Frame.foldl ?_ ?_
      · exact Frame.refl _ _
      · intro _ _
        try dsimp only
        refine Frame.then ?_ (send_frame _ _ _) rfl
        exact Frame.refl _ _

theorem countSect_frame : ∀ src t1 s z, Frame [.objs, .counters, .queues, .rings, .turnMisc, .adm, .remotes, .acts, .streams, .remoteStats, .colls, .lists, .queries, .units, .nextUnit, .ing, .place, .flash, .fab, .ledger, .errorLog, .nvMisc] s (countSect src t1 s z) := by
  intro src t1 s z
  unfold countSect
  try dsimp only [onHost, onMb]
  split
  · try dsimp only
    refine Frame.then ?_ (countProbe_frame _ _ _) rfl
    exact Frame.refl _ _
  · try dsimp only
    refine Frame.then ?_ (countMatch_frame _ _ _ _ _) rfl
    exact Frame.refl _ _
  · try dsimp only
    refine Frame.then ?_ (countPartial_frame _ _ _) rfl
    exact Frame.refl _ _
  · try dsimp only
    refine Frame.then ?_ (countCancel_frame _ _ _ _) rfl
    exact Frame.refl _ _
  · try dsimp only
    refine Frame.then ?_ (countActivation_frame _ _ _ _ _ _ _ _) rfl
    exact Frame.refl _ _
  · try dsimp only
    refine Frame.then ?_ (stageEntry_frame _ _) rfl
    exact Frame.refl _ _
  · try dsimp only
    refine Frame.then ?_ (countAck_frame _ _ _ _ _) rfl
    exact Frame.refl _ _
  · try dsimp only
    refine Frame.then ?_ (countCommit_frame _ _ _ _) rfl
    exact Frame.refl _ _
  · try dsimp only
    refine Frame.then ?_ (countStamp_frame _ _ _ _ _) rfl
    exact Frame.refl _ _
  · try dsimp only
    refine Frame.then ?_ (countMoveLog_frame _ _ _ _) rfl
    exact Frame.refl _ _
  · try dsimp only
    refine Frame.then ?_ (countDrift_frame _ _ _ _ _) rfl
    exact Frame.refl _ _
  · try dsimp only
    refine Frame.then ?_ (countHeat_frame _ _) rfl
    exact Frame.refl _ _
  · try dsimp only
    refine Frame.then ?_ (countGrant_frame _ _) rfl
    exact Frame.refl _ _
  · try dsimp only
    refine Frame.then ?_ (countLedgerReq_frame _ _) rfl
    exact Frame.refl _ _
  · try dsimp only
    refine Frame.then ?_ (countEpoch_frame _ _) rfl
    exact Frame.refl _ _
  · try dsimp only
    refine Frame.then ?_ frame_set_remoteStats rfl
    exact Frame.refl _ _
  · try dsimp only
    refine Frame.then ?_ (countResend_frame _ _ _ _) rfl
    exact Frame.refl _ _
  · try dsimp only
    refine Frame.then ?_ (countCopy_frame _ _ _) rfl
    exact Frame.refl _ _
  · try dsimp only
    refine Frame.then ?_ (send_frame _ _ _) rfl
    refine Frame.then ?_ (bump_frame _ _ _) rfl
    exact Frame.refl _ _
  · try dsimp only
    refine Frame.then ?_ frame_set_fab rfl
    exact Frame.refl _ _

theorem countCaravan_frame : ∀ s c, Frame [.objs, .counters, .queues, .rings, .turnMisc, .adm, .remotes, .acts, .streams, .remoteStats, .colls, .lists, .queries, .units, .nextUnit, .ing, .place, .flash, .fab, .ledger, .errorLog, .nvMisc] s (countCaravan s c) := by
  intro s c
  unfold countCaravan
  try dsimp only [onHost, onMb]
  refine Frame.foldl ?_ ?_
  · refine Frame.then ?_ frame_set_fab rfl
    exact Frame.refl _ _
  · intro _ _
    try dsimp only
    refine Frame.then ?_ (countSect_frame _ _ _ _) rfl
    exact Frame.refl _ _

theorem countCaravans_frame : ∀ s, Frame [.objs, .counters, .queues, .rings, .turnMisc, .adm, .remotes, .acts, .streams, .remoteStats, .colls, .lists, .queries, .units, .nextUnit, .ing, .place, .flash, .fab, .ledger, .errorLog, .nvMisc] s (countCaravans s) := by
  intro s
  unfold countCaravans
  try dsimp only [onHost, onMb]
  refine Frame.foldl ?_ ?_
  · exact Frame.refl _ _
  · intro _ _
    try dsimp only
    refine Frame.ite ?_ ?_
    · refine Frame.then ?_ (countCaravan_frame _ _) rfl
      exact Frame.refl _ _
    · exact Frame.refl _ _

theorem doCaravan_frame : ∀ s src t1 frames counted xs, Frame [.counters, .fab] s (doCaravan s src t1 frames counted xs) := by
  intro s src t1 frames counted xs
  unfold doCaravan
  try dsimp only [onHost, onMb]
  refine Frame.ite ?_ ?_
  · exact Frame.refl _ _
  · refine Frame.then ?_ frame_set_fab rfl
    refine Frame.ite ?_ ?_
    · refine Frame.then ?_ (bump_frame _ _ _) rfl
      exact Frame.refl _ _
    · exact Frame.refl _ _

theorem execCaravanComplete_frame : ∀ src turn frames counted sections s t, execCaravanComplete src turn frames counted sections s = .next t → Frame [.counters, .fab] s t := by
  intro src turn frames counted sections s t h
  unfold execCaravanComplete at h
  injection h with h
  subst h
  try dsimp only [onHost, onMb]
  refine Frame.then ?_ (doCaravan_frame _ _ _ _ _ _) rfl
  exact Frame.refl _ _

end Sys2Proof.Machine
end

