-- ==== Sys2Proof/Laws/FrameSlots.lean ====
section
/-! SUPPORT. Which parts of the state the functions of Machine/Slots.lean may change. -/

set_option maxRecDepth 4000

namespace Sys2Proof.Machine

open Sys2Proof

theorem placeRouting_frame : ∀ s, Frame [.counters, .turnMisc, .queries] s (placeRouting s) := by
  intro s
  unfold placeRouting
  try dsimp only [onHost, onMb]
  refine Frame.foldl ?_ ?_
  · refine Frame.foldl ?_ ?_
    · refine Frame.then ?_ (addPlaced_frame _ _) rfl
      exact Frame.refl _ _
    · intro _ _
      try dsimp only
      refine Frame.then ?_ (slipQuery_frame _ _) rfl
      exact Frame.refl _ _
  · intro _ _
    try dsimp only
    refine Frame.then ?_ (onQuery_frame _ _ _) rfl
    exact Frame.refl _ _

theorem placeSelections_frame : ∀ s, Frame [.counters, .turnMisc] s (placeSelections s) := by
  intro s
  unfold placeSelections
  try dsimp only [onHost, onMb]
  refine Frame.then ?_ (bump_frame _ _ _) rfl
  refine Frame.then ?_ (addPlaced_frame _ _) rfl
  exact Frame.refl _ _

theorem unitPaths_frame : ∀ s p ks r, unitPaths s p ks = some r → Frame [.counters, .turnMisc] s r.1 := by
  intro s p ks
  induction ks generalizing s with
  | nil =>
    intro r h
    injection h with h
    subst h
    exact Frame.refl _ _
  | cons k ks ih =>
    intro r h
    unfold unitPaths at h
    split at h
    · cases h
    · rw [Option.map_eq_some_iff] at h
      obtain ⟨x, hx, rfl⟩ := h
      have hi := ih _ _ hx
      exact Frame.then (Frame.then (Frame.refl _ _) (countPath_frame _ _ _ _ _) rfl) hi rfl

theorem placeScan_frame : ∀ s w1, Frame [.counters, .turnMisc, .units] s (placeScan s w1) := by
  intro s w1
  unfold placeScan
  try dsimp only [onHost, onMb]
  split
  · try dsimp only
    exact Frame.refl _ _
  · try dsimp only
    split
    · try dsimp only
      exact Frame.refl _ _
    · try dsimp only
      refine Frame.then ?_ (onUnit_frame _ _ _) rfl
      refine Frame.then ?_ (addPlaced_frame _ _) rfl
      exact Frame.then (Frame.refl _ _) (unitPaths_frame _ _ _ _ (by assumption)) rfl

theorem bazaarSlack_frame : ∀ s n, Frame [.boards] s (bazaarSlack s n) := by
  intro s n
  unfold bazaarSlack
  try dsimp only [onHost, onMb]
  refine Frame.then ?_ frame_set_turn_cur rfl
  exact Frame.refl _ _

theorem placeMerges_frame : ∀ s, Frame [.counters, .boards, .turnMisc, .queries] s (placeMerges s) := by
  intro s
  unfold placeMerges
  try dsimp only [onHost, onMb]
  refine Frame.foldl ?_ ?_
  · refine Frame.then ?_ (bump_frame _ _ _) rfl
    refine Frame.then ?_ (addPlaced_frame _ _) rfl
    refine Frame.then ?_ (bazaarSlack_frame _ _) rfl
    exact Frame.refl _ _
  · intro _ _
    try dsimp only
    refine Frame.then ?_ (slipQuery_frame _ _) rfl
    exact Frame.refl _ _

theorem placeScans_frame : ∀ s, Frame [.counters, .turnMisc, .units] s (placeScans s) := by
  intro s
  unfold placeScans
  try dsimp only [onHost, onMb]
  refine Frame.foldl ?_ ?_
  · exact Frame.refl _ _
  · intro _ _
    try dsimp only
    refine Frame.then ?_ (placeScan_frame _ _) rfl
    exact Frame.refl _ _

theorem placeWork_frame : ∀ s, Frame [.counters, .boards, .turnMisc, .queries, .units] s (placeWork s) := by
  intro s
  unfold placeWork
  try dsimp only [onHost, onMb]
  refine Frame.then ?_ (placeMerges_frame _) rfl
  refine Frame.then ?_ (placeSelections_frame _) rfl
  refine Frame.then ?_ (placeScans_frame _) rfl
  refine Frame.then ?_ (placeRouting_frame _) rfl
  exact Frame.refl _ _

end Sys2Proof.Machine
end

