-- ==== Sys2Proof/Laws/FrameTurns.lean ====
section
/-! SUPPORT. Which parts of the state the functions of Machine/Turns.lean may change. -/

set_option maxRecDepth 4000

namespace Sys2Proof.Machine

open Sys2Proof

theorem markLeaving_frame : ∀ s, Frame [.smemMisc] s (markLeaving s) := by
  intro s
  unfold markLeaving
  try dsimp only [onHost, onMb]
  refine Frame.then ?_ frame_set_smem_groups_smem_running rfl
  exact Frame.refl _ _

theorem setPhase_frame : ∀ s p, Frame [.phase] s (setPhase s p) := by
  intro s p
  unfold setPhase
  try dsimp only [onHost, onMb]
  refine Frame.then ?_ frame_set_turn_phase rfl
  exact Frame.refl _ _

theorem doWorkCutoff_frame : ∀ s, Frame [.hostRegs, .queues, .rings, .phase, .smemCells, .smemMisc, .out] s (doWorkCutoff s) := by
  intro s
  unfold doWorkCutoff
  try dsimp only [onHost, onMb]
  refine Frame.ite ?_ ?_
  · refine Frame.then ?_ (setPhase_frame _ _) rfl
    refine Frame.then ?_ (markLeaving_frame _) rfl
    refine Frame.foldl ?_ ?_
    · exact Frame.refl _ _
    · intro _ _
      try dsimp only
      refine Frame.then ?_ (publishQueue_frame _ _) rfl
      exact Frame.refl _ _
  · exact Frame.refl _ _

theorem snapTallies_frame : ∀ s, Frame [.queues] s (snapTallies s) := by
  intro s
  unfold snapTallies
  try dsimp only [onHost, onMb]
  refine Frame.then ?_ frame_set_host_queues rfl
  exact Frame.refl _ _

theorem execArrivalSnapshot_frame : ∀ s t, execArrivalSnapshot s = .next t → Frame [.queues, .phase, .turnMisc, .ing, .place, .fab, .ledger, .out] s t := by
  intro s t h
  unfold execArrivalSnapshot at h
  injection h with h
  subst h
  try dsimp only [onHost, onMb]
  refine Frame.ite ?_ ?_
  · refine Frame.then ?_ (setPhase_frame _ _) rfl
    refine Frame.then ?_ (closeCaravans_frame _) rfl
    refine Frame.then ?_ (forwardDue_frame _) rfl
    refine Frame.then ?_ (countBeat_frame _) rfl
    refine Frame.then ?_ (snapTallies_frame _) rfl
    exact Frame.refl _ _
  · exact Frame.refl _ _

theorem activate1_frame : ∀ n s c, Frame [.counters, .turnMisc, .scrMisc, .flash] s (activate1 n s c) := by
  intro n s c
  unfold activate1
  try dsimp only [onHost, onMb]
  split
  · try dsimp only
    refine Frame.then ?_ (handOver_frame _ _ _) rfl
    exact Frame.refl _ _
  · try dsimp only
    refine Frame.ite ?_ ?_
    · refine Frame.then ?_ (remap_frame _ _ _ _ _) rfl
      exact Frame.refl _ _
    · refine Frame.then ?_ (shadowPush_frame _ _) rfl
      exact Frame.refl _ _

theorem activateShadow_frame : ∀ s n, Frame [.counters, .turnMisc, .scrMisc, .flash] s (activateShadow s n) := by
  intro s n
  unfold activateShadow
  try dsimp only [onHost, onMb]
  refine Frame.foldl ?_ ?_
  · refine Frame.then ?_ frame_set_turn_shadow rfl
    exact Frame.refl _ _
  · intro _ _
    try dsimp only
    refine Frame.then ?_ (activate1_frame _ _ _) rfl
    exact Frame.refl _ _

theorem dropUnits_frame : ∀ s gone, Frame [.units, .way] s (dropUnits s gone) := by
  intro s gone
  unfold dropUnits
  try dsimp only [onHost, onMb]
  refine Frame.then ?_ frame_set_units_way rfl
  refine Frame.then ?_ (clearWay_frame _ _) rfl
  exact Frame.refl _ _

theorem freshTurn_frame : ∀ s, Frame [.dictMisc, .queues, .turnMisc, .ing, .fab, .ras, .clk] s (freshTurn s) := by
  intro s
  unfold freshTurn
  try dsimp only [onHost, onMb]
  refine Frame.then ?_ frame_set_dict_was_and_21_more rfl
  exact Frame.refl _ _

theorem withdrawDue_frame : ∀ s, Frame [.counters, .queues, .rings, .turnMisc, .fab, .errorLog] s (withdrawDue s) := by
  intro s
  unfold withdrawDue
  try dsimp only [onHost, onMb]
  split
  · try dsimp only
    exact Frame.refl _ _
  · try dsimp only
    refine Frame.ite ?_ ?_
    · refine Frame.then ?_ (withdrawNow_frame _) rfl
      exact Frame.refl _ _
    · exact Frame.refl _ _

theorem doIncrement_frame : ∀ s, Frame [.objs, .counters, .dictMisc, .queues, .rings, .turnNo, .phase, .boards, .turnMisc, .images, .units, .smemCells, .smemMisc, .way, .ing, .scrMisc, .flash, .fab, .errorLog, .ras, .clk, .out, .free] s (doIncrement s) := by
  intro s
  unfold doIncrement
  try dsimp only [onHost, onMb]
  refine Frame.ite ?_ ?_
  · refine Frame.then ?_ (foldCounters_frame _) rfl
    refine Frame.then ?_ (marksAtP5_frame _) rfl
    refine Frame.then ?_ (applyGateState_frame _) rfl
    refine Frame.then ?_ (readingsAtBoundary_frame _ _) rfl
    refine Frame.then ?_ (countRefresh_frame _) rfl
    refine Frame.then ?_ (holdGroups_frame _) rfl
    refine Frame.then ?_ (hostGroupsAtP5_frame _) rfl
    refine Frame.ite ?_ ?_
    · refine Frame.then ?_ (bump_frame _ _ _) rfl
      refine Frame.then ?_ (testUnloads_frame _) rfl
      refine Frame.then ?_ (freshTurn_frame _) rfl
      refine Frame.then ?_ (dropUnits_frame _ _) rfl
      refine Frame.then ?_ (writeRequests_frame _) rfl
      refine Frame.then ?_ (activateShadow_frame _ _) rfl
      refine Frame.then ?_ (withdrawDue_frame _) rfl
      refine Frame.then ?_ frame_set_turn_buffers_turn_no_turn_phase_turn_cur rfl
      exact Frame.refl _ _
    · refine Frame.then ?_ (testUnloads_frame _) rfl
      refine Frame.then ?_ (freshTurn_frame _) rfl
      refine Frame.then ?_ (dropUnits_frame _ _) rfl
      refine Frame.then ?_ (writeRequests_frame _) rfl
      refine Frame.then ?_ (activateShadow_frame _ _) rfl
      refine Frame.then ?_ (withdrawDue_frame _) rfl
      refine Frame.then ?_ frame_set_turn_buffers_turn_no_turn_phase_turn_cur rfl
      exact Frame.refl _ _
  · exact Frame.refl _ _

theorem applyDue_frame : ∀ s n, Frame [.objs, .counters, .queues, .rings, .turnMisc, .adm, .comp, .images, .remotes, .streams, .colls, .lists, .place, .scrMisc, .flash, .ledger, .bslots, .errorLog, .out] s (applyDue s n) := by
  intro s n
  unfold applyDue
  try dsimp only [onHost, onMb]
  refine Frame.then ?_ (sendJoin_frame _) rfl
  refine Frame.then ?_ (clearsAtBoundary_frame _ _) rfl
  refine Frame.then ?_ (electAtBoundary_frame _ _) rfl
  refine Frame.then ?_ (flashAtBoundary_frame _ _) rfl
  refine Frame.then ?_ (modelsAtBoundary_frame _ _) rfl
  refine Frame.then ?_ (flipRows_frame _ _) rfl
  refine Frame.then ?_ (discardStaged_frame _ _ _) rfl
  refine Frame.then ?_ (applyRewrites_frame _ _) rfl
  refine Frame.then ?_ (copiesAtBoundary_frame _ _) rfl
  refine Frame.then ?_ (rangesAtBoundary_frame _ _) rfl
  refine Frame.then ?_ (hotAtBoundary_frame _ _) rfl
  refine Frame.then ?_ (heatAtBoundary_frame _) rfl
  refine Frame.then ?_ (latchOwners_frame _ _) rfl
  refine Frame.then ?_ (refillMeters_frame _) rfl
  refine Frame.then ?_ (endSteps_frame _) rfl
  exact Frame.refl _ _

theorem latchHalf_frame : ∀ s h, Frame [.counters, .boards, .turnMisc] s (latchHalf s h) := by
  intro s h
  unfold latchHalf
  try dsimp only [onHost, onMb]
  refine Frame.then ?_ frame_set_turn_latched_turn_repeated_turn_cuts rfl
  refine Frame.ite ?_ ?_
  · refine Frame.then ?_ (bump_frame _ _ _) rfl
    refine Frame.then ?_ (bump_frame _ _ _) rfl
    exact Frame.refl _ _
  · refine Frame.then ?_ (bump_frame _ _ _) rfl
    exact Frame.refl _ _

theorem latchBoards_frame : ∀ s, Frame [.counters, .boards, .turnMisc] s (latchBoards s) := by
  intro s
  unfold latchBoards
  try dsimp only [onHost, onMb]
  refine Frame.then ?_ frame_set_turn_latched_turn_next_turn_repeats_turn_tileIdle rfl
  refine Frame.then ?_ (latchHalf_frame _ _) rfl
  refine Frame.then ?_ (latchHalf_frame _ _) rfl
  refine Frame.then ?_ frame_set_turn_cuts rfl
  exact Frame.refl _ _

theorem doLatch_frame : ∀ s, Frame [.objs, .counters, .dictMisc, .queues, .rings, .phase, .boards, .turnMisc, .adm, .comp, .images, .remotes, .streams, .colls, .lists, .smemMisc, .place, .scrMisc, .flash, .ledger, .bslots, .errorLog, .out] s (doLatch s) := by
  intro s
  unfold doLatch
  try dsimp only [onHost, onMb]
  refine Frame.ite ?_ ?_
  · refine Frame.then ?_ (applyDue_frame _ _) rfl
    refine Frame.then ?_ (holdNext_frame _ _) rfl
    refine Frame.then ?_ (latchBoards_frame _) rfl
    refine Frame.then ?_ (setPhase_frame _ _) rfl
    refine Frame.then ?_ frame_set_dict_was rfl
    exact Frame.refl _ _
  · exact Frame.refl _ _

theorem loadStandby_frame : ∀ s half ls, Frame [.turnMisc] s (loadStandby s half ls) := by
  intro s half ls
  unfold loadStandby
  try dsimp only [onHost, onMb]
  refine Frame.then ?_ frame_set_turn_buffers rfl
  exact Frame.refl _ _

theorem doBoardWrite_frame : ∀ s half b, Frame [.boards, .turnMisc] s (doBoardWrite s half b) := by
  intro s half b
  unfold doBoardWrite
  try dsimp only [onHost, onMb]
  refine Frame.ite ?_ ?_
  · exact Frame.refl _ _
  · refine Frame.then ?_ (loadStandby_frame _ _ _) rfl
    refine Frame.then ?_ frame_set_turn_next rfl
    exact Frame.refl _ _

theorem execPeriodSwitch_frame : ∀ s t, execPeriodSwitch s = .next t → Frame [.objs] s t := by
  intro s t h
  unfold execPeriodSwitch at h
  injection h with h
  subst h
  try dsimp only [onHost, onMb]
  refine Frame.ite ?_ ?_
  · refine Frame.then ?_ (setObj_frame _ _ _) rfl
    refine Frame.then ?_ (setObj_frame _ _ _) rfl
    refine Frame.then ?_ (setObj_frame _ _ _) rfl
    exact Frame.refl _ _
  · exact Frame.refl _ _

theorem execPlannerBoardWrite_frame : ∀ half board s t, execPlannerBoardWrite half board s = .next t → Frame [.boards, .turnMisc] s t := by
  intro half board s t h
  unfold execPlannerBoardWrite at h
  injection h with h
  subst h
  try dsimp only [onHost, onMb]
  refine Frame.then ?_ (doBoardWrite_frame _ _ _) rfl
  exact Frame.refl _ _

theorem execUnitDeadlineDrop_frame : ∀ unit s t, execUnitDeadlineDrop unit s = .next t → Frame [.units, .way] s t := by
  intro unit s t h
  unfold execUnitDeadlineDrop at h
  injection h with h
  subst h
  try dsimp only [onHost, onMb]
  refine Frame.ite ?_ ?_
  · refine Frame.then ?_ (dropUnits_frame _ _) rfl
    exact Frame.refl _ _
  · exact Frame.refl _ _

theorem execTimeoutEvaluation_frame : ∀ s t, execTimeoutEvaluation s = .next t → Frame [.phase, .turnMisc] s t := by
  intro s t h
  unfold execTimeoutEvaluation at h
  injection h with h
  subst h
  try dsimp only [onHost, onMb]
  refine Frame.ite ?_ ?_
  · refine Frame.then ?_ (setPhase_frame _ _) rfl
    refine Frame.then ?_ frame_set_turn_due rfl
    exact Frame.refl _ _
  · exact Frame.refl _ _

theorem countTallies_frame : ∀ s, Frame [.counters, .turnMisc, .queries] s (countTallies s) := by
  intro s
  unfold countTallies
  try dsimp only [onHost, onMb]
  refine Frame.foldl ?_ ?_
  · refine Frame.then ?_ frame_set_turn_unmet rfl
    exact Frame.refl _ _
  · intro _ _
    try dsimp only
    refine Frame.then ?_ (slipQuery_frame _ _) rfl
    exact Frame.refl _ _

theorem execCompletionSnapshot_frame : ∀ s t, execCompletionSnapshot s = .next t → Frame [.counters, .phase, .turnMisc, .queries, .way] s t := by
  intro s t h
  unfold execCompletionSnapshot at h
  injection h with h
  subst h
  try dsimp only [onHost, onMb]
  refine Frame.ite ?_ ?_
  · refine Frame.then ?_ (setPhase_frame _ _) rfl
    refine Frame.then ?_ (assignCandidates_frame _) rfl
    refine Frame.then ?_ (countTallies_frame _) rfl
    exact Frame.refl _ _
  · exact Frame.refl _ _

theorem doGrantRefresh_frame : ∀ s gs, Frame [.fab] s (doGrantRefresh s gs) := by
  intro s gs
  unfold doGrantRefresh
  try dsimp only [onHost, onMb]
  refine Frame.ite ?_ ?_
  · exact Frame.refl _ _
  · refine Frame.then ?_ frame_set_fab rfl
    refine Frame.foldl ?_ ?_
    · refine Frame.foldl ?_ ?_
      · refine Frame.foldl ?_ ?_
        · exact Frame.refl _ _
        · intro _ _
          try dsimp only
          refine Frame.then ?_ (send_frame _ _ _) rfl
          exact Frame.refl _ _
      · intro _ _
        try dsimp only
        refine Frame.foldl ?_ ?_
        · exact Frame.refl _ _
        · intro _ _
          try dsimp only
          refine Frame.then ?_ (send_frame _ _ _) rfl
          exact Frame.refl _ _
    · intro _ _
      try dsimp only
      refine Frame.then ?_ (send_frame _ _ _) rfl
      exact Frame.refl _ _

theorem execWorkCutoff_frame : ∀ s t, execWorkCutoff s = .next t → Frame [.hostRegs, .queues, .rings, .phase, .smemCells, .smemMisc, .out] s t := by
  intro s t h
  unfold execWorkCutoff at h
  injection h with h
  subst h
  try dsimp only [onHost, onMb]
  refine Frame.then ?_ (doWorkCutoff_frame _) rfl
  exact Frame.refl _ _

theorem execLatch_frame : ∀ s t, execLatch s = .next t → Frame [.objs, .counters, .dictMisc, .queues, .rings, .phase, .boards, .turnMisc, .adm, .comp, .images, .remotes, .streams, .colls, .lists, .smemMisc, .place, .scrMisc, .flash, .ledger, .bslots, .errorLog, .out] s t := by
  intro s t h
  unfold execLatch at h
  injection h with h
  subst h
  try dsimp only [onHost, onMb]
  refine Frame.then ?_ (doLatch_frame _) rfl
  exact Frame.refl _ _

theorem execTurnNoIncrement_frame : ∀ s t, execTurnNoIncrement s = .next t → Frame [.objs, .counters, .dictMisc, .queues, .rings, .turnNo, .phase, .boards, .turnMisc, .images, .units, .smemCells, .smemMisc, .way, .ing, .scrMisc, .flash, .fab, .errorLog, .ras, .clk, .out, .free] s t := by
  intro s t h
  unfold execTurnNoIncrement at h
  injection h with h
  subst h
  try dsimp only [onHost, onMb]
  refine Frame.then ?_ (doIncrement_frame _) rfl
  exact Frame.refl _ _

theorem execDeadlineBoundary_frame : ∀ qh s t, execDeadlineBoundary qh s = .next t → Frame [.counters, .queries] s t := by
  intro qh s t h
  unfold execDeadlineBoundary at h
  injection h with h
  subst h
  try dsimp only [onHost, onMb]
  split
  · try dsimp only
    exact Frame.refl _ _
  · try dsimp only
    refine Frame.ite ?_ ?_
    · refine Frame.then ?_ (slipQuery_frame _ _) rfl
      refine Frame.then ?_ (onQuery_frame _ _ _) rfl
      exact Frame.refl _ _
    · exact Frame.refl _ _

theorem doAllowanceEnd_frame : ∀ s, Frame [.objs, .counters, .queues, .rings, .phase, .boards, .turnMisc, .adm, .images, .remotes, .acts, .streams, .remoteStats, .colls, .lists, .queries, .units, .nextUnit, .smemMisc, .ing, .place, .flash, .fab, .ledger, .errorLog, .nvMisc, .out] s (doAllowanceEnd s) := by
  intro s
  unfold doAllowanceEnd
  try dsimp only [onHost, onMb]
  refine Frame.ite ?_ ?_
  · refine Frame.then ?_ frame_set_smem_running rfl
    refine Frame.then ?_ (sendSegments_frame _) rfl
    refine Frame.then ?_ (placeWork_frame _) rfl
    refine Frame.then ?_ (sendHeartbeats_frame _) rfl
    refine Frame.then ?_ (countCaravans_frame _) rfl
    refine Frame.then ?_ (setPhase_frame _ _) rfl
    exact Frame.refl _ _
  · exact Frame.refl _ _

theorem execGrantRefresh_frame : ∀ grants s t, execGrantRefresh grants s = .next t → Frame [.fab] s t := by
  intro grants s t h
  unfold execGrantRefresh at h
  injection h with h
  subst h
  try dsimp only [onHost, onMb]
  refine Frame.then ?_ (doGrantRefresh_frame _ _) rfl
  exact Frame.refl _ _

theorem execArrivalAllowanceEnd_frame : ∀ s t, execArrivalAllowanceEnd s = .next t → Frame [.objs, .counters, .queues, .rings, .phase, .boards, .turnMisc, .adm, .images, .remotes, .acts, .streams, .remoteStats, .colls, .lists, .queries, .units, .nextUnit, .smemMisc, .ing, .place, .flash, .fab, .ledger, .errorLog, .nvMisc, .out] s t := by
  intro s t h
  unfold execArrivalAllowanceEnd at h
  injection h with h
  subst h
  try dsimp only [onHost, onMb]
  refine Frame.then ?_ (doAllowanceEnd_frame _) rfl
  exact Frame.refl _ _

end Sys2Proof.Machine
end

