-- ==== Sys2Proof/Laws/FrameViews.lean ====
section
/-! SUPPORT. Which parts of the state the functions of Machine/Views.lean may change. -/

set_option maxRecDepth 4000

namespace Sys2Proof.Machine

open Sys2Proof

theorem Shown_over_frame : ∀ w1 s, Frame [.objs, .doms, .txns, .adm, .colls, .ledger, .nvMisc] s (Shown.over w1 s) := by
  intro w1 s
  unfold Shown.over
  try dsimp only [onHost, onMb]
  refine Frame.then ?_ frame_set_dict_objs_and_7_more rfl
  exact Frame.refl _ _

end Sys2Proof.Machine
end

