-- ==== Sys2Proof/Laws/Memory.lean ====
section
/-! SUPPORT. The laws of memory: a byte written is read back, every other byte is left, and each operation on search memory or on
a Scratch Bank keeps the canonical form. -/

namespace Sys2Proof.Machine

open Sys2Proof

theorem setByte_wf {m : List Host.Cell} (h : Memory.wf m = true) (a : Nat) (b : Byte) : Memory.wf (setByte m a b) = true :=
  sput_canon h a b

theorem byteAt_setByte_self {m : List Host.Cell} (h : Memory.wf m = true) (a : Nat) (b : Byte) : byteAt (setByte m a b) a = b :=
  look_sput_self h a b

theorem byteAt_setByte_ne (m : List Host.Cell) {a q : Nat} (b : Byte) (h : q ≠ a) : byteAt (setByte m a b) q = byteAt m q := by
  simp [byteAt, setByte, look_sput_ne _ _ _ h]

theorem writeBytes_wf {m : List Host.Cell} (h : Memory.wf m = true) (a : Nat) (bs : List Byte) :
    Memory.wf (writeBytes m a bs) = true := by
  induction bs generalizing m a with
  | nil => exact h
  | cons b bs ih => exact ih (setByte_wf h a b) (a + 1)

theorem byteAt_writeBytes_outside (m : List Host.Cell) (a : Nat) (bs : List Byte) {q : Nat}
    (h : q < a ∨ a + bs.length ≤ q) : byteAt (writeBytes m a bs) q = byteAt m q := by
  induction bs generalizing m a with
  | nil => rfl
  | cons b bs ih =>
    simp only [List.length_cons] at h
    rw [writeBytes, ih _ _ (by omega), byteAt_setByte_ne _ _ (by omega)]

theorem byteAt_writeBytes_inside {m : List Host.Cell} (h : Memory.wf m = true) (a : Nat) (bs : List Byte) {i : Nat}
    (hi : i < bs.length) : byteAt (writeBytes m a bs) (a + i) = bs.getD i 0 := by
  induction bs generalizing m a i with
  | nil => simp at hi
  | cons b bs ih =>
    cases i with
    | zero =>
      rw [writeBytes, byteAt_writeBytes_outside _ _ _ (by omega)]
      exact byteAt_setByte_self h a b
    | succ i =>
      have := ih (setByte_wf h a b) (a + 1) (i := i) (by simpa using hi)
      rw [writeBytes, show a + (i + 1) = a + 1 + i by omega, this]
      rfl

@[simp] theorem readBytes_length (m : List Host.Cell) (a n : Nat) : (readBytes m a n).length = n := by
  induction n generalizing a with
  | zero => rfl
  | succ n ih => simp [readBytes, ih]

theorem readBytes_getD (m : List Host.Cell) (a : Nat) {n i : Nat} (hi : i < n) : (readBytes m a n).getD i 0 = byteAt m (a + i) := by
  induction n generalizing a i with
  | zero => omega
  | succ n ih =>
    cases i with
    | zero => rfl
    | succ i =>
      rw [readBytes, List.getD_cons_succ, ih _ (by omega), show a + 1 + i = a + (i + 1) by omega]

/-- What was written is read back whole. -/
theorem readBytes_writeBytes {m : List Host.Cell} (h : Memory.wf m = true) (a : Nat) (bs : List Byte) :
    readBytes (writeBytes m a bs) a bs.length = bs := by
  induction bs generalizing m a with
  | nil => rfl
  | cons b bs ih =>
    rw [writeBytes, List.length_cons, readBytes, ih (setByte_wf h a b),
      byteAt_writeBytes_outside _ _ _ (by omega), byteAt_setByte_self h]

/-! ### Search memory -/

theorem writeSmem_wf {s : State} (h : Memory.wf s.smem.cells = true) (a : Nat) (d : List Byte) :
    Memory.wf (writeSmem s a d).smem.cells = true := writeBytes_wf h a d

theorem clearResults_wf {s : State} (h : Memory.wf s.smem.cells = true) (st g : Nat) :
    Memory.wf (clearResults s st g).smem.cells = true := filter_canon h _

theorem ringWrite_wf {s : State} (h : Memory.wf s.smem.cells = true) (q : Queue) (o : Nat) (b : List Byte) :
    Memory.wf (ringWrite s q o b).smem.cells = true := by
  unfold ringWrite
  split
  · exact h
  · split
    · unfold toHost
      dsimp only
      split <;> exact h
    · split
      · exact writeBytes_wf h _ _
      · exact h

/-! ### Scratch Banks -/

theorem scrPut_wf {m : List Host.Cell} (h : Memory.wf m = true) (a e : Nat) (bad : List Nat) (p : Nat × Byte) :
    Memory.wf (scrPut a e bad m p) = true := by
  unfold scrPut
  dsimp only
  split
  · exact h
  · exact setByte_wf h _ _

theorem ownerWrite_wf {s : State} (h : Memory.wf s.scratch.cells = true) (a : Nat) (d : List Byte) :
    Memory.wf (ownerWrite s a d).scratch.cells = true := by
  have hf : ∀ (l : List (Nat × Byte)) (m : List Host.Cell), Memory.wf m = true →
      Memory.wf (l.foldl (scrPut a (a + d.length) s.scratch.bad) m) = true := by
    intro l
    induction l with
    | nil => exact fun m hm => hm
    | cons p l ih => exact fun m hm => ih _ (scrPut_wf hm _ _ _ p)
  unfold ownerWrite
  dsimp only
  split
  · exact hf _ _ h
  · exact hf _ _ h

end Sys2Proof.Machine
end

