-- ==== Sys2Proof/Machine/Package.lean ====
section
/-! DEFINITION. The ball grid of the package (chapter 23): row names, balls that exist, and the pin that a trip holds low. -/

namespace Sys2Proof.Machine

/-- The letters of the rows, in order (R482). -/
def rowLetters : List Char := "ABCDEFGHJKLMNPSTUVWY".toList

/-- Row number, 1 to 89, of a ball name or a row name; 0 where there is no such row (R482). -/
def rowIndex (name : List Char) : Nat :=
  let first := name.headD ' '
  let second := (name.drop 1).headD ' '
  let two := decide ('A' ≤ second)
  let g := if two then first.toNat - 'A'.toNat + 1 else 0
  match rowLetters.findIdx? (· == (if two then second else first)) with
  | none => 0
  | some p => if 89 < 20 * g + p + 1 ∨ 4 < g then 0 else 20 * g + p + 1

/-- Whether a place of the grid carries a ball: row BE and column 45 carry none (R483). -/
def hasBall (row col : Nat) : Bool := decide (1 ≤ row ∧ row ≤ 89 ∧ 1 ≤ col ∧ col ≤ 89) && row != 45 && col != 45

/-- The half to which a ball of a column belongs (R483). -/
def ballHalf (col : Nat) : Nat := if col < 45 then 0 else 1

/-- Whether THERMTRIP_N is asserted: from a trip until the rails are removed (R476, R487). -/
def thermTripLow (s : State) : Bool := s.clk.tripped && s.clk.powered

end Sys2Proof.Machine
end

