-- ==== Sys2Proof/WellFormed.lean ====
section
/-! DEFINITION. Which commands are well formed: every operand that numbers a unit of the part lies among the units that
the part has (Tables 1.2, 1.3, 3.2, 15.1, 17.1 and 19.1). Operands that come from outside through a register or a queue
entry are clamped or ignored by the meanings instead (R5, R60) and are not limited here. -/

namespace Sys2Proof

/-- The bank exists: 8 stacks, 64 pseudo-channels, 16 banks (Table 1.2). -/
def BankId.exists (b : BankId) : Bool := decide (b.stack < 8) && decide (b.group < 64) && decide (b.bank < 16)

/-- The units that a command's operands name exist. -/
def Instr.wellFormed : Instr → Bool
  | .plannerBoardWrite half _ => decide (half < 2)
  | .registerWrite _ _ value _ => decide (value < 2 ^ 64)
  | .bar2WindowBaseWrite value => decide (value < 2 ^ 64)
  | .queueEnable q | .queueDisable q | .queueEnableApply q | .queueDisableApply q | .queueTallyPublish q =>
    decide (q < 16384)
  | .doorbellWrite q _ _ _ _ | .entryFetchComplete q _ _ _ | .readAhead q _ => decide (q < 16384)
  | .groupPromotionComplete t _ | .groupDescriptorSwitch t _ | .tableLoad t | .tableBuildComplete t _
  | .tableSwitch t | .tableVersionSwitch t => decide (t < 64)
  | .imageLoad n | .imageLoadComplete n _ _ | .segmentPlacementComplete n | .encoderSegment n _ _
  | .layerReloadComplete n _ | .unload n | .slotFree n | .precisionChange n _ => decide (n < 16)
  | .imgLoad c | .collectionImageLoadComplete c _ | .run c | .collectionStop c | .drop c | .rescore c _
  | .adaptationEpochEnd c | .centroidDriftApply c _ | .copyDrop c | .centroidReloadComplete c
  | .edgeRewriteComplete c _ => decide (c < 4096)
  | .candidateRequest w _ | .candidateReadComplete w _ => decide (w < 32)
  | .nop _ b _ | .and _ b _ | .or _ b _ | .xor _ b _ | .not _ b _ | .pred _ b _ | .hclear _ b _ | .hdump _ b _ => b.exists
  | .count _ b _ _ | .select _ b _ _ => b.exists
  | .stackBandChange n _ => decide (n < 8)
  | .directoryOrdering c sh _ | .directoryRebuildComplete c sh => decide (c < 4096) && decide (sh < 256)
  | .rangeDrainComplete r => decide (r < 16)
  | .nextOwnerWrite b _ => decide (b < 256)
  | .linkUp p _ _ _ _ _ | .laneLockLoss p | .dataFlit p _ | .nakFlit p _ | .idleFlit p _ | .pingFlit p _ _
  | .pongFlit p _ _ | .discFlit p _ _ _ _ | .replayTimeout p | .boundaryMark p _ _ _ => decide (p < 16)
  | .arrive n t => decide (n < 64) && decide (t < 128)
  | .bslotArrive n | .barrierTimeout n | .clear n | .arriveMessage _ n _ | .releaseMessage _ n _
  | .abortMessage _ n _ _ => decide (n < 64)
  | .read r _ | .write r _ | .txnBegin r _ | .commit r _ | .rollback r _ | .segReadInit r _ | .segRead r _
  | .segWriteInit r _ | .segWrite r _ | .segWriteEnd r _ | .segAbort r _ | .txnWatchdog r | .segIdleTimeout r
  | .attRequest r _ => decide (r < 4)
  | .ideIntegrityFailure st => decide (st < 4)
  | .tileWatchdog t _ => decide (t < 128)
  | .stageEngineWatchdog q _ _ => decide (q < 8)
  | .turnSequencerWatchdog h _ | .droopEvent h => decide (h < 2)
  | .sweepStep st ch _ => decide (st < 8) && decide (ch < 64)
  | .workCutoff | .completionSnapshot | .arrivalSnapshot | .timeoutEvaluation | .latch | .turnNoIncrement
  | .arrivalAllowanceEnd | .alignmentWithdrawal | .periodSwitch | .grantRefresh _ | .deadlineBoundary _
  | .unitDeadlineDrop _ | .caravanComplete _ _ _ _ _ | .pcieLinkUp _ _ | .pcieLinkDown | .configRequest _
  | .rcRegisterRead _ | .bar2Read _ _ _ _ _ | .bar2Write _ _ _ _ | .entryAdmission | .gateTakeover | .compose _ _
  | .statEpochEnd | .stateFree | .coarseRoute _ | .sketchScan _ _ | .widen _ | .exactRerank _ _ | .localSelect _
  | .bazaarMerge _ | .insert _ | .upsert _ | .delete _ | .ingestNop _ | .ingestCommit _ | .ackWaitExpiry _
  | .compactionStart _ | .compactionComplete _ | .segmentSetSwitch _ | .reshapeBuildComplete _
  | .placementReview _ _ _ _ _ _ | .hotCopyComplete _ _ | .copyStart _ | .copySnapshotTransfer _ _ | .logReplay _
  | .copyAbort _ _ | .scratchRead _ _ _ _ _ | .scratchWrite _ _ _ _ | .add32 _ _ _ _ _ | .add64 _ _ _ _ _
  | .swap32 _ _ _ _ _ | .swap64 _ _ _ _ _ | .relocationCopyComplete _ _ _ | .programFailure _ _ _ | .pingTimer _ | .frameReceive _
  | .e2eAckTimer | .transportAck _ _ _ _ | .markLossWithdrawal | .ledgerEpochForm _ | .epochStore _ _ | .epochCommit _
  | .epochApply | .heartbeat _ | .leaderTimeout | .vote _ _ | .found | .join | .memberRequest _ _ _ | .get _ _
  | .put _ _ _ | .del _ _ | .fnFrame _ | .mbGo _ | .doeRequest _ | .doeAbort | .txnApply | .bind _ | .tenantSwitch
  | .scrubStart | .scrubComplete _ | .scrubEndBoundary | .diagEn _ | .fwActivate | .getReport _ _ | .secured _ _ _
  | .plannerWatchdog | .mcWatchdog _ | .mcResetComplete | .ledgerHolderWatchdog | .salvageComplete _ _ | .patrolRead _
  | .sweepStart | .memberLoadComplete | .clockMonitorWindow _ | .fmcStart | .fmcGateEnd _ | .powerSample _ _ _ _
  | .thermalTrip | .por _ | .powerLoss | .perstAssert | .perstRelease | .bootComplete _ _ _
  | .memoryTrainingComplete _ _ | .repairFuseLoadComplete _ _ _ _ | .flashTranslationMount _ _ _ _ _ _ _ _
  | .indexVersionsSwitch _ | .ready _ | .retainedMediaDiscard => true

end Sys2Proof
end

