-- ==== Sys2Proof/Tests/Slice0.lean ====
section
/-! SUPPORT. Tests: an ill-formed command for each check, the spec's worked examples, and for each statement of
Sys2Proof/Certificates/Slice0/Obligations.lean concrete states and operands that meet its hypotheses (theorems `wit_…`,
one for each clause that has a hypothesis of its own). -/

open Sys2Proof Sys2Proof.Machine
namespace Sys2Proof.Tests

/-- A node that runs: power on, start-up past step 6, READY. -/
def up : State :=
  { State.reset with clk := { Clk.reset with bootStage := 7 },
                     dict := { Dict.reset with served := true, readyObj := true } }

/-- The running node at a phase of turn `n`. -/
def at' (n : Nat) (p : Phase) : State := { up with turn := { TurnSt.reset with no := n, phase := p } }

/-- The running node as the only member, holder and leader of its partition. -/
def alone (n : Nat) (p : Phase) : State :=
  { at' n p with ledger := { Ledger.reset with members := [0], holders := [0], leader := 0, term := 1 } }

/-- Three members, all holders, of which node 1 leads; this is node 0. -/
def three (n : Nat) (p : Phase) : State :=
  { at' n p with ledger := { Ledger.reset with members := [0, 1, 2], holders := [0, 1, 2], leader := 1, term := 1 } }

/-- `s` with one object set. -/
def obj (s : State) (a v : Nat) : State := setObj s a v

/-- A board that lends a tile to each engine of the query path, with room for the path of one query. -/
def bLend (h : Nat) : Board :=
  { Board.empty with
    loans := [⟨64 * h, .composer⟩, ⟨64 * h + 1, .router⟩, ⟨64 * h + 2, .scanner⟩, ⟨64 * h + 3, .selector⟩, ⟨64 * h + 4, .bazaar⟩],
    issue := [(4 * h, .composer, 64), (4 * h, .router, 64)], waySlots := [(16 * h, 4)],
    ahead := [(1, .router, 64), (4, .bazaar, 65536), (5, .bazaar, 65536)],
    contexts := 2, gathers := 10, hostSlots := 5, bridgeBytes := 4096 }
/-- `s` with such boards in force, on which the work `ps` is placed. -/
def lent (ps : List Placed) (s : State) : State := { s with turn := { s.turn with cur := [bLend 0, bLend 1], placed := ps } }
def place (e : Engine) (id : Nat) : Placed := { engine := e, id := id, green := true, late := false }

def qry (qh : Nat) : Query := { (default : Query) with qh := qh, k := 1, d := 1, t0 := 100, encoder := 0xFF }

def sDue : State := { at' 9 .p2 with queries := [{ qry 1 with t0 := 9 }, { qry 2 with t0 := 10 }, { qry 3 with t0 := 12 }] }
def bTwice : Board :=
  { Board.empty with loans := [⟨64, .scanner⟩, ⟨64, .router⟩, ⟨3, .router⟩], windows := [(4, 1), (4, 1), (3, 2)],
                     hostSlots := 7, gathers := 2 ^ 30, energy := 5 }
def bHot : Board := { Board.empty with energy := 2 ^ 60 }
def sPeriod : State := obj (obj (at' 9 .p4) Obj.PERIOD_PENDING 64) Obj.PERIOD_SWITCH_TURN 10
def qMissing : Query := { qry 7 with awaited := 1 }
def qWhole : Query := { qry 7 with shards := [1] }
def sDeadline (q : Query) : State := { at' 9 .p6 with queries := [q], turn := { TurnSt.reset with no := 9, due := [7] } }
def unit (n : Nat) : SUnit := { (default : SUnit) with num := n, arrived := 8, ready := 10 }
def sUnits : State :=
  { at' 9 .p5 with units := [{ unit 4 with probe := { (default : ProbeRec) with deadline := 9 } }, unit 5],
                   way := { up.way with queues := [(0, [{ (default : WayReq) with unit := 4 }, { (default : WayReq) with unit := 5 }])] } }
def sOff : State := { three 9 .p6 with turn := { TurnSt.reset with no := 9, alignBad := 4 } }
def sNoMarks : State := { three 9 .p6 with turn := { TurnSt.reset with no := 9, marksMissed := 64 } }
def grants3 : List Grant := [⟨.shard, 0, 1, 5, 0, 0⟩, ⟨.ingest, 0, 1, 5, 0, 0⟩, ⟨.shard, 0, 7, 5, 0, 0⟩]

def qu (q : Nat) (v : Queue) (s : State) : State := setQ s q v
def nearEdge : State := { up with host := { HostIf.reset with bar2Base := searchBytes - 2 ^ 34 } }
def qEvent : Queue := { Queue.reset with enable := true, enableDue := 10, ty := .event, log2 := 7 }
def qOff : Queue := { Queue.reset with enabled := true, disableDue := 10 }
def sOffDue : State :=
  { qu 3 qOff (at' 9 .p4) with host := { (qu 3 qOff (at' 9 .p4)).host with fetched := [⟨3, 0, none, none, 1, 8⟩, ⟨4, 0, none, none, 1, 8⟩] } }
def region : State := obj up Obj.HOST_REGION_GIB 1
def qRing : Queue := { Queue.reset with enabled := true, hostTally := 5, work := 2, devTally := 1 }
def linked (n : Nat) (p : Phase) : State := { at' n p with host := { HostIf.reset with linkUp := true } }
def sEvents : State :=
  let s := qu 5 { qEvent with enabled := true } (linked 9 .p6)
  { s with host := { s.host with events := [{ q := 5, ev := ⟨1, 2, 3⟩, lost := 0, tally := 0 }, { q := 6, ev := ⟨1, 2, 3⟩, lost := 0, tally := 0 }] } }
def resOf (q : Nat) : Res := { (default : Res) with rq := q, slots := 1 }
def sResults : State :=
  let s := qu 5 { Queue.reset with enabled := true, ty := .result, hostTally := 3 } (linked 9 .p6)
  { s with host := { s.host with results := [resOf 5, resOf 6, resOf 5] } }

/-- A QUERY entry for collection 1 with k = 10 and an inline payload of four bytes. -/
def entry64 : List Byte := leBytes 64 (7 + 1 * 2 ^ 64 + 9 * 2 ^ 82 + 2 ^ 109 + 4 * 2 ^ 112)
def fetched : Fetched := { q := 3, tally := 2, entry := some entry64, payload := some [], attempts := 1, turn := 8 }
/-- One entry waits in queue 3, whose results go to queue 5. -/
def sOffer : State :=
  let s := qu 3 { Queue.reset with enable := true, enabled := true, hostTally := 3, snapTally := 3, work := 2, devTally := 2, resultQ := 5 } (linked 9 .p6)
  let s := qu 5 { Queue.reset with enable := true, enabled := true, ty := .result, hostTally := 64, snapTally := 0 } s
  lent [] { s with host := { s.host with fetched := [fetched] } }
def sOfferRun : State := setColl sOffer 1 { Coll.reset with life := 2 }
def sOfferShut : State := obj sOfferRun Obj.GATE_STATE 0
def sOfferFull : State := { sOfferRun with turn := { sOfferRun.turn with takenQ := [2, 2] } }
def sGates (turn : Nat) : State := { at' 9 .p4 with adm := { Adm.reset with gates := { oper := [], base := 0, pend := some ([5], turn) } } }
/-- A query of collection 1 composed from table 2, and the table. -/
def tokQ : Query := { qry 4 with coll := 1, t0 := 9, payload := leBytes 4 1 }
def tbl : TableVer := { fmt := 0, width := 4, rows := 2, data := [(0, Row.of (leBytes 64 1)), (1, Row.of (leBytes 64 2))],
                        groups := [(0, { RowGroup.of true 0 with copied := true, moving := some false })] }
def sTbl (v : TableVer) : State :=
  let s := obj (obj (obj (at' 9 .p6) (Obj.coll_INPUT_MODE 1) 1) (Obj.coll_TOKEN_TABLE 1) 2) (Obj.table_TBL_EN 2) 1
  lent [] { s with comp := { s.comp with tables := [(2, { Table.reset with active := some v })] }, queries := [tokQ] }
def tblBad : TableVer := tbl.setRow 1 { tbl.row 1 with err := true }
def sStall : State := { sTbl tbl with turn := { (sTbl tbl).turn with seqMissed := [(0, 9)] } }
def entryTok : List Byte := leBytes 64 (7 + 1 * 2 ^ 64 + 2 ^ 109 + 4 * 2 ^ 112 + 1 * 2 ^ 192)
def fetchedTok : Fetched := { fetched with entry := some entryTok }
def sAhead : State :=
  let s := qu 3 { Queue.reset with enabled := true, hostTally := 3, work := 2, devTally := 2 } (sTbl tbl)
  { s with host := { s.host with fetched := [fetchedTok] } }
def atP4 (s : State) : State := { s with turn := { s.turn with phase := .p4 } }
def sMoved : State := atP4 (sTbl tbl)
def tblGroup (g : RowGroup) : TableVer := { tbl with groups := [(0, g)] }
def tblCancel : TableVer := tblGroup { RowGroup.of false 0 with moving := some true, cancel := true }
def tblT1 : TableVer := tblGroup { RowGroup.of false 0 with t1Next := some true }
def tblCopying : TableVer := { tbl with groups := [(0, { RowGroup.of true 0 with moving := some false })] }
def tblFetch : State :=
  let s := at' 9 .p4
  { s with comp := { s.comp with tables := [(2, { Table.reset with buildGeo := some (0, 4, 2) })] } }
def tblBuilt : State :=
  let s := at' 9 .p4
  { s with comp := { s.comp with tables := [(2, { Table.reset with built := some tbl, switchDue := 10 })] } }

/-- A layer that adds the image input to itself, and an image of it. -/
def lay : Layer := { (default : Layer) with op := 7, afmt := 3, inW := 1, outW := 1, srcA := 0xFFFF, srcB := 0xFFFF }
def img1 : Image := { (default : Image) with inWidth := 1, outWidth := 1, layers := [lay] }
def withImg (n st : Nat) (i : Image) (s : State) : State := { obj s (Obj.slot_LOAD_STATE n) st with images := [(n, i)] }
/-- The bytes of an image: a head, its digest and the rest, where the digest is taken with zeros in its place. -/
def sealed (head tail : List Byte) : List Byte := head ++ (digest (head ++ (List.replicate 32 0 ++ tail)) ++ tail)
def imgNat : Nat := 0x54484D49 + 2 ^ 32 + 2 ^ 64 + 2 ^ 96 + 2 ^ 112 + 320 * 2 ^ 128 + 256 * 2 ^ 192
def imgHead : List Byte := leBytes 40 imgNat
def layNat : Nat := 7 + 3 * 2 ^ 12 + 2 ^ 32 + 2 ^ 48 + 0xFFFF * 2 ^ 96 + 0xFFFF * 2 ^ 112 + 64 * 2 ^ 192
def imgLayer : List Byte := leBytes 64 layNat
def imgTail : List Byte := List.replicate 184 0 ++ imgLayer
def imageBytes : List Byte := sealed imgHead imgTail
def imageRead : Image :=
  { ties := .even, inWidth := 1, outWidth := 1, digest := slice imageBytes 40 32, layers := [parseLayer imageBytes 256], tables := [], segs := [],
    peers := [], ranAt := 0, readyDue := 0, testDue := false, freeing := false }
def sLoading : State := obj (at' 9 .p6) (Obj.slot_LOAD_STATE 2) 1
/-- `s` with the PCIe link up, and with `n` tries of a load counted. -/
def reach (s : State) : State := { s with host := { s.host with linkUp := true } }
def tried (a n : Nat) (s : State) : State := { s with host := { s.host with tries := [(a, n)] } }
def img2 : Image := { img1 with segs := [⟨1, 0, 1, 0, 1, [], false⟩, ⟨2, 0, 1, 1, 0, [], false⟩] }
def imgSending : Image := { img1 with segs := [⟨1, 0, 1, 0, 1, [1], false⟩] }
def encQ : Query := { qry 4 with encoder := 2, t0 := 9, input := [[f1]], coll := 1 }
def sEnc (i : Image) : State := lent [] { withImg 2 2 i (at' 9 .p6) with queries := [encQ, { encQ with qh := 5, t0 := 10 }] }
/-- The run of a segment, the queries of a half that composes nothing slipped before. -/
def slipped (s : State) (slot : Nat) : State :=
  ((segmentReady s slot).filter fun q => !composes s q.half).foldl (fun u q => slipQuery u q.qh) s
def sampleOf (s : State) (slot : Nat) (e : Engine) : Nat :=
  sampleRows s e (getObj s (Obj.slot_PRECISION_MODE slot)) (getObj s (Obj.slot_SAMPLE_ROWS slot))
def ranOf (s : State) (i : Image) (bad : Option Nat) (ready : List Query) : Except Nat Ran :=
  runLayers 2 i (fun _ _ _ => f0) bad (sampleOf (slipped s 2) 2 .composer) i.layers 0 (slipped s 2) [(0xFFFF, ready.map (·.input))]
def ranOk (d : State) (x : Except Nat Ran) : Ran := match x with | .ok p => p | .error _ => { s := d, outs := [], sampled := [] }
/-- A half that composes nothing in this turn. -/
def sStalled : State := { sEnc img1 with turn := { (sEnc img1).turn with seqMissed := [(0, 9)] } }
def layBad : Layer := { lay with bad := true }
def layPend : Layer := { lay with pending := true }
def sDroops : State := { at' (2 ^ 20) .p5 with ras := { Ras.reset with droop := [0, 1, 0] }, images := [(2, { img1 with layers := [{ lay with noted := true }] })] }

def inColl (c : Coll) (s : State) : State := setColl s 1 c
def sHam (n : Nat) (p : Phase) : State := obj (obj (three n p) (Obj.coll_METRIC 1) 3) (Obj.coll_SKETCH_BITS 1) 128
def sCollLoad : State := obj (obj (inColl { Coll.reset with pend := some 3 } (sHam 9 .p6)) (Obj.coll_IMG_STATE 1) 1) (Obj.coll_IMG_LOAD 1) 1
def collNat : Nat := 0x54484349 + 2 ^ 32 + 3 * 2 ^ 40 + 128 * 2 ^ 80 + 2 ^ 96 + 144 * 2 ^ 192 + 128 * 2 ^ 256
def collBytes : List Byte := sealed (leBytes 56 collNat) (List.replicate 56 0)
def collRead (s : State) : CollImg :=
  { rows := [], sketches := [sketchBits (getObj s (Obj.coll_SKETCH_LAYOUT 1)) 128 (slice collBytes 128 16)], books := [], entries := [],
    edges := [], digest := slice collBytes 56 32 }
def sCollTried : State := tried (Obj.coll_IMG_LOAD 1) 7 (reach sCollLoad)
/-- A member without room in T2. -/
def sCollFull : State := obj (obj (reach sCollLoad) Obj.HOST_REGION_GIB 768) (Obj.coll_T1_QUOTA_MIB 1) 0
def cent (n : Nat) : Centroid := { (default : Centroid) with num := n, bits := List.replicate 128 false, scale := f1 }
def cset : CentSet := { (default : CentSet) with cents := [cent 0, { cent 1 with bits := List.replicate 128 true }], edges := [(0, [1])] }
def running1 : Coll := { Coll.reset with life := 2, cents := [cset], members := [0, 1, 2] }
def manyRun : State := { inColl { Coll.reset with life := 1 } (three 9 .p6) with colls := put ((List.range 1024).map fun i => (i + 2, { Coll.reset with life := 2 })) 1 { Coll.reset with life := 1 } }
/-- A domain whose other collection holds every list that it may. -/
def withLists (n : Nat) (s : State) : State :=
  { s with colls := (2, { Coll.reset with life := 2, cents := [{ cset with cents := List.replicate n (cent 0) }] }) :: s.colls }
def sCollPast : State := withLists 16777216 (reach sCollLoad)
def seg0 : SegSet := { (default : SegSet) with bases := [[0]] }
def ent (i : Nat) : Entry := { (default : Entry) with id := BitVec.ofNat 64 i, delTurn := never, sketch := List.replicate 128 false }
def listAt (k : Nat) : ListCopy := { (default : ListCopy) with key := k, entries := [ent 8, ent 9], sets := [{ seg0 with bases := [[0, 1]] }] }
def sOld : State :=
  { inColl { Coll.reset with life := 1, dropDue := 61 } (three 60 .p4) with
    lists := [{ listAt (listKey 2 0) with sets := [seg0, { seg0 with stop := 20 }, { seg0 with stop := 21 }] }, listAt (listKey 1 0)] }
def routeQ : Query := { qry 4 with coll := 1, k := 2, d := 9, t0 := 8, vec := some [], sketch := List.replicate 128 true, probesCfg := 1 }
def sRoute (q : Query) : State := lent [place .router 4, place .bazaar 4] { inColl running1 (sHam 8 .p6) with queries := [q] }
def sNotPlaced (s : State) : State := { s with turn := { s.turn with placed := [] } }
def sNoCent (q : Query) : State := lent [place .router 4] { inColl { running1 with cents := [] } (sHam 8 .p6) with queries := [q] }
def withGrants (s : State) : State := { s with fab := { s.fab with grants := [⟨.shard, 1, 0, 5, 1000, 2 ^ 20⟩] } }
def widenQ : Query := { routeQ with route := [listKey 1 1, listKey 1 0], probes := 1, shards := [1], reportsDue := 1, reports := 1 }
def scanU : SUnit := { unit 6 with probe := { (default : ProbeRec) with qh := 4, home := 0, pin := 8, k := 2, c := 1, coll := 1, keys := [listKey 1 0], sketch := List.replicate 128 false } }
def sScan (through : Nat) : State :=
  lent [place .scanner 6] { inColl running1 (sHam 9 .p6) with
    units := [scanU], lists := [listAt (listKey 1 0)],
    ing := { Ing.reset with batchThrough := [(0, through), (1, through), (2, through)],
                            stampThrough := (List.range 256).map fun i => ((1, i), 7) } }
def cand (n : Nat) : Cand := { (default : Cand) with ctag := n, key := listKey 1 0, id := BitVec.ofNat 64 (8 + n), entry := n, dist := f1 }
def ranU : SUnit := { scanU with scanned := true, cands := [cand 0, { cand 1 with id := 8 }] }
def sRank (n : Nat) (u : SUnit) : State := lent [place .selector 6] { inColl running1 (sHam n .p6) with units := [u], lists := [listAt (listKey 1 0)] }
def sRankIp : State := lent [] { inColl running1 (three 9 .p6) with units := [{ ranU with cands := [{ cand 0 with done := true }] }], lists := [listAt (listKey 1 0)] }
def way (hot started : Bool) : WayReq := { unit := 6, ctag := 0, hot := hot, soft := false, loc := 3 * 2 ^ 21, started := started }
def sWay (r : WayReq) : State := { sRankIp with units := [{ ranU with cands := [cand 0] }], way := { up.way with queues := [(2, [r])] } }
def sRescore (i : Image) : State :=
  obj { withImg 2 2 i sRankIp with units := [{ ranU with probe := { ranU.probe with vec := [f1] }, cands := [{ cand 0 with done := true }] }] } (Obj.coll_RESCORER_IMAGE 1) 2
def batchOf (i : Image) : List (SUnit × Cand × Entry) := rescoreBatch (sRescore i) 1
def rescoreRows (i : Image) : List (List (List Flt)) := (batchOf i).map fun t => [fitTo i.inWidth (rescoreRow (sRescore i) t.1 t.2.1 t.2.2)]
def rescoreRun (i : Image) (bad : Option Nat) : Except Nat Ran :=
  runLayers 2 i (rescoreLut (sRescore i) 1 (batchOf i)) bad (sampleOf (sRescore i) 2 .selector) i.layers 0 (sRescore i) [(0xFFFF, rescoreRows i)]
def sNotLent : State := { sRescore img1 with turn := { (sRescore img1).turn with cur := [] } }
def sEmptyBatch : State := { sRescore img1 with units := [] }
def selU : SUnit := { ranU with ranked := true, cands := [{ cand 0 with done := true }, { cand 1 with done := true, id := 8 }] }
def pl (src : Nat) (ids : List Nat) : PartialList :=
  { (default : PartialList) with qh := 4, src := src, entries := ids.map fun i => { (default : PEntry) with id := BitVec.ofNat 64 i, key := fnat i } }
def mergeQ : Query := { routeQ with shards := [0, 1], awaited := 2, lists := [pl 1 [3, 4], pl 0 [3, 5]], sq := 7, k := 3 }
def sMerge (q : Query) : State := { sRoute q with queries := [q, { q with qh := 5 }] }
def sWiden : State := obj (sRoute widenQ) Obj.BAZAAR_BUF_MIB 1
def sWidenGrant : State := obj (withGrants (sRoute widenQ)) Obj.BAZAAR_BUF_MIB 1
def sWidenFull : State :=
  obj { withGrants (sRoute widenQ) with ledger := { (three 9 .p6).ledger with lists := [(listKey 1 0, [⟨1, .primary, 0, never⟩])] } } Obj.BAZAAR_BUF_MIB 0
def sRouted : State := withGrants (sRoute routeQ)
/-- The answer of a query of pin turn 7, which this node keeps after the lender's reply. -/
def memo7 : List Byte := memoBytes 7 0 0 false false [9]
def memoQ : Query := { routeQ with memoKey := 0x1234, memoHit := some [] }
def sMemo : State :=
  obj { sRoute memoQ with
    fab := { Fabric.reset with kept := [(8, { key := 0x1234, value := memo7 })] },
    ing := { (sRoute memoQ).ing with batchThrough := [(0, 7), (1, 7), (2, 7)] } } (Obj.coll_MEMO_MAX_AGE 1) 4
def sYellow : State := sRoute { routeQ with colour := .yellow }

def bk : BankId := { stack := 1, group := 2, bank := 3 }
def rc (op : RowOp) (a b d : Nat) : RowCmd :=
  { op := op, rowA := a, rowB := b, rowD := d, width := 0, filter := false, vis := false, half := 0, sq := 0, nvalid := 2, rslot := 1, theta := 5 }
/-- Row logic of the Planner in group 2 of stack 1, with bytes in rows 1 and 2. -/
def sRow : State :=
  { at' 9 .p6 with
    turn := { TurnSt.reset with no := 9, cur := [{ Board.empty with windows := [(1, 2)] }, Board.empty] },
    smem := { SMem.reset with cells := writeBytes (writeBytes [] (rowAddr bk 1) [0xF0, 0x0F, 3]) (rowAddr bk 2) [0x3C, 0x3C], running := true,
                              hists := [((1, 2), [(3, 2 ^ 32 - 1)])] } }
def sHostRow (front : RowCmd) (run : Bool) : State :=
  { at' 9 .p6 with smem := { SMem.reset with running := run, groups := [((1, 2), HostGroup.reset)],
                                             banks := [(bk, { Bank.reset with queue := [front] })] } }
def wr (op : IngOp) : Write :=
  { (default : Write) with wid := 3, sq := 6, op := op, coll := 1, prep := { (default : StageEntry) with wid := 3, coll := 1, key := listKey 1 0 }, holders := [0, 1] }
def sWrite (w : Write) : State := { inColl running1 (three 9 .p6) with ing := { Ing.reset with writes := [w], nextWid := 4 } }
def wrDone (op : IngOp) : Write := { wr op with ready := true, acked := [0, 1] }
def wrLate (acked : List Nat) : Write := { wr .insert with ready := true, sentTurn := 0, acked := acked }
def sLate (acked : List Nat) : State := { sWrite (wrLate acked) with turn := { TurnSt.reset with no := 200 } }
def dirS : DirShard := { (default : DirShard) with coll := 1, shard := 0x53, primary := true, recs := [(0x53, listKey 1 0, 0, 1)], done := 8 }
def commitUp : CommitRec := { wid := 1, coll := 1, op := .upsert, id := 0x53, key := listKey 1 1, abort := false }
def sDir : State :=
  { inColl running1 (three 10 .p6) with
    ing := { Ing.reset with shards := [dirS], batchThrough := [(0, 9), (1, 9), (2, 9)], batches := [(1, 9, [commitUp])] } }
/-- A replacement of row 1 of table 2 that waits for the promotion of the row's group. -/
def tblWaits : TableVer := tblGroup { RowGroup.of true 0 with moving := some false, waiting := [3] }
def wrRow : Write := { wr .upsert with table := some 2, id := 1, ready := true, payload := [1, 2, 3, 4] }
def sWaits : State := { sTbl tblWaits with ing := { Ing.reset with writes := [wrRow], nextWid := 4 } }
def sRebuild : State := { three 9 .p4 with ing := { Ing.reset with rebuilds := [((1, 2), 5, 10)] } }
def bigList : ListCopy := { listAt (listKey 1 0) with entries := [ent 8, { ent 9 with delTurn := 1 }], delta := [0, 1], sets := [{ seg0 with bases := [[1]] }] }
def sComp (l : ListCopy) : State := { inColl running1 (sHam 9 .p6) with lists := [l] }
def compacting : ListCopy := { bigList with compacting := some (9, 2, [0]) }
def rebuilt : ListCopy := { bigList with built := some ([[0]], 2, []), switchDue := 10 }
def sSeg : State := { inColl running1 (sHam 9 .p4) with lists := [rebuilt] }
def sDrift : State := obj { inColl { running1 with driftN := [(0, 3)], driftSum := [(0, [f1])] } (three (2 ^ 20) .p5) with lists := [] } (Obj.coll_ADAPT_EN 1) 1
def sDriftAll : State :=
  let cs := { cset with cents := [{ cent 0 with codes := [f1] }, { cent 1 with codes := [f1], dead := true }] }
  inColl { running1 with cents := [cs], driftIn := [(64, 0, []), (64, 1, []), (64, 2, [])] } (three 70 .p6)
def csDrift : CentSet := { cset with cents := [{ cent 0 with codes := [f1] }, { cent 1 with codes := [f1], dead := true }] }
def resh : Reshape := { (default : Reshape) with key := listKey 1 0, other := listKey 1 1, split := true, rows := [[f1], [fneg f1]] }
def sResh : State := { sComp bigList with ing := { Ing.reset with reshapes := [resh] } }

def key1 : Nat := listKey 1 0
def hotNew : ListCopy := { listAt key1 with hotBuild := true }
def mir : Mirror := { key := key1, base := [], range := 0, bytes := 4096 }
def sMirror : State := obj (obj { sComp (listAt key1) with place := { Place.reset with mirrors := [mir] } } (Obj.coll_T2_QUOTA_GIB 1) 1) Obj.T2_RESERVE_GIB 0
def job (src dst : Nat) : CopyJob := { (default : CopyJob) with key := key1, source := src, target := dst, requested := 10 }
def sJob (p : Phase) (j : CopyJob) : State :=
  { inColl running1 (sHam 9 p) with lists := [listAt key1], place := { Place.reset with jobs := [j] } }
def jobSend : CopyJob := { job 0 1 with start := 5, total := 40 }
def jobReplay : CopyJob := { job 1 0 with start := 5, total := 40 }
def scr0 : State := { up with scratch := { State.reset.scratch with cells := writeBytes [] 64 [255, 255, 255, 255, 1], banks := [(0, { ScrBank.reset 0 with owner := 0x47 }), (1, { ScrBank.reset 1 with owner := 7 })] } }
def scrBad : State := { scr0 with scratch := { scr0.scratch with bad := [8] } }
def scrTurn : State := { scr0 with turn := { TurnSt.reset with no := 9, phase := .p6 } }
def scrGone : State := { up with scratch := { State.reset.scratch with banks := [(1, { ScrBank.reset 1 with retired := true })] } }
def optMirror : Optional := { kind := .mirror, key := key1, base := [], heat := 0, t2 := 0, t4 := 4096, t5 := 0 }

def upPort (p : Nat) (s : State) : State := obj s (Obj.port_LINK_STATE p) linkIsUp
def sTrains : State := obj (three 9 .p6) (Obj.port_LINK_STATE 2) linkTraining
def flit (seq : Nat) : Flit := { ty := 1, seq := seq, ack := 77, vl := 0, credVl := 1, credits := 0, time := 1000, fec := 0 }
def withPort (p : Nat) (v : Port) (s : State) : State := setPort s p v
def portSent : Port := { Port.reset with replay := [(3, 0, [], 0x3FF), (4, 1, [], 0x3FF), (5, 0, [], 0x3FF)], resends := 63 }
def sPort (v : Port) : State := withPort 2 v (upPort 2 (three 64 .p6))
def frame (dst hops : Nat) (seq : Tally) : Frame :=
  { dst := dst, src := 1, part := 0, cls := 0, last := true, len := 8, turn := 9, hops := hops, seq := seq, good := true }
def sFrame : State :=
  { upPort 2 (three 64 .p6) with fab := { Fabric.reset with inStreams := [{ (default : TStream) with peer := 1, next := 5 }], route := [(2, 2, 16)] } }
def sStream : State :=
  { three 64 .p6 with fab := { Fabric.reset with streams := [{ (default : TStream) with peer := 1, next := 8, out := [frame 1 0 5, frame 1 0 6, frame 1 0 7] }] } }
def reply3 : Frame := { frame 0 1 5 with cls := 3, reply := some (0x1234, some memo7) }
def sReply : State :=
  { sFrame with fab := { sFrame.fab with inStreams := [{ (default : TStream) with peer := 1, cls := 3, next := 5 }], gets := [(1, 0x1234)] } }
def sMark : State := upPort 3 (upPort 2 (three 64 .p6))
def sLend : State := obj { alone 64 .p6 with ledger := { (alone 64 .p6).ledger with cacheMap := List.replicate 4096 0 } } Obj.CACHE_LEND_GIB 1
def mark0 : Mark := { turn := 64, hops := 0, corr := 3 }
def mark3 : Mark := { mark0 with hops := 3 }
def rep3 : List (Nat × Nat × List Frame × Nat) := [(3, 0, [], 0x3FF)]
def rep4 : Nat × Nat × List Frame × Nat := (4, 1, [], 0x3FF)
def rep5 : List (Nat × Nat × List Frame × Nat) := [(5, 0, [], 0x3FF)]

def lead (s : State) : State := { s with ledger := { s.ledger with members := [0, 1, 2], holders := [0, 1, 2] } }
def reqMove : LedgerReq := { node := 1, body := .report .copyReady 5 0 }
def ep (n effect leader : Nat) (rs : List LedgerReq) : Epoch := { num := n, effect := effect, leader := leader, recs := rs }
def sForm : State := { lead (alone 9 .p6) with ledger := { (lead (alone 9 .p6)).ledger with reqs := [reqMove] } }
def sFormed : State := { lead (alone 9 .p6) with ledger := { (lead (alone 9 .p6)).ledger with forming := some (ep 4 11 0 [reqMove]) } }
def sApply (e : Epoch) : State := { three 9 .p4 with ledger := { (three 9 .p4).ledger with epochs := [e] } }
def sBeats (n standing : Nat) : State :=
  { three 9 .p6 with ledger := { (three 9 .p6).ledger with beats := n, standing := standing } }
def sUnknown : State := upPort 2 (obj (at' 9 .p6) Obj.SELFTEST_PASS 1)
def sSelf : State := { sUnknown with fab := { sUnknown.fab with memberPorts := [2] } }
def sEscalated : State := { at' 9 .p6 with turn := { TurnSt.reset with no := 9, escalated := true } }
def sGoneOut : State := { sSelf with turn := { sSelf.turn with withdrawn := true } }
/-- Barrier slot 3 of this node: tiles 0 and 127, and the node mask of `ns`. -/
def sBar (b : BSlot) (mask : List Byte) (mc : Nat) : State :=
  let s := obj (obj (obj (three 9 .p6) (Obj.bslot_TILE_MASK_LO 3) 1) (Obj.bslot_TILE_MASK_HI 3) (2 ^ 63)) (Obj.bslot_MC_MEMBER 3) mc
  { s with bslots := [(3, b)], dict := { s.dict with doms := [(Obj.bslot_NODE_MASK 3, mask)] } }
def bar (st : Nat) (tiles : List Nat) : BSlot := { BSlot.reset with gen := 2 ^ 32 - 1, state := st, tiles := tiles, timer := st == bsGathering }
def epForm : Epoch := ep 4 11 0 [reqMove]
def epStore : Epoch := ep 4 11 1 [reqMove]
def epMove : Epoch := ep 4 10 1 [reqMove]
def recPeriod : LedgerReq := ⟨1, .period 64 20⟩
def epPeriod : Epoch := ep 4 10 1 [recPeriod]
def recHolders : LedgerReq := ⟨1, .holders [0, 2] 2 7⟩
def epHolders : Epoch := ep 4 10 1 [recHolders]

def msg (idx sub : Nat) (txn : Bool) (data : List Byte) : DictMsg :=
  { ver := 1, cmd := 0, tag := 7, index := idx, sub := sub, txn := txn, resp := false, len := data.length, offset := 0, data := data }
def inReq (n : Nat) (f : Requester → Requester) (s : State) : State := onReq s n f
def openTxn (s : State) : State := inReq 1 (fun q => { q with isOpen := true, staged := [(Obj.HEAT_SHIFT, [4])], beginTurn := 1, state := 1 }) s
def sCommit (ws : List (Nat × List Byte)) : State :=
  { at' 9 .p4 with dict := { up.dict with commits := [{ req := 1, writes := ws, due := 10, shown := true }] } }
def sOldTxn : State := openTxn (at' 65536 .p3)
def readIt : DictMsg := { msg 0x1000 8 false [] with cmd := 1 }
def readResp : DictResp := { (default : DictResp) with cmd := 1, tag := 7 }
def sRepeat : State := inReq 1 (fun q => { q with last := some (cutMsg 1 readIt, 0, readResp) }) (at' 9 .p6)
def segR : Seg := { write := false, addr := 0x8000 * 256 + 2, size := 8, content := [1, 2, 3, 4, 5, 6, 7, 8], sent := 0, source := 0, txn := false, deadline := 20 }
def segW (c : List Byte) : Seg := { segR with write := true, addr := 0x7810 * 256 + 2, content := c, sent := c.length }
def inSeg (g : Seg) : State := inReq 1 (fun q => { q with seg := some g }) (at' 9 .p6)
def withOff (m : DictMsg) (o : Nat) : DictMsg := { m with offset := o }
def frameFn (ok : Bool) : FnFrame := { dst := 2 ^ 48 - 1, src := 5, ethertype := 0x88B5, vlan := false, fcsOk := ok, msg := readIt }
def sGo : State := { at' 9 .p6 with dict := { up.dict with mb := { Mailbox.reset with request := ((leBytes 16 1).zipIdx.filter (·.1 != 0)).map fun p => (p.2, p.1.toNat) } } }
def goOut : State × DictResp := match serve sGo 1 0 false (mailboxMsg sGo.dict.mb) with | (u, some r) => (u, r) | (u, none) => (u, default)
def doeOut : State × DictResp := match serve (at' 9 .p6) 2 0 false readIt with | (u, some r) => (u, r) | (u, none) => (u, default)
def sSegLate : State := { inSeg { segR with deadline := 10 } with turn := { TurnSt.reset with no := 9, phase := .p3 } }
def rowOr (a : Nat) : ObjRow := (rowAt a).getD ⟨0, 0, 0, 0, false, .bool, .ro, 0, .any⟩
def rowM : ObjRow := rowOr (0x4100 * 256 + 4)
def rowH : ObjRow := rowOr Obj.HEAT_SHIFT
def rowN : ObjRow := rowOr (0x7810 * 256 + 2)
def METRIC0 : Nat := 0x4100 * 256 + 4
def wMetric : List (Nat × List Byte) := [(METRIC0, [1])]
def wHeat : List (Nat × List Byte) := [(Obj.HEAT_SHIFT, [13])]
def heat12 : List (Nat × List Byte) := [(Obj.HEAT_SHIFT, [12])]
def jobOf (ws : List (Nat × List Byte)) : CommitJob := { req := 1, writes := ws, due := 10, shown := true }
def sColl0 : State := setColl (at' 9 .p6) 0 running1
def sRefused : State := setColl (sCommit wMetric) 0 running1
def sTxn : State := openTxn (at' 9 .p6)
def sSegR : State := inSeg segR
def segHalf : Seg := segW [1, 2, 3, 4]
def segAll : Seg := segW [1, 2, 3, 4, 0, 0, 0, 0]
def mNone : DictMsg := msg 0x4FFF 255 false []
def mNone1 : DictMsg := msg 0x4FFF 255 false [1]
def mMetric3 : DictMsg := msg 0x4100 4 false [3]
def mMetric9 : DictMsg := msg 0x4100 4 false [9]
def mHeat : DictMsg := msg 0x5000 1 true [200]
def mTxn : DictMsg := msg 0 0 false []
def mInit : DictMsg := msg 0x7810 2 false (leBytes 8 8)
def mTag : DictMsg := msg 0x8000 2 false []
def mRead4 : DictMsg := withOff (msg 0x8000 2 false (leBytes 4 4)) 4
def mRead0 : DictMsg := withOff (msg 0x8000 2 false (leBytes 4 4)) 0
def mWrite4 : DictMsg := withOff (msg 0x7810 2 false [5, 6, 7, 8]) 4
def mWrite8 : DictMsg := withOff (msg 0x7810 2 false [5, 6, 7, 8]) 8
def mEndBad : DictMsg := msg 0x7810 2 false [5, 6, 7, 8]
def mEnd : DictMsg := msg 0x7810 2 false (leBytes 4 (crc32c [1, 2, 3, 4, 0, 0, 0, 0]))

def tagged (s : State) : State := { s with dict := { s.dict with doms := [(Obj.TENANT_TAG, [9, 8, 7])] } }
def sBind (n : Nat) : State := { tagged (at' 9 .p5) with sec := { Sec.reset with bindDue := n } }
def sDiag : State := { at' 9 .p5 with sec := { Sec.reset with diagDue := 9 } }
def sSwitch (n : Nat) (p : Phase) : State := { qu 3 qRing (inColl running1 (at' n p)) with sec := { Sec.reset with switchDue := 9 }, nv := { NonVol.reset with tenant := 1, tag := List.replicate 32 3, nonce := [1] } }
def sScrub (d : Option Nat) : State := { at' 12 .p5 with sec := { Sec.reset with scrubbing := true, scrubDone := d }, nv := { NonVol.reset with tenant := 2 } }
def sStaged : State := { at' 9 .p6 with sec := { Sec.reset with staged := 1 } }
def sess (l : Option Nat) : State := { at' 9 .p6 with host := { HostIf.reset with session := some { keys := [1], lastSeq := l, mySeq := 4 } } }
def ideOn : State := { at' 9 .p6 with host := { HostIf.reset with ide := [0, 0, 2, 0] } }
def sTile (k : Nat) : State :=
  { at' 9 .p3 with turn := { TurnSt.reset with no := 9, phase := .p3, cur := [{ Board.empty with loans := [⟨5, .scanner⟩] }, Board.empty], unmet := [(.scanner, 1)],
                                               trips := List.replicate k ⟨levelTile, 5, 8⟩ } }
def sEng (k : Nat) : State := { at' 9 .p2 with turn := { TurnSt.reset with no := 9, phase := .p2, unmet := [(.composer, 2)], trips := List.replicate k ⟨levelEngine, 3, 8⟩ } }
def sLoop : State := { at' 9 .p6 with turn := { TurnSt.reset with no := 9, repeats := 300 } }
def sMcDown : State := { up with ras := { Ras.reset with mcDown := true } }
def sNoStore : State := { three 9 .p6 with ledger := { (three 9 .p6).ledger with noStore := 2, stored := [ep 1 2 1 []] } }
def quar : ListCopy := { listAt key1 with quarantined := true, bad := [1] }
def sQuar : State := { sComp quar with ledger := { (three 9 .p6).ledger with lists := [(key1, [⟨0, .quarantined, 0, never⟩])] } }
def sTblOk : State := sTbl tbl
def die0 : Die := { (default : Die) with num := 4, retired := [1] }
def sDie : State := { at' 9 .p6 with flash := { Flash.reset with dies := [die0], maps := [((4, 6), 60)] } }
def sSweep (left done : Nat) : State := { at' 9 .p6 with ras := { Ras.reset with sweep := some (8, 1, left), sweepPts := [(64 * 5 + 6, done)] } }
def sess7 : Session := { keys := [1], lastSeq := some 7, mySeq := 4 }
def sess0 : Session := { sess7 with lastSeq := none }

def sStep (n : Nat) : State := { State.reset with clk := { Clk.reset with bootStage := n } }
def sFmc (bad : Bool) : State := { up with clk := { up.clk with fmcRun := true, fmcBad := bad } }
def sPcieBad : State := { up with clk := { up.clk with pairBad := [(0, 1)] } }
def sPorLow : State := { up with clk := { up.clk with porLow := true }, nv := { NonVol.reset with tenant := 1, nonce := [3] } }
def sFw : State := { sStep 2 with nv := { NonVol.reset with minSvn := 4 } }
def sReady : State := { sStep 7 with clk := { Clk.reset with bootStage := 7, stepDone := true, readyDue := 9 }, turn := { TurnSt.reset with no := 9, phase := .p5 }, nv := { NonVol.reset with tenant := 2, scrubPending := true } }
def sRetained : State := { three 65535 .p6 with nv := { NonVol.reset with retained := [(1, [], [])] } }
def sDropsRead := { up with host := {HostIf.reset with bar2Drops := 4, fetchErrors := 3} }
def sBound := { at' 9 .p6 with nv := {NonVol.reset with tenant := 1} }
def qOn := { qEvent with enableDue := 0 }
def imgBad := { img1 with layers := [layBad] }
def imgRan := { img1 with ranAt := 10 }
def imgFreeing := { img1 with freeing := true }
def imgPending := { img1 with layers := [layPend] }
def stopped1 := { Coll.reset with life := 1 }
def routeYellow := { routeQ with colour := .yellow }
def ranDone := { ranU with cands := [{ cand 0 with done := true }] }
def ranWaiting := { ranU with cands := [cand 0] }
def ranRanked := { ranU with ranked := true }
def ranError := { ranU with error := true }
def mergeError := { mergeQ with error := true }
def mergeShort := { mergeQ with lists := [pl 0 []], timedOut := true, unheld := true }
def cmdFar := { rc .nop 1 2 3 with theta := 128 }
def wrNoId := { wr .insert with noid := true }
def wrGone := { wr .delete with ready := true }
def portLast := { Port.reset with rxSeq := 4095 }
def flitBad := { flit 3 with fec := 3 }
def flitIdle := { flit 3 with ty := 5 }
def flitAck := { flit 3 with ty := 5, ack := 5 }
def flitNak := { flit 3 with ty := 2 }
def flitPing := { flit 3 with ty := 3 }
def flitPong := { flit 3 with ty := 4 }
def sOddTurn := { sPort portSent with turn := { TurnSt.reset with no := 65 } }
def frameBad := { frame 0 1 5 with good := false }
def frameAlien := { frame 0 1 5 with part := 3 }
def stIn := { (default : TStream) with peer := 1, next := 5 }
def stOut := { (default : TStream) with peer := 1, next := 8, out := [frame 1 0 5, frame 1 0 6, frame 1 0 7] }
def barMc := { bar bsGathering [] with mc := true }
def stall (s : State) : State := { s with turn := { s.turn with seqMissed := [(0, s.turn.no)] } }
def sWidenStall : State := stall sWiden
def widenYellow := { widenQ with colour := .yellow }
def sWidenYellow : State := sNotPlaced { sWiden with queries := [widenYellow] }
/-- A copy of the list with the first record of its log still to come. -/
def sScanLog : State := { sScan 7 with place := { Place.reset with jobs := [{ job 1 0 with start := 5, w := 9, logThrough := 5 }] } }
def sNoTiles (s : State) : State := { s with turn := { s.turn with cur := [] } }
/-- The operation that a read must suspend has been suspended 8 times. -/
def sSuspended (r : WayReq) : State :=
  let s := sWay r
  { s with way := { s.way with suspends := [((dieNum s 2 (addrDie r.loc)).getD 4096, 5, 8)] } }
def sDead := { up with clk := { Clk.reset with powered := false } }
def sGoBusy := { sGo with dict := { sGo.dict with mb := { Mailbox.reset with busy := true } } }
def segLate := { segR with deadline := 10 }
def sSegWait := { inSeg segR with turn := sSegLate.turn }
def reloading := { running1 with centLoading := true }
def sScrubPending := { sStep 6 with nv := { NonVol.reset with scrubPending := true } }


/-! ### Ill-formed commands, one for each check -/

theorem test_wellFormed_refuses :
    [Instr.plannerBoardWrite 2 Board.empty, .registerWrite 0 8 (2 ^ 64) true, .bar2WindowBaseWrite (2 ^ 64), .queueEnable 16384,
     .queueDisable 16384, .queueEnableApply 16384, .queueDisableApply 16384, .queueTallyPublish 16384, .doorbellWrite 16384 8 0 0 true,
     .entryFetchComplete 16384 0 .failed .failed, .readAhead 16384 0, .tableLoad 64, .groupPromotionComplete 64 0, .imageLoad 16,
     .precisionChange 16 0, .imgLoad 4096, .edgeRewriteComplete 4096 0, .candidateRequest 32 (some 0), .and .host ⟨8, 0, 0⟩ (rc .and 0 0 0),
     .or .host ⟨0, 64, 0⟩ (rc .or 0 0 0), .count .host ⟨0, 0, 16⟩ (rc .count 0 0 0) none, .stackBandChange 8 50, .directoryOrdering 4096 0 0,
     .directoryOrdering 0 256 0, .rangeDrainComplete 16, .nextOwnerWrite 256 0, .dataFlit 16 (flit 0), .arrive 64 0, .arrive 0 128,
     .clear 64, .read 4 mNone, .ideIntegrityFailure 4, .tileWatchdog 128 [], .stageEngineWatchdog 8 .router [],
     .turnSequencerWatchdog 2 0, .sweepStep 8 0 [], .sweepStep 0 64 []].all (fun i => !i.wellFormed) = true := by decide

theorem test_wellFormed_takes :
    [Instr.plannerBoardWrite 1 Board.empty, .queueEnable 16383, .tableLoad 63, .imageLoad 15, .imgLoad 4095, .candidateRequest 31 none,
     .and .host ⟨7, 63, 15⟩ (rc .and 0 0 0), .nextOwnerWrite 255 0, .dataFlit 15 (flit 0), .arrive 63 127, .read 3 mNone, .workCutoff].all
      (·.wellFormed) = true := by decide

/-! ### The manual's worked examples -/

def after (c : Instr) (s : State) : State := match exec c s with | .next t => t | .fault _ => s | .refused _ => s

/-- Chapter 03: a limit of 990 + 256 cuts a doorbell of 1,300 to 1,246; 1,000 is accepted. -/
def hub : State := qu 40 { Queue.reset with enabled := true, log2 := 8, devTally := 990, hostTally := 1000, work := 990 } (at' 9001 .p6)
theorem test_doorbell_clamps : (getQ (after (.doorbellWrite 40 8 1300 2000 true) hub) 40).hostTally = 1246 := by decide
theorem test_doorbell_accepts : (getQ (after (.doorbellWrite 40 8 1010 2000 true) hub) 40).hostTally = 1010 := by decide

/-- Table 4.8: the meter of queue 120, CIR 384, PIR 640, CBS 4 and PBS 6, from empty buckets. -/
def scanner (tc tp : Nat) : State :=
  let m := subMeter 120
  let s := obj (obj (obj (obj (obj up m 1) (m + 1) 384) (m + 2) 640) (m + 3) 4) (m + 4) 6
  { s with adm := { s.adm with buckets := [(m, { tc := tc, tp := tp })] } }
theorem test_meter_address : subMeter 120 = 0x3A07 * 256 + 0x81 := by decide
theorem test_meter_full : bucketOf { scanner 0 0 with adm := Adm.reset } (subMeter 120) = { tc := 1024, tp := 1536 } := by decide
theorem test_meter_refills :
    (refillMeters (scanner 0 0)).adm.buckets = [(subMeter 120, { tc := 384, tp := 640 })] ∧
    (refillMeters (scanner 0 256)).adm.buckets = [(subMeter 120, { tc := 384, tp := 896 })] := by decide
/-- Turn 2,001: one green, one yellow, then red. -/
theorem test_meter_colours :
    mark (scanner 384 640) (subMeter 120) .green = .green ∧
    (debit (scanner 384 640) (subMeter 120) .green).adm.buckets = [(subMeter 120, { tc := 128, tp := 384 })] ∧
    mark (scanner 128 384) (subMeter 120) .green = .yellow ∧
    (debit (scanner 128 384) (subMeter 120) .yellow).adm.buckets = [(subMeter 120, { tc := 128, tp := 128 })] ∧
    mark (scanner 128 128) (subMeter 120) .green = .red := by decide

/-- Chapter 04: at turn 3,004,090 the second entry of the administrative list is in force. -/
theorem test_gate_list :
    gatesAt 3004090 3000000 [0x07FF + 4080 * 2 ^ 16, 0x0FFF + 16 * 2 ^ 16] = 0x0FFF ∧
    gatesAt 3004079 3000000 [0x07FF + 4080 * 2 ^ 16, 0x0FFF + 16 * 2 ^ 16] = 0x07FF := by decide

/-- Chapter 05: the look-up record 0x3800_0143_0001_2C40. -/
theorem test_lookup_record :
    parseRecords (leBytes 8 0x3800014300012C40) = [{ channel := 5, table := 3, index := 0x12C40, weight := 0x3800 }] := by decide

def sixteenths (n : Int) : Flt := .fin (decide (n < 0)) n.natAbs (-4)
/-- Table 7.2: ties in both modes. -/
theorem test_ties :
    (convInt8 .even (sixteenths 40)).1 = 2 ∧ (convInt8 .away (sixteenths 40)).1 = 3 ∧ (convInt8 .even (sixteenths (-40))).1 = -2 ∧
    (convInt8 .away (sixteenths (-40))).1 = -3 ∧ (convInt8 .even (sixteenths 56)).1 = 4 ∧ (convInt8 .away (sixteenths 56)).1 = 4 ∧
    e4m3Bits (convFlt fE4M3 .even (sixteenths 17)).1 = 0x38 ∧ e4m3Bits (convFlt fE4M3 .away (sixteenths 17)).1 = 0x39 ∧
    e4m3Bits (convFlt fE4M3 .even (fnat 460)).1 = 0x7E ∧ (convFlt fE4M3 .even (fnat 460)).2 = true := by decide

/-- Table 7.5 in units of 2^-13: 1.2 and 0.9 lie between two of them, which changes no code. -/
def drift13 : List Flt := [9830, 3520, -3520, 7373, -8602, 0, 2048, -4928].map fun (n : Int) => .fin (decide (n < 0)) n.natAbs (-13)
theorem test_aqnil_block :
    aqnilBlock .even 7 (.fin false 1 (-10)) (drift13 ++ List.replicate 24 f0)
      = ([7, 2, -2, 5, -6, 0, 1, -4] ++ List.replicate 24 0, 0x73, 0) ∧
    (aqnilBlock .away 7 (.fin false 1 (-10)) (drift13 ++ List.replicate 24 f0)).1.take 8 = [7, 3, -3, 5, -6, 0, 1, -4] := by decide

/-- Table 10.9: the XOR and SELECT words. -/
theorem test_row_command_words :
    parseCmd (leBytes 16 (0xF2017FF0015E0003 + 0x17F * 2 ^ 64)) =
      { op := .xor, rowA := 0x15E00, rowB := 0x17FF0, rowD := 0x17FF2, width := 0, filter := false, vis := false, half := 0, sq := 0,
        nvalid := 0, rslot := 1, theta := 0 } ∧
    parseCmd (leBytes 16 (0x02015E01017FF20A + 0x00000140300D015E * 2 ^ 64)) =
      { op := .select, rowA := 0x17FF2, rowB := 0x15E01, rowD := 0x15E02, width := 1, filter := true, vis := true, half := 0, sq := 0,
        nvalid := 32, rslot := 1, theta := 40 } := by decide
/-- Chapter 10: W0 of bank 3, group 5, stack 2 lies at 0xBF_F821_4C00. -/
theorem test_row_address : rowAddr ⟨2, 5, 3⟩ 0x17FF0 = 0xBFF8214C00 ∧ bankAt 0xBFF8214C00 = ⟨2, 5, 3⟩ ∧ rowNo 0xBFF8214C00 = 0x17FF0 := by decide

/-- Chapter 11: an INT8 element of code -128 and scale 0.015625 decodes to -2, and its product with 0.75 is -1.5. -/
theorem test_decode_record :
    (decodeRecord .int8 1 (0x80#8 :: leBytes 4 0x3C800000)).map (fun x => decide (x = fneg (fnat 2))) = [true] ∧
    f32Bits (fmul (.fin false 3 (-2)) (fneg (fnat 2))) = 0xBFC00000 := by decide +kernel

/-- Chapter 12: the merge of the example costs 347 steps; Table 12.3 at k = 10, 1,000 and 16,384. -/
theorem test_merge_steps : (bazaarSteps [4, 0, 3, 2] 10).1 = 347 := by decide
theorem test_select_steps :
    selectSteps 40 10 = 194 ∧ selectSteps 400 100 = 1964 ∧ selectSteps 4000 1000 = 25064 ∧ selectSteps 8192 16384 = 61504 ∧
    (bazaarSteps (List.replicate 32 10) 10).1 = 2742 ∧ (bazaarSteps (List.replicate 32 8192) 65536).1 = 1252992 := by decide +kernel

/-- Chapter 13: the ID 0x0000_0042_0000_1001 belongs to shard 0x53. -/
theorem test_id_shard : idShard 0x0000004200001001#64 = 0x53 := by decide

/-- Chapter 15: bank 0x47 starts at 0x1_1C00_0000 and is owned at reset by quarter 2, whose engines it accepts. -/
theorem test_scratch_bank :
    scrBankOf 0x11C000000 = 0x47 ∧ (ScrBank.reset 0x47).owner = 2 ∧ ownerTakes 2 0x57 = true ∧ ownerTakes 0x56 0x57 = false := by decide
/-- The Compactor's ADD64 of 1 to a word that holds 41 returns 41 and leaves 42. -/
def bank47 : State :=
  { at' 50001 .p6 with scratch := { State.reset.scratch with cells := writeBytes [] 0x11C000000 [41], banks := [(0x47, { ScrBank.reset 0x47 with owner := 0x56 })] } }
theorem test_add64 :
    (after (.add64 0x11C000000 1 0x56 1 none) bank47).out = [.scratchData (leBytes 8 41)] ∧
    readBytes (after (.add64 0x11C000000 1 0x56 1 none) bank47).scratch.cells 0x11C000000 8 = leBytes 8 42 := by decide
/-- A write of code 0x57 once 0x56 owns the bank is dropped. -/
theorem test_scratch_drop :
    (getScr (after (.scratchWrite 0x11C000000 [1] 0x57 0) bank47) 0x47).wdrops = 1 ∧
    (getScr (after (.scratchWrite 0x11C000000 [1] 0x57 0) bank47) 0x47).lastReq = 0x57 := by decide

/-- Chapter 16: the media address 0x0000_091A_2867_1200 names logical page 0x1_2345 on target 3 of FC7. -/
theorem test_media_address : addrChan 0x0000091A28671200 = 7 ∧ addrDie 0x0000091A28671200 = 3 ∧ addrLpn 0x0000091A28671200 = 0x12345 := by decide

/-- Chapter 17: a key in another lender's slot is asked for in t0; the reply is kept and answers from the next boundary on. -/
def asks : State := { three 64 .p6 with ledger := { (three 64 .p6).ledger with cacheMap := List.replicate 256 1 }, fab := sReply.fab }
theorem test_memo_asks :
    (memoLookup (upPort 2 { asks with fab := { asks.fab with gets := [], route := [(1, 2, 16)] } }) 0x1234).1.fab.gets = [(1, 0x1234)] ∧
    (after (.frameReceive reply3) sReply).fab.kept = [(65, { key := 0x1234, value := memo7 })] ∧
    (after (.frameReceive reply3) sReply).fab.gets = [] := by decide

/-- Chapter 19: the WRITE of GATE_TAKEOVER_TURN with TAG 0x0018 and TXN = 1. -/
theorem test_message_bytes :
    parseMsg 1024 ([0x01, 0x02, 0x18, 0x00, 0x00, 0x38, 0x03, 0x01, 0x08, 0, 0, 0, 0, 0, 0, 0, 0xC0, 0xC6, 0x2D, 0, 0, 0, 0, 0].map (BitVec.ofNat 8))
      = { ver := 1, cmd := 2, tag := 0x18, index := 0x3800, sub := 3, txn := true, resp := false, len := 8, offset := 0,
          data := leBytes 8 3000000 } := by decide

/-- Chapter 23: DJ is row 89 and BE row 45; no row has the letter I; BE45, BE1 and A45 carry no ball. -/
theorem test_ball_grid :
    rowIndex ['D', 'J'] = 89 ∧ rowIndex ['B', 'E'] = 45 ∧ rowIndex ['A'] = 1 ∧ rowIndex ['A', 'K'] = 30 ∧ rowIndex ['I'] = 0 ∧
    rowIndex ['D', 'K'] = 0 ∧ hasBall 89 89 = true ∧ hasBall 45 45 = false ∧ hasBall 45 1 = false ∧ hasBall 1 45 = false ∧
    ballHalf 44 = 0 ∧ ballHalf 46 = 1 := by decide

/-- Chapter 22: a count of 113,246,208 of ARITH against XTAL with G = 20 reads 2,700 MHz. -/
def fmcArith : State := { up with clk := { up.clk with fmcRun := true, fmcSel := (0, 4, 20) } }
theorem test_fmc :
    getObj (after (.fmcGateEnd 113246208) fmcArith) Obj.FMC_MHZ = 0x4528C000 ∧
    getObj (after (.fmcGateEnd 113246208) fmcArith) Obj.FMC_COUNT = 113246208 := by decide
/-- REFCLK_FAB stopped: it has disagreed twice with OSC and once with XTAL, and OSC agrees with XTAL; DETAIL 0x4008. -/
def fabBad : State := { at' 400000 .p6 with clk := { up.clk with pairBad := [(1, 1), (3, 2)] } }
theorem test_clock_loss :
    (after (.clockMonitorWindow (.xtal 4096 100)) fabBad).nv.errorLog = [(0, { code := 0x0001, turn := 400000, detail := 0x4008 })] := by decide

/-- R432: the epoch that a waiting node is sent does not admit it; it posts event 0x5006 with the leader and stays outside. -/
def sWaiting : State := { at' 9 .p4 with ledger := { Ledger.reset with joinSent := true } }
theorem test_join_refused :
    (countEpoch sWaiting (ep 4 11 1 [])).nv.errorLog = [(0, { code := 0x5006, turn := 9, detail := 1 })] ∧
    (countEpoch sWaiting (ep 4 11 1 [])).ledger.joinSent = false ∧ isMember (countEpoch sWaiting (ep 4 11 1 [])) = false := by decide

/-- CRC-32C of the nine digits is 0xE306_9283, the check value of the code that R427 names. -/
theorem test_crc32c : crc32c (ascii "123456789") = 0xE3069283 := by decide +kernel

/-! ### Commands that come at the wrong time, and the queue -/

theorem test_queue_order :
    step { at' 9 .p4 with pending := [.turnNoIncrement, .workCutoff] } = exec .turnNoIncrement { at' 9 .p4 with pending := [.workCutoff] } := rfl
theorem test_idle : step up = .next up := rfl
/-- R26: TURN_NO wraps at 2^48. -/
theorem test_turn_wraps : (after .turnNoIncrement (at' (2 ^ 48 - 1) .p4)).turn.no = 0 := by decide

/-! ### A state and operands that meet the hypotheses of each statement -/

def sQueued : State := { at' 9 .p4 with pending := [.turnNoIncrement] }
theorem wit_StepRunsFrontCommand : sQueued.pending = [.turnNoIncrement] ∧ up.pending = [] := by decide
theorem wit_CommandsWriteOnlyTheirFootprint :
    exec .pcieLinkDown (linked 9 .p6) = .next { linked 9 .p6 with host := { (linked 9 .p6).host with linkUp := false } } := rfl
theorem wit_StepKeepsInvariant : Inv sQueued ∧ ∃ t, step sQueued = .next t ∧ t.turn.no = 10 :=
  ⟨⟨by decide, by decide, by decide, by decide⟩, _, rfl, by decide⟩
theorem wit_OnlyTheseMoveTurnAndTenant :
    (∃ t, exec .turnNoIncrement (at' 9 .p4) = .next t ∧ t.turn.no ≠ 9 ∧ t.turn.phase ≠ .p4) ∧
    (∃ t, exec (.bind [1]) (sBind 9) = .next t ∧ t.nv.tenant ≠ (sBind 9).nv.tenant) ∧
    (∃ t, exec (.ideIntegrityFailure 2) ideOn = .next t ∧ t.host.ide ≠ ideOn.host.ide) :=
  ⟨⟨_, rfl, by decide, by decide⟩, ⟨_, rfl, by decide⟩, _, rfl, by decide⟩
theorem wit_OnlyTheseWriteMemory :
    (∃ t, exec (.bar2Write 20 [1] false false) region = .next t ∧ ∃ a, byteAt t.smem.cells a ≠ byteAt region.smem.cells a) ∧
    (∃ t, exec (.scratchWrite 64 [1] 0x47 0) scr0 = .next t ∧ ∃ a, byteAt t.scratch.cells a ≠ byteAt scr0.scratch.cells a) :=
  ⟨⟨_, rfl, 20, by decide⟩, _, rfl, 64, by decide⟩
theorem leNat_append (a x : List Byte) : leNat (a ++ x) = leNat a + 2 ^ (8 * a.length) * leNat x := by
  induction a with
  | nil => simp [leNat]
  | cons b bs ih =>
    have : 2 ^ (8 * (b :: bs).length) = 256 * 2 ^ (8 * bs.length) := by
      rw [List.length_cons, Nat.mul_add, Nat.pow_add, Nat.mul_comm]
    rw [List.cons_append, leNat, ih, leNat, this, Nat.mul_add, Nat.mul_assoc, Nat.add_assoc]

/-- A field that lies within the first bytes depends on them alone. -/
theorem bits_low (a x : List Byte) (lo w : Nat) (h : lo + w ≤ 8 * a.length) :
    bitsOf (leNat (a ++ x)) lo w = bitsOf (leNat a) lo w := by
  have e : 8 * a.length = (lo + w) + (8 * a.length - (lo + w)) := by omega
  simp only [bitsOf, Nat.shiftRight_eq_div_pow]
  rw [← Nat.mod_mul_right_div_self, ← Nat.mod_mul_right_div_self (leNat a), leNat_append, ← Nat.pow_add, e, Nat.pow_add,
    Nat.mul_assoc, Nat.add_mul_mod_self_left]

theorem keccakRound_length (a : List Nat) (rc : Nat) : (keccakRound a rc).length = 25 := by
  unfold keccakRound
  simp only []
  split
  · rename_i h; simpa using congrArg List.length h
  · rename_i h; simpa using (congrArg List.length h).symm

theorem rounds_length (rcs : List Nat) (a : List Nat) (h : a.length = 25) : (rcs.foldl keccakRound a).length = 25 := by
  induction rcs generalizing a with
  | nil => exact h
  | cons r rs ih => exact ih _ (keccakRound_length a r)

theorem keccakF_length (a : List Nat) : (keccakF a).length = 25 := by
  unfold keccakF
  match keccakRc, (by decide : keccakRc ≠ []) with
  | r :: rs, _ => exact rounds_length rs _ (keccakRound_length a r)

theorem absorb_length (n : Nat) (st : List Nat) (b : List Byte) (h : st.length = 25) : (absorb n st b).length = 25 := by
  induction n generalizing st b with
  | zero => exact h
  | succ n ih =>
    refine ih _ _ ?_
    exact keccakF_length _

theorem leBytes_length (n v : Nat) : (leBytes n v).length = n := by
  induction n generalizing v with
  | zero => rfl
  | succ n ih => simp [leBytes, ih]

theorem lanes_length (st : List Nat) : (st.flatMap (leBytes 8)).length = 8 * st.length := by
  induction st with
  | nil => rfl
  | cons a st ih => simp [leBytes_length, ih]; omega

/-- A digest has 32 bytes. -/
theorem digest_length (m : List Byte) : (digest m).length = 32 := by
  unfold digest shake256
  simp only [squeeze, Nat.reduceDiv, Nat.reduceAdd, List.append_nil, List.length_take, lanes_length]
  rw [absorb_length _ _ _ (by simp)]
  rfl

theorem sealed_digest (head tail : List Byte) (n : Nat) (h : head.length = n) :
    digest ((sealed head tail).take n ++ List.replicate 32 0 ++ (sealed head tail).drop (n + 32))
      = slice (sealed head tail) n 32 := by
  subst h
  have d := digest_length (head ++ (List.replicate 32 0 ++ tail))
  unfold sealed slice
  obtain ⟨x, hx⟩ : ∃ x, x = digest (head ++ (List.replicate 32 0 ++ tail)) := ⟨_, rfl⟩
  rw [← hx] at d ⊢
  have a : (head ++ (x ++ tail)).drop head.length = x ++ tail := List.drop_left
  have b : (head ++ (x ++ tail)).drop (head.length + 32) = tail := by rw [← List.drop_drop, a, ← d, List.drop_left]
  have c : (x ++ tail).take 32 = x := by rw [← d, List.take_left]
  rw [a, b, List.take_left, c, hx, List.append_assoc]

theorem head_fields (head tail : List Byte) (n k lo w : Nat) (hl : head.length = n) (hn : n ≤ k) (h : lo + w ≤ 8 * n) :
    bitsOf (leNat ((sealed head tail).take k)) lo w = bitsOf (leNat head) lo w := by
  subst hl
  unfold sealed
  rw [List.take_append, List.take_of_length_le hn]
  exact bits_low _ _ _ _ h

theorem sealed_length (head tail : List Byte) : (sealed head tail).length = head.length + 32 + tail.length := by
  simp [sealed, digest_length]; omega

theorem imageBytes_length : imageBytes.length = 320 := by
  rw [imageBytes, sealed_length, imgHead, imgTail, imgLayer, List.length_append, leBytes_length, leBytes_length, List.length_replicate]

theorem layer_slice : slice imageBytes 256 64 = imgLayer := by
  have l : (imgHead ++ digest (imgHead ++ (List.replicate 32 0 ++ imgTail)) ++ List.replicate 184 0).length = 256 := by
    rw [List.length_append, List.length_append, digest_length, imgHead, leBytes_length, List.length_replicate]
  have e : imageBytes = (imgHead ++ digest (imgHead ++ (List.replicate 32 0 ++ imgTail)) ++ List.replicate 184 0) ++ imgLayer := by
    simp only [imageBytes, sealed, imgTail, List.append_assoc]
  have n : imgLayer.length = 64 := leBytes_length 64 _
  rw [slice, e, ← l, List.drop_left, ← n, List.take_length]

theorem layer_nat : leNat imgLayer = layNat := by decide

theorem layer_bytes : (parseLayer imageBytes 256).wBytes = 64 ∧ (parseLayer imageBytes 256).altBytes = 0 := by
  unfold parseLayer
  rw [layer_slice, layer_nat]
  decide

theorem leNat_lt (a : List Byte) : leNat a < 2 ^ (8 * a.length) := by
  induction a with
  | nil => simp [leNat]
  | cons b bs ih =>
    have e : 2 ^ (8 * (b :: bs).length) = 256 * 2 ^ (8 * bs.length) := by
      rw [List.length_cons, Nat.mul_add, Nat.pow_add, Nat.mul_comm]
    have := b.isLt
    rw [leNat, e]
    omega

theorem leNat_zeros (n : Nat) : leNat (List.replicate n 0) = 0 := by
  induction n with
  | zero => rfl
  | succ n ih => rw [List.replicate_succ, leNat, ih]; rfl

/-- Past the bytes of `a` the field of `a` and zeros is zero. -/
theorem bits_zeros (a : List Byte) (n w : Nat) : bitsOf (leNat (a ++ List.replicate n 0)) (8 * a.length) w = 0 := by
  have h := leNat_lt a
  rw [leNat_append, leNat_zeros, Nat.mul_zero, Nat.add_zero, bitsOf, Nat.shiftRight_eq_div_pow, Nat.div_eq_of_lt h, Nat.zero_mod]

/-- The bytes of a sealed image after its digest, where they begin with zeros. -/
theorem sealed_zeros (head tail : List Byte) (n m k w : Nat) (hl : head.length = n) (ht : tail.take m = List.replicate m 0)
    (hk : k = n + 32 + m) : bitsOf (leNat ((sealed head tail).take k)) (8 * (n + 32)) w = 0 := by
  subst hl hk
  have d := digest_length (head ++ (List.replicate 32 0 ++ tail))
  have l : (head ++ digest (head ++ (List.replicate 32 0 ++ tail))).length = head.length + 32 := by rw [List.length_append, d]
  have e : (sealed head tail).take (head.length + 32 + m) =
      head ++ digest (head ++ (List.replicate 32 0 ++ tail)) ++ List.replicate m 0 := by
    rw [sealed, ← List.append_assoc, ← l, List.take_length_add_append, ht]
  rw [e, ← l]
  exact bits_zeros _ _ _

theorem image_read : parseImage imageBytes = .ok (0, imageRead) := by
  have hh : ∀ lo w, lo + w ≤ 320 → bitsOf (leNat (imageBytes.take 256)) lo w = bitsOf imgNat lo w := by
    intro lo w h
    have e : leNat imgHead = imgNat := by decide
    rw [← e]
    exact head_fields imgHead imgTail 40 256 lo w (by decide) (by decide) h
  have hz : bitsOf (leNat (imageBytes.take 256)) 576 1472 = 0 :=
    sealed_zeros imgHead imgTail 40 184 256 1472 (by decide)
      (by rw [imgTail]; exact List.take_left' List.length_replicate) rfl
  have ht : imageBytes.take 320 = imageBytes := List.take_of_length_le (Nat.le_of_eq imageBytes_length)
  have hd := sealed_digest imgHead imgTail 40 (by decide)
  have hs := layer_slice
  unfold parseImage
  simp only [hz]
  simp (disch := decide) only [hh]
  simp only [imgNat, bitsOf]
  simp [-List.reduceReplicate, ht, imageBytes_length]
  have hd' : digest (imageBytes.take 40 ++ (List.replicate 32 0#8 ++ imageBytes.drop 72)) = slice imageBytes 40 32 := by
    rw [← List.append_assoc]; exact hd
  have hl : leNat imgLayer = layNat := by decide
  have ok : ∀ f, layerOk 0 0 320 f [] layNat (parseLayer imageBytes 256) = true := by
    intro f
    unfold parseLayer
    rw [hs, hl]
    simp [layNat, bitsOf, layerOk]
  rw [if_pos hd', hs, hl, if_pos (ok _)]
  rfl

theorem collBytes_length : collBytes.length = 144 := by
  rw [collBytes, sealed_length, leBytes_length, List.length_replicate]

theorem coll_read (s : State) (m : getObj s (Obj.coll_METRIC 1) = 3) (b : sketchBitsOf s 1 = 128) :
    parseColl s 1 collBytes = .ok (collRead s) := by
  have hh : ∀ lo w, lo + w ≤ 448 → bitsOf (leNat (collBytes.take 128)) lo w = bitsOf collNat lo w := by
    intro lo w h
    have e : leNat (leBytes 56 collNat) = collNat := by decide
    rw [← e]
    exact head_fields (leBytes 56 collNat) (List.replicate 56 0) 56 128 lo w (leBytes_length _ _) (by decide) h
  have hz : bitsOf (leNat (collBytes.take 128)) 704 320 = 0 :=
    sealed_zeros (leBytes 56 collNat) (List.replicate 56 0) 56 40 128 320 (leBytes_length _ _) (by decide) rfl
  have ht : collBytes.take 144 = collBytes := List.take_of_length_le (Nat.le_of_eq collBytes_length)
  have hd := sealed_digest (leBytes 56 collNat) (List.replicate 56 0) 56 (leBytes_length _ _)
  have e1 : bitsOf (leNat (collBytes.take 128)) 40 8 = 3 := by rw [hh 40 8 (by decide)]; decide
  have e2 : bitsOf (leNat (collBytes.take 128)) 48 16 = 0 := by rw [hh 48 16 (by decide)]; decide
  have e3 : bitsOf (leNat (collBytes.take 128)) 64 16 = 0 := by rw [hh 64 16 (by decide)]; decide
  have e4 : bitsOf (leNat (collBytes.take 128)) 80 16 = 128 := by rw [hh 80 16 (by decide)]; decide
  have e5 : bitsOf (leNat (collBytes.take 128)) 96 32 = 1 := by rw [hh 96 32 (by decide)]; decide
  have e6 : bitsOf (leNat (collBytes.take 128)) 128 8 = 0 := by rw [hh 128 8 (by decide)]; decide
  have e7 : bitsOf (leNat (collBytes.take 128)) 136 8 = 0 := by rw [hh 136 8 (by decide)]; decide
  have e8 : bitsOf (leNat (collBytes.take 128)) 192 64 = 144 := by rw [hh 192 64 (by decide)]; decide
  have e9 : bitsOf (leNat (collBytes.take 128)) 256 64 = 128 := by rw [hh 256 64 (by decide)]; decide
  have e10 : bitsOf (leNat (collBytes.take 128)) 320 64 = 0 := by rw [hh 320 64 (by decide)]; decide
  have e11 : bitsOf (leNat (collBytes.take 128)) 384 64 = 0 := by rw [hh 384 64 (by decide)]; decide
  have e12 : bitsOf (leNat (collBytes.take 128)) 0 32 = 0x54484349 := by rw [hh 0 32 (by decide)]; decide
  have e13 : bitsOf (leNat (collBytes.take 128)) 32 8 = 1 := by rw [hh 32 8 (by decide)]; decide
  have e14 : bitsOf (leNat (collBytes.take 128)) 144 48 = 0 := by rw [hh 144 48 (by decide)]; decide
  unfold parseColl
  simp only [e8]
  simp only [e1, e2, e3, e4, e5, e6, e7, e9, e10, e11, e12, e13, e14, hz]
  simp only [ht, collBytes_length]
  rw [if_neg (by decide), if_neg (by decide), if_neg (fun h => h hd), if_neg (by decide), if_neg (by decide), if_neg (by decide),
    if_neg (by rw [m, b]; simp)]
  rfl

/-! The hypotheses that are too long to be written out clause by clause stand here. -/

/-- The turn's admission is under way. -/
def admitting (s : State) : State := { s with turn := { s.turn with admitted := true } }

theorem wit_AdmissionFollowsItsSteps :
    ((at' 9 .p6).turn.phase = .p6 ∧ (at' 9 .p6).turn.admitted = false ∧ takesEntries (admitting (at' 9 .p6)) = false) ∧
    (∀ s ∈ [sOffer, sOfferRun, sOfferShut, sOfferFull],
      s.turn.phase = .p6 ∧ s.turn.admitted = false ∧ takesEntries (admitting s) = true ∧ ringReach (admitting s) 3 = true ∧
      offerOrder (admitting s) = [3] ∧ (getQ s 3).ty = .query ∧ tallyDiff (getQ s 3).snapTally (getQ s 3).work = 1 ∧
      ((admitting s).host.fetched.find? fun f => f.q == 3 && f.tally == (getQ s 3).work) = some fetched ∧
      fetched.entry = some entry64 ∧ fetched.payload = some [] ∧ s.turn.withdrawn = false) ∧
    gateOpen (admitting sOfferShut) (gateClass (admitting sOfferShut) 1) = false ∧
    (gateOpen (admitting sOffer) (gateClass (admitting sOffer) 1) = true ∧ resultFree (admitting sOffer) (getQ sOffer 3) = true ∧
      (getColl (admitting sOffer) (parseQuery entry64).coll).life ≠ 2) ∧
    (∀ s ∈ [sOfferRun, sOfferFull],
      gateOpen (admitting s) (gateClass (admitting s) 1) = true ∧ resultFree (admitting s) (getQ s 3) = true ∧
      (getColl (admitting s) (parseQuery entry64).coll).life = 2 ∧ (queryColours (admitting s) 3 (parseQuery entry64).coll).2.2 = .green) ∧
    ((queryHalf (admitting sOfferRun) 3 (getQ sOfferRun 3) (parseQuery entry64)
        (queryPayload (admitting sOfferRun) (parseQuery entry64) entry64 (some [])) .green).isSome = true ∧
      (parseQuery entry64).filter = false) ∧
    queryHalf (admitting sOfferFull) 3 (getQ sOfferFull 3) (parseQuery entry64)
        (queryPayload (admitting sOfferFull) (parseQuery entry64) entry64 (some [])) .green = none := by decide +kernel

def frontRow (op : RowOp) (a b d : Nat) (run : Bool) : Bool :=
  let s := sHostRow (rc op a b d) run
  decide ((getBank s bk).queue.head? = some (clampCmd { rc .nop a b d with op := op })) &&
    canRun s bk (asExecuted s bk (clampCmd { rc .nop a b d with op := op }))

theorem wit_HostRowCommandsComplete :
    frontRow .and 0x17FF0 0x17FF1 0x17FF7 true = true ∧ frontRow .and 0x17FF0 0x17FF8 0x17FF2 true = true ∧
    frontRow .count 0x17FF0 0x17FF1 0x17FF2 true = true ∧ frontRow .and 0x17FF0 0x17FF1 0x17FF2 false = false := by
  decide +kernel

theorem except_ran (d : State) (x : Except Nat Ran) (h : (match x with | .ok _ => true | .error _ => false) = true) :
    x = .ok (ranOk d x) := by
  cases x with
  | ok p => rfl
  | error e => cases h

theorem except_error {α : Type} (n : Nat) (x : Except Nat α) (h : (match x with | .ok _ => false | .error e => e == n) = true) :
    x = .error n := by
  cases x with
  | ok p => cases h
  | error e => exact congrArg _ (by simpa using h)

theorem findRow_eq (i f j g : Nat) (l : List ObjRow) (h : ∀ r ∈ l, r.holds i f = r.holds j g) : findRow i f l = findRow j g l := by
  induction l with
  | nil => rfl
  | cons r rs ih =>
    rw [findRow, findRow, h r List.mem_cons_self, ih fun x hx => h x (List.mem_cons_of_mem _ hx)]

def apart (r : ObjRow) : Bool :=
  (decide (r.ilo ≤ 0x4E00) && decide (0x4EFF ≤ r.ihi) && r.blk) || decide (r.ihi < 0x4E00) || decide (0x4EFF < r.ilo)

/-- The slots that a collection names have one default. -/
theorem slot_default (c k : Nat) (hc : c < 4096) (hk : k = 6 ∨ k = 7) : objDefault ((0x4E00 + c / 16) * 256 + 16 * (c % 16) + k) = 255 := by
  have e : ((0x4E00 + c / 16) * 256 + 16 * (c % 16) + k) / 256 = 0x4E00 + c / 16 := by omega
  have m : ((0x4E00 + c / 16) * 256 + 16 * (c % 16) + k) % 256 = 16 * (c % 16) + k := by omega
  have n : (0x4E00 + c / 16) * 256 + 16 * (c % 16) + k ≠ 0x100009 := by omega
  rw [objDefault, if_neg n, rowAt, e, m, objRow, if_neg (by omega), if_neg (by omega)]
  have hl : objRowsAt (0x4E00 + c / 16) = objs05a ++ objs05b ++ objs06 := by
    unfold objRowsAt
    repeat' first | rw [if_neg (by omega)] | rw [if_pos (by omega)]
  have ha : ∀ r ∈ objs05a ++ objs05b ++ objs06, apart r = true := by decide
  rw [hl, findRow_eq _ _ 0x4E00 k _ fun r hr => ?_]
  · rcases hk with rfl | rfl <;> decide
  · have := ha r hr
    simp only [apart, Bool.or_eq_true, Bool.and_eq_true, decide_eq_true_eq] at this
    unfold ObjRow.holds
    have g : (16 * (c % 16) + k) % 16 = k % 16 := by omega
    rcases this with (⟨⟨a, b⟩, d⟩ | a) | a
    · have x1 : decide (r.ilo ≤ 0x4E00 + c / 16) = true := by simp; omega
      have x2 : decide (0x4E00 + c / 16 ≤ r.ihi) = true := by simp; omega
      have x3 : decide (r.ilo ≤ 0x4E00) = true := by simp; omega
      have x4 : decide (0x4E00 ≤ r.ihi) = true := by simp; omega
      simp only [d, if_true, g, x1, x2, x3, x4]
    · have x2 : decide (0x4E00 + c / 16 ≤ r.ihi) = false := by simp; omega
      have x4 : decide (0x4E00 ≤ r.ihi) = false := by simp; omega
      simp only [x2, x4, Bool.and_false, Bool.false_and]
    · have x1 : decide (r.ilo ≤ 0x4E00 + c / 16) = false := by simp; omega
      have x3 : decide (r.ilo ≤ 0x4E00) = false := by simp; omega
      simp only [x1, x3, Bool.false_and]

def sUnused : State := { at' 9 .p6 with images := [(2, img1)] }

theorem unused_slot : slotNamed sUnused 2 = false := by
  refine List.any_eq_false.2 fun c hc => ?_
  have h := List.mem_range.1 hc
  have x : getObj sUnused (Obj.coll_ENCODER_IMAGE c) = 255 := slot_default c 6 h (.inl rfl)
  have y : getObj sUnused (Obj.coll_RESCORER_IMAGE c) = 255 := slot_default c 7 h (.inr rfl)
  simp [x, y]

theorem wit_ImagesLoad :
    (slotState (at' 9 .p6) 2 = 0 ∨ slotState (at' 9 .p6) 2 = 3) ∧ slotState sLoading 2 = 1 ∧
    sourceReach sLoading (getObj sLoading (Obj.slot_SRC_LOC 2)) (getObj sLoading (Obj.slot_SRC_ADDR 2)) (.bytes [1]) = false ∧
    (let s := tried (Obj.slot_LOAD 2) 7 (reach sLoading)
     slotState s 2 = 1 ∧ getImg s 2 = none ∧ sourceReach s (getObj s (Obj.slot_SRC_LOC 2)) (getObj s (Obj.slot_SRC_ADDR 2)) .failed = true ∧
       getObj s Obj.FETCH_RETRY_LIMIT ≤ lookD s.host.tries (Obj.slot_LOAD 2) 0 + 1) ∧
    (slotState (reach sLoading) 2 = 1 ∧ getImg (reach sLoading) 2 = none ∧ getObj (reach sLoading) (Obj.slot_SRC_LOC 2) = 0 ∧
      sourceReach (reach sLoading) 0 (getObj (reach sLoading) (Obj.slot_SRC_ADDR 2)) (.bytes imageBytes) = true) ∧
    parseImage [1, 2, 3] = .error 3 ∧
    (parseImage imageBytes = .ok (0, imageRead) ∧
      ((modeLayers (getObj (reach sLoading) (Obj.slot_PRECISION_MODE 2)) imageRead.layers).any fun l =>
        decide (modelQuota (reach sLoading) < l.wBytes + l.altBytes)) = false ∧
      layersBytes (modeLayers (getObj (reach sLoading) (Obj.slot_PRECISION_MODE 2)) imageRead.layers) + 65536
        ≤ modelQuota (reach sLoading) - quotaUsed (reach sLoading)) ∧
    (let s := obj (reach sLoading) Obj.MODEL_QUOTA_GIB 0
     slotState s 2 = 1 ∧ getImg s 2 = none ∧ getObj s (Obj.slot_SRC_LOC 2) = 0 ∧
       sourceReach s 0 (getObj s (Obj.slot_SRC_ADDR 2)) (.bytes imageBytes) = true ∧
       ((modeLayers (getObj s (Obj.slot_PRECISION_MODE 2)) imageRead.layers).any fun l => decide (modelQuota s < l.wBytes + l.altBytes)) = true) :=
  ⟨by decide, by decide, by decide, by decide, by decide, except_error 3 _ (by decide), ⟨image_read, by
    simp only [imageRead, modeLayers, List.map_cons, List.map_nil, List.any_cons, List.any_nil, layer_bytes.1, layer_bytes.2]; decide, by
    simp only [imageRead, modeLayers, List.map_cons, List.map_nil, layersBytes, List.foldl_cons, List.foldl_nil, layer_bytes.1, layer_bytes.2]; decide⟩, by decide, by decide, by decide, by decide, by
    simp only [imageRead, modeLayers, List.map_cons, List.map_nil, List.any_cons, List.any_nil, layer_bytes.1, layer_bytes.2]; decide⟩

theorem wit_EncoderGivesVectors :
    (getImg (sEnc imgRan) 2 = some imgRan ∧ slotState (sEnc imgRan) 2 = 2 ∧ imgRan.segs = [] ∧ imgRan.ranAt = (sEnc imgRan).turn.no + 1) ∧
    (getImg (sEnc imgBad) 2 = some imgBad ∧ slotState (sEnc imgBad) 2 = 2 ∧ imgBad.segs = [] ∧ slotBad (sEnc imgBad) 2 = true) ∧
    (∀ s ∈ [sEnc img1, sStalled], getImg s 2 = some img1 ∧ slotState s 2 = 2 ∧ img1.segs = [] ∧ img1.ranAt ≠ s.turn.no + 1 ∧ slotBad s 2 = false) ∧
    (segmentReady sStalled 2 = [encQ] ∧ (segmentReady sStalled 2).filter (fun q => composes sStalled q.half) = []) ∧
    (segmentReady (sEnc img1) 2).filter (fun q => composes (sEnc img1) q.half) = [encQ] ∧
    ranOf (sEnc img1) img1 none [encQ] = .ok (ranOk (sEnc img1) (ranOf (sEnc img1) img1 none [encQ])) ∧
    ranOf (sEnc img1) img1 (some 0) [encQ] = .error 0 :=
  ⟨by decide, by decide, by decide, by decide, by decide, except_ran _ _ (by decide +kernel), except_error 0 _ (by decide +kernel)⟩

theorem wit_RescorerTakesTheBatch :
    (∀ s ∈ [sRescore img1, sNotLent, sEmptyBatch], rescorerOf s 1 = some 2 ∧ getImg s 2 = some img1) ∧
    rescoreBatch sEmptyBatch 1 = [] ∧ tilesLent sNotLent .selector = 0 ∧
    (rescorerOf (sRescore imgBad) 1 = some 2 ∧ getImg (sRescore imgBad) 2 = some imgBad ∧ slotBad (sRescore imgBad) 2 = true) ∧
    (rescoreBatch (sRescore img1) 1 ≠ [] ∧ issuing (sRescore img1) = true ∧ 0 < tilesLent (sRescore img1) .selector ∧
      slotBad (sRescore img1) 2 = false) ∧
    rescoreRun img1 none = .ok (ranOk (sRescore img1) (rescoreRun img1 none)) ∧ rescoreRun img1 (some 0) = .error 0 :=
  ⟨by decide, by decide, by decide, by decide, by decide, except_ran _ _ (by decide +kernel), except_error 0 _ (by decide +kernel)⟩

theorem past_lists (n : Nat) : pastLists (withLists n (reach sCollLoad)) (collRead (reach sCollLoad)) = decide (16777216 < n + 1) := by
  have e : domainLists (withLists n (reach sCollLoad)) = n := by
    simp only [domainLists, withLists, List.foldl_cons, List.headD_cons, List.length_replicate, Nat.zero_add]
    rfl
  simp only [pastLists, comingLists, e]
  rfl

theorem wit_CollectionImagesLoad :
    (collState (three 9 .p6) 1 = 0 ∧ (getColl (three 9 .p6) 1).dropDue = 0) ∧ collState (inColl running1 (three 9 .p6)) 1 ≠ 0 ∧
    (∀ s ∈ [sCollLoad, reach sCollLoad, sCollTried, sCollPast, sCollFull], (getColl s 1).pend = some 3 ∧
      getObj s (Obj.coll_IMG_STATE 1) = 1 ∧ getObj s (Obj.coll_IMG_LOAD 1) ≠ 0) ∧
    sourceReach sCollLoad (getObj sCollLoad (Obj.coll_IMG_LOC 1)) (getObj sCollLoad (Obj.coll_IMG_ADDR 1)) (.bytes [1]) = false ∧
    (sourceReach sCollTried (getObj sCollTried (Obj.coll_IMG_LOC 1)) (getObj sCollTried (Obj.coll_IMG_ADDR 1)) .failed = true ∧
      getObj sCollTried Obj.FETCH_RETRY_LIMIT ≤ lookD sCollTried.host.tries (Obj.coll_IMG_LOAD 1) 0 + 1) ∧
    (∀ s ∈ [reach sCollLoad, sCollPast, sCollFull], getObj s (Obj.coll_IMG_LOC 1) = 0 ∧
      ∀ b ∈ [[1, 2], collBytes], sourceReach s 0 (getObj s (Obj.coll_IMG_ADDR 1)) (.bytes b) = true) ∧
    parseColl (reach sCollLoad) 1 [1, 2] = .error 3 ∧
    (parseColl sCollPast 1 collBytes = .ok (collRead sCollPast) ∧ pastLists sCollPast (collRead sCollPast) = true) ∧
    (parseColl sCollFull 1 collBytes = .ok (collRead sCollFull) ∧ pastLists sCollFull (collRead sCollFull) = false ∧
      noRoom sCollFull 1 (collRead sCollFull) = true) ∧
    (parseColl (reach sCollLoad) 1 collBytes = .ok (collRead (reach sCollLoad)) ∧ pastLists (reach sCollLoad) (collRead (reach sCollLoad)) = false ∧
      noRoom (reach sCollLoad) 1 (collRead (reach sCollLoad)) = false) :=
  ⟨by decide, by decide, by decide, by decide, by decide, by decide, except_error 3 _ (by decide),
   ⟨coll_read _ (by decide) (by decide), (past_lists 16777216).trans (by decide)⟩, ⟨coll_read _ (by decide) (by decide), by decide, by decide⟩,
   coll_read _ (by decide) (by decide), by decide, by decide⟩

theorem pairs_pcie (p : Nat) : lookD sPcieBad.clk.pairBad p 0 = if p = 0 then 1 else 0 := by
  by_cases h : p = 0
  · subst h; rfl
  · have g : ¬ 0 = p := fun e => h e.symm
    simp [sPcieBad, lookD, look, h, g]

theorem wit_RowTailFillsTheHistogram :
    hasWindow sRow bk = true ∧ Memory.wf sRow.smem.cells = true ∧
    ((tailHits sRow bk (clampCmd { cmdFar with op := .select }) ((look sRow.smem.preds (1, 2)).getD Pred.zero)).filter fun x =>
      decide (x.2.1 ≤ min (widthBits cmdFar.width) cmdFar.theta)) ≠ [] := by decide +kernel

theorem wit_SlotsReloadUnloadAndFree :
    (let s := obj up (Obj.slot_LOAD_STATE 2) 3
     getImg s 2 = none ∧ slotState s 2 ≠ 0) ∧
    (getImg (sEnc imgBad) 2 = some imgBad ∧ imgBad.layers[0]? = some layBad ∧ layBad.bad = true) ∧
    (getImg sUnused 2 = some img1 ∧ slotNamed sUnused 2 = false) ∧
    (getImg (obj (sEnc img1) (Obj.coll_ENCODER_IMAGE 0) 2) 2 = some img1 ∧
      slotNamed (obj (sEnc img1) (Obj.coll_ENCODER_IMAGE 0) 2) 2 = true) ∧
    (let s := withImg 2 2 imgFreeing (at' 9 .p4)
     getImg s 2 = some imgFreeing ∧ imgFreeing.freeing = true ∧ slotHolders s 2 = 0 ∧ s.turn.phase = .p4) ∧
    (let s := withImg 2 2 imgPending (at' (2 ^ 20 - 1) .p4)
     getImg s 2 = some imgPending ∧ imgPending.layers[0]? = some layPend ∧ layPend.pending = true ∧ s.turn.phase = .p4 ∧
       boundary s % statEpoch s = 0) :=
  ⟨by decide, by decide, ⟨by decide, unused_slot⟩, by decide +kernel, by decide, by decide⟩

theorem wit_PhasesOfABoundary :
    (gridOn (at' 9 Phase.p6) = true ∧ (at' 9 Phase.p6).turn.phase = Phase.p6) ∧
    (gridOn (at' 9 Phase.p0) = true ∧ (at' 9 Phase.p0).turn.phase = Phase.p0) ∧
    (gridOn (at' 9 Phase.p1) = true ∧ (at' 9 Phase.p1).turn.phase = Phase.p1) ∧
    (gridOn sDue = true ∧ sDue.turn.phase = Phase.p2) ∧
    (gridOn (at' 9 Phase.p3) = true ∧ (at' 9 Phase.p3).turn.phase = Phase.p3) ∧
    (gridOn (at' (2 ^ 48 - 1) Phase.p4) = true ∧ (at' (2 ^ 48 - 1) Phase.p4).turn.phase = Phase.p4) ∧
    (gridOn (at' 9 Phase.p5) = true ∧ (at' 9 Phase.p5).turn.phase = Phase.p5) ∧
    ((gridOn (at' 9 Phase.p0) = false ∨ (at' 9 Phase.p0).turn.phase ≠ Phase.p6)) ∧
    ((gridOn State.reset = false ∨ State.reset.turn.phase ≠ Phase.p0)) ∧
    ((gridOn State.reset = false ∨ State.reset.turn.phase ≠ Phase.p1)) ∧
    ((gridOn (at' 9 Phase.p1) = false ∨ (at' 9 Phase.p1).turn.phase ≠ Phase.p2)) ∧
    ((gridOn (at' 9 Phase.p1) = false ∨ (at' 9 Phase.p1).turn.phase ≠ Phase.p3)) ∧
    ((gridOn (at' 9 Phase.p3) = false ∨ (at' 9 Phase.p3).turn.phase ≠ Phase.p4)) ∧
    ((gridOn (at' 9 Phase.p4) = false ∨ (at' 9 Phase.p4).turn.phase ≠ Phase.p5)) :=
  by and_intros <;> decide

theorem wit_WorkWindowOfATurn :
    (getObj (obj up Obj.TURN_PERIOD_US 64) Obj.TURN_PERIOD_US = 64) ∧
    (gridOn (at' 9 Phase.p5) = true ∧ (at' 9 Phase.p5).turn.phase = Phase.p5) ∧
    (gridOn (at' 9 Phase.p6) = true ∧ (at' 9 Phase.p6).turn.phase = Phase.p6) :=
  by and_intros <;> decide

theorem wit_BoardWriteReservesOwnResources :
    ((at' 9 Phase.p6).turn.next.length = 2 ∧ (at' 9 Phase.p6).turn.phase ≠ Phase.p4 ∧ withinPower (at' 9 Phase.p6) 1
     bTwice = true) ∧
    ((at' 9 Phase.p6).turn.next.length = 2 ∧ ((at' 9 Phase.p6).turn.phase = Phase.p4 ∨ withinPower (at' 9 Phase.p6) 0 bHot
     = false)) ∧
    ((at' 9 Phase.p4).turn.next.length = 2 ∧ ((at' 9 Phase.p4).turn.phase = Phase.p4 ∨ withinPower (at' 9 Phase.p4) 0
     Board.empty = false)) :=
  by and_intros <;> decide

theorem wit_PeriodSwitchTakesThePending :
    (sPeriod.turn.phase = Phase.p4 ∧ getObj sPeriod Obj.PERIOD_PENDING ≠ 0 ∧ getObj sPeriod Obj.PERIOD_SWITCH_TURN ≤
     boundary sPeriod) := by decide

theorem wit_DeadlinesDropTheLate :
    (getQuery (sDeadline qMissing) 7 = some qMissing ∧ (sDeadline qMissing).turn.phase = Phase.p6 ∧ (sDeadline
     qMissing).turn.due.contains 7 = true ∧ lacksLists qMissing = true) ∧
    (getQuery (sDeadline qWhole) 7 = some qWhole ∧ (sDeadline qWhole).turn.phase = Phase.p6 ∧ (sDeadline
     qWhole).turn.due.contains 7 = true ∧ lacksLists qWhole = false) ∧
    (sUnits.turn.phase = Phase.p5) :=
  by and_intros <;> decide

theorem wit_CaravanWaitsForItsBoundary :
    (hearsCaravan (three 9 Phase.p6) 1 = true ∧ caravanKnown (three 9 Phase.p6) 1 9 = false) ∧
    (hearsCaravan (three 9 Phase.p5) 1 = true ∧ caravanKnown (three 9 Phase.p5) 1 9 = false) :=
  by and_intros <;> decide

theorem wit_GrantsRefreshEvery64Turns :
    ((three 64 Phase.p6).turn.phase = Phase.p6 ∧ (three 64 Phase.p6).turn.no % 64 = 0 ∧ isMember (three 64 Phase.p6) =
     true) := by decide

theorem wit_LossOfAlignmentWithdraws :
    (isMember sOff = true ∧ 4 ≤ sOff.turn.alignBad) ∧
    (isMember sNoMarks = true ∧ 64 ≤ sNoMarks.turn.marksMissed ∧ isLeader sNoMarks = false) :=
  by and_intros <;> decide

theorem wit_LinkAndRegisterReads :
    (hostHears up = true ∧ up.clk.failed.contains 2 = false ∧ linkServes 3 16 = true) ∧
    (hostHears up = true ∧ up.clk.failed.contains 2 = false ∧ linkServes 1 4 = true) ∧
    hostHears sDead = false ∧ linkServes 3 12 = false ∧
    (hostHears (sStep 3) = true ∧ isReady (sStep 3) = false) ∧ (hostHears up = true ∧ isReady up = true) :=
  by and_intros <;> decide

/-- An aperture of 256 GiB. -/
def wide : State := { up with host := { up.host with bar2Size := 4 } }
theorem wit_Bar2WindowStaysInside :
    hostHears wide = true ∧ 2 ^ (34 + wide.host.bar2Size) ≤ 768 * 2 ^ 30 ∧ wide.host.bar2Size = 4 ∧
    (∀ v ∈ [0, 2 ^ 38 - 1, 2 ^ 38, 2 ^ 39 + 5, 2 ^ 40 - 1, 2 ^ 40], ideRefused (after (.bar2WindowBaseWrite v) wide) false = false) := by
  decide

theorem wit_QueuesAreSetUpAndEnabled :
    (2 ^ 32 - 1 < 2 ^ 32 ∧ hostHears up = true ∧ ideRefused up false = false ∧
      ∀ q ∈ [0, 7, 16383], (getQ up q).enable = false ∧ (getQ up q).active = false) ∧
    (hostHears (qu 3 qEvent up) = true ∧ ideRefused (qu 3 qEvent up) false = false ∧
      ((getQ (qu 3 qEvent up) 3).enable = true ∨ (getQ (qu 3 qEvent up) 3).active = true)) ∧
    (((3 ≠ 4 ∧ 3 ≠ 8 ∨ 2 % 3 ≠ 0)) ∧ ¬(0x200000 ≤ 2 ∧ 2 < 0x300000 ∧ 2 % 64 < 8 ∧ 3 < 8)) ∧
    ((8 ≠ 4 ∧ 8 ≠ 8 ∨ 0x200004 % 8 ≠ 0) ∧ ¬(0x200000 ≤ 0x200004 ∧ 0x200004 < 0x300000 ∧ 0x200004 % 64 < 8 ∧ 8 < 8)) ∧
    (∀ o ∈ [0x200000, 0x2000C6, 0x2FFFC7], 0x200000 ≤ o ∧ o < 0x300000 ∧ o % 64 < 8 ∧ 2 < 8) ∧
    (hostHears sBound = true ∧ (getQ sBound 3).enable = false ∧ sBound.nv.tenant ≠ 0 ∧ sBound.nv.tenant ≠ 2) ∧
    ((up.nv.tenant = 0 ∨ up.nv.tenant = 2)) ∧
    (hostHears (qu 3 qOn up) = true ∧ (getQ (qu 3 qOn up) 3).enable = true ∧ (getQ (qu 3 qOn up) 3).enableDue = 0) ∧
    (let s := qu 3 qEvent (at' 9 Phase.p4)
     s.turn.phase = Phase.p4 ∧ (getQ s 3).enabled = false ∧ enableFalls (getQ s 3) (boundary s) = true ∧
       enabledLog s (getQ s 3) = some 7 ∧ bindOk s (getQ s 3) (boundary s) = true) ∧
    (sOffDue.turn.phase = Phase.p4 ∧ (getQ sOffDue 3).disableDue ≠ 0 ∧ (getQ sOffDue 3).disableDue ≤ boundary sOffDue) :=
  by and_intros <;> decide

theorem wit_Bar2ReadsAndWrites :
    (hostHears region = true ∧ ideRefused region false = false ∧ (false = false ∨ (List.map (fun x => region.host.bar2Base
     + 16 + x) (List.range 4)).any (bar2Reads region) = false)) ∧
    (hostHears up = true ∧ ideRefused up false = false ∧ (true = false ∨ (List.map (fun x => up.host.bar2Base + 16 + x)
     (List.range 4)).any (bar2Reads up) = false)) ∧
    (hostHears region = true ∧ ideRefused region false = false ∧ true = true ∧ (List.map (fun x => region.host.bar2Base +
     16 + x) (List.range 4)).any (bar2Reads region) = true) ∧
    (hostHears region = true ∧ ideRefused region false = false ∧ [1, 2, 3] ≠ [] ∧ [1, 2, 3].length ≤ 16 -
     (region.host.bar2Base + 20) % 16 ∧ inRegion region (region.host.bar2Base + 20) = true) ∧
    (hostHears region = true ∧ ideRefused region false = false ∧ List.replicate 16 255 ≠ [] ∧ (List.replicate 16
     255).length ≤ 16 - (region.host.bar2Base + 16) % 16 ∧ inRegion region (region.host.bar2Base + 16) = true) ∧
    (hostHears up = true ∧ ideRefused up false = false ∧ [1, 2, 3] ≠ [] ∧ [1, 2, 3].length ≤ 16 - (up.host.bar2Base + 20)
     % 16 ∧ inRegion up (up.host.bar2Base + 20) = false ∧ hostGroup up (bankAt (up.host.bar2Base + 20)) = none) :=
  by and_intros <;> decide

theorem wit_DoorbellsMoveTheTally :
    (hostHears (qu 3 qRing up) = true ∧ ideRefused (qu 3 qRing up) false = false ∧ (getQ (qu 3 qRing up) 3).enabled =
     true) ∧
    (hostHears (qu 3 qRing up) = true ∧ ideRefused (qu 3 qRing up) false = false ∧ (4 ≠ 8 ∨ (getQ (qu 3 qRing up)
     3).enabled = false)) ∧
    (hostHears up = true ∧ ideRefused up false = false ∧ (8 ≠ 8 ∨ (getQ up 3).enabled = false)) :=
  by and_intros <;> decide

theorem wit_RingsAreFetchedAndPublished :
    (let s := qu 3 qRing (linked 9 Phase.p6)
     fetchReach s (getQ s 3) 2 = true ∧ tallyDiff 2 (getQ s 3).work < tallyDiff (getQ s 3).hostTally (getQ s 3).work ∧
     (s.host.fetched.find? fun f => f.q == 3 && f.tally == 2) = none ∧
     fetchReach s (getQ s 3) 4 = true ∧ tallyDiff 4 (getQ s 3).work < tallyDiff (getQ s 3).hostTally (getQ s 3).work ∧
     (s.host.fetched.find? fun f => f.q == 3 && f.tally == 4) = none ∧
     (getQ s 3).enabled = true ∧ submits (getQ s 3).ty = true ∧ (getQ s 3).loc = 0 ∧
     64 ≤ (List.replicate 64 (7 : Byte)).length ∧ payloadReach s (getQ s 3) ((List.replicate 64 7).take 64) = true) ∧
    (getQ (qu 3 { qRing with told := true } up) 3).told = true ∧
    (let s := qu 3 qRing (linked 9 Phase.p6)
     s.turn.phase = Phase.p6 ∧ (getQ s 3).told = false ∧ submits (getQ s 3).ty = true ∧ (getQ s 3).work ≠ (getQ s 3).devTally) ∧
    (sEvents.turn.phase = Phase.p6 ∧ (getQ sEvents 5).told = false ∧ (getQ sEvents 5).ty = QType.event ∧ ∃ e ∈ sEvents.host.events, e.q = 5) ∧
    (sResults.turn.phase = Phase.p6 ∧ (getQ sResults 5).told = false ∧ (getQ sResults 5).ty = QType.result ∧
      ∃ r ∈ sResults.host.results, r.rq = 5) :=
  by and_intros <;> decide +kernel

theorem wit_GateListTakesOver :
    ((sGates 10).adm.gates.pend = some ([5], 10) ∧ (sGates 10).turn.phase = Phase.p4 ∧ 10 ≤ boundary (sGates 10)) ∧
    ((sGates 11).adm.gates.pend = some ([5], 11) ∧ (sGates 11).turn.phase = Phase.p4 ∧ boundary (sGates 11) < 11) :=
  by and_intros <;> decide

/-- What gathering the rows of the composed query finds. -/
def gathered (s : State) (bad : List (Nat × Nat)) : Bool :=
  (gatherRows (bump s Obj.RECORDS_IGNORED (ignoredRecords s tokQ.coll tokQ.payload)) bad (lookupsOf s tokQ.coll tokQ.payload)).2

theorem wit_ComposeStoresTheInput :
    (∀ s ∈ [sStall, sTbl tblBad, sTbl tbl], getQuery s 4 = some tokQ ∧ tokQ.t0 ≤ s.turn.no) ∧
    (tokQ.vec = none ∧ tokQ.input = [] ∧ tokQ.error = false ∧ tokQ.slip = false) ∧
    composes sStall tokQ.half = false ∧
    (composes (sTbl tblBad) tokQ.half = true ∧ gathered (sTbl tblBad) [] = true) ∧
    (composes (sTbl tbl) tokQ.half = true ∧ gathered (sTbl tbl) [(2, 1)] = true ∧ gathered (sTbl tbl) [] = false) :=
  by and_intros <;> decide

theorem wit_ReadAheadStagesRows :
    (sAhead.host.fetched.find? fun f => f.q == 3 && f.tally == 2) = some fetchedTok ∧ fetchedTok.entry = some entryTok ∧
    (getQ sAhead 3).ty = QType.query ∧
    doorbellTick (getQ sAhead 3) 2 ≤ (periodUs sAhead - 4 - getObj sAhead Obj.PREFETCH_LEAD_US) * ticksPerUs ∧
    (let rows := t5Rows sAhead (lookupsOf sAhead (parseQuery entryTok).coll (queryPayload sAhead (parseQuery entryTok) entryTok fetchedTok.payload))
     sAhead.comp.staged = [] ∧ rows ≠ [] ∧ sAhead.comp.flashUsed + rows.length ≤ getObj sAhead Obj.COMPOSE_FLASH_CAP ∧
       (holdReads sAhead rows).isSome = true) := by decide +kernel

theorem wit_GroupsMoveAtABoundary :
    ((getTable (sTbl tblCopying) 2).active = some tblCopying ∧ (tblCopying.group 0).moving = some false ∧ (tblCopying.group 0).copied = false) ∧
    ((getTable sWaits 2).active = some tblWaits ∧ (tblWaits.group 0).moving = some false ∧ (tblWaits.group 0).copied = false ∧
      (tblWaits.group 0).waiting = [3] ∧ getWrite sWaits 3 = some wrRow ∧ wrRow.refused = none ∧ wrRow.creates = false ∧
      wrRow.op ≠ .delete ∧ wrRow.sq < 16384 ∧ queueHead sWaits wrRow = true ∧ (getQ sWaits (getQ sWaits wrRow.sq).resultQ).told = false ∧
      wrRow.minTurn ≤ sWaits.turn.no ∧ rowTarget sWaits wrRow = some (2, tblWaits, 1)) ∧
    ((getTable (sTbl tbl) 2).active = some tbl ∧ ((tbl.group 0).moving ≠ some false ∨ (tbl.group 0).copied = true)) ∧
    ((getTable sMoved 2).active = some tbl ∧ sMoved.turn.phase = Phase.p4 ∧ (tbl.group 0).moving = some false ∧ (tbl.group 0).copied = true ∧
      (tbl.group 0).cancel = false) ∧
    ((getTable (atP4 (sTbl tblCancel)) 2).active = some tblCancel ∧ (tblCancel.group 0).moving = some true ∧ (tblCancel.group 0).cancel = true) ∧
    ((getTable (atP4 (sTbl tblT1)) 2).active = some tblT1 ∧ (atP4 (sTbl tblT1)).turn.phase = Phase.p4 ∧ (tblT1.group 0).moving = none ∧
      (tblT1.group 0).t1Next = some true) ∧
    (sTbl tbl).turn.phase ≠ Phase.p4 :=
  by and_intros <;> decide

theorem wit_TablesBuildAndSwitch :
    (getObj (obj up (Obj.table_LOAD_STATE 2) 2) (Obj.table_LOAD_STATE 2) ≠ 1) ∧
    ((getTable (reach tblFetch) 2).buildGeo = some (0, 4, 2) ∧ getObj (reach tblFetch) (Obj.table_SRC_LOC 2) = 0 ∧
     sourceReach (reach tblFetch) 0 (getObj (reach tblFetch) (Obj.table_SRC_ADDR 2)) (.bytes (List.replicate 128 3)) = true ∧
     2 * slotBytes 0 4 ≤ (List.replicate 128 3).length) ∧
    (∀ s ∈ [tblFetch, tried (Obj.table_LOAD 2) 7 tblFetch], (getTable s 2).buildGeo ≠ none ∧
      sourceReach s (getObj s (Obj.table_SRC_LOC 2)) (getObj s (Obj.table_SRC_ADDR 2)) .failed = true) ∧
    lookD tblFetch.host.tries (Obj.table_LOAD 2) 0 + 1 < getObj tblFetch Obj.FETCH_RETRY_LIMIT ∧
    getObj tblFetch Obj.FETCH_RETRY_LIMIT ≤ lookD (tried (Obj.table_LOAD 2) 7 tblFetch).host.tries (Obj.table_LOAD 2) 0 + 1 ∧
    sourceReach tblFetch (getObj tblFetch (Obj.table_SRC_LOC 2)) (getObj tblFetch (Obj.table_SRC_ADDR 2)) (.bytes [3]) = false ∧
    (getObj (obj up (Obj.table_LOAD_STATE 2) 2) (Obj.table_LOAD_STATE 2) = 2) ∧
    (tblBuilt.turn.phase = Phase.p4 ∧ (getTable tblBuilt 2).built = some tbl ∧ (getTable tblBuilt 2).switchDue ≠ 0 ∧
     (getTable tblBuilt 2).switchDue ≤ boundary tblBuilt ∧ (getTable tblBuilt 2).active = none) :=
  by and_intros <;> decide +kernel

theorem wit_PlacementIsProposed :
    (getImg (withImg 2 4 img2 up) 2 = some img2 ∧ ∀ g ∈ img2.segs, g.unsent = []) ∧
    (getImg (withImg 2 4 imgSending up) 2 = some imgSending ∧ ∃ g ∈ imgSending.segs, g.unsent ≠ []) := by decide

theorem wit_StatisticsEpochEnds :
    (sDroops.turn.phase = Phase.p5 ∧ (sDroops.turn.no % statEpoch sDroops = 0 ∨ sDroops.turn.statEnd = true)) := by decide

theorem wit_CollectionsRunStopAndDrop :
    (collState (inColl stopped1 (three 9 Phase.p6)) 1 = 1 ∧ (List.filter (fun p => p.snd.life == 2 || p.snd.pend == some
     1) (inColl stopped1 (three 9 Phase.p6)).colls).length < 1024) ∧
    (collState manyRun 1 = 1 ∧ 1024 ≤ (List.filter (fun p => p.snd.life == 2 || p.snd.pend == some 1)
     manyRun.colls).length) ∧
    (collState (inColl running1 (three 9 Phase.p6)) 1 = 2) ∧
    (collState (inColl stopped1 (three 9 Phase.p6)) 1 = 1) ∧
    ((((getColl (inColl running1 (three 9 Phase.p6)) 1).cents.headD default).edges.any fun x => x.fst == 0) = true) ∧
    (sOld.turn.phase = Phase.p4 ∧ (List.map (fun x => x.key) sOld.lists).Nodup) :=
  ⟨by decide, by decide +kernel, by decide, by decide, by decide, by decide⟩

/-- What a routed query meets before its memo and its centroid set are looked at. -/
def routable (s : State) (q : Query) : Bool :=
  decide (getQuery s q.qh = some q) && q.vec.isSome && !q.error && decide (t1Of q ≤ s.turn.no) && !s.ledger.outOfStep
    && !(getColl s q.coll).centLoading && unrouted q && decide (0 < getObj s (Obj.coll_NPROBE_MAX q.coll))

theorem wit_CoarseRouteRanksLists :
    (routable (sNotPlaced sRouted) routeQ = true ∧ mayIssue (sNotPlaced sRouted) .router 4 = false) ∧
    (routable sMemo memoQ = true ∧ mayIssue sMemo .router 4 = true ∧ memoOf sMemo memoQ = some memo7 ∧ t1Of memoQ = sMemo.turn.no ∧
      memoValid sMemo memoQ (parseMemo memo7) = true) ∧
    (routable (sNoCent routeQ) routeQ = true ∧ mayIssue (sNoCent routeQ) .router 4 = true ∧ memoOf (sNoCent routeQ) routeQ = none ∧
      centSetAt (getColl (sNoCent routeQ) routeQ.coll) routeQ.t0 = none) ∧
    (routable sRouted routeQ = true ∧ mayIssue sRouted .router 4 = true ∧ memoOf sRouted routeQ = none ∧
      centSetAt (getColl sRouted routeQ.coll) routeQ.t0 = some cset ∧ isHamming sRouted routeQ.coll = true) ∧
    (routable sYellow routeYellow = true ∧ mayIssue sYellow .router 4 = true ∧ memoOf sYellow routeYellow = none ∧
      centSetAt (getColl sYellow routeYellow.coll) routeYellow.t0 = some cset) :=
  by and_intros <;> decide

/-- The units of the next round of a widening. -/
def nextUnits (s : State) (q : Query) : Nat :=
  (placeProbes s q [] (slice q.route q.probes (min (2 * q.probes) q.route.length - q.probes))).2.units.length

theorem wit_WideningDoublesTheProbes :
    (∀ s ∈ [sWiden, sWidenGrant, sWidenFull, sWidenStall], getQuery s 4 = some widenQ ∧ s.turn.phase = .p6) ∧
    (getQuery sWidenYellow 4 = some widenYellow ∧ widenYellow.colour = .yellow ∧ greensDone sWidenYellow .router = true) ∧
    halfStalled sWidenStall widenQ.half = true ∧
    (∀ s ∈ [sWiden, sWidenGrant, sWidenFull, sWidenYellow], halfStalled s widenQ.half = false ∧ mayWiden widenQ s.turn.no = true) ∧
    (widenQ.waiting = [] ∧ widenQ.shards ≠ [] ∧ widenQ.reportsDue ≤ widenQ.reports ∧ widenQ.timedOut = false) ∧
    (∀ s ∈ [sWiden, sWidenGrant, sWidenYellow], bufferUsed s + nextUnits s widenQ * unitBuffer s widenQ ≤ getObj s Obj.BAZAAR_BUF_MIB * 2 ^ 20) ∧
    getObj sWidenFull Obj.BAZAAR_BUF_MIB * 2 ^ 20 < bufferUsed sWidenFull + nextUnits sWidenFull widenQ * unitBuffer sWidenFull widenQ :=
  by and_intros <;> decide

theorem wit_ScanKeepsTheBest :
    (∀ s ∈ [sScan 7, sScan 6, sScanLog, sNotPlaced (sScan 7)], getUnit s 6 = some scanU ∧ scanU.scanned = false ∧
      scanU.arrived ≤ s.turn.no ∧ s.ledger.outOfStep = false) ∧
    mayIssue (sNotPlaced (sScan 7)) .scanner 6 = false ∧
    (mayIssue (sScan 7) .scanner 6 = true ∧ scanReady (sScan 7) scanU.probe.coll scanU.probe.pin = true ∧
      (scanU.probe.keys.all fun k => copyReady (sScan 7) k scanU.probe.pin) = true) ∧
    (mayIssue (sScan 6) .scanner 6 = true ∧ scanReady (sScan 6) scanU.probe.coll scanU.probe.pin = false) ∧
    (mayIssue sScanLog .scanner 6 = true ∧ scanReady sScanLog scanU.probe.coll scanU.probe.pin = true ∧
      (scanU.probe.keys.all fun k => copyReady sScanLog k scanU.probe.pin) = false) :=
  by and_intros <;> decide +kernel

theorem wit_RerankGivesExactDistances :
    (∀ p ∈ [(sRank 9 ranU, ranU), (sRank 9 ranRanked, ranRanked), (sNoTiles (sRank 9 ranU), ranU), (sRankIp, ranDone)],
      getUnit p.1 6 = some p.2 ∧ p.2.scanned = true ∧ p.2.ready ≤ p.1.turn.no + 1) ∧
    (isHamming (sRank 9 ranU) ranU.probe.coll = true ∧ ranU.ranked = false ∧ issuing (sRank 9 ranU) = true ∧
      0 < tilesLent (sRank 9 ranU) .selector) ∧
    (isHamming (sRank 9 ranRanked) ranRanked.probe.coll = true ∧ ranRanked.ranked = true) ∧
    (isHamming (sNoTiles (sRank 9 ranU)) ranU.probe.coll = true ∧ tilesLent (sNoTiles (sRank 9 ranU)) .selector = 0) ∧
    isHamming sRankIp ranDone.probe.coll = false ∧ (at' 9 .p5).turn.phase ≠ .p6 ∧
    (∀ r ∈ [way true false, way false false], (sWay r).turn.phase = .p6 ∧ (wayQ (sWay r) 2).find? (fun x => !x.started) = some r) ∧
    ((way true false).hot = true ∧ (way false false).hot = false) ∧
    (let s := sWay (way false false)
     (match look s.way.suspends ((dieNum s 2 (addrDie (way false false).loc)).getD 4096) with | some (o, n) => if o = 5 then n else 0 | none => 0) < 8) ∧
    (let s := sSuspended (way false false)
     (wayQ s 2).find? (fun x => !x.started) = some (way false false) ∧
     8 ≤ (match look s.way.suspends ((dieNum s 2 (addrDie (way false false).loc)).getD 4096) with | some (o, n) => if o = 5 then n else 0 | none => 0)) ∧
    (let s := sWay (way false true)
     (wayQ s 2).find? (·.started) = some (way false true) ∧ getUnit s (way false true).unit = some ranWaiting ∧
       ranWaiting.num = (way false true).unit ∧ ranWaiting.cands.find? (·.ctag == (way false true).ctag) = some (cand 0) ∧
       candEntry s (cand 0) = some (ent 8)) :=
  by and_intros <;> decide

theorem wit_SelectAndMergeAnswerTheQuery :
    (∀ p ∈ [(sRank 10 ranError, ranError), (sRank 10 ranU, ranU), (sRank 10 selU, selU)],
      getUnit p.1 6 = some p.2 ∧ p.2.scanned = true ∧ p.2.sent = false ∧ p.2.ready ≤ p.1.turn.no ∧ issuing p.1 = true) ∧
    (ranError.error = true ∧ ranU.error = false ∧ selU.error = false) ∧
    unitRanked (sRank 10 ranU) ranU = false ∧
    (unitRanked (sRank 10 selU) selU = true ∧ mayIssue (sRank 10 selU) .selector 6 = true) ∧
    (mayIssue (sNotPlaced (sRank 10 selU)) .selector 6 = false) ∧
    (∀ q ∈ [mergeError, mergeQ, mergeShort], getQuery (sMerge q) 4 = some q ∧ q.sq < 16384 ∧ answerDue (sMerge q) q = true ∧
      (sMerge q).turn.phase = .p6 ∧ halfStalled (sMerge q) q.half = false) ∧
    halfStalled (stall (sMerge mergeQ)) mergeQ.half = true ∧
    (mergeError.error = true ∨ (mergeError.lists.any (·.error)) = true) ∧
    (∀ q ∈ [mergeQ, mergeShort], q.error = false ∧ (q.lists.any (·.error)) = false ∧ mayIssue (sMerge q) .bazaar 4 = true) ∧
    (mayIssue (sNotPlaced (sMerge mergeQ)) .bazaar 4 = false ∧ (sNotPlaced (sMerge mergeQ)).turn.no < deadlineTurn mergeQ) ∧
    deadlineTurn { mergeQ with d := 1 } ≤ (sMerge { mergeQ with d := 1 }).turn.no :=
  by and_intros <;> decide

theorem wit_RowOperationsCombineRows :
    (Memory.wf sRow.smem.cells = true ∧ hasWindow sRow bk = true) ∧
    (Memory.wf up.smem.cells = true ∧ hasWindow up bk = false) :=
  by and_intros <;> decide

theorem wit_IngestStagesAndCommits :
    (getWrite (sWrite (wr IngOp.insert)) 3 = some (wr IngOp.insert) ∧ (wr IngOp.insert).ready = false ∧ (wr
     IngOp.insert).refused = none ∧ (wr IngOp.insert).noid = false ∧ (wr IngOp.insert).table = none ∧ (wr
     IngOp.insert).op = IngOp.insert) ∧
    (getWrite (sWrite (wr IngOp.upsert)) 3 = some (wr IngOp.upsert) ∧ (wr IngOp.upsert).ready = false ∧ (wr
     IngOp.upsert).refused = none ∧ (wr IngOp.upsert).noid = false ∧ (wr IngOp.upsert).table = none ∧ (wr
     IngOp.upsert).op = IngOp.upsert) ∧
    (getWrite (sWrite (wr IngOp.delete)) 3 = some (wr IngOp.delete) ∧ (wr IngOp.delete).ready = false ∧ (wr
     IngOp.delete).refused = none ∧ (wr IngOp.delete).noid = false ∧ (wr IngOp.delete).table = none ∧ (wr
     IngOp.delete).op = IngOp.delete) ∧
    (getWrite (sWrite (wr IngOp.nop)) 3 = some (wr IngOp.nop) ∧ (wr IngOp.nop).ready = false ∧ (wr IngOp.nop).refused =
     none ∧ (wr IngOp.nop).noid = false ∧ (wr IngOp.nop).op = IngOp.nop) ∧
    (getWrite (sWrite wrNoId) 3 = some wrNoId ∧ wrNoId.ready = false ∧ wrNoId.refused = none ∧ wrNoId.noid = true ∧
     wrNoId.op = IngOp.insert) ∧
    (getWrite (sWrite (wrDone IngOp.insert)) 3 = some (wrDone IngOp.insert) ∧ (sWrite (wrDone IngOp.insert)).turn.phase =
     Phase.p6 ∧ mayCommit (sWrite (wrDone IngOp.insert)) (wrDone IngOp.insert) = true ∧ (wrDone IngOp.insert).table =
     none ∧ (wrDone IngOp.insert).noid = false ∧ (wrDone IngOp.insert).op ≠ IngOp.nop ∧ (wrDone IngOp.insert).sq <
     16384) ∧
    (getWrite (sWrite wrGone) 3 = some wrGone ∧ (sWrite wrGone).turn.phase = Phase.p6 ∧ mayCommit (sWrite wrGone) wrGone =
     true ∧ wrGone.table = none ∧ wrGone.noid = false ∧ wrGone.op ≠ IngOp.nop ∧ wrGone.sq < 16384) ∧
    (getWrite (sLate [0]) 3 = some (wrLate [0]) ∧ (sLate [0]).turn.phase = Phase.p6 ∧ (wrLate [0]).refused = none ∧
     ackExpired (sLate [0]) (wrLate [0]) = true ∧ List.filter (fun h => (wrLate [0]).acked.contains h) (wrLate
     [0]).holders ≠ []) ∧
    (getWrite (sLate []) 3 = some (wrLate []) ∧ (sLate []).turn.phase = Phase.p6 ∧ (wrLate []).refused = none ∧ ackExpired
     (sLate []) (wrLate []) = true ∧ List.filter (fun h => (wrLate []).acked.contains h) (wrLate []).holders = [] ∧
     stagingHolders (sLate []) (wrLate []).prep.key ≠ []) :=
  by and_intros <;> decide

theorem wit_ListsAreMaintained :
    (List.find? (fun d => d.coll == 1 && d.shard == 83) sDir.ing.shards = some dirS ∧ 9 = dirS.done + 1 ∧ dirS.missing =
     [] ∧ (sDir.ledger.members.all fun n => decide (9 ≤ lookD sDir.ing.batchThrough n 0)) = true) ∧
    (look sRebuild.ing.rebuilds (1, 2) = some (5, 10) ∧ sRebuild.turn.phase = Phase.p4 ∧ 10 ≠ 0 ∧ 10 ≤ boundary sRebuild) ∧
    (getList sSeg (listKey 1 0) = some rebuilt ∧ slackOpen sSeg 9 = false) ∧
    (getList (sComp bigList) (listKey 1 0) = some bigList ∧ slackOpen (sComp bigList) 9 = true ∧ (sComp
     bigList).flash.stopped = false ∧ bigList.compacting = none ∧ bigList.built = none ∧ bigList.quarantined = false ∧
     copySource (sComp bigList) (listKey 1 0) = false ∧ reshaping (sComp bigList) (listKey 1 0) = false ∧ isHamming
     (sComp bigList) (keyColl (listKey 1 0)) = true ∧ bigList.newest.hot = false ∧ bigList.newest.bases.length < 4 ∧
     compactionDue (sComp bigList) bigList = true) ∧
    (getList (sComp (listAt (listKey 1 0))) (listKey 1 0) = some (listAt (listKey 1 0)) ∧ slackOpen (sComp (listAt (listKey 1 0))) 9 = true ∧ (sComp (listAt (listKey 1 0))).flash.stopped = false ∧ (listAt (listKey 1 0)).compacting = none
     ∧ (listAt (listKey 1 0)).built = none ∧ (listAt (listKey 1 0)).quarantined = false ∧ copySource (sComp (listAt
     (listKey 1 0))) (listKey 1 0) = false ∧ reshaping (sComp (listAt (listKey 1 0))) (listKey 1 0) = false ∧
     isHamming (sComp (listAt (listKey 1 0))) (keyColl (listKey 1 0)) = true ∧ (listAt (listKey 1 0)).newest.hot =
     false ∧ (listAt (listKey 1 0)).newest.bases.length < 4 ∧ compactionDue (sComp (listAt (listKey 1 0))) (listAt
     (listKey 1 0)) = false) ∧
    (getList (sComp compacting) (listKey 1 0) = some compacting ∧ compacting.compacting = some (9, 2, [0])) ∧
    (getList sSeg (listKey 1 0) = some rebuilt ∧ rebuilt.built = some ([[0]], 2, []) ∧ sSeg.turn.phase = Phase.p4 ∧
     rebuilt.switchDue ≠ 0 ∧ rebuilt.switchDue ≤ boundary sSeg) ∧
    (sDrift.turn.phase = Phase.p5 ∧ (getColl sDrift 1).life ≠ 0 ∧ isSet sDrift (Obj.coll_ADAPT_EN 1) = true ∧ (getColl
     sDrift 1).epochDone ≠ sDrift.turn.no ∧ sDrift.turn.no % max 1 (getObj sDrift (Obj.coll_ADAPT_EPOCH 1)) = 0) ∧
    (((getColl sDriftAll 1).driftPend.any fun p => decide (64 ≤ p.1)) = false ∧ sDriftAll.ledger.members ≠ [] ∧ (sDriftAll.ledger.members.all fun n =>
     (List.filter (fun r => r.fst == 64) (getColl sDriftAll 1).driftIn).any fun r => r.snd.fst == n) = true ∧ (getColl
     sDriftAll 1).cents = [csDrift]) ∧
    (List.find? (fun x => x.key == listKey 1 0) sResh.ing.reshapes = some resh ∧ resh.built = none ∧ servesList sResh
     (listKey 1 0) = true) :=
  by and_intros <;> decide

theorem wit_CopiesArePlacedAndMoved :
    ((at' 64 Phase.p6).turn.no % 64 = 0 ∧ (at' 64 Phase.p6).turn.phase = Phase.p6) ∧
    (((at' 64 Phase.p5).turn.no % 64 ≠ 0 ∨ (at' 64 Phase.p5).turn.phase ≠ Phase.p6)) ∧
    (getList (sComp hotNew) key1 = some hotNew ∧ hotNew.hotBuild = true ∧ hotNew.hotDue = 0) ∧
    (getObj (obj (at' 9 Phase.p6) (Obj.range_STATE 3) 2) (Obj.range_STATE 3) = 2) ∧
    (collT2 (obj sMirror (Obj.coll_T4_QUOTA_GIB 1) 1) 1 ≤ getObj (obj sMirror (Obj.coll_T4_QUOTA_GIB 1) 1)
     (Obj.coll_T2_QUOTA_GIB 1) * 2 ^ 30 ∧ collT5 (obj sMirror (Obj.coll_T4_QUOTA_GIB 1) 1) 1 ≤ getObj (obj sMirror
     (Obj.coll_T4_QUOTA_GIB 1) 1) (Obj.coll_T5_QUOTA_GB 1) * 10 ^ 9 ∧ getObj (obj sMirror (Obj.coll_T4_QUOTA_GIB 1) 1)
     Obj.T2_RESERVE_GIB * 2 ^ 30 ≤ t2Free (obj sMirror (Obj.coll_T4_QUOTA_GIB 1) 1) ∧ collT4 (obj sMirror
     (Obj.coll_T4_QUOTA_GIB 1) 1) 1 ≤ getObj (obj sMirror (Obj.coll_T4_QUOTA_GIB 1) 1) (Obj.coll_T4_QUOTA_GIB 1) * 2 ^
     30) ∧
    (collT2 (obj sMirror (Obj.coll_T4_QUOTA_GIB 1) 0) 1 ≤ getObj (obj sMirror (Obj.coll_T4_QUOTA_GIB 1) 0)
     (Obj.coll_T2_QUOTA_GIB 1) * 2 ^ 30 ∧ collT5 (obj sMirror (Obj.coll_T4_QUOTA_GIB 1) 0) 1 ≤ getObj (obj sMirror
     (Obj.coll_T4_QUOTA_GIB 1) 0) (Obj.coll_T5_QUOTA_GB 1) * 10 ^ 9 ∧ getObj (obj sMirror (Obj.coll_T4_QUOTA_GIB 1) 0)
     Obj.T2_RESERVE_GIB * 2 ^ 30 ≤ t2Free (obj sMirror (Obj.coll_T4_QUOTA_GIB 1) 0) ∧ (optionals (obj sMirror
     (Obj.coll_T4_QUOTA_GIB 1) 0) fun x => x == 1) = [optMirror] ∧ optMirror.kind = CopyKind.mirror ∧ getObj (obj
     sMirror (Obj.coll_T4_QUOTA_GIB 1) 0) (Obj.coll_T4_QUOTA_GIB 1) * 2 ^ 30 < collT4 (obj sMirror
     (Obj.coll_T4_QUOTA_GIB 1) 0) 1) ∧
    (getJob (sJob Phase.p4 (job 0 1)) key1 = some (job 0 1) ∧ (sJob Phase.p4 (job 0 1)).turn.phase = Phase.p4 ∧ (job 0
     1).start = 0 ∧ (job 0 1).requested ≤ boundary (sJob Phase.p4 (job 0 1)) ∧ (job 0 1).source = selfNode (sJob
     Phase.p4 (job 0 1)) ∧ getList (sJob Phase.p4 (job 0 1)) key1 = some (listAt key1) ∧ (listAt key1).compacting =
     none ∧ (listAt key1).built = none) ∧
    (getJob (sJob Phase.p4 (job 1 0)) key1 = some (job 1 0) ∧ (sJob Phase.p4 (job 1 0)).turn.phase = Phase.p4 ∧ (job 1
     0).start = 0 ∧ (job 1 0).requested ≤ boundary (sJob Phase.p4 (job 1 0)) ∧ (job 1 0).source ≠ selfNode (sJob
     Phase.p4 (job 1 0))) ∧
    (getJob (sJob Phase.p6 jobSend) key1 = some jobSend ∧ jobSend.source = selfNode (sJob Phase.p6 jobSend) ∧
     jobSend.start ≠ 0 ∧ jobSend.copied < jobSend.total ∧ (sJob Phase.p6 jobSend).place.moved < getObj (sJob Phase.p6
     jobSend) Obj.MOVE_CAP_MIB ∧ slackOpen (sJob Phase.p6 jobSend) 10 = true) ∧
    (getJob (sJob Phase.p6 jobReplay) key1 = some jobReplay ∧ jobReplay.target = selfNode (sJob Phase.p6 jobReplay) ∧
     jobReplay.ready = false ∧ (getList (sJob Phase.p6 jobReplay) key1).isSome = true ∧ jobReplay.total ≠ 0 ∧ gateOpen
     (sJob Phase.p6 jobReplay) 10 = true) ∧
    (getJob (sJob Phase.p4 jobSend) key1 = some jobSend ∧ slackOpen (sJob Phase.p4 jobSend) 10 = false) ∧
    (getJob (sJob Phase.p6 (job 1 7)) key1 = some (job 1 7) ∧ abortCause (sJob Phase.p6 (job 1 7)) (job 1 7) 1 = true) :=
  by and_intros <;> decide

theorem wit_ScratchAccesses :
    (Memory.wf scr0.scratch.cells = true ∧ ownerTakes (getScr scr0 (scrBankOf (scrAddr 64))).owner 71 = true ∧
     scr0.scratch.bad.contains (scrAddr 64 / 8) = false) ∧
    (Memory.wf scr0.scratch.cells = true ∧ ownerTakes (getScr scr0 (scrBankOf (scrAddr (2 ^ 26 + 4)))).owner 120 = true ∧
     scr0.scratch.bad.contains (scrAddr (2 ^ 26 + 4) / 8) = false) ∧
    (Memory.wf scrBad.scratch.cells = true ∧ ownerTakes (getScr scrBad (scrBankOf (scrAddr 64))).owner 71 = true ∧
     scrBad.scratch.bad.contains (scrAddr 64 / 8) = true) ∧
    (Memory.wf scr0.scratch.cells = true ∧ ownerTakes (getScr scr0 (scrBankOf (scrAddr 64))).owner 72 = false) ∧
    (Memory.wf scr0.scratch.cells = true ∧ ownerTakes (getScr scr0 (scrBankOf (scrAddr 64))).owner 71 = true ∧
     scr0.scratch.bad = []) ∧
    (Memory.wf scr0.scratch.cells = true ∧ ownerTakes (getScr scr0 (scrBankOf (scrAddr 64))).owner 71 = true ∧
     scr0.scratch.bad = [] ∧ scrAddr 64 % 2 ^ 26 + [5, 6].length ≤ 2 ^ 26) ∧
    ((getScr scrTurn 1).retired = false) ∧
    ((getScr scrGone 1).retired = true) :=
  by and_intros <;> decide

theorem wit_PortsComeUpAndGoDown :
    (mayTrain (three 9 .p6) 15 = true ∧ 0 = getObj (three 9 .p6) Obj.PARTITION_ID ∧ 1 ≠ selfNode (three 9 .p6)) ∧
    (mayTrain (three 9 .p6) 2 = true ∧ linkState (three 9 .p6) 2 ≠ linkIsUp ∧
      (3 ≠ getObj (three 9 .p6) Obj.PARTITION_ID ∨ 1 = selfNode (three 9 .p6))) ∧
    (mayTrain (three 9 .p6) 2 = true ∧ (0 ≠ getObj (three 9 .p6) Obj.PARTITION_ID ∨ 0 = selfNode (three 9 .p6))) ∧
    (mayTrain (obj (three 9 .p6) Obj.PORT_EN 0) 2 = false) ∧
    (∀ s ∈ [upPort 2 (three 9 .p6), sTrains], (linkState s 2 = linkIsUp ∨ linkState s 2 = linkTraining) ∧
      0 = getObj s Obj.PARTITION_ID ∧ 1 ≠ selfNode s ∧ 9 ≠ getObj s Obj.PARTITION_ID) ∧
    linkState (upPort 2 (three 9 .p6)) 2 = linkIsUp ∧ linkState sTrains 2 = linkTraining ∧
    (linkState (obj up (Obj.port_LINK_STATE 2) linkFenced) 2 ≠ linkIsUp ∧
      linkState (obj up (Obj.port_LINK_STATE 2) linkFenced) 2 ≠ linkTraining) :=
  by and_intros <;> decide

theorem wit_FlitsAreTakenInSequence :
    (linkState (sPort portLast) 2 = linkIsUp ∧ (getPort (sPort portLast) 2).wait = [] ∧ (flit 4095).ty ≤ 5 ∧ (flit
     4095).fec = 0 ∧ (flit 4095).seq = (getPort (sPort portLast) 2).rxSeq) ∧
    (linkState (sPort portLast) 2 = linkIsUp ∧ (getPort (sPort portLast) 2).wait = [] ∧ (flit 3).ty ≤ 5 ∧ (flit 3).fec = 0
     ∧ (flit 3).seq ≠ (getPort (sPort portLast) 2).rxSeq ∧ (getPort (sPort portLast) 2).nakked = false) ∧
    (linkState (sPort portLast) 2 = linkIsUp ∧ (getPort (sPort portLast) 2).wait = [] ∧ flitBad.ty ≤ 5 ∧ flitBad.fec = 3 ∧
     (getPort (sPort portLast) 2).nakked = false) ∧
    (linkState (sPort portSent) 2 = linkIsUp ∧ (getPort (sPort portSent) 2).wait = [] ∧ flitIdle.ty ≤ 5 ∧ flitIdle.fec = 0
     ∧ (∀ (r : Nat × Nat × List Sys2Proof.Frame × Nat), r ∈ (getPort (sPort portSent) 2).replay → (r.fst + 1) % 4096 ≠
     flitIdle.ack)) ∧
    (linkState (sPort portSent) 2 = linkIsUp ∧ (getPort (sPort portSent) 2).wait = [] ∧ flitAck.ty ≤ 5 ∧ flitAck.fec = 0 ∧
     (getPort (sPort portSent) 2).replay = rep3 ++ rep4 :: rep5 ∧ (rep4.fst + 1) % 4096 = flitAck.ack ∧ (∀ (x : Nat × Nat × List Sys2Proof.Frame × Nat), x ∈ rep3 → (x.fst + 1) % 4096 ≠ flitAck.ack)) ∧
    (linkState (sPort portSent) 2 = linkIsUp ∧ (getPort (sPort portSent) 2).wait = [] ∧ flitNak.ty ≤ 5 ∧ flitNak.fec = 0 ∧
     (getPort (sPort portSent) 2).replay ≠ [] ∧ (getPort (sPort portSent) 2).resends < 64 ∧ (∀ (r : Nat × Nat × List Sys2Proof.Frame × Nat), r ∈ (getPort (sPort portSent) 2).replay → (r.fst + 1) % 4096 ≠ flitNak.ack)) ∧
    (linkState (sPort portSent) 2 = linkIsUp ∧ (getPort (sPort portSent) 2).wait = [] ∧ flitNak.ty ≤ 5 ∧ (getPort (sPort
     portSent) 2).replay ≠ [] ∧ (getPort (sPort portSent) 2).resends < 64) ∧
    (linkState (sPort portSent) 2 = linkIsUp ∧ (getPort (sPort portSent) 2).wait = [] ∧ flitPing.ty ≤ 5 ∧ flitPing.fec =
     0) ∧
    (linkState (sPort portSent) 2 = linkIsUp ∧ (getPort (sPort portSent) 2).wait = [] ∧ flitPong.ty ≤ 5 ∧ flitPong.fec =
     0) ∧
    (linkState (sPort portSent) 2 = linkIsUp ∧ (getPort (sPort portSent) 2).wait = [] ∧ (flit 3).ty ≤ 5 ∧ (sPort
     portSent).turn.no % 64 = 0) ∧
    (linkState sOddTurn 2 = linkIsUp ∧ (getPort sOddTurn 2).wait = [] ∧ (flit 3).ty ≤ 5 ∧ sOddTurn.turn.no % 64 ≠ 0) :=
  by and_intros <;> decide

/-- What a frame of this partition meets on its way. -/
def here (s : State) (f : Frame) : Bool := f.part == getObj s Obj.PARTITION_ID && s.ledger.members.contains f.dst

theorem wit_FramesAndCacheAnswer :
    (frameBad.good = false ∧ here sFrame frameBad = true ∧ frameBad.dst = selfNode sFrame) ∧
    (let f := { frame 9 1 5 with good := true }
     f.part = getObj sFrame Obj.PARTITION_ID ∧ sFrame.ledger.members.contains f.dst = false) ∧
    frameAlien.part ≠ getObj sFrame Obj.PARTITION_ID ∧
    (∀ f ∈ [frame 0 1 5, frame 0 1 7], f.good = true ∧ here sFrame f = true ∧ f.dst = selfNode sFrame ∧
      (sFrame.fab.inStreams.find? fun t => t.peer == f.src && t.cls == f.cls) = some stIn) ∧
    (stIn.held = [] ∧ (frame 0 1 5).seq = stIn.next ∧ (frame 0 1 7).seq ≠ stIn.next ∧ ((frame 0 1 7).seq - stIn.next).toNat < 2 ^ 63) ∧
    (reply3.good = true ∧ here sReply reply3 = true ∧ reply3.dst = selfNode sReply ∧
     ((sReply.fab.inStreams.find? fun t => t.peer == reply3.src && t.cls == reply3.cls).map fun t => (t.next, t.held)) = some (5, []) ∧
     reply3.seq = 5 ∧ reply3.cls = 3 ∧ sReply.fab.replies = [] ∧ (sReply.fab.kept.any (·.2.key == 0x1234)) = false) ∧
    (∀ f ∈ [frame 2 2 7, frame 2 3 7], here sFrame f = true ∧ f.dst ≠ selfNode sFrame) ∧
    (sFrame.turn.escalated = false ∧ (frame 2 2 7).hops < 3 ∧ portTo sFrame (frame 2 2 7).dst = some 2 ∧ 3 ≤ (frame 2 3 7).hops) ∧
    ((sStream.fab.streams.find? fun t => t.peer == 1 && t.cls == 0) = some stOut ∧ stOut.out.length ≤ streamWindow) ∧
    (isMember sMark = true ∧ isLeader sMark = false ∧ carries sMark 2 = true ∧ sMark.turn.markTurn ≤ mark0.turn ∧ mark0.hops ≤ 3 ∧
      sMark.turn.markTurn ≤ mark3.turn ∧ mark3.hops ≤ 3) ∧
    (let s := { sMark with turn := { sMark.turn with markTurn := 65 } }
     isMember s = true ∧ isLeader s = false ∧ carries s 2 = true ∧ mark0.turn < s.turn.markTurn) ∧
    (carries sMark 4 = false ∧ 3 < { mark0 with hops := 4 }.hops) ∧
    (lenderOf sLend 99 = some (selfNode sLend) ∧ lenderOf (three 9 .p6) 99 ≠ some (selfNode (three 9 .p6))) ∧
    (∀ n ∈ [64, 65536], 64 ≤ n ∧ n ≤ 65536 ∧ 16 + n ≤ getObj sLend Obj.CACHE_LEND_GIB * 2 ^ 30) ∧ cacheFind sLend 99 = none ∧
    (List.replicate 64 (1 : Byte)).length = 64 ∧ (List.replicate 63 (1 : Byte)).length < 64 :=
  by and_intros <;> decide

theorem wit_EpochsFormCommitAndApply :
    (isLeader sForm = true ∧ sForm.ledger.forming = none ∧ sForm.turn.phase = Phase.p6) ∧
    ((isLeader (three 9 Phase.p6) = false ∨ (three 9 Phase.p6).turn.phase ≠ Phase.p6)) ∧
    (isHolder (three 9 Phase.p6) = true ∧ (three 9 Phase.p6).ledger.leader ≠ selfNode (three 9 Phase.p6)) ∧
    (sFormed.ledger.forming = some epForm ∧ isLeader sFormed = true ∧ sFormed.turn.phase = Phase.p6 ∧
     sFormed.ledger.holders.length < 2 * (1 + (nub (List.filter (fun a => sFormed.ledger.holders.contains a && a !=
     selfNode sFormed) [1, 1, 9])).length)) ∧
    (sFormed.ledger.forming = some epForm ∧ isLeader sFormed = true ∧ sFormed.turn.phase = Phase.p6 ∧ 2 * (1 + (nub
     (List.filter (fun a => sFormed.ledger.holders.contains a && a != selfNode sFormed) [9])).length) ≤
     sFormed.ledger.holders.length) ∧
    ((sApply epMove).turn.phase = Phase.p4 ∧ isMember (sApply epMove) = true ∧ List.filter (fun e => decide (e.effect ≤
     boundary (sApply epMove))) (sApply epMove).ledger.epochs = [epMove]) ∧
    ((sApply epPeriod).turn.phase = Phase.p4 ∧ isMember (sApply epPeriod) = true ∧ List.filter (fun e => decide (e.effect
     ≤ boundary (sApply epPeriod))) (sApply epPeriod).ledger.epochs = [epPeriod] ∧ epPeriod.recs = [recPeriod]) ∧
    ((sApply epHolders).turn.phase = Phase.p4 ∧ isMember (sApply epHolders) = true ∧ List.filter (fun e => decide
     (e.effect ≤ boundary (sApply epHolders))) (sApply epHolders).ledger.epochs = [epHolders] ∧ epHolders.recs =
     [recHolders] ∧ (sApply epHolders).ledger.leader ≠ 2) ∧
    ((three 9 Phase.p6).turn.phase ≠ Phase.p4) :=
  by and_intros <;> decide

theorem wit_HoldersElectAndNodesJoin :
    (isHolder (three 9 .p6) = true ∧ 2 ≠ (three 9 .p6).ledger.leader) ∧
    (isHolder (sBeats 64 0) = true ∧ isLeader (sBeats 64 0) = false ∧ getObj (sBeats 64 0) Obj.LEADER_TIMEOUT ≤ (sBeats 64 0).ledger.beats) ∧
    (isHolder (sBeats 0 0) = true ∧ (sBeats 0 0).ledger.beats < getObj (sBeats 0 0) Obj.LEADER_TIMEOUT) ∧
    (let s := sBeats 2 0
     isHolder s = true ∧ s.turn.phase = .p6 ∧ s.ledger.beats ≠ 0 ∧ s.ledger.standing = 0 ∧ 2 ≠ selfNode s ∧ s.ledger.holders.contains 2 = true ∧
       s.ledger.votedTerm < 1 ∧ 0 ≤ s.ledger.votedTerm) ∧
    (let s := sBeats 2 3
     isHolder s = true ∧ s.turn.phase = .p6 ∧ s.ledger.standing ≠ 0 ∧
       s.ledger.holders.length < 2 * (nub ([2, 1, 2].filter fun v => s.ledger.holders.contains v && v != selfNode s)).length) ∧
    (isMember (at' 9 .p6) = false ∧ (at' 9 .p6).turn.escalated = false) ∧
    (isMember sEscalated = false ∧ sEscalated.turn.escalated = true) ∧
    (∀ s ∈ [sSelf, sUnknown], isMember s = false ∧ isSet s Obj.SELFTEST_PASS = true ∧ s.turn.withdrawn = false) ∧
    ((upPorts sSelf).filter sSelf.fab.memberPorts.contains).head? = some 2 ∧ (upPorts sUnknown).filter sUnknown.fab.memberPorts.contains = [] ∧
    (isMember (at' 9 .p6) = false ∧ isSet (at' 9 .p6) Obj.SELFTEST_PASS = false) ∧
    (isMember sGoneOut = false ∧ isSet sGoneOut Obj.SELFTEST_PASS = true ∧ sGoneOut.turn.withdrawn = true) ∧
    (isMember (three 9 .p6) = true) :=
  by and_intros <;> decide

theorem wit_BarrierSlotsGatherAndRelease :
    ((slotTiles (sBar (bar bsIdle []) [1] 0) 3).contains 0 = true ∧ ((getBslot (sBar (bar bsIdle []) [1] 0) 3).state =
     bsIdle ∨ (getBslot (sBar (bar bsIdle []) [1] 0) 3).state = bsGathering) ∧ (getBslot (sBar (bar bsIdle []) [1] 0)
     3).tiles.contains 0 = false ∧ (∃ u, u ∈ slotTiles (sBar (bar bsIdle []) [1] 0) 3 ∧ u ≠ 0 ∧ (getBslot (sBar (bar
     bsIdle []) [1] 0) 3).tiles.contains u = false)) ∧
    ((slotTiles (sBar (bar bsGathering [0]) [1] 0) 3).contains 127 = true ∧ ((getBslot (sBar (bar bsGathering [0]) [1] 0)
     3).state = bsIdle ∨ (getBslot (sBar (bar bsGathering [0]) [1] 0) 3).state = bsGathering) ∧ (getBslot (sBar (bar
     bsGathering [0]) [1] 0) 3).tiles.contains 127 = false ∧ (∀ (u : Nat), u ∈ slotTiles (sBar (bar bsGathering [0])
     [1] 0) 3 → u = 127 ∨ (getBslot (sBar (bar bsGathering [0]) [1] 0) 3).tiles.contains u = true) ∧ slotNodes (sBar
     (bar bsGathering [0]) [1] 0) 3 = [selfNode (sBar (bar bsGathering [0]) [1] 0)] ∧ ((getBslot (sBar (bar
     bsGathering [0]) [1] 0) 3).mc = true ∨ isSet (sBar (bar bsGathering [0]) [1] 0) (Obj.bslot_MC_MEMBER 3) = false)) ∧
    ((slotTiles (sBar (bar bsFailed []) [1] 0) 3).contains 0 = true ∧ (getBslot (sBar (bar bsFailed []) [1] 0) 3).state =
     bsFailed) ∧
    (isSet (sBar (bar bsIdle []) [1] 1) (Obj.bslot_MC_MEMBER 3) = true ∧ ((getBslot (sBar (bar bsIdle []) [1] 1) 3).state
     = bsIdle ∨ (getBslot (sBar (bar bsIdle []) [1] 1) 3).state = bsGathering) ∧ (getBslot (sBar (bar bsIdle []) [1]
     1) 3).mc = false ∧ (∃ u, u ∈ slotTiles (sBar (bar bsIdle []) [1] 1) 3 ∧ (getBslot (sBar (bar bsIdle []) [1] 1)
     3).tiles.contains u = false)) ∧
    (isSet (sBar barMc [1] 1) (Obj.bslot_MC_MEMBER 3) = true ∧ ((getBslot (sBar barMc [1] 1) 3).state = bsIdle ∨ (getBslot
     (sBar barMc [1] 1) 3).state = bsGathering) ∧ (getBslot (sBar barMc [1] 1) 3).mc = true) ∧
    (strayMsg (sBar (bar bsGathering []) [3] 0) 1 3 7 = true) ∧
    (strayMsg (sBar (bar bsGathering []) [3] 0) 1 3 (2 ^ 32 - 1) = false ∧ (getBslot (sBar (bar bsGathering []) [3] 0)
     3).state ≠ bsFailed ∧ slotRoot (sBar (bar bsGathering []) [3] 0) 3 = selfNode (sBar (bar bsGathering []) [3] 0) ∧
     locallyComplete (sBar (bar bsGathering []) [3] 0) 3 = false) ∧
    (strayMsg (obj (sBar (bar bsGathering [0, 127]) [6] 0) Obj.NODE_ID 2) 1 3 (2 ^ 32 - 1) = false ∧ (getBslot (obj (sBar
     (bar bsGathering [0, 127]) [6] 0) Obj.NODE_ID 2) 3).state ≠ bsFailed ∧ slotRoot (obj (sBar (bar bsGathering [0,
     127]) [6] 0) Obj.NODE_ID 2) 3 ≠ selfNode (obj (sBar (bar bsGathering [0, 127]) [6] 0) Obj.NODE_ID 2)) ∧
    (let s := obj (obj (obj (sBar (bar bsGathering []) [6] 0) Obj.NODE_ID 2) (Obj.bslot_TILE_MASK_LO 3) 0) (Obj.bslot_TILE_MASK_HI 3) 0
     strayMsg s 1 3 (2 ^ 32 - 1) = false ∧ (getBslot s 3).state ≠ bsFailed ∧ slotRoot s 3 ≠ selfNode s ∧ slotTiles s 3 = [] ∧
       isSet s (Obj.bslot_MC_MEMBER 3) = false) ∧
    (strayMsg (sBar (bar bsGathering [0]) [3] 0) 1 3 (2 ^ 32 - 1) = false ∧ (getBslot (sBar (bar bsGathering [0]) [3] 0)
     3).state ≠ bsFailed) ∧
    ((getBslot (sBar (bar bsGathering [0]) [3] 0) 3).state = bsGathering ∧ (getBslot (sBar (bar bsGathering [0]) [3] 0)
     3).timer = true) ∧
    ((getBslot (sBar (bar bsFailed [0]) [3] 0) 3).state = bsFailed) ∧
    ((getBslot (sBar (bar bsIdle [0]) [3] 0) 3).state ≠ bsFailed) :=
  by and_intros <;> decide

theorem wit_RequestsAreAnswered :
    (Served (at' 9 Phase.p6) 1 mNone ∧ mNone.sub ≠ 0 ∧ hidden (at' 9 Phase.p6) mNone = false ∧ rowAt (mNone.index * 256 +
     mNone.sub) = none) ∧
    (Served (at' 9 Phase.p6) 1 mNone1 ∧ mNone1.sub ≠ 0 ∧ hidden (at' 9 Phase.p6) mNone1 = false ∧ rowAt (mNone1.index *
     256 + mNone1.sub) = none) ∧
    (Served (at' 9 Phase.p6) 1 mMetric3 ∧ mMetric3.sub ≠ 0 ∧ hidden (at' 9 Phase.p6) mMetric3 = false ∧ rowAt
     (mMetric3.index * 256 + mMetric3.sub) = some rowM ∧ segOnly rowM = false ∧ mMetric3.txn = false) ∧
    (Served sColl0 1 mMetric9 ∧ mMetric9.sub ≠ 0 ∧ hidden sColl0 mMetric9 = false ∧ rowAt (mMetric9.index * 256 +
     mMetric9.sub) = some rowM ∧ segOnly rowM = false ∧ mMetric9.txn = false ∧ writeCode sColl0 1 0 (mMetric9.index *
     256 + mMetric9.sub) rowM false false (leNat (List.take rowM.ty.size (cutMsg 1 mMetric9).data)) ≠ codeOk) ∧
    (Served (at' 9 Phase.p6) 1 mMetric9 ∧ mMetric9.sub ≠ 0 ∧ hidden (at' 9 Phase.p6) mMetric9 = false ∧ rowAt
     (mMetric9.index * 256 + mMetric9.sub) = some rowM ∧ segOnly rowM = false ∧ mMetric9.txn = false ∧ writeCode (at'
     9 Phase.p6) 1 0 (mMetric9.index * 256 + mMetric9.sub) rowM false false (leNat (List.take rowM.ty.size (cutMsg 1
     mMetric9).data)) = codeOk ∧ rowM.acc = ObjAcc.rws ∧ (getReq (at' 9 Phase.p6) 1).isOpen = false) ∧
    (Served sTxn 1 mHeat ∧ mHeat.sub ≠ 0 ∧ hidden sTxn mHeat = false ∧ rowAt (mHeat.index * 256 + mHeat.sub) = some rowH ∧
     segOnly rowH = false ∧ mHeat.txn = true ∧ writeCode sTxn 1 0 (mHeat.index * 256 + mHeat.sub) rowH true false
     (leNat (List.take rowH.ty.size (cutMsg 1 mHeat).data)) = codeOk ∧ stageWriteOf (getReq sTxn 1).staged
     (mHeat.index * 256 + mHeat.sub) (acceptBytes sTxn 1 true rowH (mHeat.index * 256 + mHeat.sub) (cutMsg 1
     mHeat).data) = some heat12) ∧
    (Served (at' 9 Phase.p6) 1 mTxn ∧ (getReq (at' 9 Phase.p6) 1).isOpen = false) ∧
    (Served sTxn 1 mTxn ∧ (getReq sTxn 1).isOpen = true ∧ (1 ≠ 0 ∨ (getReq sTxn 1).source = 0)) :=
  ⟨⟨⟨by decide, rfl, rfl, rfl, rfl, by decide, fun _ h => by cases h⟩, by decide, by decide, by decide⟩, ⟨⟨by decide,
   rfl, rfl, rfl, rfl, by decide, fun _ h => by cases h⟩, by decide, by decide, by decide⟩, ⟨⟨by decide, rfl, rfl,
   rfl, rfl, by decide, fun _ h => by cases h⟩, by and_intros <;> decide⟩, ⟨⟨by decide,
   rfl, rfl, rfl, rfl, by decide, fun _ h => by cases h⟩, by and_intros <;> decide⟩, ⟨⟨by decide, rfl, rfl, rfl, rfl, by decide, fun _ h => by cases h⟩, by and_intros <;> decide⟩, ⟨⟨by decide, rfl, rfl, rfl, rfl, by decide, fun _ h => by
   cases h⟩, by and_intros <;> decide⟩, ⟨⟨by decide, rfl, rfl, rfl,
   rfl, by decide, fun _ h => by cases h⟩, by decide⟩, ⟨⟨by decide, rfl, rfl, rfl, rfl, by decide, fun _ h => by cases
   h⟩, by decide, by decide⟩⟩

theorem wit_TransactionsApplyWhole :
    (sRefused.turn.phase = Phase.p4 ∧ sRefused.dict.commits = [jobOf wMetric] ∧ (jobOf wMetric).due ≤ boundary sRefused ∧
     isSet sRefused Obj.SWITCH = false ∧ firstRunning sRefused (jobOf wMetric).writes = some METRIC0) ∧
    ((sCommit wHeat).turn.phase = Phase.p4 ∧ (sCommit wHeat).dict.commits = [jobOf wHeat] ∧ (jobOf wHeat).due ≤ boundary
     (sCommit wHeat) ∧ isSet (sCommit wHeat) Obj.SWITCH = false ∧ (jobOf wHeat).writes = [(Obj.HEAT_SHIFT, [13])]) ∧
    ((sCommit []).turn.phase = Phase.p4 ∧ (sCommit []).dict.commits = [jobOf []] ∧ (jobOf []).due ≤ boundary (sCommit [])
     ∧ isSet (sCommit []) Obj.SWITCH = false ∧ (jobOf []).writes = [] ∧ (jobOf []).req < (sCommit []).dict.reqs.length
     ∧ (jobOf []).shown = true) ∧
    ((at' 9 Phase.p6).turn.phase ≠ Phase.p4) ∧
    (sOldTxn.turn.phase = Phase.p3 ∧ (getReq sOldTxn 1).isOpen = true ∧ 1 < sOldTxn.dict.reqs.length ∧ (getReq sOldTxn
     1).beginTurn + 65536 ≤ boundary sOldTxn) ∧
    (boundary (openTxn (at' 65535 Phase.p3)) < (getReq (openTxn (at' 65535 Phase.p3)) 1).beginTurn + 65536) ∧
    (nodeOn sRepeat = true ∧ sRepeat.ras.mcDown = false ∧ sRepeat.dict.served = true ∧ readIt.resp = false ∧ (getReq
     sRepeat 1).last = some (cutMsg 1 readIt, 0, readResp)) :=
  by and_intros <;> decide

theorem wit_SegmentsAndCarriersServe :
    (Served (at' 9 Phase.p6) 1 mInit ∧ hidden (at' 9 Phase.p6) mInit = false ∧ rowAt (mInit.index * 256 + mInit.sub) =
     some rowN ∧ rowN.ty.isDomain = true ∧ (getReq (at' 9 Phase.p6) 1).seg = none ∧ mInit.txn = false) ∧
    (Served (at' 9 Phase.p6) 1 mInit ∧ hidden (at' 9 Phase.p6) mInit = false ∧ rowAt (mInit.index * 256 + mInit.sub) =
     some rowN ∧ rowN.ty.isDomain = true ∧ (getReq (at' 9 Phase.p6) 1).seg = none ∧ mInit.txn = false ∧ writeCode (at'
     9 Phase.p6) 1 0 (mInit.index * 256 + mInit.sub) rowN false false 0 = codeOk) ∧
    (Served (at' 9 Phase.p6) 1 mInit ∧ (getReq (at' 9 Phase.p6) 1).seg = none) ∧
    (Served sSegR 1 mTag ∧ (getReq sSegR 1).seg = some segR ∧ (1 ≠ 0 ∨ segR.source = 0)) ∧
    (Served sSegR 1 mRead4 ∧ (getReq sSegR 1).seg = some segR ∧ (1 ≠ 0 ∨ segR.source = 0) ∧ segR.addr = mRead4.index * 256
     + mRead4.sub ∧ segR.write = false) ∧
    (Served sSegR 1 mRead0 ∧ (getReq sSegR 1).seg = some segR ∧ (1 ≠ 0 ∨ segR.source = 0) ∧ segR.addr = mRead0.index * 256
     + mRead0.sub ∧ segR.write = false) ∧
    (Served (inSeg segHalf) 1 mWrite4 ∧ (getReq (inSeg segHalf) 1).seg = some segHalf ∧ (1 ≠ 0 ∨ segHalf.source = 0) ∧
     segHalf.addr = mWrite4.index * 256 + mWrite4.sub ∧ segHalf.write = true ∧ mWrite4.offset / 4 * 4 = segHalf.sent ∧
     ((cutMsg 1 mWrite4).data.length % 4 = 0 ∨ segHalf.size ≤ mWrite4.offset / 4 * 4 + (cutMsg 1
     mWrite4).data.length)) ∧
    (Served (inSeg segHalf) 1 mWrite8 ∧ (getReq (inSeg segHalf) 1).seg = some segHalf ∧ (1 ≠ 0 ∨ segHalf.source = 0) ∧
     segHalf.addr = mWrite8.index * 256 + mWrite8.sub ∧ segHalf.write = true ∧ segHalf.sent < mWrite8.offset / 4 * 4) ∧
    (Served (inSeg segAll) 1 mEndBad ∧ (getReq (inSeg segAll) 1).seg = some segAll ∧ (1 ≠ 0 ∨ segAll.source = 0) ∧
     segAll.addr = mEndBad.index * 256 + mEndBad.sub ∧ segAll.write = true ∧ segAll.size ≤ segAll.sent ∧ crc32c
     segAll.content ≠ leNat (List.take 4 (cutMsg 1 mEndBad).data)) ∧
    (Served (inSeg segAll) 1 mEnd ∧ (getReq (inSeg segAll) 1).seg = some segAll ∧ (1 ≠ 0 ∨ segAll.source = 0) ∧
     segAll.addr = mEnd.index * 256 + mEnd.sub ∧ segAll.write = true ∧ segAll.size ≤ segAll.sent ∧ crc32c
     segAll.content = leNat (List.take 4 (cutMsg 1 mEnd).data) ∧ rowAt (mEnd.index * 256 + mEnd.sub) = some rowN ∧
     writeCode (inSeg segAll) 1 0 (mEnd.index * 256 + mEnd.sub) rowN false false 0 = codeOk ∧ mEnd.txn = false ∧
     mEnd.index * 256 + mEnd.sub ≠ Obj.FW_IMAGE ∧ (getReq (inSeg segAll) 1).isOpen = false) ∧
    (nodeOn (at' 9 Phase.p6) = true ∧ fnAccepts (at' 9 Phase.p6) (frameFn true) = true) ∧
    (nodeOn (at' 9 Phase.p6) = true ∧ fnAccepts (at' 9 Phase.p6) (frameFn false) = false) ∧
    (nodeOn sDead = false) ∧
    (ideRefused sGo false = false ∧ sGo.dict.mb.busy = false ∧ sGo.ras.mcDown = false ∧ serve sGo 1 0 false (mailboxMsg
     sGo.dict.mb) = (goOut.fst, some goOut.snd)) ∧
    (ideRefused sGoBusy false = false ∧ sGoBusy.dict.mb.busy = true) ∧
    (ideRefused (obj up Obj.IDE_REQUIRED 1) false = true) ∧
    (doeServed (at' 9 Phase.p6) = true) ∧
    (doeServed (at' 9 Phase.p6) = true ∧ serve (at' 9 Phase.p6) 2 0 false readIt = (doeOut.fst, some doeOut.snd)) ∧
    (doeServed State.reset = false) ∧
    (sSegLate.turn.phase = Phase.p3 ∧ 1 < sSegLate.dict.reqs.length ∧ (getReq sSegLate 1).seg = some segLate ∧
     segLate.deadline ≤ boundary sSegLate) ∧
    (sSegWait.turn.phase = Phase.p3 ∧ 1 < sSegWait.dict.reqs.length ∧ (getReq sSegWait 1).seg = some segR ∧ boundary
     sSegWait < segR.deadline) :=
  ⟨⟨⟨by decide, rfl, rfl, rfl, rfl, by decide, fun _ h => by cases h⟩, by and_intros <;> decide⟩, ⟨⟨by decide, rfl, rfl, rfl, rfl, by decide, fun _ h => by cases h⟩, by and_intros <;> decide⟩, ⟨⟨by decide, rfl, rfl, rfl, rfl, by decide, fun _ h => by cases h⟩, by decide⟩, ⟨⟨by
   decide, rfl, rfl, rfl, rfl, by decide, fun _ h => by cases h⟩, by decide, by decide⟩, ⟨⟨by decide, rfl, rfl, rfl,
   rfl, by decide, fun _ h => by cases h⟩, by decide, by decide, by decide, by decide⟩, ⟨⟨by decide, rfl, rfl, rfl,
   rfl, by decide, fun _ h => by cases h⟩, by decide, by decide, by decide, by decide⟩, ⟨⟨by decide, rfl, rfl, rfl,
   rfl, by decide, fun _ h => by cases h⟩, by and_intros <;> decide⟩, ⟨⟨by
   decide, rfl, rfl, rfl, rfl, by decide, fun _ h => by cases h⟩, by and_intros <;> decide⟩, ⟨⟨by decide, rfl, rfl, rfl, rfl, by decide, fun _ h => by cases h⟩, by decide, by decide, by decide, by
   decide, by decide, by decide +kernel⟩, ⟨⟨by decide, rfl, rfl, rfl, rfl, by decide, fun _ h => by cases h⟩, by
   decide, by decide, by decide, by decide, by decide, by decide +kernel, by and_intros <;> decide⟩, ⟨by decide, by simp [fnAccepts, frameFn, readIt, msg]⟩, by and_intros <;> decide⟩

theorem wit_TenancyAndSessions :
    ((sBind 9).turn.phase = Phase.p5 ∧ (sBind 9).sec.bindDue ≠ 0 ∧ (sBind 9).sec.bindDue ≤ (sBind 9).turn.no ∧ (sBind
     9).nv.tenant = 0) ∧
    (((sBind 0).turn.phase ≠ Phase.p5 ∨ (sBind 0).sec.bindDue = 0 ∨ (sBind 0).nv.tenant ≠ 0)) ∧
    (sDiag.turn.phase = Phase.p5 ∧ sDiag.sec.diagDue ≠ 0 ∧ sDiag.sec.diagDue ≤ sDiag.turn.no ∧ sDiag.nv.tenant = 0) ∧
    ((sSwitch 9 Phase.p6).sec.switchDue ≠ 0 ∧ (sSwitch 9 Phase.p6).turn.phase = Phase.p6 ∧ (sSwitch 9 Phase.p6).turn.no =
     (sSwitch 9 Phase.p6).sec.switchDue) ∧
    ((sSwitch 8 Phase.p6).turn.no ≠ (sSwitch 8 Phase.p6).sec.switchDue) ∧
    ((sSwitch 10 Phase.p5).sec.switchDue ≠ 0 ∧ (sSwitch 10 Phase.p5).turn.phase = Phase.p5 ∧ (sSwitch 10 Phase.p5).turn.no
     = nextTurn (sSwitch 10 Phase.p5).sec.switchDue) ∧
    ((sScrub none).sec.scrubbing = true ∧ (sScrub none).sec.scrubDone = none) ∧
    ((sScrub (some 70000)).sec.scrubDone = some 70000 ∧ (sScrub (some 70000)).turn.phase = Phase.p5) ∧
    (sStaged.sec.staged = 1) ∧
    (up.sec.staged ≠ 1) ∧
    (3 < up.dict.reqs.length) ∧
    (doeServed up = true ∧ leNat (slice [1, 2] 32 2) ≠ 1184) ∧
    (doeServed up = true ∧ leNat (slice (List.replicate 32 0 ++ leBytes 2 1184) 32 2) = 1184) ∧
    (doeServed up = true ∧ up.host.session = none) ∧
    (doeServed (sess (some 7)) = true ∧ (sess (some 7)).host.session = some sess7 ∧ sess7.lastSeq = some 7) ∧
    (doeServed (sess (some 7)) = true ∧ (sess (some 7)).host.session = some sess7 ∧ (∀ (l : Nat), sess7.lastSeq = some l →
     l < 8)) ∧
    (doeServed (sess none) = true ∧ (sess none).host.session = some sess0 ∧ (∀ (l : Nat), sess0.lastSeq = some l → l < 0)
     ∧ SecBody.ideKm 3 1 true = SecBody.ideKm 3 1 true ∧ 3 < (sess none).host.ide.length) ∧
    (ideOn.host.ide.getD 2 0 = 2) ∧
    (ideOn.host.ide.getD 4 0 ≠ 2) :=
  by and_intros <;> decide

theorem wit_WatchdogsResetTheirUnit :
    (∀ s ∈ [sTile 1, sTile 2], s.turn.phase = .p3 ∧ (s.turn.cur.any fun b => b.loans.any fun l => l.tile == 5 && unretired s l.engine) = true) ∧
    (tripsIn (sTile 1) levelTile 5 64 < 2 ∧ 2 ≤ tripsIn (sTile 2) levelTile 5 64 ∧ (sTile 2).turn.tileRetired.contains 5 = false) ∧
    ((at' 9 .p6).turn.phase ≠ .p3) ∧
    stalls (at' 9 .p2) .composer = false ∧
    (∀ s ∈ [sEng 1, sEng 2], (s.turn.phase = .p1 ∨ s.turn.phase = .p2 ∨ s.turn.phase = .p3) ∧ stalls s .composer = true) ∧
    (tripsIn (sEng 1) levelEngine (3 + 8 * engineNum .composer) 64 < 2 ∧ 2 ≤ tripsIn (sEng 2) levelEngine (3 + 8 * engineNum .composer) 64) ∧
    (tripsIn (at' 9 .p6) levelSequencer 1 64 < 2 ∧ (at' 9 .p6).turn.phase = .p6) ∧
    (getObj sLoop Obj.PLANNER_REPEAT_LIMIT ≤ sLoop.turn.repeats ∧ tripsIn sLoop levelPlanner 0 1024 = 0) ∧
    ((at' 9 .p6).turn.repeats < getObj (at' 9 .p6) Obj.PLANNER_REPEAT_LIMIT) ∧
    (getObj (openTxn (at' 9 .p6)) Obj.MC_WDT_MS ≤ 100000 ∧ (openTxn (at' 9 .p6)).ras.mcDown = false ∧ (openTxn (at' 9 .p6)).dict.served = true) ∧
    (0 < getObj (at' 9 .p6) Obj.MC_WDT_MS) ∧
    (sMcDown.ras.mcDown = true) ∧
    (up.ras.mcDown = false) ∧
    (isHolder sNoStore = true ∧ isLeader sNoStore = false ∧ 2 ≤ sNoStore.ledger.noStore) ∧
    (up.ledger.noStore < 2) :=
  by and_intros <;> decide

/-- A step of pseudo-channel 6 of stack 5 may be taken. -/
def mayStep (s : State) : Bool :=
  slackOpen s 11 && !hasWindow s { stack := 5, group := 6, bank := 0 } && decide (lookD s.ras.sweepUsed 5 0 < getObj s Obj.SWEEP_STEPS_PER_TURN)
    && !(s.ras.sweepRes.any fun r => r.1 == 64 * 5 + 6)

theorem wit_RepairsAndSweeps :
    (getList (obj sQuar Obj.SALVAGE_EN 1) key1 = some quar ∧ isSet (obj sQuar Obj.SALVAGE_EN 1) Obj.SALVAGE_EN = true ∧
     gateOpen (obj sQuar Obj.SALVAGE_EN 1) 10 = true ∧ quar.quarantined = true ∧ salvages (obj sQuar Obj.SALVAGE_EN 1) key1 = true) ∧
    ((getColl (inColl reloading up) 1).centLoading = true) ∧
    patrolReads (at' 9 .p5) .corrected = false ∧ (at' 9 .p6).turn.phase = .p6 ∧
    (let s := obj (at' 9 .p6) Obj.HOST_REGION_GIB 1
     s.turn.phase = .p6 ∧ inRegion s 20 = true ∧ hasWindow s (bankAt 20) = false) ∧
    (sTblOk.turn.phase = .p6 ∧ (getTable sTblOk 2).active = some tbl ∧ (tbl.row 1).err = false) ∧
    ((sDie.flash.dies.find? fun x => x.num == 4) = some die0 ∧ die0.retired.contains 7 = false) ∧
    ((look sDie.flash.maps (4, 6)).isSome = true ∧ pageFree sDie 4 0 = true ∧ pageBlock 0 ≠ 7) ∧
    (pageFree sDie 4 60 = false) ∧
    (up.ras.sweep = none) ∧
    (∀ s ∈ [sSweep 3 0, sSweep 3 63, sSweep 1 63], s.ras.sweep ≠ none ∧ mayStep s = true) ∧
    ((sSweep 3 0).ras.sweep = some (8, 1, 3) ∧ (8 = 8 ∨ 8 = 5) ∧ 5 < 8 ∧ 6 < 64 ∧ lookD (sSweep 3 0).ras.sweepPts (64 * 5 + 6) 0 + 1 < sweepPoints 1) ∧
    ((sSweep 3 63).ras.sweep = some (8, 1, 3) ∧ sweepPoints 1 ≤ lookD (sSweep 3 63).ras.sweepPts (64 * 5 + 6) 0 + 1 ∧ 1 < 3) ∧
    ((sSweep 1 63).ras.sweep = some (8, 1, 1) ∧ sweepPoints 1 ≤ lookD (sSweep 1 63).ras.sweepPts (64 * 5 + 6) 0 + 1 ∧ 1 ≤ 1) ∧
    ((obj (sSweep 1 0) Obj.GATE_STATE 0).ras.sweep = some (8, 1, 1) ∧ slackOpen (obj (sSweep 1 0) Obj.GATE_STATE 0) 11 = false) ∧
    (getObj (obj up Obj.MEMBER_LOAD 1) Obj.MEMBER_LOAD = 1) :=
  by and_intros <;> first | decide | simp [pageBlock]

theorem wit_NodeStartsAndStops :
    (nodeOn sPcieBad = true ∧ sPcieBad.clk.failed = [] ∧ (∀ (p : Nat), lookD sPcieBad.clk.pairBad p 0 = if p = 0 then 1
     else 0) ∧ agrees 4000 4096 1 = false ∧ agrees 6400 6400 1 = true) ∧
    (nodeOn up = true ∧ up.clk.failed = [] ∧ (∀ (p : Nat), lookD up.clk.pairBad p 0 < 2) ∧ agrees 4096 4096 1 = true ∧
     agrees 6400 6400 1 = true) ∧
    (nodeOn up = true) ∧
    (nodeOn (sFmc false) = true ∧ (sFmc false).clk.fmcRun = true ∧ (sFmc false).clk.fmcBad = false) ∧
    (nodeOn (sFmc true) = true ∧ (sFmc true).clk.fmcRun = true ∧ (sFmc true).clk.fmcBad = true) ∧
    (nodeOn up = true ∧ getObj up Obj.TJ_THROTTLE_C < 250) ∧
    (getObj (obj up (Obj.STACK_BAND 5) 2) (Obj.STACK_BAND 5) ≤ 3) ∧
    (sPorLow.clk.porLow = true ∧ sPorLow.clk.tripped = false) ∧
    ((at' 9 Phase.p6).host.perstLow = false) ∧
    (inStep sFw 2 = true ∧ sFw.clk.bootFailed = false ∧ sFw.nv.activateB = false ∧ copySvn sFw.nv.fwA (some 4) = some 4 ∧ sFw.nv.minSvn ≤ 4) ∧
    (copyPasses sFw (copySvn sFw.nv.fwA (some 3)) = false ∧ copySvn sFw.nv.fwB (some 5) = some 5 ∧ sFw.nv.minSvn ≤ 5) ∧
    (copyPasses sFw (copySvn sFw.nv.fwA (some 3)) = false ∧ copyPasses sFw (copySvn sFw.nv.fwB none) = false) ∧
    (inStep (sStep 3) 3 = true) ∧
    (inStep (sStep 4) 4 = true) ∧
    (inStep (sStep 5) 5 = true) ∧
    (inStep sScrubPending 6 = true) ∧
    (inStep sReady 7 = true ∧ sReady.clk.stepDone = true ∧ sReady.turn.phase = Phase.p5 ∧ sReady.clk.readyDue ≤
     sReady.turn.no) ∧
    (inStep (sStep 6) 7 = false) ∧
    (isMember sRetained = true ∧ sRetained.ras.load + 65535 ≤ sRetained.turn.no ∧ sRetained.nv.retained ≠ []) :=
  ⟨⟨by decide, by decide, pairs_pcie, by decide, by decide⟩, ⟨by decide, by decide, fun _ => Nat.zero_lt_two, by decide,
   by decide⟩, by and_intros <;> decide⟩

end Sys2Proof.Tests
end

/-! The host interface: the link, configuration requests and RC registers (R3, R58 to R62, R466, R479). -/

namespace Sys2Proof.Machine

open Sys2Proof

/-! ### The arms of the host's requests -/

theorem exec_pcieLinkUp (rate width : Nat) (s : State) : exec (.pcieLinkUp rate width) s = execPcieLinkUp rate width s := rfl
theorem exec_pcieLinkDown (s : State) : exec .pcieLinkDown s = execPcieLinkDown s := rfl
theorem exec_configRequest (q : CfgReq) (s : State) : exec (.configRequest q) s = execConfigRequest q s := rfl
theorem exec_rcRegisterRead (r : RcReg) (s : State) : exec (.rcRegisterRead r) s = execRcRegisterRead r s := rfl

/-! ### What leaves the node -/

theorem emit_last (s : State) (o : Output) : (emit s o).out.getLast? = some o := by
  rw [emit_out, List.getLast?_concat]

/-- What leaves ERROR_LOG as it is leaves an entered event in it. -/
theorem Logged.of_errorLog_eq {s t u : State} {code detail : Nat} (h : Logged s t code detail)
    (hlog : u.nv.errorLog = t.nv.errorLog) : Logged s u code detail := hlog.trans h

/-! ### The link -/

/-- The link in use at a trained rate and width, before its event is posted and what was kept is written. -/
def trainedLink (s : State) (rate width : Nat) : State :=
  onHost s fun h => { h with linkUp := true, rate := rate, width := width, degraded := !(rate == 3 && width == 16) }

/-- A link at ×16 and 64 GT/s posts no event. -/
theorem settleLink_full (s : State) {rate width : Nat} (h : rate = 3 ∧ width = 16) :
    settleLink s rate width = flushKept (trainedLink s rate width) := by
  obtain ⟨rfl, rfl⟩ := h
  rfl

/-- A link below that posts event 0x6002. -/
theorem settleLink_degraded (s : State) {rate width : Nat} (h : ¬(rate = 3 ∧ width = 16)) :
    settleLink s rate width = flushKept (postEvent (trainedLink s rate width) 0x6002 (rate + 8 * width)) := by
  have hlow : (!(rate == 3 && width == 16)) = true := by
    rw [Bool.not_eq_true', Bool.eq_false_iff]
    intro full
    rw [Bool.and_eq_true, beq_iff_eq, beq_iff_eq] at full
    exact h full
  unfold settleLink trainedLink
  simp only [hlow, if_true]

/-- Neither the event nor the kept writes touch the trained link. -/
theorem settleLink_link_same (s : State) (rate width : Nat) :
    Part.link.same (trainedLink s rate width) (settleLink s rate width) := by
  by_cases h : rate = 3 ∧ width = 16
  · rw [settleLink_full s h]
    exact (flushKept_frame _).keep .link rfl
  · rw [settleLink_degraded s h]
    exact Part.same_trans ((postEvent_frame _ _ _).keep .link rfl) ((flushKept_frame _).keep .link rfl)

theorem flushKept_errorLog (s : State) : (flushKept s).nv.errorLog = s.nv.errorLog :=
  ((flushKept_frame s).keep .errorLog rfl).1

theorem settleLink_full_errorLog (s : State) {rate width : Nat} (h : rate = 3 ∧ width = 16) :
    (settleLink s rate width).nv.errorLog = s.nv.errorLog := by
  rw [settleLink_full s h, flushKept_errorLog]
  rfl

theorem settleLink_degraded_logged (s : State) {rate width : Nat} (h : ¬(rate = 3 ∧ width = 16)) :
    Logged s (settleLink s rate width) 0x6002 (rate + 8 * width) := by
  rw [settleLink_degraded s h]
  have posted := postEvent_logged (trainedLink s rate width) 0x6002 (rate + 8 * width)
  exact posted.of_errorLog_eq (flushKept_errorLog _)

/-- Where the host is heard, the reference clock runs and R58 allows the rate and width, the link settles (R58, R466, R478). -/
theorem exec_pcieLinkUp_trains {s : State} {rate width : Nat} (hears : hostHears s = true)
    (clock : s.clk.failed.contains 2 = false) (serves : linkServes rate width = true) :
    exec (.pcieLinkUp rate width) s = .next (settleLink s rate width) := by
  rw [exec_pcieLinkUp, execPcieLinkUp]
  simp only [hears, clock, serves, Bool.not_false, Bool.and_self, if_true]

/-- Where one of the three is missing, the link stays as it is. -/
theorem exec_pcieLinkUp_stays {s : State} {rate width : Nat}
    (h : hostHears s = false ∨ s.clk.failed.contains 2 = true ∨ linkServes rate width = false) :
    exec (.pcieLinkUp rate width) s = .next s := by
  rw [exec_pcieLinkUp, execPcieLinkUp, if_neg]
  obtain hears | clock | serves := h
  · simp only [hears, Bool.false_and, Bool.false_eq_true, not_false_eq_true]
  · simp only [clock, Bool.not_true, Bool.and_false, Bool.false_and, Bool.false_eq_true, not_false_eq_true]
  · simp only [serves, Bool.and_false, Bool.false_eq_true, not_false_eq_true]

/-! ### Configuration requests -/

theorem exec_configRequest_retry {s : State} (q : CfgReq) (hears : hostHears s = true) (starting : isReady s = false) :
    exec (.configRequest q) s = .next (emit s .cfgRetry) := by
  rw [exec_configRequest]
  simp only [execConfigRequest, hears, starting, Bool.not_true, Bool.not_false, Bool.false_eq_true, if_false, if_true]

theorem exec_configRequest_read {s : State} (r : CfgReg) (hears : hostHears s = true) (ready : isReady s = true) :
    exec (.configRequest (.read r)) s = .next (emit s (.cfgData (cfgRead s r))) := by
  rw [exec_configRequest]
  simp only [execConfigRequest, hears, ready, Bool.not_true, Bool.false_eq_true, if_false]

theorem exec_configRequest_write {s : State} (r : CfgReg) (v : Nat) (hears : hostHears s = true) (ready : isReady s = true) :
    exec (.configRequest (.write r v)) s = .next (emit (cfgWrite s r v) .cfgOk) := by
  rw [exec_configRequest]
  simp only [execConfigRequest, hears, ready, Bool.not_true, Bool.false_eq_true, if_false]

/-- An aperture that the node supports lies within search memory (R61). -/
theorem aperture_le_searchBytes {s : State} (h : s.host.bar2Size ≤ 4) : aperture s ≤ searchBytes :=
  calc aperture s ≤ 2 ^ (34 + 4) := Nat.pow_le_pow_right (by decide) (by omega)
    _ ≤ searchBytes := by decide

/-- The clamp of R62 ends the window within search memory. -/
theorem setBase_window {s : State} (h : aperture s ≤ searchBytes) (v : Nat) :
    (setBase s v).host.bar2Base + aperture s ≤ searchBytes := by
  have hmin : (setBase s v).host.bar2Base ≤ searchBytes - aperture s := Nat.min_le_right _ _
  omega

/-- A write of the Resizable BAR control cuts the size to those supported, and the window with it stays within search memory. -/
theorem cfgWrite_rebar (s : State) (v : Nat) :
    (cfgWrite s .rebar v).host.bar2Size = min 4 (bitsOf v 8 6 - 14) ∧
    (cfgWrite s .rebar v).host.bar2Base + 2 ^ (34 + (cfgWrite s .rebar v).host.bar2Size) ≤ 768 * 2 ^ 30 :=
  ⟨rfl, setBase_window (aperture_le_searchBytes (Nat.min_le_left _ _)) _⟩

/-! ### RC registers -/

@[simp] theorem rcValue_emit (s : State) (o : Output) (r : RcReg) : rcValue (emit s o) r = rcValue s r := by
  cases r <;> rfl

theorem rcClear_out (s : State) (r : RcReg) : (rcClear s r).out = s.out := by
  cases r <;> rfl

/-- Every RC register but a bank's DROPS reads 0 once it is cleared. -/
theorem rcValue_rcClear_self (s : State) {r : RcReg} (h : ∀ b, r ≠ .bankDrops b) : rcValue (rcClear s r) r = 0 := by
  cases r with
  | bankDrops b => exact absurd rfl (h b)
  | doorbellDrops | bar2Drops | fetchErrors => rfl

/-- Of a bank's DROPS, LAST_REQ stays (Table 15.2). -/
theorem rcValue_rcClear_bankDrops (s : State) (b : Nat) :
    rcValue (rcClear s (.bankDrops b)) (.bankDrops b) = 2 ^ 48 * (getScr s b).lastReq := by
  simp only [rcValue, rcClear, getScr_setScr_self, Nat.mul_zero, Nat.zero_add]

/-- Clearing an RC register touches no other. -/
theorem rcValue_rcClear_ne (s : State) {r x : RcReg} (h : x ≠ r) : rcValue (rcClear s r) x = rcValue s x := by
  cases r with
  | bankDrops b =>
    cases x with
    | bankDrops a =>
      have hab : a ≠ b := fun hab => h (congrArg RcReg.bankDrops hab)
      simp only [rcValue, rcClear, getScr_setScr_ne s _ hab]
    | doorbellDrops | bar2Drops | fetchErrors => rfl
  | doorbellDrops =>
    cases x with
    | doorbellDrops => exact absurd rfl h
    | bar2Drops | fetchErrors | bankDrops a => rfl
  | bar2Drops =>
    cases x with
    | bar2Drops => exact absurd rfl h
    | doorbellDrops | fetchErrors | bankDrops a => rfl
  | fetchErrors =>
    cases x with
    | fetchErrors => exact absurd rfl h
    | doorbellDrops | bar2Drops | bankDrops a => rfl

/-! ### What the host's requests answer -/

/-- A training that R58 allows sets the link's fields; ERROR_LOG shows whether it came up degraded (R58). -/
theorem pcieLinkUp_completes {s : State} {rate width : Nat} (hears : hostHears s = true)
    (clock : s.clk.failed.contains 2 = false) (serves : linkServes rate width = true) :
    Completes (.pcieLinkUp rate width) s fun t =>
      t.host.linkUp = true ∧ t.host.rate = rate ∧ t.host.width = width ∧ t.host.degraded = !(rate == 3 && width == 16) ∧
      (rate = 3 ∧ width = 16 → t.nv.errorLog = s.nv.errorLog) ∧
      (¬(rate = 3 ∧ width = 16) → Logged s t 0x6002 (rate + 8 * width)) := by
  obtain ⟨hup, hrate, hwidth, hdegraded, -⟩ := settleLink_link_same s rate width
  exact ⟨_, exec_pcieLinkUp_trains hears clock serves, hup, hrate, hwidth, hdegraded, settleLink_full_errorLog s,
    settleLink_degraded_logged s⟩

/-- A write of a configuration register is taken once the node is ready (R61, R62, R479). -/
theorem configRequest_write_completes {s : State} (r : CfgReg) (v : Nat) (hears : hostHears s = true)
    (ready : isReady s = true) :
    Completes (.configRequest (.write r v)) s fun t =>
      t.out.getLast? = some Output.cfgOk ∧
      (r = .ids ∨ r = .classRev → t = { s with out := s.out ++ [Output.cfgOk] }) ∧
      (r = .devCtl → t.host.mps = min 2 (bitsOf v 5 3) ∧ t.host.mrrs = min 5 (bitsOf v 12 3)) ∧
      (r = .aer → t.host.aer = s.host.aer - (s.host.aer &&& v)) ∧
      (r = .rebar → t.host.bar2Size = min 4 (bitsOf v 8 6 - 14) ∧
        t.host.bar2Base + 2 ^ (34 + t.host.bar2Size) ≤ 768 * 2 ^ 30) := by
  refine ⟨_, exec_configRequest_write r v hears ready, emit_last _ _, ?_, ?_, ?_, ?_⟩
  · rintro (rfl | rfl) <;> rfl
  · rintro rfl
    exact ⟨rfl, rfl⟩
  · rintro rfl
    rfl
  · rintro rfl
    exact cfgWrite_rebar s v

/-- An RC register returns what it holds and is cleared by that read alone (R3, Tables 3.3 and 15.2). -/
theorem rcRegisterRead_completes (r : RcReg) (s : State) :
    Completes (.rcRegisterRead r) s fun t =>
      t.out = s.out ++ [Output.readData (leBytes (rcBytes r) (rcValue s r))] ∧
      ((∀ b, r ≠ .bankDrops b) → rcValue t r = 0) ∧
      (∀ b, r = .bankDrops b → rcValue t r = 2 ^ 48 * (getScr s b).lastReq) ∧
      ∀ x, x ≠ r → rcValue t x = rcValue s x := by
  refine ⟨_, exec_rcRegisterRead r s, ?_, fun hr => ?_, ?_, fun x hx => ?_⟩
  · rw [emit_out, rcClear_out]
  · rw [rcValue_emit, rcValue_rcClear_self s hr]
  · rintro b rfl
    rw [rcValue_emit, rcValue_rcClear_bankDrops]
  · rw [rcValue_emit, rcValue_rcClear_ne s hx]

/-- Settles O16: the link, configuration requests and RC registers, each from what its command answers. -/
theorem linkAndRegisterReads : Obligations.LinkAndRegisterReads := by
  refine ⟨fun s rate width => ⟨pcieLinkUp_completes, exec_pcieLinkUp_stays, ?_, fun q hears starting => ?_,
    fun r hears ready => ?_, configRequest_write_completes⟩, rcRegisterRead_completes⟩
  · exact ⟨_, exec_pcieLinkDown s, rfl⟩
  · exact ⟨_, exec_configRequest_retry q hears starting, rfl⟩
  · exact ⟨_, exec_configRequest_read r hears ready, rfl⟩

end Sys2Proof.Machine

/-! The whole machine: what every command answers, what it may write, and the invariant that every step keeps (R26, R33, R57). -/

namespace Sys2Proof.Machine

open Sys2Proof

/-! ### Every command answers, and writes its footprint alone -/

/-- No command is refused or faults: every meaning ends in a next state, NEXT_OWNER_WRITE in each of its two branches (R342, R350). -/
theorem exec_answers (c : Instr) (s : State) : ∃ t, exec c s = .next t := by
  cases c
  case nextOwnerWrite bank code =>
    unfold exec execNextOwnerWrite
    dsimp only
    split
    · exact ⟨_, rfl⟩
    · exact ⟨_, rfl⟩
  all_goals exact ⟨_, rfl⟩

theorem Completes.imp {c : Instr} {s : State} {P Q : State → Prop} (h : Completes c s P) (hPQ : ∀ t, P t → Q t) :
    Completes c s Q :=
  let ⟨t, ht, hp⟩ := h
  ⟨t, ht, hPQ t hp⟩

/-- The frame of a command is that of its meaning. -/
theorem exec_frame : ∀ (c : Instr) (s t : State), exec c s = .next t → Frame (footprint c) s t
  | .workCutoff => execWorkCutoff_frame
  | .completionSnapshot => execCompletionSnapshot_frame
  | .arrivalSnapshot => execArrivalSnapshot_frame
  | .timeoutEvaluation => execTimeoutEvaluation_frame
  | .latch => execLatch_frame
  | .turnNoIncrement => execTurnNoIncrement_frame
  | .arrivalAllowanceEnd => execArrivalAllowanceEnd_frame
  | .plannerBoardWrite half board => execPlannerBoardWrite_frame half board
  | .alignmentWithdrawal => execAlignmentWithdrawal_frame
  | .periodSwitch => execPeriodSwitch_frame
  | .grantRefresh grants => execGrantRefresh_frame grants
  | .deadlineBoundary qh => execDeadlineBoundary_frame qh
  | .unitDeadlineDrop unit => execUnitDeadlineDrop_frame unit
  | .caravanComplete src turn frames counted sections => execCaravanComplete_frame src turn frames counted sections
  | .pcieLinkUp rate width => execPcieLinkUp_frame rate width
  | .pcieLinkDown => execPcieLinkDown_frame
  | .configRequest req => execConfigRequest_frame req
  | .registerWrite offset size value secure => execRegisterWrite_frame offset size value secure
  | .rcRegisterRead reg => execRcRegisterRead_frame reg
  | .bar2WindowBaseWrite value => execBar2WindowBaseWrite_frame value
  | .bar2Read offset len uncorrectable secure busy => execBar2Read_frame offset len uncorrectable secure busy
  | .bar2Write offset data secure busy => execBar2Write_frame offset data secure busy
  | .queueEnable q => execQueueEnable_frame q
  | .queueDisable q => execQueueDisable_frame q
  | .queueEnableApply q => execQueueEnableApply_frame q
  | .queueDisableApply q => execQueueDisableApply_frame q
  | .doorbellWrite q size value tick secure => execDoorbellWrite_frame q size value tick secure
  | .entryFetchComplete q tally entry payload => execEntryFetchComplete_frame q tally entry payload
  | .entryAdmission => execEntryAdmission_frame
  | .queueTallyPublish q => execQueueTallyPublish_frame q
  | .gateTakeover => execGateTakeover_frame
  | .compose qh bad => execCompose_frame qh bad
  | .readAhead q tally => execReadAhead_frame q tally
  | .groupPromotionComplete table group => execGroupPromotionComplete_frame table group
  | .groupDescriptorSwitch table group => execGroupDescriptorSwitch_frame table group
  | .tableLoad table => execTableLoad_frame table
  | .tableBuildComplete table image => execTableBuildComplete_frame table image
  | .tableSwitch table => execTableSwitch_frame table
  | .tableVersionSwitch table => execTableVersionSwitch_frame table
  | .imageLoad slot => execImageLoad_frame slot
  | .imageLoadComplete slot image peers => execImageLoadComplete_frame slot image peers
  | .segmentPlacementComplete slot => execSegmentPlacementComplete_frame slot
  | .encoderSegment slot seg bad => execEncoderSegment_frame slot seg bad
  | .layerReloadComplete slot layer => execLayerReloadComplete_frame slot layer
  | .unload slot => execUnload_frame slot
  | .slotFree slot => execSlotFree_frame slot
  | .precisionChange slot layer => execPrecisionChange_frame slot layer
  | .statEpochEnd => execStatEpochEnd_frame
  | .imgLoad coll => execImgLoad_frame coll
  | .collectionImageLoadComplete coll image => execCollectionImageLoadComplete_frame coll image
  | .run coll => execRun_frame coll
  | .collectionStop coll => execCollectionStop_frame coll
  | .drop coll => execDrop_frame coll
  | .stateFree => execStateFree_frame
  | .coarseRoute qh => execCoarseRoute_frame qh
  | .sketchScan unit uncorrectable => execSketchScan_frame unit uncorrectable
  | .widen qh => execWiden_frame qh
  | .exactRerank unit uncorrectable => execExactRerank_frame unit uncorrectable
  | .candidateRequest way dieBusy => execCandidateRequest_frame way dieBusy
  | .candidateReadComplete way outcome => execCandidateReadComplete_frame way outcome
  | .rescore coll bad => execRescore_frame coll bad
  | .localSelect unit => execLocalSelect_frame unit
  | .bazaarMerge qh => execBazaarMerge_frame qh
  | .nop src bank cmd => execNop_frame src bank cmd
  | .and src bank cmd => execAnd_frame src bank cmd
  | .or src bank cmd => execOr_frame src bank cmd
  | .xor src bank cmd => execXor_frame src bank cmd
  | .not src bank cmd => execNot_frame src bank cmd
  | .pred src bank cmd => execPred_frame src bank cmd
  | .count src bank cmd badRow => execCount_frame src bank cmd badRow
  | .select src bank cmd badRow => execSelect_frame src bank cmd badRow
  | .hclear src bank cmd => execHclear_frame src bank cmd
  | .hdump src bank cmd => execHdump_frame src bank cmd
  | .stackBandChange stack temp => execStackBandChange_frame stack temp
  | .insert wid => execInsert_frame wid
  | .upsert wid => execUpsert_frame wid
  | .delete wid => execDelete_frame wid
  | .ingestNop wid => execIngestNop_frame wid
  | .ingestCommit wid => execIngestCommit_frame wid
  | .ackWaitExpiry wid => execAckWaitExpiry_frame wid
  | .directoryOrdering coll shard turn => execDirectoryOrdering_frame coll shard turn
  | .directoryRebuildComplete coll shard => execDirectoryRebuildComplete_frame coll shard
  | .compactionStart key => execCompactionStart_frame key
  | .compactionComplete key => execCompactionComplete_frame key
  | .segmentSetSwitch key => execSegmentSetSwitch_frame key
  | .adaptationEpochEnd coll => execAdaptationEpochEnd_frame coll
  | .reshapeBuildComplete key => execReshapeBuildComplete_frame key
  | .centroidDriftApply coll epoch => execCentroidDriftApply_frame coll epoch
  | .placementReview heatPct members modules eyes lifePct health => execPlacementReview_frame heatPct members modules eyes lifePct health
  | .hotCopyComplete key mirrorBad => execHotCopyComplete_frame key mirrorBad
  | .copyDrop coll => execCopyDrop_frame coll
  | .rangeDrainComplete range => execRangeDrainComplete_frame range
  | .copyStart key => execCopyStart_frame key
  | .copySnapshotTransfer key mirrorBad => execCopySnapshotTransfer_frame key mirrorBad
  | .logReplay key => execLogReplay_frame key
  | .copyAbort key cause => execCopyAbort_frame key cause
  | .scratchRead addr len code fault work => execScratchRead_frame addr len code fault work
  | .scratchWrite addr data code fault => execScratchWrite_frame addr data code fault
  | .add32 addr operand code fault work => execAdd32_frame addr operand code fault work
  | .add64 addr operand code fault work => execAdd64_frame addr operand code fault work
  | .swap32 addr operand code fault work => execSwap32_frame addr operand code fault work
  | .swap64 addr operand code fault work => execSwap64_frame addr operand code fault work
  | .nextOwnerWrite bank code => execNextOwnerWrite_frame bank code
  | .relocationCopyComplete die lpn phys => execRelocationCopyComplete_frame die lpn phys
  | .programFailure die block pages => execProgramFailure_frame die block pages
  | .linkUp port peerNode peerPort peerPart delayPs modKind => execLinkUp_frame port peerNode peerPort peerPart delayPs modKind
  | .laneLockLoss port => execLaneLockLoss_frame port
  | .dataFlit port flit => execDataFlit_frame port flit
  | .nakFlit port flit => execNakFlit_frame port flit
  | .idleFlit port flit => execIdleFlit_frame port flit
  | .pingFlit port flit hold => execPingFlit_frame port flit hold
  | .pongFlit port flit arrival => execPongFlit_frame port flit arrival
  | .discFlit port peerNode peerPort peerPart now => execDiscFlit_frame port peerNode peerPort peerPart now
  | .replayTimeout port => execReplayTimeout_frame port
  | .pingTimer now => execPingTimer_frame now
  | .frameReceive frame => execFrameReceive_frame frame
  | .e2eAckTimer => execE2eAckTimer_frame
  | .transportAck dst cls next resend => execTransportAck_frame dst cls next resend
  | .boundaryMark port mark hold offset => execBoundaryMark_frame port mark hold offset
  | .markLossWithdrawal => execMarkLossWithdrawal_frame
  | .ledgerEpochForm withdrawn => execLedgerEpochForm_frame withdrawn
  | .epochStore leader epoch => execEpochStore_frame leader epoch
  | .epochCommit acks => execEpochCommit_frame acks
  | .epochApply => execEpochApply_frame
  | .heartbeat leader => execHeartbeat_frame leader
  | .leaderTimeout => execLeaderTimeout_frame
  | .vote cands votes => execVote_frame cands votes
  | .found => execFound_frame
  | .join => execJoin_frame
  | .memberRequest node tag state => execMemberRequest_frame node tag state
  | .get src key => execGet_frame src key
  | .put src key value => execPut_frame src key value
  | .del src key => execDel_frame src key
  | .arrive slot tile => execArrive_frame slot tile
  | .bslotArrive slot => execBslotArrive_frame slot
  | .arriveMessage src slot gen => execArriveMessage_frame src slot gen
  | .releaseMessage src slot gen => execReleaseMessage_frame src slot gen
  | .abortMessage src slot gen cause => execAbortMessage_frame src slot gen cause
  | .barrierTimeout slot => execBarrierTimeout_frame slot
  | .clear slot => execClear_frame slot
  | .read req msg => execRead_frame req msg
  | .write req msg => execWrite_frame req msg
  | .txnBegin req msg => execTxnBegin_frame req msg
  | .commit req msg => execCommit_frame req msg
  | .rollback req msg => execRollback_frame req msg
  | .segReadInit req msg => execSegReadInit_frame req msg
  | .segRead req msg => execSegRead_frame req msg
  | .segWriteInit req msg => execSegWriteInit_frame req msg
  | .segWrite req msg => execSegWrite_frame req msg
  | .segWriteEnd req msg => execSegWriteEnd_frame req msg
  | .segAbort req msg => execSegAbort_frame req msg
  | .fnFrame frame => execFnFrame_frame frame
  | .mbGo secure => execMbGo_frame secure
  | .doeRequest obj => execDoeRequest_frame obj
  | .doeAbort => execDoeAbort_frame
  | .txnApply => execTxnApply_frame
  | .txnWatchdog req => execTxnWatchdog_frame req
  | .segIdleTimeout req => execSegIdleTimeout_frame req
  | .bind nonce => execBind_frame nonce
  | .tenantSwitch => execTenantSwitch_frame
  | .scrubStart => execScrubStart_frame
  | .scrubComplete ms => execScrubComplete_frame ms
  | .scrubEndBoundary => execScrubEndBoundary_frame
  | .diagEn nonce => execDiagEn_frame nonce
  | .fwActivate => execFwActivate_frame
  | .attRequest req data => execAttRequest_frame req data
  | .getReport data coins => execGetReport_frame data coins
  | .secured seq tagOk body => execSecured_frame seq tagOk body
  | .ideIntegrityFailure stream => execIdeIntegrityFailure_frame stream
  | .tileWatchdog tile work => execTileWatchdog_frame tile work
  | .stageEngineWatchdog quarter engine work => execStageEngineWatchdog_frame quarter engine work
  | .turnSequencerWatchdog half late => execTurnSequencerWatchdog_frame half late
  | .plannerWatchdog => execPlannerWatchdog_frame
  | .mcWatchdog unservicedMs => execMcWatchdog_frame unservicedMs
  | .mcResetComplete => execMcResetComplete_frame
  | .ledgerHolderWatchdog => execLedgerHolderWatchdog_frame
  | .salvageComplete key unreadable => execSalvageComplete_frame key unreadable
  | .centroidReloadComplete coll => execCentroidReloadComplete_frame coll
  | .patrolRead hit => execPatrolRead_frame hit
  | .sweepStart => execSweepStart_frame
  | .sweepStep stack channel result => execSweepStep_frame stack channel result
  | .droopEvent half => execDroopEvent_frame half
  | .memberLoadComplete => execMemberLoadComplete_frame
  | .clockMonitorWindow w => execClockMonitorWindow_frame w
  | .fmcStart => execFmcStart_frame
  | .fmcGateEnd count => execFmcGateEnd_frame count
  | .powerSample rails tj0 tj1 scratch => execPowerSample_frame rails tj0 tj1 scratch
  | .thermalTrip => execThermalTrip_frame
  | .por level => execPor_frame level
  | .powerLoss => execPowerLoss_frame
  | .perstAssert => execPerstAssert_frame
  | .perstRelease => execPerstRelease_frame
  | .bootComplete copyA copyB ms => execBootComplete_frame copyA copyB ms
  | .memoryTrainingComplete failed ms => execMemoryTrainingComplete_frame failed ms
  | .repairFuseLoadComplete fuses badBanks badTiles ms => execRepairFuseLoadComplete_frame fuses badBanks badTiles ms
  | .flashTranslationMount present trained differ margins targets luns rawGb ms => execFlashTranslationMount_frame present trained differ margins targets luns rawGb ms
  | .indexVersionsSwitch ms => execIndexVersionsSwitch_frame ms
  | .ready ms => execReady_frame ms
  | .retainedMediaDiscard => execRetainedMediaDiscard_frame
  | .edgeRewriteComplete coll centroid => execEdgeRewriteComplete_frame coll centroid

/-- A part outside the footprint of a command is the same after it. -/
theorem exec_keeps_part {c : Instr} {s t : State} {p : Part} (h : exec c s = .next t)
    (hp : (footprint c).contains p = false) : p.same s t := (exec_frame c s t h).keep p hp

/-- A part that a command has changed is in its footprint. -/
theorem mem_footprint_of_changed {c : Instr} {s t : State} {p : Part} (h : exec c s = .next t) (hne : ¬ p.same s t) :
    (footprint c).contains p = true := Bool.of_not_eq_false fun hp => hne (exec_keeps_part h hp)

/-- The queue of commands is in no footprint. -/
theorem pending_notMem_footprint (c : Instr) : (footprint c).contains .pending = false := by
  cases c <;> rfl

theorem step_cons {s : State} {c : Instr} {rest : List Instr} (h : s.pending = c :: rest) :
    step s = exec c { s with pending := rest } := by
  unfold step
  rw [h]

theorem step_nil {s : State} (h : s.pending = []) : step s = .next s := by
  unfold step
  rw [h]

/-- Settles O1: `step` by whether a command waits. -/
theorem stepRunsFrontCommand : Obligations.StepRunsFrontCommand :=
  ⟨fun _ _ _ h => step_cons h, fun _ h => step_nil h⟩

/-- Settles O2: every meaning answers, and the queue is in no command's footprint. -/
theorem everyCommandAnswersNext : Obligations.EveryCommandAnswersNext := by
  intro c s
  obtain ⟨t, ht⟩ := exec_answers c s
  exact ⟨t, ht, exec_keeps_part ht (pending_notMem_footprint c)⟩

/-- Settles O3: the frame of each meaning. -/
theorem commandsWriteOnlyTheirFootprint : Obligations.CommandsWriteOnlyTheirFootprint := exec_frame

/-! ### Which footprints hold a part -/

theorem turnNo_mem_footprint {c : Instr} (h : (footprint c).contains .turnNo = true) :
    c = .turnNoIncrement ∨ c = .epochApply ∨ (∃ held, c = .por held) ∨ c = .powerLoss := by
  cases c
  case turnNoIncrement | epochApply | por | powerLoss => simp
  all_goals exact absurd h Bool.false_ne_true

theorem phase_mem_footprint {c : Instr} (h : (footprint c).contains .phase = true) :
    c = .workCutoff ∨ c = .completionSnapshot ∨ c = .arrivalSnapshot ∨ c = .timeoutEvaluation ∨ c = .latch ∨
      c = .turnNoIncrement ∨ c = .arrivalAllowanceEnd ∨ (∃ held, c = .por held) ∨ c = .powerLoss := by
  cases c
  case workCutoff | completionSnapshot | arrivalSnapshot | timeoutEvaluation | latch | turnNoIncrement | arrivalAllowanceEnd
    | por | powerLoss => simp
  all_goals exact absurd h Bool.false_ne_true

theorem tenancy_mem_footprint {c : Instr} (h : (footprint c).contains .tenancy = true) :
    (∃ n, c = .bind n) ∨ (∃ n, c = .diagEn n) ∨ c = .scrubStart ∨ c = .scrubEndBoundary ∨ (∃ ms, c = .ready ms) := by
  cases c
  case bind | diagEn | scrubStart | scrubEndBoundary | ready => simp
  all_goals exact absurd h Bool.false_ne_true

theorem doe_mem_footprint {c : Instr} (h : (footprint c).contains .doe = true) :
    (∃ q, c = .configRequest q) ∨ (∃ o, c = .doeRequest o) ∨ c = .doeAbort ∨ (∃ a b, c = .getReport a b) ∨
      (∃ a b d, c = .secured a b d) ∨ (∃ n, c = .ideIntegrityFailure n) ∨ c = .scrubStart ∨ (∃ ms, c = .mcWatchdog ms) ∨
      c = .perstAssert ∨ (∃ held, c = .por held) ∨ c = .powerLoss := by
  cases c
  case configRequest | doeRequest | doeAbort | getReport | secured | ideIntegrityFailure | scrubStart | mcWatchdog
    | perstAssert | por | powerLoss => simp
  all_goals exact absurd h Bool.false_ne_true

theorem smemCells_mem_footprint {c : Instr} (h : (footprint c).contains .smemCells = true) :
    (∃ r b o, c = .nop r b o) ∨ (∃ r b o, c = .and r b o) ∨ (∃ r b o, c = .or r b o) ∨ (∃ r b o, c = .xor r b o) ∨
      (∃ r b o, c = .not r b o) ∨ (∃ r b o, c = .pred r b o) ∨ (∃ r b o x, c = .count r b o x) ∨
      (∃ r b o x, c = .select r b o x) ∨ (∃ r b o, c = .hclear r b o) ∨ (∃ r b o, c = .hdump r b o) ∨
      (∃ o n d e, c = .bar2Write o n d e) ∨ (∃ n l, c = .sketchScan n l) ∨ (∃ q, c = .queueTallyPublish q) ∨
      c = .workCutoff ∨ c = .turnNoIncrement ∨ c = .tenantSwitch ∨ c = .scrubStart ∨ (∃ held, c = .por held) ∨
      c = .powerLoss := by
  cases c
  case nop | and | or | xor | not | pred | count | select | hclear | hdump | bar2Write | sketchScan | queueTallyPublish
    | workCutoff | turnNoIncrement | tenantSwitch | scrubStart | por | powerLoss => simp
  all_goals exact absurd h Bool.false_ne_true

theorem scrCells_mem_footprint {c : Instr} (h : (footprint c).contains .scrCells = true) :
    (∃ a d k f, c = .scratchWrite a d k f) ∨ (∃ a o k f w, c = .add32 a o k f w) ∨ (∃ a o k f w, c = .add64 a o k f w) ∨
      (∃ a o k f w, c = .swap32 a o k f w) ∨ (∃ a o k f w, c = .swap64 a o k f w) ∨ c = .scrubStart ∨
      (∃ held, c = .por held) ∨ c = .powerLoss := by
  cases c
  case scratchWrite | add32 | add64 | swap32 | swap64 | scrubStart | por | powerLoss => simp
  all_goals exact absurd h Bool.false_ne_true

/-! ### Who moves the turn, the tenant and the memories -/

/-- What a write of a configuration register changes of IDE is the address association alone (R439). -/
theorem cfgWrite_sessions (s : State) (r : CfgReg) (v : Nat) :
    (cfgWrite s r v).host.session = s.host.session ∧ (cfgWrite s r v).host.ide = s.host.ide ∧
      (cfgWrite s r v).host.ideSet = s.host.ideSet := by
  cases r with
  | ideAssoc st b w =>
    unfold cfgWrite
    dsimp only
    split
    · obtain ⟨hide, hset, -, hsession, -⟩ := (flushKept_frame (onHost s fun h =>
        { h with ideAssoc := sput 0 h.ideAssoc (6 * st + 3 * b + w) (assocWord w v) })).keep .doe rfl
      exact ⟨hsession, hide, hset⟩
    · exact ⟨rfl, rfl, rfl⟩
  | ids | classRev | devCtl | aer | rebar => exact ⟨rfl, rfl, rfl⟩

/-- A configuration request leaves the IDE streams and the session. -/
theorem exec_configRequest_sessions {q : CfgReq} {s t : State} (h : exec (.configRequest q) s = .next t) :
    t.host.session = s.host.session ∧ t.host.ide = s.host.ide ∧ t.host.ideSet = s.host.ideSet := by
  rw [exec_configRequest] at h
  unfold execConfigRequest at h
  injection h with h
  subst h
  split
  · exact ⟨rfl, rfl, rfl⟩
  · split
    · exact ⟨rfl, rfl, rfl⟩
    · split
      · exact ⟨rfl, rfl, rfl⟩
      · exact cfgWrite_sessions s _ _

/-- A command that changes the IDE streams or the session is no configuration request, and holds them in its footprint. -/
theorem sessions_changed {c : Instr} {s t : State} (h : exec c s = .next t)
    (hne : t.host.session ≠ s.host.session ∨ t.host.ide ≠ s.host.ide ∨ t.host.ideSet ≠ s.host.ideSet) :
    (footprint c).contains .doe = true ∧ ∀ q, c ≠ .configRequest q := by
  refine ⟨mem_footprint_of_changed h ?_, ?_⟩
  · rintro ⟨hide, hset, -, hsession, -⟩
    simp only [hsession, hide, hset, ne_eq, not_true_eq_false, or_self] at hne
  · rintro q rfl
    obtain ⟨hsession, hide, hset⟩ := exec_configRequest_sessions h
    simp only [hsession, hide, hset, ne_eq, not_true_eq_false, or_self] at hne

/-- Settles O6: each part is in the footprint of the commands named alone; of the configuration requests, which share a part with
the IDE streams, each leaves them. -/
theorem onlyTheseMoveTurnAndTenant : Obligations.OnlyTheseMoveTurnAndTenant := by
  refine ⟨⟨fun c s t h hne => ?_, fun c s t h hne => ?_⟩, fun c s t h hne => ?_, fun c s t h hne => ?_⟩
  · exact turnNo_mem_footprint (mem_footprint_of_changed h hne)
  · exact phase_mem_footprint (mem_footprint_of_changed h hne)
  · refine tenancy_mem_footprint (mem_footprint_of_changed h ?_)
    rintro ⟨htenant, htag, hnonce, -⟩
    simp only [htenant, htag, hnonce, ne_eq, not_true_eq_false, or_self] at hne
  · obtain ⟨hdoe, hcfg⟩ := sessions_changed h hne
    exact (doe_mem_footprint hdoe).resolve_left fun ⟨q, hq⟩ => hcfg q hq

/-- Settles O7: the bytes of a memory are in the footprint of the commands named alone. -/
theorem onlyTheseWriteMemory : Obligations.OnlyTheseWriteMemory := by
  refine ⟨fun c s t h ⟨a, hne⟩ => ?_, fun c s t h ⟨a, hne⟩ => ?_⟩
  · refine smemCells_mem_footprint (mem_footprint_of_changed h fun hsame => hne ?_)
    rw [show t.smem.cells = s.smem.cells from hsame]
  · refine scrCells_mem_footprint (mem_footprint_of_changed h fun hsame => hne ?_)
    rw [show t.scratch.cells = s.scratch.cells from hsame]

end Sys2Proof.Machine

/-! The invariant: both memories canonical, TENANT_STATE legal, TURN_NO a 48-bit count (R26, R239, R340, R430). -/

namespace Sys2Proof.Machine

open Sys2Proof

variable {s t : State}

/-! ### What keeps the invariant -/

/-- The parts of the state that the invariant reads. -/
def invParts : List Part := [.smemCells, .scrCells, .tenancy, .turnNo]

/-- A change outside those parts keeps the invariant. -/
theorem Inv.of_frame {w : List Part} (h : Inv s) (f : Frame w s t) (hw : (invParts.all fun p => !w.contains p) = true) :
    Inv t := by
  have same : ∀ p ∈ invParts, p.same s t := fun p hp => f.keep p (by simpa using List.all_eq_true.mp hw p hp)
  have hsmem : t.smem.cells = s.smem.cells := same .smemCells (by decide)
  have hscratch : t.scratch.cells = s.scratch.cells := same .scrCells (by decide)
  obtain ⟨htenant, -⟩ := same .tenancy (by decide)
  have hno : t.turn.no = s.turn.no := same .turnNo (by decide)
  exact ⟨hsmem ▸ h.smem, hscratch ▸ h.scratch, htenant ▸ h.tenant, hno ▸ h.turn⟩

/-- A change of search memory that leaves it canonical keeps the invariant. -/
theorem Inv.of_smem {w : List Part} (h : Inv s) (f : Frame w s t) (hm : Memory.wf t.smem.cells = true)
    (hw : ([Part.scrCells, .tenancy, .turnNo].all fun p => !w.contains p) = true) : Inv t := by
  have same : ∀ p ∈ [Part.scrCells, .tenancy, .turnNo], p.same s t :=
    fun p hp => f.keep p (by simpa using List.all_eq_true.mp hw p hp)
  have hscratch : t.scratch.cells = s.scratch.cells := same .scrCells (by decide)
  obtain ⟨htenant, -⟩ := same .tenancy (by decide)
  have hno : t.turn.no = s.turn.no := same .turnNo (by decide)
  exact ⟨hm, hscratch ▸ h.scratch, htenant ▸ h.tenant, hno ▸ h.turn⟩

theorem Inv.foldl {α : Type} {f : State → α → State} (h : Inv s) (hf : ∀ u a, Inv u → Inv (f u a)) (l : List α) :
    Inv (l.foldl f s) := List.foldlRecOn l f h fun u hu a _ => hf u a hu

theorem Inv.ite {c : Prop} [Decidable c] (hs : Inv s) (ht : Inv t) : Inv (if c then s else t) := by
  split
  · exact hs
  · exact ht

theorem Inv.bump (h : Inv s) (a n : Nat) : Inv (bump s a n) := h.of_frame (bump_frame _ _ _) rfl

theorem Inv.bumpIf (h : Inv s) (c : Prop) [Decidable c] (a n : Nat) : Inv (if c then Machine.bump s a n else s) :=
  Inv.ite (h.bump a n) h

theorem Inv.of_next {u : State} (hu : Inv u) (h : (Host.Outcome.next u : Host.Outcome State Fault Refusal) = .next t) :
    Inv t := by
  cases h
  exact hu

/-! ### Rings of the host region (R65, R82) -/

theorem Inv.ringWrite (h : Inv s) (q : Queue) (off : Nat) (b : List Byte) : Inv (ringWrite s q off b) :=
  h.of_smem (ringWrite_frame _ _ _ _) (ringWrite_wf h.smem _ _ _) rfl

theorem Inv.writeEntry (h : Inv s) (q : Queue) (tally : Tally) (header body : List Byte) :
    Inv (writeEntry s q tally header body) := ((h.ringWrite q _ _).ringWrite q _ _).ringWrite q _ _

theorem Inv.writeResult (h : Inv s) (r : Res) : Inv (writeResult s r) := by
  have hentry : Inv (setQ (Machine.writeEntry s (getQ s r.rq) (getQ s r.rq).work (resHeader r) (resSlots r)) r.rq
      { getQ s r.rq with work := (getQ s r.rq).work + 1 }) := (h.writeEntry _ _ _ _).of_frame (setQ_frame _ _ _) rfl
  unfold Machine.writeResult
  dsimp only
  split
  · exact hentry.of_frame (resultDone_frame _ _ _) rfl
  · exact hentry.of_frame frame_set_host_kept rfl

theorem Inv.publishQueue (h : Inv s) (q : Nat) : Inv (publishQueue s q) := by
  unfold Machine.publishQueue
  dsimp only
  split
  · exact h
  · split
    · split
      · exact h
      · exact (Inv.foldl (h.of_frame frame_set_host_results rfl) (fun _ r hu => hu.writeResult r) _).of_frame
          (advanceTally_frame _ _) rfl
    · split
      · exact h
      · exact (Inv.foldl (h.of_frame frame_set_host_events rfl) (fun _ _ hu => hu.writeEntry _ _ _ _) _).of_frame
          (advanceTally_frame _ _) rfl
    · exact h.ite (h.of_frame (advanceTally_frame _ _) rfl)

theorem Inv.publishQueues (h : Inv s) (qs : List Nat) : Inv (qs.foldl Machine.publishQueue s) :=
  h.foldl (fun _ q hu => hu.publishQueue q) qs

theorem Inv.doWorkCutoff (h : Inv s) : Inv (doWorkCutoff s) :=
  Inv.ite (((h.publishQueues _).of_frame (markLeaving_frame _) rfl).of_frame (setPhase_frame _ _) rfl) h

theorem Inv.doTenantSwitch (h : Inv s) : Inv (doTenantSwitch s) :=
  h.ite ((((h.of_frame (endRequests_frame _) rfl).of_frame (abortJobs_frame _) rfl).publishQueues _).of_frame
    (resetQueues_frame _) rfl)

/-! ### Row logic, BAR2 and the scan -/

theorem Inv.writeSmem (h : Inv s) (a : Nat) (d : List Byte) : Inv (writeSmem s a d) :=
  h.of_smem (writeSmem_frame _ _ _) (writeSmem_wf h.smem a d) rfl

theorem Inv.runRowOp (h : Inv s) (b : BankId) (c : RowCmd) : Inv (runRowOp s b c) := (h.writeSmem _ _).bump _ _

theorem Inv.runCmd (h : Inv s) (src : RowSrc) (b : BankId) (c : RowCmd) (bad : Option Nat) (seq : Nat) (x : Seen) :
    Inv (runCmd s src b c bad seq x).1 := by
  unfold Machine.runCmd
  split
  · exact h
  · exact h.runRowOp b c
  · exact h.runRowOp b c
  · exact h.runRowOp b c
  · exact h.runRowOp b c
  · exact h.of_frame (setPred_frame _ _ _) rfl
  · exact h.of_frame (clearHist_frame _ _) rfl
  · have dumped := h.foldl (f := fun u r => Machine.writeSmem u (rowAddr b (c.rowD + r)) (histRow (histOf s b) r))
      (fun u r hu => hu.writeSmem _ _) (List.range 4)
    exact Inv.ite (dumped.bump _ _) dumped
  · cases bad with
    | some a => exact h.bump _ _
    | none => exact Inv.ite ((h.bump _ _).of_frame (setHist_frame _ _ _) rfl) (h.bump _ _)
  · cases bad with
    | some a => exact h.bump _ _
    | none => exact Inv.ite ((h.bump _ _).bump _ _) (h.bump _ _)

theorem Inv.writeRecords (h : Inv s) (b : BankId) (slot : Nat) (rs : List Nat) : Inv (writeRecords s b slot rs) :=
  h.foldl (fun _ _ hu => hu.writeSmem _ _) _

theorem Inv.hostRun (h : Inv s) (b : BankId) (c : RowCmd) (bad : Option Nat) : Inv (hostRun s b c bad) := by
  unfold Machine.hostRun
  refine Inv.of_frame ?_ (setBank_frame _ _ _) rfl
  refine Inv.bump (Inv.of_frame ?_ (useOps_frame _ _ _) rfl) _ _
  have run := (h.runCmd .host b (asExecuted s b c) bad ((getBank s b).done + 1).toNat
    ((getBank s b).seen.headD (seenNow s b))).writeRecords b (asExecuted s b c).rslot
  cases bad with
  | some a => exact Inv.ite ((run _).of_frame (postEvent_frame _ _ _) rfl) (run _)
  | none => exact run _

theorem Inv.rowCommand (h : Inv s) (op : RowOp) (src : RowSrc) (b : BankId) (cmd : RowCmd) (bad : Option Nat) :
    Inv (rowCommand s op src b cmd bad) := by
  cases src with
  | planner => exact Inv.ite (h.runCmd _ _ _ _ _ _) h
  | host => exact Inv.ite (h.hostRun _ _ _) h

theorem Inv.writePiece {acc : State × Bool} (h : Inv acc.1) (p : Nat × List Byte) : Inv (writePiece acc p).1 := by
  unfold Machine.writePiece
  dsimp only
  split
  · exact h.writeSmem _ _
  · split
    · exact h
    · split
      · exact h.writeSmem _ _
      · split
        · exact h.of_frame (writeSlot_frame _ _ _ _ _) rfl
        · exact h

theorem Inv.bar2Write (h : Inv s) (a : Nat) (d : List Byte) : Inv (bar2Write s a d) := by
  have pieced : Inv ((pieces (d.length / 16 + 2) a d).foldl Machine.writePiece (s, true)).1 :=
    List.foldlRecOn (motive := fun x : State × Bool => Inv x.1) _ _ h fun _ hx p _ => hx.writePiece p
  exact Inv.ite pieced (pieced.of_frame (dropBar2_frame _) rfl)

theorem Inv.driveRows (h : Inv s) (p : ProbeRec) (key out : Nat) (dists : List Nat) :
    Inv (driveRows s p key out dists) := by
  unfold Machine.driveRows
  split
  · refine Inv.bump (Inv.bump (Inv.bump ?_ _ _) _ _) _ _
    refine Inv.of_frame (Inv.of_frame ?_ (setPred_frame _ _ _) rfl) (setHist_frame _ _ _) rfl
    exact h.foldl (fun _ _ hu => (hu.writeSmem _ _).writeSmem _ _) _
  · exact h

theorem Inv.openHelds (h : Inv s) (pin : Nat) (keys : List Nat) : Inv (keys.foldl (openHeld pin) s) :=
  h.foldl (fun _ _ hu => hu.of_frame (openHeld_frame _ _ _) rfl) keys

theorem Inv.doSketchScan (h : Inv s) (n : Nat) (bad : List Nat) : Inv (doSketchScan s n bad) := by
  have placed := h.of_frame (unplace_frame s .scanner n) rfl
  unfold Machine.doSketchScan
  split
  · exact h
  · refine h.ite (Inv.ite (placed.bump _ _) (placed.ite ?_))
    refine Inv.of_frame (Inv.of_frame ?_ (onUnit_frame _ _ _) rfl) (sendStage_frame _ _ _) rfl
    refine Inv.foldl (Inv.of_frame (Inv.of_frame ?_ (drawFree_frame _) rfl) (drawFree_frame _) rfl) ?_ _
    · refine Inv.bumpIf (Inv.bump (Inv.foldl (Inv.foldl (placed.openHelds _ _) ?_ _) ?_ _) _ _) _ _ _
      · intro u r hu
        split
        · exact hu.of_frame (heatList_frame _ _ _) rfl
        · exact hu
        · exact hu
      · exact fun u k hu => hu.of_frame (quarantine_frame _ _) rfl
    · intro u r hu
      split
      · exact Inv.ite (hu.driveRows _ _ _ _) hu
      · exact hu
      · exact hu

/-! ### P5 -/

theorem nextTurn_lt (n : Nat) : nextTurn n < turnMod := Nat.mod_lt _ (by decide)

/-- TURN_NO counts on, the latched boards come into force and the tile buffers exchange (R26, R33, R333). -/
def enterTurn (s : State) : State :=
  { s with turn := { s.turn with no := nextTurn s.turn.no, phase := .p5, cur := s.turn.latched,
                                 buffers := exchangeBuffers s.turn.buffers } }

/-- What P5 does at boundary `n` before groups enter host mode. -/
def beginTurn (n : Nat) (s : State) : State :=
  let s := dropUnits (writeRequests (activateShadow (withdrawDue s) n)) fun u => decide (u.dropDue ≠ 0) && decide (u.dropDue ≤ n)
  let s := testUnloads (freshTurn s)
  if s.ledger.outOfStep then bump s Obj.OUT_OF_STEP_TURNS 1 else s

/-- What P5 does at boundary `n` after that. -/
def publishTurn (n : Nat) (s : State) : State :=
  foldCounters (marksAtP5 (applyGateState (readingsAtBoundary (countRefresh (holdGroups s)) n)))

theorem doIncrement_eq (h : phaseFollows s .p4 = true) :
    doIncrement s = publishTurn (nextTurn s.turn.no) (hostGroupsAtP5 (beginTurn (nextTurn s.turn.no) (enterTurn s))) := by
  unfold doIncrement
  rw [if_pos h]
  rfl

theorem doIncrement_idle (h : phaseFollows s .p4 = false) : doIncrement s = s := by
  unfold doIncrement
  rw [if_neg (by simp [h])]

theorem beginTurn_frame (n : Nat) (s : State) :
    Frame [.objs, .counters, .dictMisc, .queues, .rings, .turnMisc, .images, .units, .way, .ing, .scrMisc, .flash, .fab,
      .errorLog, .ras, .clk, .out, .free] s (beginTurn n s) := by
  have fresh : Frame [.objs, .counters, .dictMisc, .queues, .rings, .turnMisc, .images, .units, .way, .ing, .scrMisc, .flash,
      .fab, .errorLog, .ras, .clk, .out, .free] s (testUnloads (freshTurn (dropUnits (writeRequests (activateShadow (withdrawDue s) n))
        fun u => decide (u.dropDue ≠ 0) && decide (u.dropDue ≤ n)))) := by
    refine Frame.then ?_ (testUnloads_frame _) rfl
    refine Frame.then ?_ (freshTurn_frame _) rfl
    refine Frame.then ?_ (dropUnits_frame _ _) rfl
    refine Frame.then ?_ (writeRequests_frame _) rfl
    refine Frame.then ?_ (activateShadow_frame _ _) rfl
    exact (Frame.refl _ _).then (withdrawDue_frame _) rfl
  exact Frame.ite (fresh.then (bump_frame _ _ _) rfl) fresh

theorem publishTurn_frame (n : Nat) (s : State) :
    Frame [.objs, .counters, .dictMisc, .queues, .rings, .turnMisc, .smemMisc, .fab, .errorLog, .ras, .clk, .out, .free] s
      (publishTurn n s) := by
  unfold publishTurn
  refine Frame.then ?_ (foldCounters_frame _) rfl
  refine Frame.then ?_ (marksAtP5_frame _) rfl
  refine Frame.then ?_ (applyGateState_frame _) rfl
  refine Frame.then ?_ (readingsAtBoundary_frame _ _) rfl
  refine Frame.then ?_ (countRefresh_frame _) rfl
  exact (Frame.refl _ _).then (holdGroups_frame _) rfl

/-- What P5 does to the state after TURN_NO has counted on. -/
theorem enteredTurn_frame (h : phaseFollows s .p4 = true) :
    Frame [.objs, .counters, .dictMisc, .queues, .rings, .turnMisc, .images, .units, .smemCells, .smemMisc, .way, .ing,
      .scrMisc, .flash, .fab, .errorLog, .ras, .clk, .out, .free] (enterTurn s) (doIncrement s) := by
  rw [doIncrement_eq h]
  refine Frame.then ?_ (publishTurn_frame _ _) rfl
  refine Frame.then ?_ (hostGroupsAtP5_frame _) rfl
  exact (Frame.refl _ _).then (beginTurn_frame _ _) rfl

theorem Inv.hostGroupsAtP5 (h : Inv s) : Inv (hostGroupsAtP5 s) := by
  unfold Machine.hostGroupsAtP5
  refine Inv.of_frame ?_ (frame_set_smem_groups_smem_preds_smem_hists (e := List.foldl _ _ _)) rfl
  refine Inv.foldl (h.foldl (fun u k hu => ?_) _) (fun u k hu => ?_) _
  · exact hu.of_frame (clearBanks_frame u k.1 k.2) rfl
  · have cleared := hu.of_frame (clearBanks_frame u k.1 k.2) rfl
    exact cleared.of_smem (clearResults_frame _ _ _) (clearResults_wf cleared.smem _ _) rfl

theorem Inv.doIncrement (h : Inv s) : Inv (doIncrement s) := by
  cases hp : phaseFollows s .p4 with
  | false => rwa [doIncrement_idle hp]
  | true =>
    have entered : Inv (enterTurn s) := ⟨h.smem, h.scratch, h.tenant, nextTurn_lt _⟩
    rw [doIncrement_eq hp]
    exact ((entered.of_frame (beginTurn_frame _ _) rfl).hostGroupsAtP5).of_frame (publishTurn_frame _ _) rfl

/-! ### Scratch Banks -/

theorem Inv.doScratchWrite (h : Inv s) (addr : Nat) (d : List Byte) (code fault : Nat) :
    Inv (doScratchWrite s addr d code fault) := by
  unfold Machine.doScratchWrite
  refine Inv.ite (h.of_frame (foreign_frame _ _ _ _) rfl) ?_
  have checked := h.of_frame (secded_frame s (scrAddr addr / 8) fault) rfl
  have same := (ownerWrite_frame (secded s (scrAddr addr / 8) fault) (scrAddr addr)
    (d.take (scrLen (scrAddr addr) d.length))).keep
  exact ⟨same .smemCells rfl ▸ checked.smem, ownerWrite_wf checked.scratch _ _, (same .tenancy rfl).1 ▸ checked.tenant,
    same .turnNo rfl ▸ checked.turn⟩

theorem Inv.atomic (h : Inv s) (w addr code fault : Nat) (work : Option (Nat × Nat)) (f : Nat → Nat) :
    Inv (atomic s w addr code fault work f) := by
  unfold Machine.atomic
  refine Inv.ite ((h.of_frame (foreign_frame _ _ _ _) rfl).of_frame (emit_frame _ _) rfl) ?_
  have checked := h.of_frame (secded_frame s (scrAddr addr / w * w / 8) fault) rfl
  refine Inv.ite (checked.of_frame (scrError_frame _ _ _) rfl) ?_
  refine Inv.of_frame (Inv.bump ?_ _ _) (emit_frame _ _) rfl
  exact ⟨checked.smem, writeBytes_wf checked.scratch _ _, checked.tenant, checked.turn⟩

/-! ### Admission to a partition (R27) -/

theorem Inv.adoptTurn (h : Inv s) (effect : Nat) : Inv (adoptTurn s effect) :=
  ⟨h.smem, h.scratch, h.tenant, Nat.mod_lt _ (by decide)⟩

theorem Inv.admitSelf (h : Inv s) (e : Epoch) : Inv (admitSelf s e) := by
  unfold Machine.admitSelf
  refine Inv.of_frame ?_ (postEvent_frame _ _ _) rfl
  refine Inv.of_frame (Inv.of_frame ?_ (setObj_frame _ _ _) rfl) (setObj_frame _ _ _) rfl
  refine Inv.of_frame (Inv.of_frame ?_ frame_set_ing_ledger_ras rfl) (recordLinks_frame _) rfl
  exact ((h.of_frame (freshMember_frame _) rfl).adoptTurn _).of_frame (adoptGrid_frame _ _) rfl

theorem Inv.admitNode (h : Inv s) (e : Epoch) (j n : Nat) : Inv (admitNode s e j n) := by
  unfold Machine.admitNode
  refine Inv.ite (h.ite (h.admitSelf e)) ?_
  have added := ((h.of_frame (addMember_frame s j n) rfl).of_frame (postEvent_frame _ 0x4007 j) rfl).of_frame (reroute_frame _) rfl
  exact Inv.ite (added.of_frame (copyLedger_frame _ _) rfl) added

theorem Inv.applyRec (h : Inv s) (e : Epoch) (n : Nat) (r : LedgerReq) : Inv (applyRec e n s r) := by
  unfold Machine.applyRec
  split
  · exact h.admitNode e _ n
  · exact h.of_frame (dismiss_frame _ _ _) rfl
  · exact h.of_frame (applyList_frame _ _ _ _ _) rfl
  · exact h.of_frame (setShard_frame _ _ _ _ _ _) rfl
  · exact h.of_frame (applySegment_frame _ _ _ _ _ _ _) rfl
  · exact h.of_frame (applyDescr_frame _ _ _ _ _) rfl
  · exact (h.of_frame (setObj_frame _ _ _) rfl).of_frame (setObj_frame _ _ _) rfl
  · exact h.of_frame (applyHolders_frame _ _ _ _) rfl
  · exact h.of_frame (applyLink_frame _ _ _) rfl
  · exact h.of_frame (applyReport_frame _ _ _ _ _ _) rfl
  · exact h.of_frame frame_set_ledger rfl
  · exact h.of_frame (openReshape_frame _ _ _ _ _ _) rfl

theorem Inv.applyEpoch (h : Inv s) (n : Nat) (e : Epoch) : Inv (applyEpoch n s e) :=
  (h.foldl (fun _ r hu => hu.applyRec e n r) e.recs).of_frame frame_set_ledger rfl

theorem Inv.doEpochApply (h : Inv s) : Inv (doEpochApply s) := by
  unfold Machine.doEpochApply
  refine h.ite ?_
  split
  · exact h.applyEpoch _ _
  · exact h.ite (h.foldl (fun _ e hu => hu.applyEpoch _ e) _)

/-! ### The tenant and the resets -/

theorem Inv.doBind (h : Inv s) (nonce : List Byte) : Inv (doBind s nonce) := by
  refine h.ite (Inv.of_frame ?_ (postEvent_frame _ _ _) rfl)
  exact ⟨h.smem, h.scratch, (by decide : 1 < 4), h.turn⟩

theorem Inv.doDiag (h : Inv s) (nonce : List Byte) : Inv (doDiag s nonce) :=
  h.ite ⟨h.smem, h.scratch, (by decide : 3 < 4), h.turn⟩

theorem Inv.doScrubStart (h : Inv s) : Inv (doScrubStart s) := by
  refine h.ite (Inv.ite (Inv.of_frame (Inv.of_frame ?_ (setObj_frame _ _ _) rfl) (setObj_frame _ _ _) rfl) ?_)
  · exact ⟨rfl, rfl, (by decide : 2 < 4), h.turn⟩
  · exact ⟨rfl, rfl, (by decide : 2 < 4), h.turn⟩

theorem Inv.doScrubEnd (h : Inv s) : Inv (doScrubEnd s) := by
  unfold Machine.doScrubEnd
  split
  · exact h
  · refine h.ite (Inv.of_frame (Inv.of_frame (Inv.of_frame ?_ (setObj_frame _ _ _) rfl) (setObj_frame _ _ _) rfl)
      (logEvent_frame _ _) rfl)
    exact ⟨h.smem, h.scratch, (by decide : 0 < 4), h.turn⟩

theorem Inv.doReady (h : Inv s) (ms : Nat) : Inv (doReady s ms) := by
  have logged : Inv (if s.nv.scrubPending = true
      then logEvent s { code := 0x5001, turn := s.turn.no, detail := getObj s Obj.SCRUB_MS } else s) :=
    Inv.ite (h.of_frame (logEvent_frame _ _) rfl) h
  refine ⟨logged.smem, logged.scratch, ?_, logged.turn⟩
  unfold Machine.doReady
  dsimp only
  split
  · decide
  · exact h.tenant

theorem Inv.porLow (h : Inv s) : Inv (porLow s) := ⟨rfl, rfl, h.tenant, (by decide : 0 < turnMod)⟩

theorem Inv.porHigh (h : Inv s) : Inv (porHigh s) := h.ite ⟨h.smem, h.scratch, h.tenant, h.turn⟩

/-! ### The invariant -/

/-- A command keeps the invariant: it writes none of its parts, or writes them as the lemma about its meaning says. -/
theorem exec_inv {c : Instr} (h : Inv s) (ht : exec c s = .next t) : Inv t := by
  cases c
  case nop | and | or | xor | not | pred | count | select | hclear | hdump => exact (h.rowCommand _ _ _ _ _).of_next ht
  case workCutoff => exact h.doWorkCutoff.of_next ht
  case turnNoIncrement => exact h.doIncrement.of_next ht
  case queueTallyPublish q => exact (Inv.ite (h.publishQueue q) h).of_next ht
  case bar2Write o d _ busy =>
    have held := h.of_frame (heldAccess_frame s busy (s.host.bar2Base + o)) rfl
    exact (h.ite (Inv.ite (h.bump _ _) (held.bar2Write _ d))).of_next ht
  case sketchScan n l => exact (h.doSketchScan n l).of_next ht
  case tenantSwitch => exact h.doTenantSwitch.of_next ht
  case scratchWrite => exact (h.doScratchWrite _ _ _ _).of_next ht
  case add32 | add64 | swap32 | swap64 => exact (h.atomic _ _ _ _ _ _).of_next ht
  case epochApply => exact h.doEpochApply.of_next ht
  case bind n => exact (h.doBind n).of_next ht
  case diagEn n => exact (h.doDiag n).of_next ht
  case scrubStart => exact h.doScrubStart.of_next ht
  case scrubEndBoundary => exact h.doScrubEnd.of_next ht
  case ready ms => exact (Inv.ite (h.doReady ms) h).of_next ht
  case por => exact (Inv.ite h.porHigh h.porLow).of_next ht
  case powerLoss => exact (h.porLow.of_frame (frame_set_clk) rfl).of_next ht
  all_goals exact h.of_frame (exec_frame _ _ _ ht) rfl

/-- Settles O4: at reset both memories are empty, TENANT_STATE and TURN_NO read 0 (R26, R430; log entries 1 and 70). -/
theorem resetMeetsInvariant : Obligations.ResetMeetsInvariant :=
  ⟨rfl, rfl, (by decide : 0 < 4), (by decide : 0 < turnMod)⟩

/-- Settles O5: taking a command off the queue keeps the invariant, and so does every command. -/
theorem stepKeepsInvariant : Obligations.StepKeepsInvariant := by
  intro s t h ht
  cases hp : s.pending with
  | nil =>
    rw [step_nil hp] at ht
    exact h.of_next ht
  | cons c rest =>
    rw [step_cons hp] at ht
    exact exec_inv (s := { s with pending := rest }) ⟨h.smem, h.scratch, h.tenant, h.turn⟩ ht

end Sys2Proof.Machine

/-! The turn grid: the phases of a boundary, the boards, deadlines, caravans and grants (R26 to R54, R375, R395). -/

namespace Sys2Proof.Machine

open Sys2Proof

variable {s : State}

/-! ### The phases of a boundary (R26, R33 to R36) -/

theorem phaseFollows_of {p : Phase} (on : gridOn s = true) (h : s.turn.phase = p) : phaseFollows s p = true := by
  unfold phaseFollows
  rw [on, h, decide_eq_true rfl, Bool.and_self]

theorem phaseFollows_eq_false {p : Phase} (h : gridOn s = false ∨ s.turn.phase ≠ p) : phaseFollows s p = false := by
  unfold phaseFollows
  obtain on | hp := h
  · rw [on, Bool.false_and]
  · rw [decide_eq_false hp, Bool.and_false]

/-- A phase command that does not follow changes nothing (log entry 7). -/
theorem ite_phaseFollows_idle {p : Phase} (h : gridOn s = false ∨ s.turn.phase ≠ p) (u : State) :
    (if phaseFollows s p = true then u else s) = s := by
  rw [phaseFollows_eq_false h, if_neg Bool.false_ne_true]

theorem exec_phase_idle {c : Instr} {p : Phase} {u : State} (he : exec c s = .next (if phaseFollows s p = true then u else s))
    (h : gridOn s = false ∨ s.turn.phase ≠ p) : exec c s = .next s := by
  rw [he, ite_phaseFollows_idle h]

theorem exec_phase_follows {c : Instr} {p : Phase} {u : State} (he : exec c s = .next (if phaseFollows s p = true then u else s))
    (on : gridOn s = true) (h : s.turn.phase = p) : exec c s = .next u := by
  rw [he, if_pos (phaseFollows_of on h)]

/-- P0 ends the work window (R36). -/
theorem workCutoff_completes (on : gridOn s = true) (h : s.turn.phase = .p6) :
    Completes .workCutoff s fun t => t.turn.phase = .p0 ∧ t.smem.running = false :=
  ⟨_, exec_phase_follows rfl on h, rfl, rfl⟩

theorem completionSnapshot_completes (on : gridOn s = true) (h : s.turn.phase = .p0) :
    Completes .completionSnapshot s fun t => t.turn.phase = .p1 :=
  ⟨_, exec_phase_follows rfl on h, rfl⟩

theorem look_map_val {α β : Type} (f : α → β) (l : List (Nat × α)) (k : Nat) :
    look (l.map fun p => (p.1, f p.2)) k = (look l k).map f := by
  induction l with
  | nil => rfl
  | cons p l ih =>
    obtain ⟨a, v⟩ := p
    by_cases ha : a = k
    · simp [look, ha]
    · simp [look, ha, ih]

theorem getQ_snapTallies (s : State) (q : Nat) : (getQ (snapTallies s) q).snapTally = (getQ s q).hostTally := by
  have mapped := look_map_val (fun v : Queue => { v with snapTally := v.hostTally }) s.host.queues q
  unfold snapTallies getQ onHost
  dsimp only at mapped ⊢
  rw [mapped]
  cases look s.host.queues q with
  | none => rfl
  | some v => rfl

/-- P2 captures the host tallies (R34). -/
theorem arrivalSnapshot_completes (on : gridOn s = true) (h : s.turn.phase = .p1) :
    Completes .arrivalSnapshot s fun t => t.turn.phase = .p2 ∧ ∀ q, (getQ t q).snapTally = (getQ s q).hostTally := by
  refine ⟨_, exec_phase_follows rfl on h, rfl, fun q => ?_⟩
  have closed : Frame [.turnMisc, .ing, .place, .fab, .ledger, .out, .phase] (snapTallies s)
      (setPhase (closeCaravans (forwardDue (countBeat (snapTallies s)))) .p2) := by
    refine Frame.then ?_ (setPhase_frame _ _) rfl
    refine Frame.then ?_ (closeCaravans_frame _) rfl
    refine Frame.then ?_ (forwardDue_frame _) rfl
    exact (Frame.refl _ _).then (countBeat_frame _) rfl
  have queues : _ = (snapTallies s).host.queues := closed.keep .queues rfl
  rw [← getQ_snapTallies s q, getQ, queues, ← getQ]

/-- P3 finds the queries due (R33, R52). -/
theorem timeoutEvaluation_completes (on : gridOn s = true) (h : s.turn.phase = .p2) :
    Completes .timeoutEvaluation s fun t => t.turn.phase = .p3 ∧
      ∀ qh, qh ∈ t.turn.due ↔ ∃ q ∈ s.queries, q.qh = qh ∧ deadlineTurn q ≤ boundary s ∧ lacksLists q = true := by
  refine ⟨_, exec_phase_follows rfl on h, rfl, fun qh => ?_⟩
  simp only [setPhase, List.mem_map, List.mem_filter, Bool.and_eq_true, decide_eq_true_eq]
  constructor
  · rintro ⟨q, ⟨hq, hdue⟩, rfl⟩
    exact ⟨q, hq, rfl, hdue⟩
  · rintro ⟨q, hq, rfl, hdue⟩
    exact ⟨q, ⟨hq, hdue⟩, rfl⟩

/-- What P4 does after the phase has begun leaves the phase, and no board of the next turn is written yet (R42). -/
theorem applyDue_latchBoards (u : State) (named : Nat → List Nat) (n : Nat) :
    (applyDue (holdNext (latchBoards u) named) n).turn.phase = u.turn.phase ∧
      (applyDue (holdNext (latchBoards u) named) n).turn.next = [none, none] := by
  have due := (applyDue_frame (holdNext (latchBoards u) named) n).keep
  have latched : (latchBoards u).turn.phase = u.turn.phase := (latchBoards_frame u).keep .phase rfl
  have hphase : _ = (latchBoards u).turn.phase := due .phase rfl
  obtain ⟨-, -, hnext, -⟩ := due .boards rfl
  exact ⟨hphase.trans latched, hnext⟩

/-- P4 has begun, and until P5 the objects read as before (R35). -/
def enterLatch (s : State) : State := setPhase { s with dict := { s.dict with was := some (shownNow s) } } .p4

theorem doLatch_eq (h : phaseFollows s .p3 = true) :
    doLatch s = applyDue (holdNext (latchBoards (enterLatch s)) (groupsNext (enterLatch s))) (boundary (enterLatch s)) := by
  unfold doLatch
  rw [if_pos h]
  rfl

/-- P4 latches the boards (R42). -/
theorem latch_completes (on : gridOn s = true) (h : s.turn.phase = .p3) :
    Completes .latch s fun t => t.turn.phase = .p4 ∧ t.turn.next = [none, none] := by
  refine ⟨doLatch s, rfl, ?_⟩
  rw [doLatch_eq (phaseFollows_of on h)]
  exact applyDue_latchBoards (enterLatch s) _ _

/-- P5 counts TURN_NO on and puts the latched boards in force (R26, R33). -/
theorem turnNoIncrement_completes (on : gridOn s = true) (h : s.turn.phase = .p4) :
    Completes .turnNoIncrement s fun t =>
      t.turn.phase = .p5 ∧ t.turn.no = (s.turn.no + 1) % 2 ^ 48 ∧ t.turn.cur = s.turn.latched := by
  have entered := (enteredTurn_frame (phaseFollows_of on h)).keep
  obtain ⟨hcur, -⟩ := entered .boards rfl
  exact ⟨_, rfl, entered .phase rfl, entered .turnNo rfl, hcur⟩

/-- P6 begins the work window (R36). -/
theorem arrivalAllowanceEnd_completes (on : gridOn s = true) (h : s.turn.phase = .p5) :
    Completes .arrivalAllowanceEnd s fun t => t.turn.phase = .p6 ∧ t.smem.running = true := by
  refine ⟨_, exec_phase_follows rfl on h, ?_, rfl⟩
  have counted := (countCaravans_frame (setPhase s .p6)).keep .phase rfl
  have beaten := (sendHeartbeats_frame (countCaravans (setPhase s .p6))).keep .phase rfl
  have placed := (placeWork_frame (sendHeartbeats (countCaravans (setPhase s .p6)))).keep .phase rfl
  have sent := (sendSegments_frame (placeWork (sendHeartbeats (countCaravans (setPhase s .p6))))).keep .phase rfl
  exact Part.same_trans counted (Part.same_trans beaten (Part.same_trans placed sent))

/-- Settles O8: each phase from what its command does after it has begun, and idle where it does not follow. -/
theorem phasesOfABoundary : Obligations.PhasesOfABoundary := by
  refine ⟨fun s on => ⟨workCutoff_completes on, completionSnapshot_completes on, arrivalSnapshot_completes on,
    timeoutEvaluation_completes on, latch_completes on, turnNoIncrement_completes on, arrivalAllowanceEnd_completes on⟩, fun s => ?_⟩
  exact ⟨exec_phase_idle rfl, exec_phase_idle rfl, exec_phase_idle rfl, exec_phase_idle rfl, exec_phase_idle rfl,
    exec_phase_idle rfl, exec_phase_idle rfl⟩

/-- Settles O9: the window is the period less 5 µs, and row logic runs from P6 to P0. -/
theorem workWindowOfATurn : Obligations.WorkWindowOfATurn := by
  refine ⟨fun s => rfl, by decide, fun s h => ?_, fun s on h => ?_, fun s on h => ?_⟩
  · unfold workWindowUs periodUs
    rw [h]
  · exact (arrivalAllowanceEnd_completes on h).imp fun _ ht => ht.2
  · exact (workCutoff_completes on h).imp fun _ ht => ht.2

end Sys2Proof.Machine

/-! The boards, the period, deadlines, caravans and grants (R30, R38, R41 to R54, R298, R333, R375, R395). -/

namespace Sys2Proof.Machine

open Sys2Proof

variable {s : State}

/-! ### Lists -/

section Lists

variable {α : Type}

theorem getD_atIdx_self (f : α → α) {i : Nat} {l : List α} (h : i < l.length) (d : α) :
    (atIdx f i l).getD i d = f (l.getD i d) := by
  induction l generalizing i with
  | nil => exact absurd h (Nat.not_lt_zero i)
  | cons a l ih =>
    cases i with
    | zero => rfl
    | succ i => exact ih (Nat.lt_of_succ_lt_succ h)

theorem getD_atIdx_ne (f : α → α) {i j : Nat} (l : List α) (h : j ≠ i) (d : α) : (atIdx f i l).getD j d = l.getD j d := by
  induction l generalizing i j with
  | nil => simp [atIdx]
  | cons a l ih =>
    cases i with
    | zero =>
      cases j with
      | zero => exact absurd rfl h
      | succ j => rfl
    | succ i =>
      cases j with
      | zero => rfl
      | succ j => exact ih fun hji => h (congrArg Nat.succ hji)

variable [DecidableEq α]

@[simp] theorem mem_nub {a : α} {l : List α} : a ∈ nub l ↔ a ∈ l := by
  induction l with
  | nil => simp [nub]
  | cons b l ih =>
    by_cases hab : a = b
    · simp [nub, hab]
    · simp [nub, hab, ih]

theorem nub_nodup (l : List α) : (nub l).Nodup := by
  induction l with
  | nil => exact List.nodup_nil
  | cons a l ih =>
    refine List.nodup_cons.mpr ⟨fun h => ?_, ih.filter _⟩
    have kept := (List.mem_filter.mp h).2
    rw [decide_eq_true rfl] at kept
    exact Bool.false_ne_true kept

end Lists

/-! ### Boards (R41, R42, R333) -/

theorem mem_of_mem_firstLoans {l : Loan} {ls : List Loan} (h : l ∈ firstLoans ls) : l ∈ ls := by
  induction ls with
  | nil => exact h
  | cons a ls ih =>
    obtain rfl | h := List.mem_cons.mp h
    · exact List.mem_cons_self
    · exact List.mem_cons_of_mem _ (ih (List.mem_filter.mp h).1)

/-- Of the loans of one tile the first stays alone. -/
theorem firstLoans_tiles_nodup (ls : List Loan) : ((firstLoans ls).map Loan.tile).Nodup := by
  induction ls with
  | nil => exact List.nodup_nil
  | cons a ls ih =>
    refine List.nodup_cons.mpr ⟨fun h => ?_, ih.sublist (List.filter_sublist.map Loan.tile)⟩
    obtain ⟨b, hb, heq⟩ := List.mem_map.mp h
    obtain ⟨-, hne⟩ := List.mem_filter.mp hb
    rw [heq, bne_self_eq_false] at hne
    exact Bool.false_ne_true hne

/-- The first operands of a loan, loaded into the standby half of its tile's buffer. -/
def putStandby (bs : List (Nat × TileBuf)) (l : Loan) : List (Nat × TileBuf) :=
  put bs l.tile { (look bs l.tile).getD TileBuf.reset with standby := some l.engine }

theorem look_foldl_putStandby_ne {ls : List Loan} {n : Nat} (h : n ∉ ls.map Loan.tile) (bs : List (Nat × TileBuf)) :
    look (ls.foldl putStandby bs) n = look bs n := by
  induction ls generalizing bs with
  | nil => rfl
  | cons a ls ih =>
    rw [List.map_cons, List.mem_cons, not_or] at h
    rw [List.foldl_cons, ih h.2, putStandby, look_put_ne _ _ h.1]

/-- Where no two loans name one tile, each has its operands in the buffer of its own. -/
theorem standby_foldl_putStandby {ls : List Loan} (hnd : (ls.map Loan.tile).Nodup) (bs : List (Nat × TileBuf)) {l : Loan}
    (hl : l ∈ ls) : (look (ls.foldl putStandby bs) l.tile).bind TileBuf.standby = some l.engine := by
  induction ls generalizing bs with
  | nil => exact absurd hl List.not_mem_nil
  | cons a ls ih =>
    obtain ⟨hnot, hnd⟩ := List.nodup_cons.mp hnd
    rw [List.foldl_cons]
    obtain rfl | hl := List.mem_cons.mp hl
    · rw [look_foldl_putStandby_ne hnot, putStandby, look_put_self]
      rfl
    · exact ih hnd _ hl

theorem exec_plannerBoardWrite_idle {half : Nat} {b : Board} (h : s.turn.phase = .p4 ∨ withinPower s half b = false) :
    exec (.plannerBoardWrite half b) s = .next s := congrArg Host.Outcome.next (if_pos h)

theorem exec_plannerBoardWrite {half : Nat} {b : Board} (h : s.turn.phase ≠ .p4) (fits : withinPower s half b = true) :
    exec (.plannerBoardWrite half b) s = .next (loadStandby
      { s with turn := { s.turn with next := atIdx (fun _ => some (trimBoard s half b)) half s.turn.next } } half
      (trimBoard s half b).loans) := by
  refine congrArg Host.Outcome.next (if_neg ?_)
  rintro (hp | hf)
  · exact h hp
  · exact Bool.false_ne_true (hf.symm.trans fits)

theorem mem_trimBoard_loans {half : Nat} {b : Board} {l : Loan} (h : l ∈ (trimBoard s half b).loans) :
    l ∈ b.loans ∧ l.tile / 64 = half := by
  obtain ⟨hl, hhalf⟩ := List.mem_filter.mp (mem_of_mem_firstLoans h)
  exact ⟨hl, beq_iff_eq.mp hhalf⟩

theorem mem_trimBoard_windows {half : Nat} {b : Board} {w : Nat × Nat} (h : w ∈ (trimBoard s half b).windows) :
    w ∈ b.windows ∧ w.1 / 4 = half := by
  obtain ⟨hw, hkeep⟩ := List.mem_filter.mp (mem_nub.mp h)
  simp only [Bool.and_eq_true, beq_iff_eq] at hkeep
  exact ⟨hw, hkeep.1.1⟩

theorem mem_trimBoard_portBytes {half : Nat} {b : Board} {x : Nat × Nat} (h : x ∈ (trimBoard s half b).portBytes) :
    x.1 / 8 = half ∧ x.2 ≤ portTurnBytes s := by
  obtain ⟨y, hy, rfl⟩ := List.mem_map.mp h
  obtain ⟨-, hhalf⟩ := List.mem_filter.mp hy
  exact ⟨beq_iff_eq.mp hhalf, Nat.min_le_right _ _⟩

/-- Settles O10: the board is written as `trimBoard` cuts it, and its loans load their buffers. -/
theorem boardWriteReservesOwnResources : Obligations.BoardWriteReservesOwnResources := by
  intro half b s hhalf hlen
  refine ⟨fun hp fits => ⟨_, exec_plannerBoardWrite hp fits, rfl, ?_, trimBoard s half b, ?_, rfl, rfl, ?_⟩,
    exec_plannerBoardWrite_idle⟩
  · exact getD_atIdx_ne _ _ (by omega) _
  · exact getD_atIdx_self _ (by omega) _
  · refine ⟨fun l => mem_trimBoard_loans, firstLoans_tiles_nodup _, fun w => mem_trimBoard_windows, nub_nodup _, ?_,
      fun x => mem_trimBoard_portBytes, fun l => standby_foldl_putStandby (firstLoans_tiles_nodup _) _⟩
    rintro rfl
    rfl

/-! ### The period (R30) -/

theorem exec_periodSwitch_due (hp : s.turn.phase = .p4) (pending : getObj s Obj.PERIOD_PENDING ≠ 0)
    (due : getObj s Obj.PERIOD_SWITCH_TURN ≤ boundary s) :
    exec .periodSwitch s = .next (setObj (setObj (setObj s Obj.TURN_PERIOD_US (getObj s Obj.PERIOD_PENDING))
      Obj.PERIOD_PENDING 0) Obj.PERIOD_SWITCH_TURN 0) :=
  congrArg Host.Outcome.next (if_pos ⟨hp, pending, due⟩)

/-- Settles O11: the three objects of the period are written, and no other. -/
theorem periodSwitchTakesThePending : Obligations.PeriodSwitchTakesThePending := by
  intro s hp pending due
  refine ⟨_, exec_periodSwitch_due hp pending due, ?_, ?_, getObj_setObj_self _ _ _, fun a ha => ?_⟩
  · rw [getObj_setObj_ne _ _ (by decide), getObj_setObj_ne _ _ (by decide), getObj_setObj_self]
  · rw [getObj_setObj_ne _ _ (by decide), getObj_setObj_self]
  · rw [← Bool.not_eq_true, List.contains_iff_mem] at ha
    simp only [List.mem_cons, List.not_mem_nil, or_false, not_or] at ha
    obtain ⟨hperiod, hpending, hswitch⟩ := ha
    rw [getObj_setObj_ne _ _ hswitch, getObj_setObj_ne _ _ hpending, getObj_setObj_ne _ _ hperiod]

/-! ### Deadlines (R38, R52, R54, R56) -/

theorem find?_updFirst {α : Type} {p : α → Bool} {f : α → α} (hf : ∀ a, p a = true → p (f a) = true) (l : List α) :
    (updFirst p f l).find? p = (l.find? p).map f := by
  induction l with
  | nil => rfl
  | cons a l ih =>
    cases ha : p a with
    | true => simp [updFirst, ha, hf a ha]
    | false => simp [updFirst, ha, ih]

theorem getQuery_onQuery {qh : Nat} {q : Query} (hq : getQuery s qh = some q) {f : Query → Query} (hf : ∀ q, (f q).qh = q.qh) :
    getQuery (onQuery s qh f) qh = some (f q) := by
  have changed := find?_updFirst (p := fun q : Query => q.qh == qh) (f := f) (fun q hq => by rwa [hf q]) s.queries
  exact changed.trans (congrArg (Option.map f) hq)

/-- A query that slips is marked, and counted the first time (R56). -/
theorem slipQuery_of {qh : Nat} {q : Query} (hq : getQuery s qh = some q) :
    getQuery (slipQuery s qh) qh = some { q with slip := true } ∧
      waitingCount (slipQuery s qh) Obj.SLIPPED_QUERIES =
        waitingCount s Obj.SLIPPED_QUERIES + (if q.slip = true then 0 else 1) := by
  unfold slipQuery
  rw [hq]
  dsimp only
  cases hslip : q.slip with
  | true => simp [hq, ← hslip]
  | false =>
    have marked : getQuery (onQuery s qh fun q => { q with slip := true }) qh = some { q with slip := true } :=
      getQuery_onQuery hq fun _ => rfl
    exact ⟨marked, waitingCount_bump_self _ _ Nat.one_ne_zero⟩

/-- Only the queries and the waiting counts change when a query slips. -/
theorem slipQuery_eq (s : State) (qh : Nat) :
    slipQuery s qh =
      { s with queries := (slipQuery s qh).queries, dict := { s.dict with ctrPend := (slipQuery s qh).dict.ctrPend } } := by
  unfold slipQuery
  split
  · rfl
  · split
    · rfl
    · rfl

theorem exec_deadlineBoundary {qh : Nat} {q : Query} (hq : getQuery s qh = some q) :
    exec (.deadlineBoundary qh) s = .next (if s.turn.phase = .p6 ∧ s.turn.due.contains qh = true ∧ lacksLists q = true
      then slipQuery (onQuery s qh fun q => { q with timedOut := true }) qh else s) := by
  unfold exec execDeadlineBoundary
  dsimp only
  rw [hq]

/-- A query that lacks lists at its deadline boundary is marked timed out and has slipped. -/
theorem deadlineBoundary_late {qh : Nat} {q : Query} (hq : getQuery s qh = some q) (hp : s.turn.phase = .p6)
    (hdue : s.turn.due.contains qh = true) (hlate : lacksLists q = true) :
    Completes (.deadlineBoundary qh) s fun t =>
      getQuery t qh = some { q with timedOut := true, slip := true } ∧
      waitingCount t Obj.SLIPPED_QUERIES = waitingCount s Obj.SLIPPED_QUERIES + (if q.slip = true then 0 else 1) ∧
      t = { s with queries := t.queries, dict := { s.dict with ctrPend := t.dict.ctrPend } } := by
  have timed : getQuery (onQuery s qh fun q => { q with timedOut := true }) qh = some { q with timedOut := true } :=
    getQuery_onQuery hq fun _ => rfl
  obtain ⟨hslip, hcount⟩ := slipQuery_of timed
  refine ⟨_, (exec_deadlineBoundary hq).trans (congrArg _ (if_pos ⟨hp, hdue, hlate⟩)), hslip, hcount, ?_⟩
  exact slipQuery_eq (onQuery s qh fun q => { q with timedOut := true }) qh

/-- The units of number `n` whose deadline boundary has come. -/
def unitLate (s : State) (n : Nat) (u : SUnit) : Bool := u.num == n && decide (u.probe.deadline ≤ s.turn.no)

theorem unitLate_iff {n : Nat} {u : SUnit} : unitLate s n u = true ↔ u.num = n ∧ u.probe.deadline ≤ s.turn.no := by
  unfold unitLate
  rw [Bool.and_eq_true, beq_iff_eq, decide_eq_true_eq]

theorem exec_unitDeadlineDrop (hp : s.turn.phase = .p5) (n : Nat) :
    exec (.unitDeadlineDrop n) s = .next (dropUnits s (unitLate s n)) := congrArg Host.Outcome.next (if_pos hp)

/-- A unit that is removed leaves no read behind in a waystation's queue. -/
theorem dropUnits_queues {gone : SUnit → Bool} {u : SUnit} (hu : u ∈ s.units) (hgone : gone u = true) :
    ∀ p ∈ (dropUnits s gone).way.queues, ∀ r ∈ p.2, r.unit ≠ u.num := by
  intro p hp r hr hunit
  obtain ⟨p', -, rfl⟩ := List.mem_map.mp hp
  obtain ⟨-, hkept⟩ := List.mem_filter.mp hr
  have named : ((s.units.filter gone).map (·.num)).contains r.unit = true := by
    rw [List.contains_iff_mem, hunit]
    exact List.mem_map.mpr ⟨u, List.mem_filter.mpr ⟨hu, hgone⟩, rfl⟩
  rw [named] at hkept
  exact Bool.false_ne_true hkept

/-- Settles O12: a deadline boundary by what the query lacks, and the drop by which units it removes. -/
theorem deadlinesDropTheLate : Obligations.DeadlinesDropTheLate := by
  refine ⟨fun qh q s hq hp hdue => ⟨deadlineBoundary_late hq hp hdue, fun hfull => ?_⟩, fun n s hp => ?_⟩
  · refine (exec_deadlineBoundary hq).trans (congrArg _ (if_neg ?_))
    rintro ⟨-, -, hlacks⟩
    exact Bool.false_ne_true (hfull.symm.trans hlacks)
  · refine ⟨_, exec_unitDeadlineDrop hp n, fun u => ?_, ?_, rfl⟩
    · rw [← unitLate_iff, Bool.not_eq_true, ← Bool.not_eq_true']
      exact List.mem_filter
    · rintro ⟨u, hu, rfl, hlate⟩
      exact dropUnits_queues hu (unitLate_iff.mpr ⟨rfl, hlate⟩)

/-! ### Caravans (R48, R375, R395) -/

theorem exec_caravanComplete_stays {src turn frames counted : Nat} {xs : List Sect} (h : counted < frames) :
    exec (.caravanComplete src turn frames counted xs) s = .next s := congrArg Host.Outcome.next (if_pos (.inl h))

theorem exec_caravanComplete_taken {src turn frames counted : Nat} (xs : List Sect) (whole : frames ≤ counted)
    (hears : hearsCaravan s src = true) (new : caravanKnown s src turn = false) :
    exec (.caravanComplete src turn frames counted xs) s = .next
      { (if caravanLate s turn = true then bump s Obj.LATE_CARAVANS 1 else s) with
        fab := { s.fab with inbox := s.fab.inbox ++ [(src, turn, xs)] } } := by
  refine congrArg Host.Outcome.next ((if_neg ?_).trans ?_)
  · rintro (hshort | hdeaf | hknown)
    · omega
    · exact Bool.false_ne_true (hdeaf.symm.trans hears)
    · exact Bool.false_ne_true (new.symm.trans hknown)
  · dsimp only
    split
    · rfl
    · rfl

/-- Settles O13: the whole caravan waits, counted where it is late. -/
theorem caravanWaitsForItsBoundary : Obligations.CaravanWaitsForItsBoundary := by
  intro src turn frames counted xs s
  refine ⟨fun whole hears new => ⟨_, exec_caravanComplete_taken xs whole hears new, rfl, ?_⟩, exec_caravanComplete_stays⟩
  cases caravanLate s turn with
  | true => exact waitingCount_bump_self s _ Nat.one_ne_zero
  | false => rfl

/-! ### Sections that leave together (R375) -/

/-- Sections put into the next caravans, in order. -/
def sendList (s : State) (l : List (Nat × Sect)) : State := { s with fab := { s.fab with out := s.fab.out ++ l } }

theorem sendList_nil (s : State) : sendList s [] = s := by
  unfold sendList
  rw [List.append_nil]

theorem sendList_sendList (s : State) (l m : List (Nat × Sect)) : sendList (sendList s l) m = sendList s (l ++ m) := by
  unfold sendList
  rw [List.append_assoc]

/-- Steps that each send a list, chosen by what sending leaves as it is, send them all. -/
theorem foldl_sendList {α : Type} {g : State → α → List (Nat × Sect)} (hg : ∀ u l a, g (sendList u l) a = g u a)
    (as : List α) (s : State) : as.foldl (fun u a => sendList u (g u a)) s = sendList s (as.flatMap (g s)) := by
  induction as generalizing s with
  | nil => exact (sendList_nil s).symm
  | cons a as ih =>
    rw [List.foldl_cons, ih, sendList_sendList, List.flatMap_cons]
    congr 2
    exact congrArg (fun f => as.flatMap f) (funext fun b => hg s _ b)

theorem foldl_send {α : Type} (dst : α → Nat) (x : α → Sect) (as : List α) (s : State) :
    as.foldl (fun u a => send u (dst a) (x a)) s = sendList s (as.map fun a => (dst a, x a)) := by
  rw [← List.flatMap_singleton' (as.map _), List.flatMap_map]
  exact foldl_sendList (g := fun _ a => [(dst a, x a)]) (fun _ _ _ => rfl) as s

theorem sendAll_eq (s : State) (dsts : List Nat) (x : Sect) : sendAll s dsts x = sendList s (dsts.map fun d => (d, x)) :=
  foldl_send id (fun _ => x) dsts s

/-! ### Grants (R44, R298) -/

/-- The shares fit the room. -/
theorem fitShares_sum_le (room : Nat) (l : List (Nat × Nat)) : ((fitShares room l).map Prod.snd).sum ≤ room := by
  induction l generalizing room with
  | nil => exact Nat.zero_le _
  | cons x l ih =>
    rw [fitShares, List.map_cons, List.sum_cons]
    have rest := ih (room - x.2)
    omega

/-- The grants of this node to members, of which a refresh sends each. -/
def ownGrants (s : State) (gs : List Grant) : List Grant :=
  gs.filter fun g => g.granter == selfNode s && s.ledger.members.contains g.grantee

/-- The sections of a refresh: shard grants, segment grants and shares of STAGE_CAP. -/
def shardSections (gs : List Grant) : List (Nat × Sect) :=
  (gs.filter fun g => decide (g.kind = .shard)).map fun g => (g.grantee, .grant g)
def segmentSections (s : State) (gs : List Grant) : List (Nat × Sect) :=
  (gs.filter fun g => decide (g.kind = .segment)).flatMap fun g => (segFeeders s g.grantee).map fun d => (d, .grant g)
def shareSections (s : State) (gs : List Grant) : List (Nat × Sect) :=
  ((newShares s (gs.filter fun g => decide (g.kind = .ingest))).filter fun p =>
      !s.fab.given.contains p || gs.any fun g => decide (g.kind = .ingest) && g.grantee == p.1).map fun p =>
    (p.1, .grant { kind := .ingest, granter := selfNode s, grantee := p.1, amount := p.2 })

theorem segFeeders_self (s : State) (n : Nat) : n ∈ segFeeders s n := mem_nub.mpr List.mem_cons_self

theorem foldl_segmentSections (gs : List Grant) (s : State) :
    (gs.filter fun g => decide (g.kind = .segment)).foldl
        (fun u g => (segFeeders u g.grantee).foldl (fun u d => send u d (.grant g)) u) s
      = sendList s (segmentSections s gs) := by
  rw [segmentSections, ← foldl_sendList (g := fun u (g : Grant) => (segFeeders u g.grantee).map fun d => (d, Sect.grant g))
    (fun _ _ _ => rfl)]
  congr 1
  funext u g
  exact foldl_send id (fun _ => Sect.grant g) (segFeeders u g.grantee) u

theorem doGrantRefresh_eq (gs : List Grant) (hp : s.turn.phase = .p6) (h64 : s.turn.no % 64 = 0) (member : isMember s = true) :
    doGrantRefresh s gs =
      { s with fab := { s.fab with
        out := s.fab.out ++ (shardSections (ownGrants s gs) ++
          (segmentSections s (ownGrants s gs) ++ shareSections s (ownGrants s gs)))
        given := newShares s ((ownGrants s gs).filter fun g => decide (g.kind = .ingest)) } } := by
  unfold doGrantRefresh
  rw [if_neg (by simp [hp, h64, member])]
  dsimp only
  rw [foldl_send Grant.grantee Sect.grant, foldl_segmentSections]
  rw [foldl_send Prod.fst fun p => Sect.grant { kind := .ingest, granter := selfNode s, grantee := p.1, amount := p.2 }]
  rw [sendList_sendList, sendList_sendList]
  rfl

/-- A shard or segment grant of this node to a member is among the sections. -/
theorem grant_mem_sections {gs : List Grant} {g : Grant} (hg : g ∈ ownGrants s gs) (hkind : g.kind ≠ .ingest) :
    (g.grantee, Sect.grant g) ∈ shardSections (ownGrants s gs) ++
      (segmentSections s (ownGrants s gs) ++ shareSections s (ownGrants s gs)) := by
  cases hk : g.kind with
  | shard =>
    refine List.mem_append_left _ (List.mem_map.mpr ⟨g, List.mem_filter.mpr ⟨hg, ?_⟩, rfl⟩)
    exact decide_eq_true hk
  | ingest => exact absurd hk hkind
  | segment =>
    refine List.mem_append_right _ (List.mem_append_left _ (List.mem_flatMap.mpr ⟨g, List.mem_filter.mpr ⟨hg, ?_⟩, ?_⟩))
    · exact decide_eq_true hk
    · exact List.mem_map.mpr ⟨_, segFeeders_self s _, rfl⟩

/-- A share that changes is among the sections. -/
theorem share_mem_sections {gs : List Grant} {p : Nat × Nat}
    (hp : p ∈ newShares s ((ownGrants s gs).filter fun g => decide (g.kind = .ingest))) (hnew : p ∉ s.fab.given) :
    (p.1, Sect.grant { kind := .ingest, granter := selfNode s, grantee := p.1, amount := p.2 }) ∈
      shardSections (ownGrants s gs) ++ (segmentSections s (ownGrants s gs) ++ shareSections s (ownGrants s gs)) := by
  refine List.mem_append_right _ (List.mem_append_right _ (List.mem_map.mpr ⟨p, List.mem_filter.mpr ⟨hp, ?_⟩, rfl⟩))
  rw [← List.contains_iff_mem, Bool.not_eq_true] at hnew
  rw [hnew, Bool.not_false, Bool.true_or]

/-- Settles O14: a refresh sends its sections and keeps the shares within STAGE_CAP. -/
theorem grantsRefreshEvery64Turns : Obligations.GrantsRefreshEvery64Turns := by
  intro gs s hp h64 member
  refine ⟨_, congrArg Host.Outcome.next (doGrantRefresh_eq gs hp h64 member), ?_, fitShares_sum_le _ _, ?_, _, rfl⟩
  · intro g hg hgranter hgrantee hkind
    have own : g ∈ ownGrants s gs := by
      refine List.mem_filter.mpr ⟨hg, ?_⟩
      rw [hgranter, beq_self_eq_true, Bool.true_and, List.contains_iff_mem]
      exact hgrantee
    exact List.mem_append_right _ (grant_mem_sections own hkind)
  · exact fun p hshare hnew => List.mem_append_right _ (share_mem_sections hshare hnew)

end Sys2Proof.Machine

/-! The epochs of the ledger: formed, stored, committed and applied (R30, R182, R382, R383, R385). -/

namespace Sys2Proof.Machine

open Sys2Proof

variable {s : State}

/-! ### Forming (R382) -/

theorem mem_resolve {rs : List LedgerReq} {r : LedgerReq} (hr : r ∈ rs) (hkey : recKey r.body = none) : r ∈ resolve rs := by
  obtain ⟨i, hi⟩ := List.mem_iff_getElem?.mp hr
  refine List.mem_map.mpr ⟨(r, i), List.mem_filter.mpr ⟨List.mem_zipIdx_iff_getElem?.mpr hi, ?_⟩, rfl⟩
  unfold beaten
  rw [hkey, Option.isSome_none, Bool.false_and, Bool.not_false]

/-- Refusing a run rewrites its record and drops none (R183). -/
theorem refuseRuns_length (cs : List Nat) (rs : List LedgerReq) : (refuseRuns cs rs).length = rs.length := by
  induction rs generalizing cs with
  | nil => rfl
  | cons r rs ih =>
    unfold refuseRuns
    split
    · exact congrArg Nat.succ (ih cs)
    · exact congrArg Nat.succ (ih _)

/-- Refusing a reshape rewrites its record and drops none (R314). -/
theorem limitReshapes_length (s : State) (used : List (Nat × Nat)) (rs : List LedgerReq) :
    (limitReshapes s used rs).length = rs.length := by
  induction rs generalizing used with
  | nil => rfl
  | cons r rs ih =>
    unfold limitReshapes
    split
    · dsimp only
      split
      · exact congrArg Nat.succ (ih _)
      · split
        · exact congrArg Nat.succ (ih _)
        · exact congrArg Nat.succ (ih _)
    · exact congrArg Nat.succ (ih _)

/-- The records that the leader takes into the next epoch where no member has withdrawn. -/
def formedRecs (s : State) : List LedgerReq :=
  let now := s.ledger.reqs.take (getObj s Obj.EPOCH_MAX)
  let rs := limitReshapes s (comingReshapes s) (refuseRuns (willRun s) ((resolve (now.filter (recordable s))).map (complete s)))
  rs ++ leaderRecs s rs

/-- The epoch of those records. -/
def formedEpoch (s : State) : Epoch :=
  { num := nextEpoch s, effect := (s.turn.no + 2) % turnMod, leader := selfNode s, recs := formedRecs s, grid := gridOf s }

/-- The leader has taken its requests, and refused joins are answered. -/
def takenReqs (s : State) : State :=
  let t := sendAll s (refusedJoins s (s.ledger.reqs.take (getObj s Obj.EPOCH_MAX))) (.epoch { formedEpoch s with recs := [] })
  { t with ledger := { t.ledger with reqs := s.ledger.reqs.drop (getObj s Obj.EPOCH_MAX) } }

/-- The epoch goes to the other holders. -/
def sendEpoch (s : State) (e : Epoch) : State :=
  (s.ledger.holders.filter (· != selfNode s)).foldl (fun u h => emit u (.epochOut h e))
    { s with ledger := { s.ledger with forming := some e, noStore := 0 } }

theorem takenReqs_ledger (s : State) :
    (takenReqs s).ledger = { s.ledger with reqs := s.ledger.reqs.drop (getObj s Obj.EPOCH_MAX) } := by
  unfold takenReqs
  rw [sendAll_eq]
  rfl

theorem selfNode_takenReqs (s : State) : selfNode (takenReqs s) = selfNode s := by
  unfold takenReqs
  rw [sendAll_eq]
  rfl

theorem doEpochForm_eq (leader : isLeader s = true) (idle : s.ledger.forming = none) (hp : s.turn.phase = .p6) :
    doEpochForm s [] = if formedRecs s = [] then takenReqs s else sendEpoch (takenReqs s) (formedEpoch s) := by
  unfold doEpochForm
  rw [if_neg (by simp [leader, idle, hp])]
  have kept : s.ledger.reqs.filter (fun _ => true) = s.ledger.reqs := List.filter_eq_self.mpr fun _ _ => rfl
  simp only [List.filter_nil, List.map_nil, List.any_nil, Bool.not_false, List.nil_append, kept]
  unfold takenReqs
  simp only [sendAll_eq]
  rfl

theorem foldl_emit {α : Type} (o : α → Output) (as : List α) (s : State) :
    as.foldl (fun u a => emit u (o a)) s = { s with out := s.out ++ as.map o } := by
  induction as generalizing s with
  | nil => simp
  | cons a as ih =>
    rw [List.foldl_cons, ih, List.map_cons, emit_out, List.append_assoc, List.singleton_append]
    rfl

theorem sendEpoch_eq (s : State) (e : Epoch) : sendEpoch s e =
    { s with ledger := { s.ledger with forming := some e, noStore := 0 }
             out := s.out ++ (s.ledger.holders.filter (· != selfNode s)).map fun h => .epochOut h e } :=
  foldl_emit _ _ _

/-- A request that may be recorded and conflicts over nothing is formed into an epoch. -/
theorem formedRecs_ne_nil {r : LedgerReq} (hr : r ∈ s.ledger.reqs.take (getObj s Obj.EPOCH_MAX))
    (hrec : recordable s r = true) (hkey : recKey r.body = none) : formedRecs s ≠ [] := by
  have stays := mem_resolve (List.mem_filter.mpr ⟨hr, hrec⟩) hkey
  intro hnil
  have none_left := (List.append_eq_nil_iff.mp hnil).1
  rw [← List.length_eq_zero_iff, limitReshapes_length, refuseRuns_length, List.length_map, List.length_eq_zero_iff] at none_left
  rw [none_left] at stays
  exact List.not_mem_nil stays

/-- What the leader's attempt leaves: the requests beyond EPOCH_MAX, and an epoch where any record stayed. -/
theorem ledgerEpochForm_completes (leader : isLeader s = true) (idle : s.ledger.forming = none) (hp : s.turn.phase = .p6) :
    Completes (.ledgerEpochForm []) s fun t =>
      t.ledger.reqs = s.ledger.reqs.drop (getObj s Obj.EPOCH_MAX) ∧
      (∀ e, t.ledger.forming = some e → e.num = nextEpoch s ∧ e.effect = (s.turn.no + 2) % turnMod ∧ e.leader = selfNode s ∧
        e.recs ≠ [] ∧ ∀ h ∈ s.ledger.holders, h ≠ selfNode s → Output.epochOut h e ∈ t.out) ∧
      ((∃ r ∈ s.ledger.reqs.take (getObj s Obj.EPOCH_MAX), recordable s r = true ∧ recKey r.body = none) →
        t.ledger.forming ≠ none) := by
  refine ⟨_, congrArg Host.Outcome.next (doEpochForm_eq leader idle hp), ?_⟩
  by_cases hnil : formedRecs s = []
  · rw [if_pos hnil]
    dsimp only
    rw [takenReqs_ledger]
    refine ⟨rfl, fun e he => ?_, fun ⟨r, hr, hrec, hkey⟩ => absurd hnil (formedRecs_ne_nil hr hrec hkey)⟩
    exact absurd (idle.symm.trans he) (Option.some_ne_none e).symm
  · rw [if_neg hnil, sendEpoch_eq]
    dsimp only
    rw [takenReqs_ledger]
    refine ⟨rfl, fun e he => ?_, fun _ => Option.some_ne_none _⟩
    obtain rfl : formedEpoch s = e := Option.some.inj he
    refine ⟨rfl, rfl, rfl, hnil, fun h hh hself => List.mem_append_right _ (List.mem_map.mpr ⟨h, ?_, rfl⟩)⟩
    rw [selfNode_takenReqs]
    exact List.mem_filter.mpr ⟨hh, bne_iff_ne.mpr hself⟩

/-- A node that does not lead forms nothing, and no epoch is formed outside the work window. -/
theorem exec_ledgerEpochForm_idle (h : isLeader s = false ∨ s.turn.phase ≠ .p6) (gone : List Nat) :
    exec (.ledgerEpochForm gone) s = .next s :=
  congrArg Host.Outcome.next (if_pos (h.imp_right Or.inr))

/-! ### Storing and committing (R382) -/

theorem exec_epochStore (e : Epoch) (holder : isHolder s = true) (hne : s.ledger.leader ≠ selfNode s) :
    exec (.epochStore s.ledger.leader e) s = .next
      (emit { s with ledger := { s.ledger with stored := (s.ledger.stored.filter (·.num != e.num)) ++ [e], noStore := 0 } }
        (.epochAck s.ledger.leader e.num)) := by
  refine congrArg Host.Outcome.next (if_pos ?_)
  rw [holder, beq_self_eq_true, Bool.and_self, Bool.true_and]
  exact bne_iff_ne.mpr hne

/-- The holders that have stored an epoch, the leader among them. -/
def storedBy (s : State) (acks : List Nat) : Nat :=
  1 + (nub (acks.filter fun a => s.ledger.holders.contains a && a != selfNode s)).length

/-- The attempt has ended, and the leader knows which holders stayed away (R453). -/
def attemptEnded (s : State) (acks : List Nat) : State :=
  { s with ledger := { s.ledger with
    forming := none
    absent := (s.ledger.holders.filter (· != selfNode s)).map fun h =>
      (h, if acks.contains h then 0 else lookD s.ledger.absent h 0 + 1) } }

theorem doEpochCommit_eq {e : Epoch} (acks : List Nat) (forming : s.ledger.forming = some e) (leader : isLeader s = true)
    (hp : s.turn.phase = .p6) :
    doEpochCommit s acks = if s.ledger.holders.length < 2 * storedBy s acks
      then sendList (attemptEnded s acks) ((nodeSort (s.ledger.members ++ epochJoins e)).map fun m => (m, Sect.epoch e))
      else bump { attemptEnded s acks with
        ledger := { (attemptEnded s acks).ledger with reqs := e.recs.filter retried ++ s.ledger.reqs } } Obj.EPOCH_RETRIES 1 := by
  unfold doEpochCommit
  rw [forming]
  dsimp only
  rw [if_neg (by simp [leader, hp]), sendAll_eq]
  rfl

/-- With a majority of the holders the epoch is published to every member. -/
theorem epochCommit_publishes {e : Epoch} {acks : List Nat} (forming : s.ledger.forming = some e) (leader : isLeader s = true)
    (hp : s.turn.phase = .p6) (majority : s.ledger.holders.length < 2 * storedBy s acks) :
    Completes (.epochCommit acks) s fun t => t.ledger.forming = none ∧
      t.fab.out = s.fab.out ++ (nodeSort (s.ledger.members ++ epochJoins e)).map fun m => (m, Sect.epoch e) :=
  ⟨_, congrArg Host.Outcome.next ((doEpochCommit_eq acks forming leader hp).trans (if_pos majority)), rfl, rfl⟩

/-- Without one its records wait for the next attempt, counted. -/
theorem epochCommit_retries {e : Epoch} {acks : List Nat} (forming : s.ledger.forming = some e) (leader : isLeader s = true)
    (hp : s.turn.phase = .p6) (minority : 2 * storedBy s acks ≤ s.ledger.holders.length) :
    Completes (.epochCommit acks) s fun t => t.ledger.forming = none ∧
      t.ledger.reqs = e.recs.filter retried ++ s.ledger.reqs ∧ t.fab = s.fab ∧
      waitingCount t Obj.EPOCH_RETRIES = waitingCount s Obj.EPOCH_RETRIES + 1 :=
  ⟨_, congrArg Host.Outcome.next ((doEpochCommit_eq acks forming leader hp).trans (if_neg (by omega))), rfl, rfl, rfl,
    waitingCount_bump_self _ _ Nat.one_ne_zero⟩

/-! ### Applying (R30, R382, R385, R386) -/

theorem exec_epochApply_idle (h : s.turn.phase ≠ .p4) : exec .epochApply s = .next s :=
  congrArg Host.Outcome.next (if_pos h)

/-- A member applies the one epoch that is due. -/
theorem exec_epochApply_one {e : Epoch} (hp : s.turn.phase = .p4) (member : isMember s = true)
    (due : s.ledger.epochs.filter (fun e => decide (e.effect ≤ boundary s)) = [e]) :
    exec .epochApply s = .next (applyEpoch (boundary s) s e) := by
  refine congrArg Host.Outcome.next ?_
  unfold doEpochApply admission
  rw [if_neg (not_not_intro hp), if_pos member]
  dsimp only
  rw [member, Bool.not_true, if_neg Bool.false_ne_true, due]
  rfl

theorem applyEpoch_ledger (n : Nat) (s : State) (e : Epoch) :
    (applyEpoch n s e).ledger.applied = e.num ∧ (applyEpoch n s e).ledger.outOfStep = false ∧
      ∀ x ∈ (applyEpoch n s e).ledger.epochs, x.num ≠ e.num := by
  refine ⟨rfl, rfl, fun x hx => ?_⟩
  obtain ⟨-, hnum⟩ := List.mem_filter.mp hx
  exact bne_iff_ne.mp hnum

/-- An epoch of one record does what the record does, and of the ledger changes only which epochs it knows. -/
theorem applyEpoch_single {n : Nat} {e : Epoch} {r : LedgerReq} (h : e.recs = [r]) :
    applyEpoch n s e = { applyRec e n s r with ledger := { (applyRec e n s r).ledger with
      applied := e.num, outOfStep := false
      epochs := (applyRec e n s r).ledger.epochs.filter (·.num != e.num)
      stored := (applyRec e n s r).ledger.stored.filter fun x => decide (e.num < x.num) } } := by
  unfold applyEpoch
  rw [h]
  rfl

/-- A period record sets the period pending (R30). -/
theorem applyEpoch_period {n : Nat} {e : Epoch} {node us turn : Nat} (h : e.recs = [{ node := node, body := .period us turn }]) :
    getObj (applyEpoch n s e) Obj.PERIOD_PENDING = us ∧ getObj (applyEpoch n s e) Obj.PERIOD_SWITCH_TURN = turn := by
  rw [applyEpoch_single h]
  constructor
  · exact (getObj_setObj_ne _ _ (by decide)).trans (getObj_setObj_self s _ _)
  · exact getObj_setObj_self _ _ _

/-- The state in which a new leader's own node has sent the ledger to the new holders (R386). -/
def holdersTold (s : State) (hs : List Nat) (l : Nat) : State :=
  if l = selfNode s then sendAll s (hs.filter fun h => h != l && !s.ledger.holders.contains h) (.copy (.ledger (ledgerImage s))) else s

theorem holdersTold_frame (s : State) (hs : List Nat) (l : Nat) : Frame [.fab] s (holdersTold s hs l) :=
  Frame.ite (sendAll_frame _ _ _) (Frame.refl _ _)

/-- A holders record that names another leader changes holders, leader and term, with event 0x4005 (R386). -/
theorem applyHolders_newLeader (hs : List Nat) {l : Nat} (term : Nat) (h : s.ledger.leader ≠ l) :
    (applyHolders s hs l term).ledger.holders = hs ∧ (applyHolders s hs l term).ledger.leader = l ∧
      (applyHolders s hs l term).ledger.term = max term s.ledger.term ∧ Logged s (applyHolders s hs l term) 0x4005 l := by
  have told := (holdersTold_frame s hs l).keep
  have hledger : (holdersTold s hs l).ledger = s.ledger := told .ledger rfl
  obtain ⟨hlog, htally⟩ := told .errorLog rfl
  have hno : (holdersTold s hs l).turn.no = s.turn.no := told .turnNo rfl
  have posted : applyHolders s hs l term = { postEvent (holdersTold s hs l) 0x4005 l with
      ledger := { s.ledger with holders := hs, leader := l, term := max term s.ledger.term, standing := 0, beats := 0 } } := by
    unfold applyHolders
    dsimp only
    rw [← holdersTold, hledger, if_neg h, postEvent_ledger, hledger, if_neg h]
  rw [posted]
  refine ⟨rfl, rfl, rfl, ?_⟩
  have logged := postEvent_logged (holdersTold s hs l) 0x4005 l
  unfold Logged at logged ⊢
  rw [hlog, htally, hno] at logged
  exact logged

/-- Settles O51: forming, storing, committing and applying, each from what its command answers. -/
theorem epochsFormCommitAndApply : Obligations.EpochsFormCommitAndApply := by
  refine ⟨fun s => ledgerEpochForm_completes, fun s h gone => exec_ledgerEpochForm_idle h gone, fun e s holder hne => ?_,
    fun acks e s forming leader hp => ⟨epochCommit_publishes forming leader hp, epochCommit_retries forming leader hp⟩,
    fun e s hp member due => ?_, fun s h => exec_epochApply_idle h⟩
  · exact ⟨_, exec_epochStore e holder hne, List.mem_append_right _ List.mem_cons_self, rfl, rfl⟩
  · have applied := exec_epochApply_one hp member due
    refine ⟨⟨_, applied, applyEpoch_ledger _ _ _⟩, fun node us turn hrec => ⟨_, applied, applyEpoch_period hrec⟩,
      fun node hs l term hrec hl => ⟨_, applied, ?_⟩⟩
    rw [applyEpoch_single hrec]
    exact applyHolders_newLeader hs term hl

end Sys2Proof.Machine

/-! BAR2: the window that a written base gives, the reads and the writes (R62 to R64, R248, R256). -/

namespace Sys2Proof.Machine

open Sys2Proof

variable {s : State}

/-! ### The window (R62) -/

theorem exec_bar2WindowBaseWrite (hears : hostHears s = true) (v : Nat) :
    exec (.bar2WindowBaseWrite v) s = .next (setBase s v) := congrArg Host.Outcome.next (if_pos hears)

theorem setBase_bar2Base (s : State) (v : Nat) : (setBase s v).host.bar2Base = clampBase s v := rfl

/-- With the widest aperture a base is one of three. -/
theorem setBase_widest (h : s.host.bar2Size = 4) (v : Nat) :
    (setBase s v).host.bar2Base = 0 ∨ (setBase s v).host.bar2Base = 256 * 2 ^ 30 ∨
      (setBase s v).host.bar2Base = 512 * 2 ^ 30 := by
  rw [setBase_bar2Base, clampBase, aperture, searchBytes, h]
  omega

/-! ### Reads (R63, R64, R256) -/

/-- A request that is heard and not refused is served, after the wait for its bank is counted. -/
theorem exec_bar2Read {o n : Nat} {bad secure busy : Bool} (hears : hostHears s = true) (taken : ideRefused s secure = false) :
    let as := (List.range n).map (s.host.bar2Base + o + ·)
    let u := heldAccess s busy (s.host.bar2Base + o)
    exec (.bar2Read o n bad secure busy) s = .next (
      if (bad && as.any (bar2Reads u)) = true then
        emit (logAbort (postEvent u 0x6003 ((s.host.bar2Base + o) % 2 ^ 40))) .completerAbort
      else emit u (.readData (as.map (bar2Byte u)))) := by
  unfold exec execBar2Read
  simp only [hears, taken, Bool.not_true, Bool.false_eq_true, if_false]

/-- The wait of an access is a count, and leaves all that BAR2 reads. -/
theorem heldAccess_eq (s : State) (busy : Bool) (a : Nat) :
    heldAccess s busy a = { s with dict := { s.dict with ctrPend := (heldAccess s busy a).dict.ctrPend } } := by
  unfold heldAccess
  split
  · rfl
  · rfl

theorem bar2Reads_heldAccess (s : State) (busy : Bool) (a : Nat) : bar2Reads (heldAccess s busy a) = bar2Reads s := by
  rw [heldAccess_eq]
  rfl

theorem bar2Byte_heldAccess (s : State) (busy : Bool) (a : Nat) : bar2Byte (heldAccess s busy a) = bar2Byte s := by
  rw [heldAccess_eq]
  rfl

theorem waitingCount_heldAccess (s : State) (busy : Bool) (a : Nat) :
    waitingCount (heldAccess s busy a) Obj.READS_HELD =
      waitingCount s Obj.READS_HELD + (if (busy && reachesBank s a) = true then 1 else 0) := by
  unfold heldAccess
  split
  · exact waitingCount_bump_self s _ Nat.one_ne_zero
  · rfl

theorem waitingCount_heldAccess_ne (s : State) (busy : Bool) (a : Nat) {x : Nat} (h : x ≠ Obj.READS_HELD) :
    waitingCount (heldAccess s busy a) x = waitingCount s x := by
  unfold heldAccess
  split
  · exact waitingCount_bump_ne s _ h
  · rfl

/-- A read that meets no uncorrectable error answers the bytes that BAR2 reaches. -/
theorem exec_bar2Read_data {o n : Nat} {bad secure busy : Bool} (hears : hostHears s = true) (taken : ideRefused s secure = false)
    (good : bad = false ∨ ((List.range n).map (s.host.bar2Base + o + ·)).any (bar2Reads s) = false) :
    exec (.bar2Read o n bad secure busy) s = .next (emit (heldAccess s busy (s.host.bar2Base + o))
      (.readData (((List.range n).map (s.host.bar2Base + o + ·)).map (bar2Byte s)))) := by
  have hgood : (bad && ((List.range n).map (s.host.bar2Base + o + ·)).any (bar2Reads s)) = false := by
    rwa [Bool.and_eq_false_iff]
  rw [exec_bar2Read hears taken, bar2Reads_heldAccess, bar2Byte_heldAccess, hgood, if_neg Bool.false_ne_true]

/-- A read that meets one is aborted. -/
theorem exec_bar2Read_abort {o n : Nat} {secure busy : Bool} (hears : hostHears s = true) (taken : ideRefused s secure = false)
    (lost : ((List.range n).map (s.host.bar2Base + o + ·)).any (bar2Reads s) = true) :
    exec (.bar2Read o n true secure busy) s = .next (emit (logAbort (postEvent (heldAccess s busy (s.host.bar2Base + o)) 0x6003
      ((s.host.bar2Base + o) % 2 ^ 40))) .completerAbort) := by
  rw [exec_bar2Read hears taken, bar2Reads_heldAccess, lost, Bool.and_self, if_pos rfl]

/-- Settles O17: the clamp of R62, and a read through the window that it gives. -/
theorem bar2WindowStaysInside : Obligations.Bar2WindowStaysInside := by
  intro v s hears
  refine ⟨_, exec_bar2WindowBaseWrite hears v, rfl, fun fits => setBase_window fits v, fun wide => setBase_widest wide v,
    fun o n secure taken => ⟨_, exec_bar2Read_data hears taken (.inl rfl), ?_⟩⟩
  rw [List.map_map]
  rfl

theorem bar2Read_data_completes {o n : Nat} {bad secure busy : Bool} (hears : hostHears s = true)
    (taken : ideRefused s secure = false)
    (good : bad = false ∨ ((List.range n).map (s.host.bar2Base + o + ·)).any (bar2Reads s) = false) :
    Completes (.bar2Read o n bad secure busy) s fun t =>
      t = { s with out := s.out ++ [Output.readData (((List.range n).map (s.host.bar2Base + o + ·)).map (bar2Byte s))],
                   dict := { s.dict with ctrPend := t.dict.ctrPend } } ∧
      waitingCount t Obj.READS_HELD = waitingCount s Obj.READS_HELD +
        (if (busy && reachesBank s (s.host.bar2Base + o)) = true then 1 else 0) ∧
      ∀ x, x ≠ Obj.READS_HELD → waitingCount t x = waitingCount s x := by
  refine ⟨_, exec_bar2Read_data hears taken good, ?_, waitingCount_heldAccess _ _ _,
    fun x hx => waitingCount_heldAccess_ne _ _ _ hx⟩
  exact congrArg (emit · _) (heldAccess_eq s busy (s.host.bar2Base + o))

theorem bar2Read_abort_completes {o n : Nat} {secure busy : Bool} (hears : hostHears s = true)
    (taken : ideRefused s secure = false) (lost : ((List.range n).map (s.host.bar2Base + o + ·)).any (bar2Reads s) = true) :
    Completes (.bar2Read o n true secure busy) s fun t =>
      t.out = s.out ++ [Output.completerAbort] ∧ Logged s t 0x6003 ((s.host.bar2Base + o) % 2 ^ 40) ∧
      t.host.aer = s.host.aer ||| 2 ^ 15 ∧ t.smem.cells = s.smem.cells := by
  have held := (heldAccess_frame s busy (s.host.bar2Base + o)).keep
  have posted := (postEvent_frame (heldAccess s busy (s.host.bar2Base + o)) 0x6003 ((s.host.bar2Base + o) % 2 ^ 40)).keep
  refine ⟨_, exec_bar2Read_abort hears taken lost, ?_, ?_, ?_, ?_⟩
  · exact congrArg (· ++ [Output.completerAbort]) ((posted .out rfl).trans (held .out rfl))
  · have logged := postEvent_logged (heldAccess s busy (s.host.bar2Base + o)) 0x6003 ((s.host.bar2Base + o) % 2 ^ 40)
    rw [heldAccess_eq] at logged ⊢
    exact logged
  · obtain ⟨-, -, -, -, hheld, -⟩ := held .hostRegs rfl
    obtain ⟨-, -, -, -, hposted, -⟩ := posted .hostRegs rfl
    exact congrArg (· ||| 2 ^ 15) (hposted.trans hheld)
  · exact (posted .smemCells rfl).trans (held .smemCells rfl)

/-! ### Writes (R63, R256) -/

theorem exec_bar2Write {o : Nat} {d : List Byte} {secure busy : Bool} (hears : hostHears s = true)
    (taken : ideRefused s secure = false) :
    exec (.bar2Write o d secure busy) s =
      .next (bar2Write (heldAccess s busy (s.host.bar2Base + o)) (s.host.bar2Base + o) d) := by
  unfold exec execBar2Write
  simp only [hears, taken, Bool.not_true, Bool.false_eq_true, if_false]

/-- A write within one 16-byte line is one piece. -/
theorem pieces_within_line {a : Nat} {d : List Byte} (hd : d ≠ []) (hline : d.length ≤ 16 - a % 16) (n : Nat) :
    pieces (n + 2) a d = [(a, d)] := by
  cases d with
  | nil => exact absurd rfl hd
  | cons x d =>
    rw [pieces, List.take_of_length_le hline, List.drop_of_length_le hline]
    · rfl
    · exact List.cons_ne_nil x d

theorem bar2Write_within_line {a : Nat} {d : List Byte} (hd : d ≠ []) (hline : d.length ≤ 16 - a % 16) :
    bar2Write s a d = if (writePiece (s, true) (a, d)).2 = true then (writePiece (s, true) (a, d)).1
      else dropBar2 (writePiece (s, true) (a, d)).1 := by
  unfold bar2Write
  rw [pieces_within_line hd hline]
  rfl

theorem bar2Write_region {a : Nat} {d : List Byte} (hd : d ≠ []) (hline : d.length ≤ 16 - a % 16) (hin : inRegion s a = true) :
    bar2Write s a d = writeSmem s a d := by
  have hpiece : writePiece (s, true) (a, d) = (writeSmem s a d, true) := if_pos hin
  rw [bar2Write_within_line hd hline, hpiece, if_pos rfl]

theorem bar2Write_unreached {a : Nat} {d : List Byte} (hd : d ≠ []) (hline : d.length ≤ 16 - a % 16)
    (hout : inRegion s a = false) (hnone : hostGroup s (bankAt a) = none) : bar2Write s a d = dropBar2 s := by
  have hpiece : writePiece (s, true) (a, d) = (s, false) := by
    unfold writePiece
    simp only [hout, hnone, Bool.false_eq_true, if_false, Option.isNone_none, if_true]
  rw [bar2Write_within_line hd hline, hpiece, if_neg Bool.false_ne_true]

theorem bar2Write_region_completes {o : Nat} {d : List Byte} {secure busy : Bool} (hears : hostHears s = true)
    (taken : ideRefused s secure = false) (hd : d ≠ []) (hline : d.length ≤ 16 - (s.host.bar2Base + o) % 16)
    (hin : inRegion s (s.host.bar2Base + o) = true) :
    Completes (.bar2Write o d secure busy) s fun t =>
      t = { s with smem := { s.smem with cells := writeBytes s.smem.cells (s.host.bar2Base + o) d },
                   dict := { s.dict with ctrPend := t.dict.ctrPend } } ∧
      waitingCount t Obj.READS_HELD = waitingCount s Obj.READS_HELD + (if busy then 1 else 0) ∧
      (∀ a, a < s.host.bar2Base + o ∨ s.host.bar2Base + o + d.length ≤ a → byteAt t.smem.cells a = byteAt s.smem.cells a) ∧
      (Memory.wf s.smem.cells = true → readBytes t.smem.cells (s.host.bar2Base + o) d.length = d) := by
  have hheld : inRegion (heldAccess s busy (s.host.bar2Base + o)) (s.host.bar2Base + o) = true := by
    rw [heldAccess_eq]
    exact hin
  have hcells : (heldAccess s busy (s.host.bar2Base + o)).smem = s.smem := by rw [heldAccess_eq]
  have hreach : (busy && reachesBank s (s.host.bar2Base + o)) = busy := by
    rw [reachesBank, hin, Bool.true_or, Bool.and_true]
  have hexec := (exec_bar2Write (d := d) (busy := busy) hears taken).trans
    (congrArg Host.Outcome.next (bar2Write_region hd hline hheld))
  refine ⟨_, hexec, ?_, ?_, fun a ha => ?_, fun hwf => ?_⟩
  · exact congrArg (writeSmem · (s.host.bar2Base + o) d) (heldAccess_eq s busy (s.host.bar2Base + o))
  · have counted := waitingCount_heldAccess s busy (s.host.bar2Base + o)
    rwa [hreach] at counted
  · unfold writeSmem
    rw [hcells]
    exact byteAt_writeBytes_outside _ _ _ ha
  · unfold writeSmem
    rw [hcells]
    exact readBytes_writeBytes hwf _ _

theorem exec_bar2Write_unreached {o : Nat} {d : List Byte} {secure busy : Bool} (hears : hostHears s = true)
    (taken : ideRefused s secure = false) (hd : d ≠ []) (hline : d.length ≤ 16 - (s.host.bar2Base + o) % 16)
    (hout : inRegion s (s.host.bar2Base + o) = false) (hnone : hostGroup s (bankAt (s.host.bar2Base + o)) = none) :
    exec (.bar2Write o d secure busy) s = .next (dropBar2 s) := by
  have hidle : heldAccess s busy (s.host.bar2Base + o) = s := by
    unfold heldAccess reachesBank
    rw [hout, hnone, Option.isSome_none, Bool.or_self, Bool.and_false, if_neg Bool.false_ne_true]
  rw [exec_bar2Write hears taken, hidle, bar2Write_unreached hd hline hout hnone]

/-- Settles O19: a read by whether it meets an uncorrectable error, a write by whether it reaches the host region. -/
theorem bar2ReadsAndWrites : Obligations.Bar2ReadsAndWrites := by
  refine ⟨fun o n bad secure busy s hears taken => ⟨bar2Read_data_completes hears taken, ?_⟩,
    fun o d secure busy s hears taken hd hline => ⟨bar2Write_region_completes hears taken hd hline,
      fun hout hnone => ⟨_, exec_bar2Write_unreached hears taken hd hline hout hnone, rfl⟩⟩⟩
  rintro rfl
  exact bar2Read_abort_completes hears taken

end Sys2Proof.Machine

/-! Queues: writes of their descriptors, ENABLE, and the boundaries at which it takes effect (R60, R68 to R70, R72). -/

namespace Sys2Proof.Machine

open Sys2Proof

variable {s : State}

/-! ### Register writes (R60, R68, R72) -/

/-- A register write that is heard and not refused: a narrow write of a HOST_TALLY is dropped, another that is misaligned or
of another size is ignored, and the rest are taken. -/
theorem exec_registerWrite {o size v : Nat} {secure : Bool} (hears : hostHears s = true) (taken : ideRefused s secure = false) :
    exec (.registerWrite o size v secure) s = .next (
      if 0x200000 ≤ o ∧ o < 0x300000 ∧ o % 64 < 8 ∧ size < 8 then dropDoorbell s
      else if (size ≠ 4 ∧ size ≠ 8) ∨ o % size ≠ 0 then s
      else writeReg s o size v) := by
  unfold exec execRegisterWrite
  simp only [hears, taken, Bool.not_true, Bool.and_false, Bool.false_eq_true, if_false]

/-- The 4-byte words of the descriptors, the control word apart. -/
theorem exec_registerWrite_desc {q w v : Nat} {secure : Bool} (hq : q < 16384) (hw : 1 ≤ w) (hw16 : w < 16) (hv : v < 2 ^ 32)
    (hears : hostHears s = true) (taken : ideRefused s secure = false) :
    exec (.registerWrite (0x100000 + 64 * q + 4 * w) 4 v secure) s =
      .next (if (getQ s q).enable || (getQ s q).active then s else setQ s q (descWord (getQ s q) w v)) := by
  have hqueue : (0x100000 + 64 * q + 4 * w - 0x100000) / 64 = q := by omega
  have hword : (0x100000 + 64 * q + 4 * w) % 64 / 4 = w := by omega
  have hnoCtl : look [(w, v)] 0 = none := if_neg (by omega)
  rw [exec_registerWrite hears taken, if_neg (by omega), if_neg (by omega), writeReg, if_pos (by omega), hqueue, words,
    if_neg (by decide), hword, Nat.mod_eq_of_lt hv, writeDesc]
  simp only [hnoCtl, List.foldl_cons, List.foldl_nil]

theorem exec_registerWrite_ignored {o size v : Nat} {secure : Bool} (hears : hostHears s = true)
    (taken : ideRefused s secure = false) (hbad : (size ≠ 4 ∧ size ≠ 8) ∨ o % size ≠ 0)
    (hbell : ¬(0x200000 ≤ o ∧ o < 0x300000 ∧ o % 64 < 8 ∧ size < 8)) : exec (.registerWrite o size v secure) s = .next s := by
  rw [exec_registerWrite hears taken, if_neg hbell, if_pos hbad]

theorem exec_registerWrite_narrowBell {o size v : Nat} {secure : Bool} (hears : hostHears s = true)
    (taken : ideRefused s secure = false) (hbell : 0x200000 ≤ o ∧ o < 0x300000 ∧ o % 64 < 8 ∧ size < 8) :
    exec (.registerWrite o size v secure) s = .next (dropDoorbell s) := by
  rw [exec_registerWrite hears taken, if_pos hbell]

/-! ### ENABLE (R69, R430) -/

theorem exec_queueEnable_waits {q : Nat} (hears : hostHears s = true) (off : (getQ s q).enable = false)
    (hnot0 : s.nv.tenant ≠ 0) (hnot2 : s.nv.tenant ≠ 2) :
    exec (.queueEnable q) s = .next (setQ s q { getQ s q with enable := true, enableDue := dueTurn s }) := by
  refine congrArg Host.Outcome.next ((if_pos hears).trans (if_neg ?_))
  rintro (h0 | h2 | hon)
  · exact hnot0 h0
  · exact hnot2 h2
  · exact Bool.false_ne_true (off.symm.trans hon)

theorem exec_queueEnable_unbound (q : Nat) (h : s.nv.tenant = 0 ∨ s.nv.tenant = 2) : exec (.queueEnable q) s = .next s := by
  have hstays : doQueueEnable s q = s := if_pos (h.imp_right .inl)
  refine congrArg Host.Outcome.next ?_
  rw [hstays, ite_self]

theorem exec_queueDisable_waits {q : Nat} (hears : hostHears s = true) (on : (getQ s q).enable = true)
    (hdue : (getQ s q).enableDue = 0) :
    exec (.queueDisable q) s = .next (setQ s q { getQ s q with enable := false, disableDue := dueTurn s }) := by
  refine congrArg Host.Outcome.next ((if_pos hears).trans ?_)
  unfold doQueueDisable
  simp only [on, hdue, Bool.not_true, Bool.false_eq_true, ne_eq, not_true_eq_false, if_false]

/-! ### The boundary at which it takes effect (R69, R70) -/

/-- A queue as enabled: its ring at `l`, its tallies at zero. -/
def enabledQueue (q : Queue) (l : Nat) : Queue :=
  { q with enabled := true, enableDue := 0, log2 := l, hostTally := 0, snapTally := 0, devTally := 0, work := 0, lost := 0,
           bells := [] }

theorem exec_queueEnableApply_falls {q l : Nat} (hp : s.turn.phase = .p4) (off : (getQ s q).enabled = false)
    (falls : enableFalls (getQ s q) (boundary s) = true) (fits : enabledLog s (getQ s q) = some l)
    (binds : bindOk s (getQ s q) (boundary s) = true) :
    exec (.queueEnableApply q) s = .next (setQ s q (enabledQueue (getQ s q) l)) := by
  refine congrArg Host.Outcome.next ((if_pos hp).trans ?_)
  unfold applyEnable
  simp only [off, falls, fits, binds, Bool.not_true, Bool.or_self, Bool.false_eq_true, if_false, if_true, enabledQueue]

/-- A queue as disabled, with what was fetched of it forgotten. -/
def disabledQueue (s : State) (q : Nat) : State :=
  onHost (setQ s q { getQ s q with enabled := false, disableDue := 0 }) fun h =>
    { h with fetched := h.fetched.filter (·.q != q) }

theorem exec_queueDisableApply_falls {q : Nat} (hp : s.turn.phase = .p4) (asked : (getQ s q).disableDue ≠ 0)
    (due : (getQ s q).disableDue ≤ boundary s) : exec (.queueDisableApply q) s = .next (disabledQueue s q) := by
  refine congrArg Host.Outcome.next ((if_pos hp).trans (if_neg ?_))
  rintro (hnone | hlater)
  · exact asked hnone
  · omega

theorem getQ_disabledQueue (s : State) (q p : Nat) :
    getQ (disabledQueue s q) p = getQ (setQ s q { getQ s q with enabled := false, disableDue := 0 }) p := rfl

/-- Settles O18: a descriptor write by whether the queue is in use, ENABLE by what waits and what falls due. -/
theorem queuesAreSetUpAndEnabled : Obligations.QueuesAreSetUpAndEnabled := by
  refine ⟨fun q w v secure s hq hw hw16 hv hears taken => ⟨fun inUse => ?_, fun disabled idle => ?_,
      fun o size => exec_registerWrite_ignored hears taken,
      fun o size hlo hhi hbell hnarrow => ⟨_, exec_registerWrite_narrowBell hears taken ⟨hlo, hhi, hbell, hnarrow⟩, rfl⟩⟩,
    fun q s => ⟨fun hears off hnot0 hnot2 => ⟨_, exec_queueEnable_waits hears off hnot0 hnot2, rfl⟩,
      exec_queueEnable_unbound q, fun hears on hdue => ⟨_, exec_queueDisable_waits hears on hdue, rfl⟩,
      fun l hp off falls fits binds => ?_, fun hp asked due => ?_⟩⟩
  · rw [exec_registerWrite_desc hq hw hw16 hv hears taken, if_pos (Bool.or_eq_true_iff.mpr inUse)]
  · have free : ¬((getQ s q).enable || (getQ s q).active) = true := by
      rw [disabled, idle, Bool.or_self]
      exact Bool.false_ne_true
    exact ⟨_, (exec_registerWrite_desc hq hw hw16 hv hears taken).trans (congrArg _ (if_neg free)), rfl⟩
  · refine ⟨_, exec_queueEnableApply_falls hp off falls fits binds, ?_⟩
    dsimp only
    rw [getQ_setQ_self]
    exact ⟨rfl, rfl, rfl, rfl, rfl, fun p hp => getQ_setQ_ne s _ hp⟩
  · refine ⟨_, exec_queueDisableApply_falls hp asked due, ?_, fun f hf => ?_, fun p hp => ?_⟩
    · rw [getQ_disabledQueue, getQ_setQ_self]
    · obtain ⟨-, hne⟩ := List.mem_filter.mp hf
      exact bne_iff_ne.mp hne
    · rw [getQ_disabledQueue, getQ_setQ_ne s _ hp]

end Sys2Proof.Machine

/-! Rings: the fetch of submission entries, and what a turn writes to a queue and publishes (R74, R75, R82, R85). -/

namespace Sys2Proof.Machine

open Sys2Proof

variable {s t : State}

/-! ### Fetches (R85) -/

/-- The state in which the outcome of a fetch is kept for admission, a failed one counted. -/
def keepFetched (s : State) (f : Fetched) : State :=
  onHost (if f.whole then s else bump s Obj.FETCH_RETRIES 1) fun h =>
    { h with fetched := h.fetched.filter (fun x => !(x.q == f.q && x.tally == f.tally)) ++ [f] }

theorem mem_keepFetched (s : State) (f : Fetched) : f ∈ (keepFetched s f).host.fetched :=
  List.mem_append_right _ List.mem_cons_self

theorem waitingCount_keepFetched_failed (s : State) {f : Fetched} (h : f.whole = false) :
    waitingCount (keepFetched s f) Obj.FETCH_RETRIES = waitingCount s Obj.FETCH_RETRIES + 1 := by
  unfold keepFetched
  rw [h, if_neg Bool.false_ne_true]
  exact waitingCount_bump_self s _ Nat.one_ne_zero

/-- What the first attempt to fetch an entry gave. -/
def firstFetch (s : State) (q : Nat) (tally : Tally) (entry : Option (List Byte)) (p : Fetch) : Fetched :=
  { q := q, tally := tally, entry := entry, payload := entry.bind fun b => fetchPayload s (getQ s q) b p, attempts := 1,
    turn := s.turn.no }

/-- An entry of an enabled submission queue in host memory waits for its first fetch, and the node may fetch it. -/
structure Fetchable (s : State) (q : Nat) (tally : Tally) : Prop where
  reach : fetchReach s (getQ s q) tally = true
  enabled : (getQ s q).enabled = true
  submission : submits (getQ s q).ty = true
  inHost : (getQ s q).loc = 0
  rung : tallyDiff tally (getQ s q).work < tallyDiff (getQ s q).hostTally (getQ s q).work
  first : (s.host.fetched.find? fun f => f.q == q && f.tally == tally) = none

theorem exec_entryFetchComplete_first {q : Nat} {tally : Tally} (h : Fetchable s q tally) {b : Option (List Byte)} {e p : Fetch}
    (brought : fetched s (getQ s q) ((getQ s q).base + ringSlot (getQ s q) tally) 64 e = b)
    (covered : (b.any fun b => !payloadReach s (getQ s q) b) = false) :
    exec (.entryFetchComplete q tally e p) s = .next (keepFetched s (firstFetch s q tally b p)) := by
  refine congrArg Host.Outcome.next ((if_pos h.reach).trans ?_)
  have due : decide (tallyDiff (getQ s q).hostTally (getQ s q).work ≤ tallyDiff tally (getQ s q).work) = false :=
    decide_eq_false (Nat.not_le.mpr h.rung)
  unfold doFetch
  simp only [h.enabled, h.submission, due, h.first, mayFetch, brought, covered, Bool.not_true, Bool.or_self, Bool.false_eq_true,
    if_false]
  rfl

/-- An entry that host memory gives is kept whole. -/
theorem entryFetchComplete_bytes {q : Nat} {tally : Tally} (h : Fetchable s q tally) {b : List Byte} (p : Fetch)
    (hlen : 64 ≤ b.length) (covered : payloadReach s (getQ s q) (b.take 64) = true) :
    Completes (.entryFetchComplete q tally (.bytes b) p) s fun t =>
      ∃ f ∈ t.host.fetched, f.q = q ∧ f.tally = tally ∧ f.entry = some (b.take 64) ∧ f.attempts = 1 ∧ f.turn = s.turn.no := by
  have brought : fetched s (getQ s q) ((getQ s q).base + ringSlot (getQ s q) tally) 64 (.bytes b) = some (b.take 64) := by
    unfold fetched
    rw [h.inHost]
    exact (if_neg (by decide)).trans (if_neg (Nat.not_lt.mpr hlen))
  refine ⟨_, exec_entryFetchComplete_first h brought ?_, _, mem_keepFetched _ _, rfl, rfl, rfl, rfl, rfl⟩
  rw [Option.any_some, covered, Bool.not_true]

/-- A failed fetch is kept as failed, and counted. -/
theorem entryFetchComplete_failed {q : Nat} {tally : Tally} (h : Fetchable s q tally) (p : Fetch) :
    Completes (.entryFetchComplete q tally .failed p) s fun t =>
      (∃ f ∈ t.host.fetched, f.q = q ∧ f.tally = tally ∧ f.entry = none ∧ f.attempts = 1) ∧
      waitingCount t Obj.FETCH_RETRIES = waitingCount s Obj.FETCH_RETRIES + 1 :=
  ⟨_, exec_entryFetchComplete_first h rfl rfl, ⟨_, mem_keepFetched _ _, rfl, rfl, rfl, rfl⟩,
    waitingCount_keepFetched_failed s rfl⟩

/-! ### What a write toward the host leaves (R82) -/

/-- The queues, and the results and events that wait to be written. -/
def ringState (s : State) : List (Nat × Queue) × List Res × List EvOut := (s.host.queues, s.host.results, s.host.events)

theorem getQ_of_ringState (h : ringState t = ringState s) (q : Nat) : getQ t q = getQ s q := by
  have hq : t.host.queues = s.host.queues := congrArg Prod.fst h
  unfold getQ
  rw [hq]

theorem results_of_ringState (h : ringState t = ringState s) : t.host.results = s.host.results :=
  congrArg (fun x => x.2.1) h

theorem events_of_ringState (h : ringState t = ringState s) : t.host.events = s.host.events :=
  congrArg (fun x => x.2.2) h

theorem ringState_toHost (s : State) (o : Output) : ringState (toHost s o) = ringState s := by
  unfold toHost
  split
  · rfl
  · rfl

theorem ringState_msixSend (s : State) (v : Nat) : ringState (msixSend s v) = ringState s := by
  unfold msixSend
  split
  · rfl
  · exact ringState_toHost _ _

theorem ringState_ringWrite (s : State) (q : Queue) (off : Nat) (b : List Byte) :
    ringState (ringWrite s q off b) = ringState s := by
  unfold ringWrite
  split
  · rfl
  · split
    · exact ringState_toHost _ _
    · split
      · rfl
      · rfl

theorem ringState_writeEntry (s : State) (q : Queue) (tally : Tally) (header body : List Byte) :
    ringState (writeEntry s q tally header body) = ringState s := by
  unfold writeEntry
  rw [ringState_ringWrite, ringState_ringWrite, ringState_ringWrite]

/-- A queue whose tally has been published. -/
def publishedQueue (q : Queue) : Queue := { q with devTally := q.work, told := true }

/-- Of these, publishing a tally changes the queue alone; the shadow and the message are writes toward the host. -/
theorem ringState_advanceTally (s : State) (q : Nat) :
    ringState (advanceTally s q) = ringState (setQ s q (publishedQueue (getQ s q))) := by
  have shadowed : ∀ u a b, ringState (if (getQ s q).shadow = 0 then u else toHost u (.hostWrite a b)) = ringState u := by
    intro u a b
    split
    · rfl
    · exact ringState_toHost _ _
  unfold advanceTally
  dsimp only
  split
  · exact shadowed _ _ _
  · rw [ringState_msixSend]
    exact shadowed _ _ _

theorem getQ_advanceTally (s : State) (q : Nat) : getQ (advanceTally s q) q = publishedQueue (getQ s q) :=
  (getQ_of_ringState (ringState_advanceTally s q) q).trans (getQ_setQ_self s q _)

theorem advanceTally_results (s : State) (q : Nat) : (advanceTally s q).host.results = s.host.results :=
  (results_of_ringState (ringState_advanceTally s q)).trans (setQ_host_results s q _)

theorem advanceTally_events (s : State) (q : Nat) : (advanceTally s q).host.events = s.host.events :=
  (events_of_ringState (ringState_advanceTally s q)).trans (setQ_host_events s q _)

/-! ### Results that are written (R82, R83) -/

theorem insertBy_perm {α : Type} (le : α → α → Bool) (x : α) (l : List α) : (insertBy le x l).Perm (x :: l) := by
  induction l with
  | nil => exact .refl _
  | cons a l ih =>
    unfold insertBy
    split
    · exact (ih.cons a).trans (.swap x a l)
    · exact .refl _

theorem sortBy_perm {α : Type} (le : α → α → Bool) (l : List α) : (sortBy le l).Perm l := by
  have inserted : ∀ l acc : List α, (l.foldl (fun acc x => insertBy le x acc) acc).Perm (l ++ acc) := by
    intro l
    induction l with
    | nil => exact fun acc => .refl _
    | cons a l ih => exact fun acc => (ih _).trans (((insertBy_perm le a acc).append_left l).trans List.perm_middle)
  have sorted := inserted l []
  rwa [List.append_nil] at sorted

/-- The order of R83 leaves out no result. -/
theorem resultOrder_perm (rs : List Res) : (resultOrder rs).Perm rs := sortBy_perm _ rs

/-- A write of a queue that keeps one of its fields keeps that field of every queue. -/
theorem getQ_setQ_field {β : Type} (g : Queue → β) (s : State) {q : Nat} {v : Queue} (hv : g v = g (getQ s q)) (p : Nat) :
    g (getQ (setQ s q v) p) = g (getQ s p) := by
  by_cases hpq : p = q
  · subst hpq
    rw [getQ_setQ_self, hv]
  · rw [getQ_setQ_ne s v hpq]

theorem resultDone_work (s : State) (sq rq p : Nat) : (getQ (resultDone s sq rq) p).work = (getQ s p).work := by
  unfold resultDone
  dsimp only
  rw [getQ_setQ_field Queue.work, getQ_setQ_field Queue.work]
  · rfl
  · rfl

theorem resultDone_results (s : State) (sq rq : Nat) : (resultDone s sq rq).host.results = s.host.results := by
  unfold resultDone
  dsimp only
  rw [setQ_host_results, setQ_host_results]

/-- A result written moves its queue's tally one on. -/
theorem writeResult_work (s : State) (r : Res) : (getQ (writeResult s r) r.rq).work = (getQ s r.rq).work + 1 := by
  unfold writeResult
  dsimp only
  split
  · rw [resultDone_work, getQ_setQ_self]
  · exact congrArg Queue.work (getQ_setQ_self _ _ _)

theorem writeResult_results (s : State) (r : Res) : (writeResult s r).host.results = s.host.results := by
  have written := results_of_ringState (ringState_writeEntry s (getQ s r.rq) (getQ s r.rq).work (resHeader r) (resSlots r))
  unfold writeResult
  dsimp only
  split
  · rw [resultDone_results, setQ_host_results, written]
  · dsimp only
    rw [setQ_host_results, written]

theorem foldl_writeResult_work {rs : List Res} {q : Nat} (h : ∀ r ∈ rs, r.rq = q) (s : State) :
    (getQ (rs.foldl writeResult s) q).work = (getQ s q).work + BitVec.ofNat 64 rs.length := by
  induction rs generalizing s with
  | nil => exact (BitVec.add_zero _).symm
  | cons r rs ih =>
    obtain ⟨rfl, hrs⟩ := List.forall_mem_cons.mp h
    rw [List.foldl_cons, ih hrs, writeResult_work, List.length_cons, Nat.add_comm, BitVec.ofNat_add, BitVec.add_assoc]
    rfl

/-! ### Publication (R75, R82) -/

theorem exec_queueTallyPublish {q : Nat} (hp : s.turn.phase = .p6) :
    exec (.queueTallyPublish q) s = .next (publishQueue s q) := congrArg Host.Outcome.next (if_pos hp)

theorem exec_queueTallyPublish_told {q : Nat} (h : (getQ s q).told = true) : exec (.queueTallyPublish q) s = .next s := by
  have stays : publishQueue s q = s := if_pos h
  refine congrArg Host.Outcome.next ?_
  rw [stays, ite_self]

theorem publishQueue_submission {q : Nat} (untold : (getQ s q).told = false) (hty : submits (getQ s q).ty = true)
    (moved : (getQ s q).work ≠ (getQ s q).devTally) : publishQueue s q = advanceTally s q := by
  unfold publishQueue
  cases h : (getQ s q).ty with
  | query | ingest => simp only [h, untold, moved, Bool.false_eq_true, if_false]
  | result | event =>
    rw [h] at hty
    exact absurd hty Bool.false_ne_true

/-- The state in which the events of a queue have been written. -/
def writtenEvents (s : State) (q : Nat) : State :=
  (s.host.events.filter (·.q == q)).foldl (fun s e => writeEntry s (getQ s q) e.tally (eventHeader e.ev e.lost) [])
    (onHost s fun h => { h with events := h.events.filter (·.q != q) })

theorem publishQueue_event {q : Nat} (untold : (getQ s q).told = false) (hty : (getQ s q).ty = .event)
    (posted : ∃ e ∈ s.host.events, e.q = q) : publishQueue s q = advanceTally (writtenEvents s q) q := by
  obtain ⟨e, he, hq⟩ := posted
  have waits : s.host.events.filter (·.q == q) ≠ [] := List.ne_nil_of_mem (List.mem_filter.mpr ⟨he, beq_iff_eq.mpr hq⟩)
  unfold publishQueue
  simp only [untold, hty, waits, Bool.false_eq_true, if_false]
  rfl

theorem ringState_writtenEvents (s : State) (q : Nat) :
    ringState (writtenEvents s q) = ringState (onHost s fun h => { h with events := h.events.filter (·.q != q) }) :=
  foldl_keeps _ ringState (fun _ _ => ringState_writeEntry _ _ _ _ _) _ _

/-- The state in which the results of a queue have been written. -/
def writtenResults (s : State) (q : Nat) : State :=
  (resultOrder (s.host.results.filter (·.rq == q))).foldl writeResult
    (onHost s fun h => { h with results := h.results.filter (·.rq != q) })

theorem publishQueue_result {q : Nat} (untold : (getQ s q).told = false) (hty : (getQ s q).ty = .result)
    (posted : ∃ r ∈ s.host.results, r.rq = q) : publishQueue s q = advanceTally (writtenResults s q) q := by
  obtain ⟨r, hr, hq⟩ := posted
  have waits : resultOrder (s.host.results.filter (·.rq == q)) ≠ [] :=
    List.ne_nil_of_mem ((resultOrder_perm _).mem_iff.mpr (List.mem_filter.mpr ⟨hr, beq_iff_eq.mpr hq⟩))
  unfold publishQueue
  simp only [untold, hty, waits, Bool.false_eq_true, if_false]
  rfl

theorem writtenResults_results (s : State) (q : Nat) :
    (writtenResults s q).host.results = s.host.results.filter (·.rq != q) :=
  foldl_keeps writeResult (fun s : State => s.host.results) writeResult_results _ _

theorem writtenResults_work (s : State) (q : Nat) :
    (getQ (writtenResults s q) q).work = (getQ s q).work + BitVec.ofNat 64 (s.host.results.filter (·.rq == q)).length := by
  have ordered := resultOrder_perm (s.host.results.filter (·.rq == q))
  rw [← ordered.length_eq]
  refine foldl_writeResult_work (fun r hr => ?_) _
  obtain ⟨-, hq⟩ := List.mem_filter.mp (ordered.mem_iff.mp hr)
  exact beq_iff_eq.mp hq

/-- Settles O21: a fetch by what it brought, a publication by the type of its queue. -/
theorem ringsAreFetchedAndPublished : Obligations.RingsAreFetchedAndPublished := by
  refine ⟨fun q tally b p s reach enabled submission inHost rung first => ?_, fun q s => exec_queueTallyPublish_told,
    fun q s hp untold => ⟨fun hty moved => ?_, fun hty waits => ?_, fun hty waits => ?_⟩⟩
  · have fetchable : Fetchable s q tally := ⟨reach, enabled, submission, inHost, rung, first⟩
    exact ⟨entryFetchComplete_bytes fetchable p, entryFetchComplete_failed fetchable p⟩
  · refine ⟨_, (exec_queueTallyPublish hp).trans (congrArg _ (publishQueue_submission untold hty moved)), ?_⟩
    dsimp only
    rw [getQ_advanceTally]
    exact ⟨rfl, rfl⟩
  · refine ⟨_, (exec_queueTallyPublish hp).trans (congrArg _ (publishQueue_event untold hty waits)), ?_, ?_⟩
    · rw [getQ_advanceTally, getQ_of_ringState (ringState_writtenEvents s q)]
      rfl
    · rw [advanceTally_events, events_of_ringState (ringState_writtenEvents s q)]
      rfl
  · refine ⟨_, (exec_queueTallyPublish hp).trans (congrArg _ (publishQueue_result untold hty waits)), ?_, ?_, ?_⟩
    · rw [getQ_advanceTally]
      rfl
    · rw [getQ_advanceTally]
      exact writtenResults_work s q
    · rw [advanceTally_results]
      exact writtenResults_results s q

end Sys2Proof.Machine

/-! Admission: the one entry that a turn is offered, and what its checks answer (R79, R80, R89 to R91, R97, R184). -/

namespace Sys2Proof.Machine

open Sys2Proof

variable {s : State}

/-! ### The rounds of a turn (R89) -/

/-- The state in which the admission of the turn is under way. -/
def beginAdmission (s : State) : State := { s with turn := { s.turn with admitted := true } }

theorem exec_entryAdmission_first (hp : s.turn.phase = .p6) (first : s.turn.admitted = false) :
    exec .entryAdmission s = .next (doAdmission s) := congrArg Host.Outcome.next (if_pos ⟨hp, first⟩)

theorem doAdmission_nothing (h : takesEntries (beginAdmission s) = false ∨ offerOrder (beginAdmission s) = []) :
    doAdmission s = beginAdmission s := by
  unfold doAdmission
  rw [← beginAdmission]
  dsimp only
  obtain closed | empty := h
  · rw [closed, Bool.not_false, if_pos rfl]
  · rw [empty, List.filter_nil, List.filter_nil]
    exact ite_self _

/-- The queue `qn` alone is offered, with one eligible QUERY entry `b` of payload `p`, fetched whole. -/
structure OneOffered (a : State) (qn : Nat) (b p : List Byte) : Prop where
  takes : takesEntries a = true
  reach : ringReach a qn = true
  order : offerOrder a = [qn]
  query : (getQ a qn).ty = .query
  one : tallyDiff (getQ a qn).snapTally (getQ a qn).work = 1
  whole : ∃ f, (a.host.fetched.find? fun f => f.q == qn && f.tally == (getQ a qn).work) = some f ∧ f.entry = some b ∧
    f.payload = some p

theorem OneOffered.snapTally {a : State} {qn : Nat} {b p : List Byte} (h : OneOffered a qn b p) :
    (getQ a qn).snapTally = (getQ a qn).work + 1 := by
  have hdiff : (getQ a qn).snapTally - (getQ a qn).work = 1 := BitVec.eq_of_toNat_eq h.one
  have hsum := BitVec.sub_add_cancel (getQ a qn).snapTally (getQ a qn).work
  rw [hdiff, BitVec.add_comm] at hsum
  exact hsum.symm

theorem offer_exhausted {a : Adm1} {qn : Nat} (h : (getQ a.s qn).work = (getQ a.s qn).snapTally) : offer a qn = (a, false) :=
  if_pos h

theorem OneOffered.offer {a : State} {qn : Nat} {b p : List Byte} (h : OneOffered a qn b p) :
    offer { s := a, news := [] } qn = ({ s := (offerQuery a qn b p).1, news := [] }, (offerQuery a qn b p).2) := by
  obtain ⟨f, hf, hentry, hpayload⟩ := h.whole
  have waits : (getQ a qn).work ≠ (getQ a qn).snapTally := by
    rw [h.snapTally]
    bv_omega
  unfold Machine.offer
  simp only [waits, hf, hentry, hpayload, h.query, reduceCtorEq, if_false]

/-- A queue that has one entry to give is done after one offer: a second round finds it with none. -/
theorem rounds_once {a b : Adm1} {qn : Nat} {taken : Bool} (h : Machine.offer a qn = (b, taken))
    (last : taken = true → Machine.offer b qn = (b, false)) : rounds 2 [qn] a = b := by
  have first : oneRound a [qn] = (b, if taken then [qn] else []) := by
    unfold oneRound
    rw [List.foldl_cons, List.foldl_nil, h]
    rfl
  rw [rounds, first]
  cases taken with
  | false => rfl
  | true =>
    have second : oneRound b [qn] = (b, []) := by
      unfold oneRound
      rw [List.foldl_cons, List.foldl_nil, last rfl]
      rfl
    rw [if_pos rfl, rounds, second]
    rfl

theorem holdAll_nil (s : State) : holdAll s [] = s := rfl

/-- The admission of such a turn is one offer; an entry that is taken leaves no other. -/
theorem OneOffered.doAdmission {qn : Nat} {b p : List Byte} (h : OneOffered (beginAdmission s) qn b p)
    (last : (offerQuery (beginAdmission s) qn b p).2 = true →
      (getQ (offerQuery (beginAdmission s) qn b p).1 qn).work = (getQ (offerQuery (beginAdmission s) qn b p).1 qn).snapTally) :
    doAdmission s = (offerQuery (beginAdmission s) qn b p).1 := by
  have bound : mostEligible (beginAdmission s) [qn] = 1 := by
    rw [mostEligible, List.foldl_cons, List.foldl_nil, h.one]
    rfl
  have once := rounds_once h.offer fun taken => offer_exhausted (last taken)
  have held : [qn].filter (fun q => !ringReach (beginAdmission s) q) = [] :=
    List.filter_cons_of_neg (by rw [h.reach]; exact Bool.false_ne_true)
  have offered : [qn].filter (ringReach (beginAdmission s)) = [qn] := List.filter_cons_of_pos h.reach
  unfold Machine.doAdmission
  rw [← beginAdmission]
  simp only [h.takes, h.order, held, holdAll_nil, offered, bound, once, Bool.not_true, Bool.false_eq_true, if_false]
  rfl

/-! ### Taking an entry (R79, R91) -/

/-- The state in which the front entry of a queue counts as taken, and no result slot is reserved yet. -/
def startEntry (s : State) (qn : Nat) : State :=
  setQ s qn { getQ s qn with work := (getQ s qn).work + 1, inflight := (getQ s qn).inflight + 1 }

/-- A queue with one result slot more reserved. -/
def reserveSlot (q : Queue) : Queue := { q with reserved := q.reserved + 1 }

theorem getQ_takeEntry (s : State) (qn p : Nat) : getQ (takeEntry s qn) p =
    getQ (setQ (startEntry s qn) (getQ s qn).resultQ (reserveSlot (getQ (startEntry s qn) (getQ s qn).resultQ))) p := rfl

theorem takeEntry_work (s : State) (qn : Nat) : (getQ (takeEntry s qn) qn).work = (getQ s qn).work + 1 := by
  rw [getQ_takeEntry, getQ_setQ_field Queue.work]
  · exact congrArg Queue.work (getQ_setQ_self s qn _)
  · rfl

theorem takeEntry_snapTally (s : State) (qn : Nat) : (getQ (takeEntry s qn) qn).snapTally = (getQ s qn).snapTally := by
  rw [getQ_takeEntry, getQ_setQ_field Queue.snapTally, startEntry, getQ_setQ_self]
  rfl

theorem takeEntry_reserved (s : State) (qn : Nat) :
    (getQ (takeEntry s qn) (getQ s qn).resultQ).reserved = (getQ s (getQ s qn).resultQ).reserved + 1 := by
  rw [getQ_takeEntry, getQ_setQ_self, reserveSlot, startEntry, getQ_setQ_field Queue.reserved]
  rfl

theorem takeEntry_results (s : State) (qn : Nat) : (takeEntry s qn).host.results = s.host.results := rfl
theorem takeEntry_queries (s : State) (qn : Nat) : (takeEntry s qn).queries = s.queries := rfl

/-- A result that is posted waits to be written, in this turn or the next (R81). -/
theorem postResult_results {r : Res} (h : r.sq < 16384) :
    ∃ n, (postResult s r).host.results = s.host.results ++ [{ r with postTurn := n }] := by
  unfold postResult
  rw [if_neg (Nat.not_le.mpr h)]
  by_cases told : (getQ s r.rq).told = true
  · exact ⟨nextTurn s.turn.no, by rw [if_pos told]⟩
  · exact ⟨r.postTurn, by rw [if_neg told]⟩

theorem getQ_postResult (s : State) (r : Res) (q : Nat) : getQ (postResult s r) q = getQ s q := by
  unfold postResult
  split
  · rfl
  · rfl

/-! ### What an offered QUERY entry comes to (R90, R91) -/

theorem offerQuery_gateClosed {qn : Nat} {b p : List Byte} (here : s.turn.withdrawn = false)
    (shut : gateOpen s (gateClass s (parseQuery b).coll) = false) : offerQuery s qn b p = (bump s Obj.GATE_HOLDS 1, false) := by
  unfold offerQuery
  simp only [here, shut, Bool.not_false, Bool.false_eq_true, if_false, if_true]

/-- The gate and the result slots let the QUERY entry `b` of queue `qn` pass. -/
structure Passes (s : State) (qn : Nat) (b : List Byte) : Prop where
  here : s.turn.withdrawn = false
  gate : gateOpen s (gateClass s (parseQuery b).coll) = true
  slot : resultFree s (getQ s qn) = true

/-- The state in which the clamps of an entry have been counted. -/
def countClamps (s : State) (qn : Nat) (b : List Byte) : State :=
  bump s Obj.ENTRY_CLAMPS (queryClamps s (getQ s qn) (parseQuery b) b)

theorem offerQuery_noService {qn : Nat} {b p : List Byte} (h : Passes s qn b) (stopped : (getColl s (parseQuery b).coll).life ≠ 2) :
    offerQuery s qn b p = (bump (answerNow (countClamps s qn b) qn (getQ s qn) (parseQuery b) .noService false)
      Obj.NO_SERVICE_ANSWERS 1, true) := by
  unfold offerQuery
  simp only [h.here, h.gate, h.slot, stopped, Bool.not_true, Bool.false_eq_true, ne_eq, not_false_eq_true, if_false, if_true]
  rfl

/-- An entry that is not red is offered to the halves. -/
theorem offerQuery_served {qn : Nat} {b p : List Byte} (h : Passes s qn b) (runs : (getColl s (parseQuery b).coll).life = 2)
    (serves : (queryColours s qn (parseQuery b).coll).2.2 ≠ .red) {x : Option Query}
    (carried : queryHalf s qn (getQ s qn) (parseQuery b) (queryPayload s (parseQuery b) b (some p))
      (queryColours s qn (parseQuery b).coll).2.2 = x) :
    offerQuery s qn b p = x.elim (bump s Obj.CONTEXT_WAITS 1, false) fun x =>
      (admitQuery (countClamps s qn b) qn (getQ s qn) (parseQuery b) (queryColours s qn (parseQuery b).coll) x, true) := by
  unfold offerQuery
  simp only [h.here, h.gate, h.slot, runs, serves, carried, Bool.not_true, Bool.false_eq_true, ne_eq, not_true_eq_false, if_false]
  cases x with
  | none => rfl
  | some x => rfl

/-! ### Entries that are answered at once (R91) -/

theorem getQ_answerNow (s : State) (qn : Nat) (q : Queue) (e : QueryEntry) (st : Status) (yellow : Bool) (p : Nat) :
    getQ (answerNow s qn q e st yellow) p = getQ (takeEntry s qn) p := getQ_postResult _ _ _

theorem answerNow_results {qn : Nat} (hqn : qn < 16384) (q : Queue) (e : QueryEntry) (st : Status) (yellow : Bool) :
    ∃ r, (answerNow s qn q e st yellow).host.results = s.host.results ++ [r] ∧ r.rq = q.resultQ ∧ r.sq = qn ∧
      r.userTag = e.userTag ∧ r.status = st ∧ r.count = 0 := by
  obtain ⟨n, hn⟩ := postResult_results (s := takeEntry s qn)
    (r := shortRes s q qn e.userTag st yellow (clampedK s q e)) hqn
  exact ⟨_, hn, rfl, rfl, rfl, rfl, rfl⟩

theorem waitingCount_answerNow (s : State) (qn : Nat) (q : Queue) (e : QueryEntry) (st : Status) (yellow : Bool) (a : Nat) :
    waitingCount (answerNow s qn q e st yellow) a = waitingCount s a := by
  have answered := (answerNow_frame s qn q e st yellow).keep .counters rfl
  exact congrArg (fun c => (look c a).getD 0) answered

/-! ### Entries that become queries (R80, R97) -/

theorem queryHalf_some {qn : Nat} {q : Queue} {e : QueryEntry} {payload : List Byte} {c : Colour} {x : Query}
    (h : queryHalf s qn q e payload c = some x) : ∃ half < 2, x = queryOf s qn q e payload c half := by
  unfold queryHalf at h
  dsimp only at h
  split at h
  · exact absurd h (Option.some_ne_none x).symm
  · obtain ⟨half, hhalf, rfl⟩ := List.mem_map.mp (List.mem_of_find?_eq_some h)
    refine ⟨half, ?_, rfl⟩
    simp only [List.mem_cons, List.not_mem_nil, or_false] at hhalf
    omega

/-- The state in which an entry's colour is counted and its meters, staged rows and share of the boards are charged (R94, R97). -/
def chargeQuery (s : State) (qn : Nat) (e : QueryEntry) (k : Colour × Colour × Colour) (x : Query) : State :=
  let s := useStaged (debitQuery (countColour s k.2.2) qn e.coll k) qn (getQ s qn).work
  let cost := gatherCost s (lookupsOf s e.coll x.payload)
  holdPath { s with turn := { s.turn with
      takenQ := atIdx (· + 1) x.half s.turn.takenQ, yellowQ := s.turn.yellowQ + (if k.2.2 = .yellow then 1 else 0),
      gathersUsed := atIdx (· + cost) x.half s.turn.gathersUsed } } x

theorem chargeQuery_frame (s : State) (qn : Nat) (e : QueryEntry) (k : Colour × Colour × Colour) (x : Query) :
    Frame [.counters, .turnMisc, .adm, .comp] s (chargeQuery s qn e k x) := by
  unfold chargeQuery
  refine Frame.then ?_ (holdPath_frame _ _) rfl
  refine Frame.then ?_ frame_set_turn_yellowQ_turn_takenQ_turn_gathersUsed rfl
  refine Frame.then ?_ (useStaged_frame _ _ _) rfl
  refine Frame.then ?_ (debitQuery_frame _ _ _ _) rfl
  exact Frame.then (Frame.refl _ _) (countColour_frame _ _) rfl

/-- The state in which the entry `b` of queue `qn` has been clamped and charged as query `x`. -/
def chargedFor (s : State) (qn : Nat) (b : List Byte) (x : Query) : State :=
  chargeQuery (countClamps s qn b) qn (parseQuery b) (queryColours s qn (parseQuery b).coll) x

theorem chargedFor_frame (s : State) (qn : Nat) (b : List Byte) (x : Query) :
    Frame [.counters, .turnMisc, .adm, .comp] s (chargedFor s qn b x) := by
  unfold chargedFor countClamps
  refine Frame.then ?_ (chargeQuery_frame _ _ _ _ _) rfl
  exact Frame.then (Frame.refl _ _) (bump_frame _ _ _) rfl

theorem getQ_chargedFor (s : State) (qn : Nat) (b : List Byte) (x : Query) (p : Nat) : getQ (chargedFor s qn b x) p = getQ s p :=
  congrArg (fun qs => (look qs p).getD Queue.reset) ((chargedFor_frame s qn b x).keep .queues rfl)

/-- The state in which that entry has become query `x`. -/
def carriedAs (s : State) (qn : Nat) (b : List Byte) (x : Query) : State :=
  { takeEntry (chargedFor s qn b x) qn with queries := (takeEntry (chargedFor s qn b x) qn).queries ++ [x] }

theorem getQ_carriedAs (s : State) (qn : Nat) (b : List Byte) (x : Query) (p : Nat) :
    getQ (carriedAs s qn b x) p = getQ (takeEntry (chargedFor s qn b x) qn) p := rfl

theorem carriedAs_results (s : State) (qn : Nat) (b : List Byte) (x : Query) :
    (carriedAs s qn b x).host.results = s.host.results := by
  obtain ⟨-, charged, -⟩ := (chargedFor_frame s qn b x).keep .rings rfl
  unfold carriedAs
  dsimp only
  rw [takeEntry_results, charged]

theorem carriedAs_queries (s : State) (qn : Nat) (b : List Byte) (x : Query) :
    (carriedAs s qn b x).queries = s.queries ++ [x] := by
  have charged : (chargedFor s qn b x).queries = s.queries := (chargedFor_frame s qn b x).keep .queries rfl
  unfold carriedAs
  dsimp only
  rw [takeEntry_queries, charged]

/-- An entry whose predicate some entry can match becomes the query that a half carries. -/
theorem offerQuery_carried {qn : Nat} {b p : List Byte} {x : Query} (h : Passes s qn b)
    (runs : (getColl s (parseQuery b).coll).life = 2) (serves : (queryColours s qn (parseQuery b).coll).2.2 ≠ .red)
    (carried : queryHalf s qn (getQ s qn) (parseQuery b) (queryPayload s (parseQuery b) b (some p))
      (queryColours s qn (parseQuery b).coll).2.2 = some x)
    (satisfiable : ¬((parseQuery b).filter = true ∧ (parseQuery b).pred.must &&& (parseQuery b).pred.mustNot ≠ 0)) :
    offerQuery s qn b p = (carriedAs s qn b x, true) := by
  have admitted : admitQuery (countClamps s qn b) qn (getQ s qn) (parseQuery b) (queryColours s qn (parseQuery b).coll) x =
      carriedAs s qn b x := if_neg satisfiable
  rw [offerQuery_served h runs serves carried, Option.elim_some, admitted]

/-! ### The admission of a turn -/

theorem exec_entryAdmission_one {qn : Nat} {b p : List Byte} {t : State} {taken : Bool} (hp : s.turn.phase = .p6)
    (first : s.turn.admitted = false) (h : OneOffered (beginAdmission s) qn b p)
    (offered : offerQuery (beginAdmission s) qn b p = (t, taken))
    (last : taken = true → (getQ t qn).work = (getQ t qn).snapTally) : exec .entryAdmission s = .next t := by
  have result := h.doAdmission (by rwa [offered])
  rw [exec_entryAdmission_first hp first, result, offered]

/-- Once its one entry is taken, the queue has no other. -/
theorem OneOffered.exhausted {a u : State} {qn : Nat} {b p : List Byte} (h : OneOffered a qn b p) (same : getQ u qn = getQ a qn) :
    (getQ (takeEntry u qn) qn).work = (getQ (takeEntry u qn) qn).snapTally := by
  rw [takeEntry_work, takeEntry_snapTally, same, h.snapTally]

theorem entryAdmission_noService {qn : Nat} {b p : List Byte} (hp : s.turn.phase = .p6) (first : s.turn.admitted = false)
    (hqn : qn < 16384) (h : OneOffered (beginAdmission s) qn b p) (passes : Passes (beginAdmission s) qn b)
    (stopped : (getColl (beginAdmission s) (parseQuery b).coll).life ≠ 2) :
    Completes .entryAdmission s fun t =>
      t.queries = s.queries ∧ (getQ t qn).work = (getQ s qn).work + 1 ∧
      (getQ t (getQ s qn).resultQ).reserved = (getQ s (getQ s qn).resultQ).reserved + 1 ∧
      (∃ r, t.host.results = s.host.results ++ [r] ∧ r.rq = (getQ s qn).resultQ ∧ r.sq = qn ∧
        r.userTag = (parseQuery b).userTag ∧ r.status = .noService ∧ r.count = 0) ∧
      waitingCount t Obj.NO_SERVICE_ANSWERS = waitingCount s Obj.NO_SERVICE_ANSWERS + 1 := by
  have answered := getQ_answerNow (countClamps (beginAdmission s) qn b) qn (getQ s qn) (parseQuery b) .noService false
  refine ⟨_, exec_entryAdmission_one hp first h (offerQuery_noService passes stopped) fun _ => ?_, ?_, ?_, ?_, ?_, ?_⟩
  · exact (congrArg Queue.work (answered qn)).trans ((h.exhausted rfl).trans (congrArg Queue.snapTally (answered qn)).symm)
  · exact (answerNow_frame _ _ _ _ _ _).keep .queries rfl
  · exact (congrArg Queue.work (answered qn)).trans (takeEntry_work _ _)
  · exact (congrArg Queue.reserved (answered _)).trans (takeEntry_reserved _ _)
  · exact answerNow_results hqn _ _ _ _
  · rw [waitingCount_bump_self _ _ Nat.one_ne_zero, waitingCount_answerNow, countClamps, waitingCount_bump_ne _ _ (by decide)]
    rfl

theorem entryAdmission_admits {qn : Nat} {b p : List Byte} {x : Query} (hp : s.turn.phase = .p6)
    (first : s.turn.admitted = false) (h : OneOffered (beginAdmission s) qn b p) (passes : Passes (beginAdmission s) qn b)
    (runs : (getColl (beginAdmission s) (parseQuery b).coll).life = 2)
    (serves : (queryColours (beginAdmission s) qn (parseQuery b).coll).2.2 ≠ .red)
    (carried : queryHalf (beginAdmission s) qn (getQ s qn) (parseQuery b) (queryPayload (beginAdmission s) (parseQuery b) b (some p))
      (queryColours (beginAdmission s) qn (parseQuery b).coll).2.2 = some x)
    (satisfiable : ¬((parseQuery b).filter = true ∧ (parseQuery b).pred.must &&& (parseQuery b).pred.mustNot ≠ 0)) :
    Completes .entryAdmission s fun t =>
      (getQ t qn).work = (getQ s qn).work + 1 ∧
      (getQ t (getQ s qn).resultQ).reserved = (getQ s (getQ s qn).resultQ).reserved + 1 ∧
      t.host.results = s.host.results ∧ t.queries = s.queries ++ [x] := by
  refine ⟨_, exec_entryAdmission_one hp first h (offerQuery_carried passes runs serves carried satisfiable) fun _ => ?_, ?_, ?_,
    carriedAs_results _ _ _ _, carriedAs_queries _ _ _ _⟩
  · rw [getQ_carriedAs]
    exact h.exhausted (getQ_chargedFor _ _ _ _ _)
  · rw [getQ_carriedAs, takeEntry_work, getQ_chargedFor]
    rfl
  · have reserved := takeEntry_reserved (chargedFor (beginAdmission s) qn b x) qn
    rw [getQ_chargedFor, getQ_chargedFor] at reserved
    exact reserved

/-- Settles O22: an idle admission, and the one offer of an admission by where its checks end. -/
theorem admissionFollowsItsSteps : Obligations.AdmissionFollowsItsSteps := by
  intro qn f b p s hp first
  refine ⟨fun idle => ⟨_, exec_entryAdmission_first hp first, doAdmission_nothing idle⟩,
    fun takes reach order hqn query one hf hentry hpayload here => ?_⟩
  have h : OneOffered (beginAdmission s) qn b p := ⟨takes, reach, order, query, one, f, hf, hentry, hpayload⟩
  refine ⟨fun shut => ?_, fun gate slot stopped => ?_, fun gate slot runs serves full => ?_,
    fun x gate slot runs serves carried satisfiable => ?_⟩
  · exact ⟨_, exec_entryAdmission_one hp first h (offerQuery_gateClosed here shut) (absurd · Bool.false_ne_true), rfl⟩
  · exact entryAdmission_noService hp first hqn h ⟨here, gate, slot⟩ stopped
  · have waits : offerQuery (beginAdmission s) qn b p = (bump (beginAdmission s) Obj.CONTEXT_WAITS 1, false) :=
      offerQuery_served (s := beginAdmission s) ⟨here, gate, slot⟩ runs serves full
    exact ⟨_, exec_entryAdmission_one hp first h waits (absurd · Bool.false_ne_true), rfl⟩
  · obtain ⟨half, hhalf, rfl⟩ := queryHalf_some carried
    obtain ⟨t, ht, hwork, hreserved, hresults, hqueries⟩ :=
      entryAdmission_admits hp first h ⟨here, gate, slot⟩ runs serves carried satisfiable
    exact ⟨t, ht, hwork, hreserved, hresults, hqueries, rfl, rfl, rfl, rfl, rfl, hhalf, rfl, rfl⟩

end Sys2Proof.Machine

/-! Time gates: the takeover of a pending list, and the mask that a list gives a turn (R101 to R103). -/

namespace Sys2Proof.Machine

open Sys2Proof

variable {s : State}

/-! ### Takeover (R103) -/

theorem exec_gateTakeover_due {es : List Nat} {turn : Nat} (pending : s.adm.gates.pend = some (es, turn))
    (hp : s.turn.phase = .p4) (due : turn ≤ boundary s) :
    exec .gateTakeover s =
      .next { s with adm := { s.adm with gates := { oper := es, base := turn, pend := none } } } := by
  unfold exec execGateTakeover
  rw [pending]
  exact congrArg Host.Outcome.next (if_pos ⟨hp, due⟩)

theorem exec_gateTakeover_early {es : List Nat} {turn : Nat} (pending : s.adm.gates.pend = some (es, turn))
    (early : boundary s < turn) : exec .gateTakeover s = .next s := by
  have notDue : ¬(s.turn.phase = .p4 ∧ turn ≤ boundary s) := fun ⟨_, due⟩ => Nat.not_le.mpr early due
  unfold exec execGateTakeover
  rw [pending]
  exact congrArg Host.Outcome.next (if_neg notDue)

/-! ### The mask of a turn (R101, R102) -/

theorem gatesAt_nil (n b : Nat) : gatesAt n b [] = 0xFFF := by
  unfold gatesAt
  exact if_pos rfl

/-- Every entry holds for at least one turn, as DURATION 0 is clamped to 1 (Table 4.5; log entry 85). -/
theorem gateTurns_pos (e : Nat) : 0 < gateTurns e := Nat.le_max_left 1 _

/-- The first entry holds at the start of its list. -/
theorem gateWalk_cons_zero (e : Nat) (es : List Nat) : gateWalk (e :: es) 0 = gateMask e := if_pos (gateTurns_pos e)

/-- At its base turn a list is at its start. -/
theorem gatesAt_base (b e : Nat) (es : List Nat) : gatesAt b b (e :: es) = gateMask e := by
  have start : (b + turnMod - b) % turnMod = 0 := by rw [Nat.add_sub_cancel_left, Nat.mod_self]
  unfold gatesAt
  dsimp only
  rw [if_neg (List.cons_ne_nil e es), start, Nat.zero_mod, gateWalk_cons_zero]

/-- Settles O23: a takeover by whether its turn has come, and a list by whether it has a first entry (log entry 85). -/
theorem gateListTakesOver : Obligations.GateListTakesOver := by
  refine ⟨fun es turn s pending hp => ⟨fun due => ?_, fun early => ?_⟩, gatesAt_nil, fun e es b _ => gatesAt_base b e es⟩
  · exact ⟨_, exec_gateTakeover_due pending hp due, rfl⟩
  · exact exec_gateTakeover_early pending early

end Sys2Proof.Machine

/-! The tables of the Composer: what their versions, rows and groups read after an update (R110, R111, R125, R128). -/

namespace Sys2Proof.Machine

open Sys2Proof

variable {s t : State}

/-! ### Rows and groups of a version -/

@[simp] theorem TableVer.group_setGroup_self (v : TableVer) (g : Nat) (x : RowGroup) : (v.setGroup g x).group g = x := by
  simp [TableVer.group, TableVer.setGroup]

theorem TableVer.group_setGroup_ne (v : TableVer) {g k : Nat} (x : RowGroup) (h : k ≠ g) :
    (v.setGroup g x).group k = v.group k := by simp [TableVer.group, TableVer.setGroup, look_put_ne _ _ h]

@[simp] theorem TableVer.group_setRow (v : TableVer) (i : Nat) (r : Row) (g : Nat) : (v.setRow i r).group g = v.group g := rfl

@[simp] theorem TableVer.row_setGroup (v : TableVer) (g : Nat) (x : RowGroup) (i : Nat) : (v.setGroup g x).row i = v.row i := rfl

@[simp] theorem TableVer.row_setRow_self (v : TableVer) (i : Nat) (r : Row) : (v.setRow i r).row i = r := by
  simp [TableVer.row, TableVer.setRow]

/-! ### Tables -/

theorem getTable_setTable_ne (s : State) {a b : Nat} (v : Table) (h : a ≠ b) : getTable (setTable s b v) a = getTable s a := by
  simp [getTable, setTable, look_put_ne _ _ h]

theorem getTable_of_comp (h : t.comp = s.comp) (n : Nat) : getTable t n = getTable s n := by
  unfold getTable
  rw [h]

/-- The accounting of pages leaves a table as it was set. -/
@[simp] theorem getTable_movePages_self (s : State) (n : Nat) (v : Table) : getTable (movePages s n v) n = v :=
  getTable_setTable_self s n v

@[simp] theorem getObj_movePages (s : State) (n : Nat) (v : Table) (a : Nat) : getObj (movePages s n v) a = getObj s a := rfl

theorem active_onActive_self (s : State) (n : Nat) (f : TableVer → TableVer) :
    (getTable (onActive s n f) n).active = (getTable s n).active.map f := by
  unfold onActive
  rw [getTable_setTable_self]

theorem active_onActive_ne (s : State) {a b : Nat} (f : TableVer → TableVer) (h : a ≠ b) :
    (getTable (onActive s b f) a).active = (getTable s a).active := by
  unfold onActive
  rw [getTable_setTable_ne _ _ h]

theorem active_onGroup_self {n : Nat} {v : TableVer} (h : (getTable s n).active = some v) (g : Nat) (f : RowGroup → RowGroup) :
    (getTable (onGroup s n g f) n).active = some (v.setGroup g (f (v.group g))) := by
  unfold onGroup
  rw [active_onActive_self, h, Option.map_some]

end Sys2Proof.Machine

/-! The Query Composer: what COMPOSE leaves in a query, and the rows that READ_AHEAD stages (R56, R117, R119, R120, R131). -/

namespace Sys2Proof.Machine

open Sys2Proof

variable {s t : State}

/-! ### COMPOSE (R117, R119, R131) -/

theorem getQuery_of_queries (h : t.queries = s.queries) (qh : Nat) : getQuery t qh = getQuery s qh := by
  unfold getQuery
  rw [h]

/-- Query `q` has come to its t0 and waits to be composed. -/
structure AwaitsCompose (s : State) (qh : Nat) (q : Query) : Prop where
  query : getQuery s qh = some q
  due : q.t0 ≤ s.turn.no
  noVec : q.vec = none
  noInput : q.input = []
  sound : q.error = false

/-- What gathering the rows of a query leaves, and whether it met an uncorrectable row. -/
def gatherQuery (s : State) (bad : List (Nat × Nat)) (q : Query) : State × Bool :=
  gatherRows (bump s Obj.RECORDS_IGNORED (ignoredRecords s q.coll q.payload)) bad (lookupsOf s q.coll q.payload)

/-- The look-up of a query's memo after its rows have been gathered, in a collection with memos (R391). -/
def lookupMemo (s : State) (bad : List (Nat × Nat)) (q : Query) : State × Option (List Byte) :=
  if isSet s (Obj.coll_MEMO_EN q.coll) then memoLookup (gatherQuery s bad q).1 q.memoKey else ((gatherQuery s bad q).1, none)

/-- The state after the look-up, with the saturations of the composed query counted. -/
def afterGather (s : State) (bad : List (Nat × Nat)) (q : Query) : State :=
  strmSat (lookupMemo s bad q).1 (if q.encoder = 255 then (kRouting, q.coll) else (kLayer, 1024 * q.encoder))
    (composeOf s q.coll q.encoder q.payload).sats

/-- A query with what the Composer made for it. -/
def withComposed (s : State) (bad : List (Nat × Nat)) (q k : Query) : Query :=
  let x := composeOf s q.coll q.encoder q.payload
  { k with input := x.rows, vec := x.vec, sketch := x.sketch, memoHit := (lookupMemo s bad q).2, ready := countedTurn s }

theorem AwaitsCompose.exec_compose {qh : Nat} {q : Query} (h : AwaitsCompose s qh q) (bad : List (Nat × Nat)) :
    exec (.compose qh bad) s = .next
      (if composes s q.half = false then slipQuery s qh
       else if (gatherQuery s bad q).2 = true then onQuery (gatherQuery s bad q).1 qh fun q => { q with error := true }
       else onQuery (afterGather s bad q) qh (withComposed s bad q)) := by
  have waits : ¬(s.turn.no < q.t0 ∨ q.vec.isSome = true ∨ q.input ≠ [] ∨ q.error = true) := by
    simp [h.noVec, h.noInput, h.sound, h.due]
  refine congrArg Host.Outcome.next ?_
  unfold doCompose
  rw [h.query]
  exact if_neg waits

theorem gatherQuery_queries (s : State) (bad : List (Nat × Nat)) (q : Query) : (gatherQuery s bad q).1.queries = s.queries :=
  (gatherRows_frame _ _ _).keep .queries rfl

theorem lookupMemo_queries (s : State) (bad : List (Nat × Nat)) (q : Query) : (lookupMemo s bad q).1.queries = s.queries := by
  unfold lookupMemo
  split
  · exact ((memoLookup_frame _ _).keep .queries rfl).trans (gatherQuery_queries s bad q)
  · exact gatherQuery_queries s bad q

theorem afterGather_queries (s : State) (bad : List (Nat × Nat)) (q : Query) : (afterGather s bad q).queries = s.queries :=
  ((strmSat_frame _ _ _).keep .queries rfl).trans (lookupMemo_queries s bad q)

/-- Settles O24: a slip (log entry 69), a query marked for a bad row, and the composed query that is stored. -/
theorem composeStoresTheInput : Obligations.ComposeStoresTheInput := by
  intro qh bad q s hq due noVec noInput sound
  have h : AwaitsCompose s qh q := ⟨hq, due, noVec, noInput, sound⟩
  refine ⟨fun idle first => ?_, fun works met => ?_, fun works clean => ?_⟩
  · obtain ⟨marked, counted⟩ := slipQuery_of hq
    refine ⟨_, (h.exec_compose bad).trans (congrArg _ (if_pos idle)), marked, ?_⟩
    rw [counted, first, if_neg Bool.false_ne_true]
  · refine ⟨_, (h.exec_compose bad).trans (congrArg _ ((if_neg (ne_false_of_eq_true works)).trans (if_pos met))), ?_⟩
    exact getQuery_onQuery ((getQuery_of_queries (gatherQuery_queries s bad q) qh).trans hq) fun _ => rfl
  · refine ⟨_, (h.exec_compose bad).trans (congrArg _ ((if_neg (ne_false_of_eq_true works)).trans
      (if_neg (ne_true_of_eq_false clean)))), withComposed s bad q q, ?_, rfl, rfl, rfl, sound⟩
    exact getQuery_onQuery ((getQuery_of_queries (afterGather_queries s bad q) qh).trans hq) fun _ => rfl

/-! ### READ_AHEAD (R120) -/

/-- The staged copy of one row, for the entry at `tally` of queue `q` and the next turn. -/
def stagedCopy (s : State) (q : Nat) (tally : Tally) (r : Nat × Nat) : Staged :=
  { q := q, tally := tally, table := r.1, index := r.2, bytes := ((tableOn s r.1).map fun v => (v.row r.2).bytes).getD [],
    turn := nextTurn s.turn.no, used := false }

/-- The state in which the rows of an entry have been read and staged, on the reservations `use`. -/
def stageRows (s : State) (q : Nat) (tally : Tally) (rows : List (Nat × Nat)) (use : List (Nat × Nat) × List (Nat × Nat)) : State :=
  let u := rows.foldl stageRead s
  bump { u with
    way := { u.way with dieUse := use.2 }
    comp := { u.comp with staged := u.comp.staged ++ rows.map (stagedCopy s q tally),
                          ahead := u.comp.ahead ++ [(q, tally, nextTurn s.turn.no)],
                          flashUsed := u.comp.flashUsed + rows.length, wayUsed := use.1 } } Obj.STAGED_ROWS rows.length

/-- Reading rows writes the flash counts alone. -/
theorem foldl_stageRead_frame (s : State) (rows : List (Nat × Nat)) : Frame [.flash] s (rows.foldl stageRead s) :=
  Frame.foldl (Frame.refl _ _) stageRead_frame

theorem stageRows_comp (s : State) (q : Nat) (tally : Tally) (rows : List (Nat × Nat))
    (use : List (Nat × Nat) × List (Nat × Nat)) :
    (stageRows s q tally rows use).comp =
      { s.comp with staged := s.comp.staged ++ rows.map (stagedCopy s q tally),
                    ahead := s.comp.ahead ++ [(q, tally, nextTurn s.turn.no)],
                    flashUsed := s.comp.flashUsed + rows.length, wayUsed := use.1 } := by
  have read : (rows.foldl stageRead s).comp = s.comp := (foldl_stageRead_frame s rows).keep .comp rfl
  unfold stageRows
  dsimp only [bump_comp]
  rw [read]

theorem waitingCount_stageRows (s : State) (q : Nat) (tally : Tally) {rows : List (Nat × Nat)} (h : rows ≠ [])
    (use : List (Nat × Nat) × List (Nat × Nat)) :
    waitingCount (stageRows s q tally rows use) Obj.STAGED_ROWS = waitingCount s Obj.STAGED_ROWS + rows.length := by
  have read : (rows.foldl stageRead s).dict.ctrPend = s.dict.ctrPend := (foldl_stageRead_frame s rows).keep .counters rfl
  refine (waitingCount_bump_self _ _ (mt List.length_eq_zero_iff.mp h)).trans ?_
  exact congrArg (fun c => (look c Obj.STAGED_ROWS).getD 0 + rows.length) read

/-- A fetched QUERY entry is read ahead before its cutoff. -/
structure ReadsAhead (s : State) (q : Nat) (tally : Tally) (f : Fetched) (b : List Byte) : Prop where
  fetched : (s.host.fetched.find? fun f => f.q == q && f.tally == tally) = some f
  entry : f.entry = some b
  query : (getQ s q).ty = .query
  inTime : doorbellTick (getQ s q) tally ≤ (periodUs s - 4 - getObj s Obj.PREFETCH_LEAD_US) * ticksPerUs

/-- The T5 rows that the lookups of a fetched QUERY entry name. -/
def aheadRows (s : State) (f : Fetched) (b : List Byte) : List (Nat × Nat) :=
  t5Rows s (lookupsOf s (parseQuery b).coll (queryPayload s (parseQuery b) b f.payload))

/-- Rows none of which is staged yet are staged whole where capacity and reads are free. -/
theorem ReadsAhead.exec_readAhead {q : Nat} {tally : Tally} {f : Fetched} {b : List Byte} (h : ReadsAhead s q tally f b)
    (fresh : s.comp.staged = []) (some_row : aheadRows s f b ≠ [])
    (fits : s.comp.flashUsed + (aheadRows s f b).length ≤ getObj s Obj.COMPOSE_FLASH_CAP)
    {use : List (Nat × Nat) × List (Nat × Nat)} (reads : holdReads s (aheadRows s f b) = some use) :
    exec (.readAhead q tally) s = .next (stageRows s q tally (aheadRows s f b) use) := by
  have early : ¬((getQ s q).ty ≠ .query ∨
      (periodUs s - 4 - getObj s Obj.PREFETCH_LEAD_US) * ticksPerUs < doorbellTick (getQ s q) tally) := by
    rintro (hty | hlate)
    · exact hty h.query
    · exact absurd hlate (Nat.not_lt.mpr h.inTime)
  have small : ¬ getObj s Obj.COMPOSE_FLASH_CAP < (aheadRows s f b).length := by omega
  have room : ¬(aheadRows s f b = [] ∨ getObj s Obj.COMPOSE_FLASH_CAP < s.comp.flashUsed + (aheadRows s f b).length) :=
    not_or.mpr ⟨some_row, Nat.not_lt.mpr fits⟩
  have all_new : (aheadRows s f b).filter (fun r => !(s.comp.staged.any fun x =>
      x.q == q && x.tally == tally && x.table == r.1 && x.index == r.2 && x.turn == nextTurn s.turn.no)) = aheadRows s f b := by
    simp [fresh]
  refine congrArg Host.Outcome.next ?_
  unfold aheadRows at *
  unfold doReadAhead
  simp only [h.fetched, h.entry, early, small, all_new, room, reads, if_false]
  rfl

/-- Settles O25: the rows are staged whole on the reads that are reserved for them (log entry 25). -/
theorem readAheadStagesRows : Obligations.ReadAheadStagesRows := by
  intro q tally f b s hf hb hty inTime
  dsimp only
  intro fresh some_row fits reads
  obtain ⟨use, reads⟩ := Option.isSome_iff_exists.mp reads
  refine ⟨_, ReadsAhead.exec_readAhead ⟨hf, hb, hty, inTime⟩ fresh some_row fits reads, ?_, ?_, ?_,
    waitingCount_stageRows s q tally some_row use⟩
  · intro r hr
    rw [stageRows_comp]
    exact ⟨_, List.mem_append_right _ (List.mem_map_of_mem hr), rfl, rfl, rfl, rfl, rfl⟩
  · rw [stageRows_comp, fresh, List.nil_append, List.length_map]
    rfl
  · rw [stageRows_comp]
    rfl

end Sys2Proof.Machine

/-! Row groups: a promotion that is complete, the replacements that waited for it, and the descriptor switch (R83, R125 to R130). -/

namespace Sys2Proof.Machine

open Sys2Proof

variable {s t : State}

/-! ### A group that has been copied to T2 (R127, R128) -/

/-- The copy of the group in T2 is complete, and its descriptor has not switched yet. -/
def RowGroup.isCopied (x : RowGroup) : Prop := x.copied = true ∧ x.moving = some false

/-- The active version of a table holds a group that has been copied. -/
def GroupCopied (s : State) (table group : Nat) : Prop :=
  ∃ w, (getTable s table).active = some w ∧ (w.group group).isCopied

theorem GroupCopied.of_comp {table group : Nat} (h : GroupCopied s table group) (same : t.comp = s.comp) :
    GroupCopied t table group := by
  unfold GroupCopied
  rw [getTable_of_comp same]
  exact h

theorem GroupCopied.onActive {table group : Nat} (h : GroupCopied s table group) (n : Nat) {f : TableVer → TableVer}
    (hf : ∀ v, (v.group group).isCopied → ((f v).group group).isCopied) : GroupCopied (onActive s n f) table group := by
  obtain ⟨w, hw, copied⟩ := h
  by_cases same : table = n
  · subst same
    exact ⟨f w, by rw [active_onActive_self, hw, Option.map_some], hf w copied⟩
  · exact ⟨w, (active_onActive_ne s f same).trans hw, copied⟩

theorem GroupCopied.onGroup {table group : Nat} (h : GroupCopied s table group) (n g : Nat) {f : RowGroup → RowGroup}
    (hf : ∀ x : RowGroup, x.isCopied → (f x).isCopied) : GroupCopied (onGroup s n g f) table group := by
  refine h.onActive n fun v copied => ?_
  by_cases same : group = g
  · subst same
    rw [TableVer.group_setGroup_self]
    exact hf _ copied
  · rwa [TableVer.group_setGroup_ne _ _ same]

/-- A replacement, in whatever group, keeps the copy. -/
theorem GroupCopied.replaceRow {table group : Nat} (h : GroupCopied s table group) (n i wid : Nat) (b : List Byte) :
    GroupCopied (replaceRow s n i wid b) table group := by
  refine h.onActive n fun v copied => ?_
  by_cases same : group = i / 256
  · subst same
    rw [TableVer.group_setGroup_self]
    exact copied
  · rwa [TableVer.group_setGroup_ne _ _ same, TableVer.group_setRow]

theorem GroupCopied.cancelDemotion {table group : Nat} (h : GroupCopied s table group) (n g : Nat) :
    GroupCopied (cancelDemotion s n g) table group := by
  refine h.onGroup n g fun x copied => ?_
  split
  · exact copied
  · exact copied

/-- A promotion that is asked for again does not start again. -/
theorem GroupCopied.startGroupMove {table group : Nat} (h : GroupCopied s table group) (n g : Nat) (t5 : Bool) :
    GroupCopied (startGroupMove s n g t5) table group := by
  refine h.onGroup n g fun x copied => ?_
  rw [if_pos (by rw [copied.2, Option.isSome_some, Bool.or_true])]
  exact copied

theorem GroupCopied.takeRow {table group : Nat} (h : GroupCopied s table group) (w : Write) :
    GroupCopied (takeRow s w) table group := by
  unfold Machine.takeRow
  split
  · exact h.of_comp rfl
  · next n v i _ =>
    dsimp only
    split
    · exact (h.cancelDemotion n (i / 256)).of_comp rfl
    · have asked := ((h.cancelDemotion n (i / 256)).of_comp (t := onWrite (Machine.cancelDemotion s n (i / 256)) w.wid
        fun w => { w with ready := false }) rfl).startGroupMove n (i / 256) false
      exact asked.onGroup n (i / 256) fun x copied => copied

theorem GroupCopied.commitEffect {table group : Nat} (h : GroupCopied s table group) (w : Write) :
    GroupCopied (commitEffect s w) table group := by
  unfold Machine.commitEffect
  split
  · exact h
  · split
    · split
      · exact h
      · exact h.replaceRow _ _ _ _
    · have committed : (commitRec s w false).comp = s.comp := (commitRec_frame s w false).keep .comp rfl
      split
      · exact h.of_comp (((addDrift_frame _ w).keep .comp rfl).trans committed)
      · exact h.of_comp committed

/-- A write's effect is done and counted, and its result posted. -/
def commitWrite (s : State) (w : Write) : State := finishWrite (bump (commitEffect s w) Obj.INGEST_COMMITS 1) w .ok

theorem GroupCopied.commitWrite {table group : Nat} (h : GroupCopied s table group) (w : Write) :
    GroupCopied (commitWrite s w) table group :=
  (h.commitEffect w).of_comp ((finishWrite_frame (bump (Machine.commitEffect s w) _ _) w .ok).keep .comp rfl)

theorem GroupCopied.postRefused {table group : Nat} (h : GroupCopied s table group) (sq n : Nat) :
    GroupCopied (postRefused sq n s) table group := h.of_comp ((postRefused_frame sq n s).keep .comp rfl)

theorem GroupCopied.tryCommit {table group : Nat} (h : GroupCopied s table group) (wid : Nat) :
    GroupCopied (tryCommit s wid) table group := by
  unfold Machine.tryCommit
  split
  · exact h
  · next w _ =>
    split
    · split
      · exact h.postRefused _ _
      · exact h
    · split
      · exact h
      · split
        · exact h.takeRow w
        · exact (h.commitWrite w).postRefused _ _

/-! ### GROUP_PROMOTION_COMPLETE (R127, R128) -/

/-- A group whose copy is complete; no write waits for it any more. -/
def RowGroup.markCopied (x : RowGroup) : RowGroup := { x with copied := true, waiting := [] }

/-- The group of a table is marked copied. -/
def markCopied (s : State) (table group : Nat) : State :=
  onGroup s table group RowGroup.markCopied

/-- A write as the end of the promotion for which it waited leaves it: it may commit from this turn on. -/
def wokenWrite (s : State) (w : Write) : Write := { w with ready := true, minTurn := max w.minTurn s.turn.no }

/-- The state in which that write has been woken. -/
def wakeWrite (s : State) (wid : Nat) : State := onWrite s wid (wokenWrite s)

theorem exec_groupPromotionComplete {table group : Nat} {v : TableVer} (hv : (getTable s table).active = some v)
    (moving : (v.group group).moving = some false) (copying : (v.group group).copied = false) :
    exec (.groupPromotionComplete table group) s = .next
      ((v.group group).waiting.foldl tryCommit ((v.group group).waiting.foldl wakeWrite (markCopied s table group))) := by
  refine congrArg Host.Outcome.next ?_
  rw [hv]
  refine if_neg ?_
  rintro (away | copied)
  · exact away moving
  · exact Bool.false_ne_true (copying.symm.trans copied)

theorem exec_groupPromotionComplete_idle {table group : Nat} {v : TableVer} (hv : (getTable s table).active = some v)
    (h : (v.group group).moving ≠ some false ∨ (v.group group).copied = true) :
    exec (.groupPromotionComplete table group) s = .next s := by
  refine congrArg Host.Outcome.next ?_
  rw [hv]
  exact if_pos h

theorem groupCopied_markCopied {table group : Nat} {v : TableVer} (hv : (getTable s table).active = some v)
    (moving : (v.group group).moving = some false) : GroupCopied (markCopied s table group) table group := by
  refine ⟨_, active_onGroup_self hv group _, ?_⟩
  rw [TableVer.group_setGroup_self]
  exact ⟨rfl, moving⟩

/-- Waking and committing the writes that waited keeps the copy. -/
theorem GroupCopied.foldl {table group : Nat} {f : State → Nat → State}
    (hf : ∀ {u}, GroupCopied u table group → ∀ wid, GroupCopied (f u wid) table group) (h : GroupCopied s table group)
    (wids : List Nat) : GroupCopied (wids.foldl f s) table group := by
  induction wids generalizing s with
  | nil => exact h
  | cons wid wids ih => exact ih (hf h wid)

theorem groupPromotionComplete_copied {table group : Nat} {v : TableVer} (hv : (getTable s table).active = some v)
    (moving : (v.group group).moving = some false) (copying : (v.group group).copied = false) :
    Completes (.groupPromotionComplete table group) s fun t => GroupCopied t table group := by
  refine ⟨_, exec_groupPromotionComplete hv moving copying, ?_⟩
  have woken : GroupCopied ((v.group group).waiting.foldl wakeWrite (markCopied s table group)) table group :=
    (groupCopied_markCopied hv moving).foldl (f := wakeWrite) (fun h wid => h.of_comp rfl) _
  exact woken.foldl (fun h wid => h.tryCommit wid) _

/-! ### A replacement that waited for the promotion (R83, R125, R127) -/

theorem rowTarget_eq_some {w : Write} {n i : Nat} {v : TableVer} :
    rowTarget s w = some (n, v, i) ↔ w.noid = false ∧ w.op ≠ .nop ∧ w.table = some n ∧ (getTable s n).active = some v ∧
      i = min w.id.toNat (v.rows - 1) := by
  unfold rowTarget
  cases hnoid : w.noid with
  | true => simp
  | false =>
    by_cases hop : w.op = .nop
    · simp [hop]
    · cases htable : w.table with
      | none => simp [hop]
      | some m =>
        simp only [hop, decide_false, Bool.or_self, Bool.false_eq_true, if_false, Option.bind_some, Option.map_eq_some_iff,
          Prod.mk.injEq, true_and, ne_eq, not_false_eq_true, Option.some.injEq]
        constructor
        · rintro ⟨v', hv', rfl, rfl, rfl⟩
          exact ⟨rfl, hv', rfl⟩
        · rintro ⟨rfl, hv, rfl⟩
          exact ⟨v, hv, rfl, rfl, rfl⟩

/-- The commit of a row that is not deleted replaces it. -/
theorem commitEffect_row {w : Write} {n i : Nat} {v : TableVer} (h : rowTarget s w = some (n, v, i)) (hop : w.op ≠ .delete) :
    commitEffect s w = replaceRow s n i w.wid (rowPayload v w.payload) := by
  obtain ⟨noid, nop, htable, -, -⟩ := rowTarget_eq_some.mp h
  unfold commitEffect
  simp [noid, nop, htable, h, hop]

theorem row_replaceRow {n : Nat} {v : TableVer} (h : (getTable s n).active = some v) (i wid : Nat) (b : List Byte) :
    ∃ w, (getTable (replaceRow s n i wid b) n).active = some w ∧ w.row i = (v.row i).stage b (nextTurn s.turn.no) wid := by
  refine ⟨_, (active_onActive_self s n _).trans (congrArg _ h), ?_⟩
  rw [TableVer.row_setGroup, TableVer.row_setRow_self]

/-- What posting one write keeps, answering the refused entries behind it keeps. -/
theorem postRefused_keeps {P : State → Prop} (hP : ∀ u w st, P u → P (finishWrite u w st)) (sq n : Nat) (h : P s) :
    P (postRefused sq n s) := by
  induction n generalizing s with
  | zero => exact h
  | succ n ih =>
    unfold postRefused
    split
    · exact h
    · split
      · exact h
      · exact ih (hP _ _ _ h)

theorem finishWrite_writes (s : State) (w : Write) (st : Status) :
    (finishWrite s w st).ing.writes = s.ing.writes.filter fun x => x.wid != w.wid := by
  have kept : (postResult s (ingestRes s w st)).ing = s.ing := (postResult_frame s _).keep .ing rfl
  unfold finishWrite
  dsimp only
  rw [kept]

/-- A write that is answered has left the engine. -/
theorem getWrite_finishWrite_self (s : State) (w : Write) (st : Status) : getWrite (finishWrite s w st) w.wid = none := by
  unfold getWrite
  rw [finishWrite_writes, List.find?_eq_none]
  intro x hx
  have kept := (List.mem_filter.mp hx).2
  simpa using kept

theorem getWrite_finishWrite_none {wid : Nat} (h : getWrite s wid = none) (w : Write) (st : Status) :
    getWrite (finishWrite s w st) wid = none := by
  unfold getWrite at *
  rw [finishWrite_writes]
  rw [List.find?_eq_none] at *
  exact fun x hx => h x (List.mem_filter.mp hx).1

theorem mem_results_finishWrite {r : Res} (h : r ∈ s.host.results) (w : Write) (st : Status) :
    r ∈ (finishWrite s w st).host.results := by
  change r ∈ (postResult s (ingestRes s w st)).host.results
  unfold postResult
  split
  · exact h
  · exact List.mem_append_left _ h

/-- A result whose queue has not been published yet waits to be written in this turn (R81, R82). -/
theorem postResult_results_untold {r : Res} (hsq : r.sq < 16384) (untold : (getQ s r.rq).told = false) :
    (postResult s r).host.results = s.host.results ++ [r] := by
  unfold postResult
  rw [if_neg (Nat.not_le.mpr hsq), if_neg (ne_true_of_eq_false untold)]

theorem ingestRes_mem_finishWrite {w : Write} (hsq : w.sq < 16384) (untold : (getQ s (getQ s w.sq).resultQ).told = false)
    (st : Status) : ingestRes s w st ∈ (finishWrite s w st).host.results := by
  change ingestRes s w st ∈ (postResult s (ingestRes s w st)).host.results
  rw [postResult_results_untold (r := ingestRes s w st) hsq untold]
  exact List.mem_append_right _ List.mem_cons_self

/-- The state in which a write has committed and the refused entries behind it have been answered (R83). -/
def answerCommit (s : State) (w : Write) : State :=
  postRefused w.sq (commitWrite s w).ing.writes.length (commitWrite s w)

/-- A replacement of row `i` of a table that may commit now. -/
structure RowCommits (s : State) (w : Write) (n : Nat) (v : TableVer) (i : Nat) : Prop where
  sound : w.refused = none
  keeps : w.op ≠ .delete
  sq : w.sq < 16384
  untold : (getQ s (getQ s w.sq).resultQ).told = false
  mayCommit : mayCommit s w = true
  target : rowTarget s w = some (n, v, i)
  takes : (v.group (i / 256)).takes = true

theorem RowCommits.tryCommit {wid n i : Nat} {w : Write} {v : TableVer} (h : RowCommits s w n v i) (hw : getWrite s wid = some w) :
    tryCommit s wid = answerCommit s w := by
  have home : rowAway s w = false := by
    unfold rowAway
    rw [h.target, Option.any_some, h.takes, Bool.not_true]
  unfold Machine.tryCommit
  simp only [hw, h.sound, h.mayCommit, home, Option.isSome_none, Bool.not_true, Bool.false_eq_true, if_false]
  rfl

/-- The commit stages the row, and its result is posted. -/
theorem RowCommits.answerCommit {n i : Nat} {w : Write} {v : TableVer} (h : RowCommits s w n v i) :
    (∃ u, (getTable (answerCommit s w) n).active = some u ∧
      u.row i = (v.row i).stage (rowPayload v w.payload) (nextTurn s.turn.no) w.wid) ∧
    getWrite (answerCommit s w) w.wid = none ∧ ingestRes s w .ok ∈ (answerCommit s w).host.results := by
  obtain ⟨-, -, -, active, -⟩ := rowTarget_eq_some.mp h.target
  have effect := commitEffect_row h.target h.keeps
  refine ⟨?_, ?_, ?_⟩
  · have comp : (Machine.answerCommit s w).comp = (commitEffect s w).comp :=
      ((postRefused_frame _ _ _).keep .comp rfl).trans ((finishWrite_frame (bump (commitEffect s w) _ _) w .ok).keep .comp rfl)
    rw [getTable_of_comp comp, effect]
    exact row_replaceRow active i w.wid _
  · refine postRefused_keeps (P := fun u => getWrite u w.wid = none) ?_ _ _ (getWrite_finishWrite_self _ w .ok)
    exact fun _ w st h => getWrite_finishWrite_none h w st
  · refine postRefused_keeps (P := fun u => ingestRes s w .ok ∈ u.host.results) ?_ _ _ ?_
    · exact fun _ w st h => mem_results_finishWrite h w st
    · unfold commitWrite
      rw [effect]
      exact ingestRes_mem_finishWrite (s := bump (replaceRow s n i w.wid (rowPayload v w.payload)) _ 1) h.sq h.untold .ok

theorem any_updFirst {α : Type} {p q : α → Bool} {f : α → α} (hf : ∀ a, q (f a) = q a) (l : List α) :
    (updFirst p f l).any q = l.any q := by
  induction l with
  | nil => rfl
  | cons a l ih =>
    cases ha : p a with
    | true => simp [updFirst, ha, hf]
    | false => simp [updFirst, ha, ih]

theorem getWrite_wid {wid : Nat} {w : Write} (h : getWrite s wid = some w) : w.wid = wid := by
  have found := List.find?_some h
  exact beq_iff_eq.mp found

theorem getWrite_onWrite {wid : Nat} {w : Write} (h : getWrite s wid = some w) {f : Write → Write} (hf : ∀ w, (f w).wid = w.wid) :
    getWrite (onWrite s wid f) wid = some (f w) := by
  have changed := find?_updFirst (p := fun w : Write => w.wid == wid) (f := f) (fun w hw => by rwa [hf w]) s.ing.writes
  exact changed.trans (congrArg (Option.map f) h)

/-- The state in which a group has been marked copied and the one write that waited for it has been woken. -/
def wokenFor (s : State) (table group wid : Nat) : State := wakeWrite (markCopied s table group) wid

/-- A replacement of row `i` of a table that stands at the head of its queue, whose commit only its group may still hold up. -/
structure AwaitsGroup (s : State) (w : Write) (n : Nat) (v : TableVer) (i : Nat) : Prop where
  sound : w.refused = none
  plain : w.creates = false
  keeps : w.op ≠ .delete
  sq : w.sq < 16384
  head : queueHead s w = true
  untold : (getQ s (getQ s w.sq).resultQ).told = false
  due : w.minTurn ≤ s.turn.no
  target : rowTarget s w = some (n, v, i)

theorem AwaitsGroup.rowCommits_woken {table i : Nat} {x : Write} {v : TableVer} (h : AwaitsGroup s x table v i) {group : Nat}
    (hgroup : i / 256 = group) (moving : (v.group group).moving = some false) (wid : Nat) :
    RowCommits (wokenFor s table group wid) (wokenWrite s x) table
      (v.setGroup group (v.group group).markCopied) i := by
  obtain ⟨noid, nop, htable, active, hi⟩ := rowTarget_eq_some.mp h.target
  refine ⟨h.sound, h.keeps, h.sq, h.untold, ?_, ?_, ?_⟩
  · have first : queueHead (wokenFor s table group wid) (wokenWrite s x) = queueHead s x :=
      congrArg Bool.not (any_updFirst (f := wokenWrite (markCopied s table group)) (fun _ => rfl) s.ing.writes)
    have inTurn : (wokenWrite s x).minTurn ≤ (wokenFor s table group wid).turn.no := Nat.max_le.mpr ⟨h.due, Nat.le_refl _⟩
    have unpublished : (getQ (wokenFor s table group wid)
      (getQ (wokenFor s table group wid) (wokenWrite s x).sq).resultQ).told = false := h.untold
    have whole : (wokenWrite s x).refused = none := h.sound
    have noNew : (wokenWrite s x).creates = false := h.plain
    have ready : (wokenWrite s x).ready = true := rfl
    unfold mayCommit
    rw [first, h.head, unpublished, whole, ready, decide_eq_true inTurn, noNew]
    rfl
  · exact rowTarget_eq_some.mpr ⟨noid, nop, htable, active_onGroup_self active group RowGroup.markCopied, hi⟩
  · rw [hgroup, TableVer.group_setGroup_self]
    unfold RowGroup.takes RowGroup.markCopied
    dsimp only
    rw [moving, beq_self_eq_true, Bool.and_true, Bool.or_true]

/-! ### GROUP_DESCRIPTOR_SWITCH (R128, R130) -/

theorem exec_groupDescriptorSwitch (hp : s.turn.phase = .p4) (table group : Nat) :
    exec (.groupDescriptorSwitch table group) s = .next (switchGroup s table group) := congrArg Host.Outcome.next (if_pos hp)

theorem exec_groupDescriptorSwitch_idle (hp : s.turn.phase ≠ .p4) (table group : Nat) :
    exec (.groupDescriptorSwitch table group) s = .next s := congrArg Host.Outcome.next (if_neg hp)

theorem active_switchGroup {table : Nat} {v : TableVer} (hv : (getTable s table).active = some v) (group : Nat) :
    (getTable (switchGroup s table group) table).active =
      some (v.setGroup group ((v.group group).switch table group)) := by
  unfold switchGroup
  rw [getTable_movePages_self, hv, Option.map_some]

section Switch

variable {x : RowGroup} {t5 : Bool}

/-- A copy that is complete takes its group home, without a T1 read copy where home is T5. -/
theorem RowGroup.switch_copied (n g : Nat) (moving : x.moving = some t5) (copied : x.copied = true) (going : x.cancel = false) :
    (x.switch n g).t5 = t5 ∧ (x.switch n g).moving = none ∧ (t5 = true → (x.switch n g).t1 = false) := by
  unfold RowGroup.switch
  simp only [moving, copied, going, Bool.false_eq_true, if_false, if_true, true_and]
  rintro rfl
  exact Bool.and_false _

theorem RowGroup.switch_cancelled (n g : Nat) (moving : x.moving = some t5) (cancelled : x.cancel = true) :
    (x.switch n g).t5 = x.t5 ∧ (x.switch n g).moving = none := by
  unfold RowGroup.switch
  simp only [moving, cancelled, if_true, and_self]

theorem RowGroup.switch_still (n g : Nat) (still : x.moving = none) :
    (x.switch n g).t5 = x.t5 ∧ (x.switch n g).t1 = x.t1Next.getD x.t1 := by
  unfold RowGroup.switch
  simp only [still, and_self]

end Switch

/-- Settles O26: the promotion that completes with what waited for it, and the switch by how the group stands. -/
theorem groupsMoveAtABoundary : Obligations.GroupsMoveAtABoundary := by
  intro table group v s hv
  dsimp only
  refine ⟨fun moving copying => groupPromotionComplete_copied hv moving copying, ?_, exec_groupPromotionComplete_idle hv,
    fun hp => ?_, fun hp => exec_groupDescriptorSwitch_idle hp table group⟩
  · intro wid i x moving copying waits hx sound plain keeps hsq head untold due target hgroup
    obtain rfl := getWrite_wid hx
    have waiting : AwaitsGroup s x table v i := ⟨sound, plain, keeps, hsq, head, untold, due, target⟩
    have ready := waiting.rowCommits_woken hgroup moving x.wid
    have woken : getWrite (wokenFor s table group x.wid) x.wid = some (wokenWrite s x) :=
      getWrite_onWrite (s := markCopied s table group) hx fun _ => rfl
    obtain ⟨staged, gone, posted⟩ := ready.answerCommit
    refine ⟨_, (exec_groupPromotionComplete hv moving copying).trans ?_, staged, gone, _, posted, rfl, rfl, rfl, rfl, rfl⟩
    rw [waits]
    exact congrArg Host.Outcome.next (ready.tryCommit woken)
  · refine ⟨_, exec_groupDescriptorSwitch hp table group, _, active_switchGroup hv group,
      fun k hk => TableVer.group_setGroup_ne _ _ hk, ?_⟩
    rw [TableVer.group_setGroup_self]
    exact ⟨fun t5 => RowGroup.switch_copied table group, fun t5 => RowGroup.switch_cancelled table group,
      RowGroup.switch_still table group⟩

end Sys2Proof.Machine

/-! Whole tables: the load, the build from an image and its failed fetches, and the switch of the version (R132). -/

namespace Sys2Proof.Machine

open Sys2Proof

variable {s t : State}

/-! ### The objects of a table are distinct -/

theorem table_LOAD_STATE_ne_LOAD (n : Nat) : Obj.table_LOAD_STATE n ≠ Obj.table_LOAD n :=
  fun h => absurd (Nat.add_left_cancel h) (by decide)

theorem table_LOAD_STATE_ne_SWITCH (n : Nat) : Obj.table_LOAD_STATE n ≠ Obj.table_SWITCH n :=
  fun h => absurd (Nat.add_left_cancel h) (by decide)

theorem table_VERSION_ne_LOAD_STATE (n : Nat) : Obj.table_VERSION n ≠ Obj.table_LOAD_STATE n :=
  fun h => absurd (Nat.add_left_cancel h) (by decide)

theorem table_VERSION_ne_SWITCH (n : Nat) : Obj.table_VERSION n ≠ Obj.table_SWITCH n :=
  fun h => absurd (Nat.add_left_cancel h) (by decide)

/-! ### How a load stands -/

/-- LOAD_STATE and LOAD of a table are written. -/
def setLoad (s : State) (n st load : Nat) : State := setObj (setObj s (Obj.table_LOAD_STATE n) st) (Obj.table_LOAD n) load

theorem getObj_setLoad_state (s : State) (n st load : Nat) : getObj (setLoad s n st load) (Obj.table_LOAD_STATE n) = st := by
  rw [setLoad, getObj_setObj_ne _ _ (table_LOAD_STATE_ne_LOAD n), getObj_setObj_self]

theorem getObj_setLoad_load (s : State) (n st load : Nat) : getObj (setLoad s n st load) (Obj.table_LOAD n) = load :=
  getObj_setObj_self _ _ _

theorem getTable_setLoad (s : State) (n st load m : Nat) : getTable (setLoad s n st load) m = getTable s m := rfl

/-! ### LOAD -/

/-- The geometry that a load fixes: FORMAT, WIDTH and ROWS. -/
def loadGeo (s : State) (n : Nat) : Nat × Nat × Nat :=
  (getObj s (Obj.table_FORMAT n), getObj s (Obj.table_WIDTH n), getObj s (Obj.table_ROWS n))

theorem exec_tableLoad {n : Nat} (idle : getObj s (Obj.table_LOAD_STATE n) ≠ 1) :
    exec (.tableLoad n) s = .next (setLoad (movePages s n
      { getTable s n with built := none, switchDue := 0, buildGeo := some (loadGeo s n) }) n 1 1) :=
  congrArg Host.Outcome.next (if_neg idle)

/-! ### The build (R111, R132) -/

/-- Where the groups of a version are placed does not rest on the attempts of a fetch. -/
theorem placeGroups_loadFetched (s : State) (key n : Nat) (v : TableVer) (k g used : Nat) :
    placeGroups (loadFetched s key) n v k g used = placeGroups s n v k g used := by
  induction k generalizing g used with
  | zero => rfl
  | succ k ih =>
    unfold placeGroups
    dsimp only
    rw [ih]
    rfl

theorem buildVersion_loadFetched (s : State) (key n fmt w rows : Nat) (b : List Byte) :
    buildVersion (loadFetched s key) n fmt w rows b = buildVersion s n fmt w rows b := by
  unfold buildVersion
  dsimp only
  rw [placeGroups_loadFetched]
  rfl

/-- What a build has of its image: nothing where the fetch failed, or the image is shorter than its rows. -/
def imageBytes (s : State) (n fmt w rows : Nat) (f : Fetch) : Option (List Byte) :=
  match sourceFetch s (getObj s (Obj.table_SRC_LOC n)) (getObj s (Obj.table_SRC_ADDR n)) f with
  | .bytes b => if b.length < rows * slotBytes fmt w then none else some b
  | .failed => none

/-- The state after a build has its image. -/
def builtFrom (s : State) (n fmt w rows : Nat) (b : List Byte) : State :=
  setLoad (movePages (loadFetched s (Obj.table_LOAD n)) n
    { getTable s n with buildGeo := none, built := some (buildVersion (loadFetched s (Obj.table_LOAD n)) n fmt w rows b) }) n 2 0

/-- The state after a fetch of a table's image has failed. -/
def buildFailed (s : State) (n : Nat) : State :=
  let r := loadAttempt s (Obj.table_LOAD n)
  if r.2 then postEvent (setLoad (setTable r.1 n { getTable s n with buildGeo := none }) n 3 0) 0x3010 n else r.1

theorem exec_tableBuildComplete {n fmt w rows : Nat} (geo : (getTable s n).buildGeo = some (fmt, w, rows)) {f : Fetch}
    (reached : sourceReach s (getObj s (Obj.table_SRC_LOC n)) (getObj s (Obj.table_SRC_ADDR n)) f = true) :
    exec (.tableBuildComplete n f) s = .next ((imageBytes s n fmt w rows f).elim (buildFailed s n) (builtFrom s n fmt w rows)) := by
  refine congrArg Host.Outcome.next ?_
  simp only [geo]
  refine (if_neg (ne_false_of_eq_true reached)).trans ?_
  change (match imageBytes s n fmt w rows f with | none => _ | some b => _) = _
  cases imageBytes s n fmt w rows f with
  | none => rfl
  | some b => rfl

theorem exec_tableBuildComplete_unreached {n : Nat} {f : Fetch}
    (unreached : sourceReach s (getObj s (Obj.table_SRC_LOC n)) (getObj s (Obj.table_SRC_ADDR n)) f = false) :
    exec (.tableBuildComplete n f) s = .next s := by
  refine congrArg Host.Outcome.next ?_
  dsimp only
  split
  · rfl
  · exact if_pos unreached

/-- An image in host memory that covers its rows is had whole. -/
theorem imageBytes_host {n fmt w rows : Nat} {b : List Byte} (inHost : getObj s (Obj.table_SRC_LOC n) = 0)
    (whole : rows * slotBytes fmt w ≤ b.length) : imageBytes s n fmt w rows (.bytes b) = some b := by
  unfold imageBytes
  rw [inHost]
  exact if_neg (Nat.not_lt.mpr whole)

theorem tableBuildComplete_bytes {n fmt w rows : Nat} {b : List Byte} (geo : (getTable s n).buildGeo = some (fmt, w, rows))
    (inHost : getObj s (Obj.table_SRC_LOC n) = 0)
    (reached : sourceReach s 0 (getObj s (Obj.table_SRC_ADDR n)) (.bytes b) = true) (whole : rows * slotBytes fmt w ≤ b.length) :
    Completes (.tableBuildComplete n (.bytes b)) s fun t =>
      getObj t (Obj.table_LOAD_STATE n) = 2 ∧ getObj t (Obj.table_LOAD n) = 0 ∧
      (getTable t n).built = some (buildVersion s n fmt w rows b) ∧ (getTable t n).active = (getTable s n).active := by
  have ended := exec_tableBuildComplete geo (f := .bytes b) (by rwa [inHost])
  rw [imageBytes_host inHost whole] at ended
  refine ⟨_, ended, getObj_setLoad_state _ _ _ _, getObj_setLoad_load _ _ _ _, ?_⟩
  rw [Option.elim_some, builtFrom, getTable_setLoad, getTable_movePages_self, buildVersion_loadFetched]
  exact ⟨rfl, rfl⟩

/-! ### Failed fetches of an image (R132) -/

theorem loadAttempt_last {key : Nat} (last : getObj s Obj.FETCH_RETRY_LIMIT ≤ lookD s.host.tries key 0 + 1) :
    (loadAttempt s key).2 = true := congrArg Prod.snd (if_pos last)

theorem loadAttempt_more {key : Nat} (more : lookD s.host.tries key 0 + 1 < getObj s Obj.FETCH_RETRY_LIMIT) :
    loadAttempt s key = ({ bump s Obj.FETCH_RETRIES 1 with
      host := { s.host with tries := put s.host.tries key (lookD s.host.tries key 0 + 1) } }, false) :=
  if_neg (Nat.not_le.mpr more)

/-- Every attempt that failed is counted, the last one too. -/
theorem waitingCount_loadAttempt (s : State) (key : Nat) :
    waitingCount (loadAttempt s key).1 Obj.FETCH_RETRIES = waitingCount s Obj.FETCH_RETRIES + 1 := by
  have counted : (loadAttempt s key).1.dict = (bump s Obj.FETCH_RETRIES 1).dict := by
    unfold loadAttempt
    dsimp only
    split
    · rfl
    · rfl
  unfold waitingCount
  rw [counted]
  exact waitingCount_bump_self s _ Nat.one_ne_zero

theorem buildFailed_last {n : Nat}
    (last : getObj s Obj.FETCH_RETRY_LIMIT ≤ lookD s.host.tries (Obj.table_LOAD n) 0 + 1) :
    getObj (buildFailed s n) (Obj.table_LOAD_STATE n) = 3 ∧ getObj (buildFailed s n) (Obj.table_LOAD n) = 0 ∧
      Logged s (buildFailed s n) 0x3010 n ∧
      waitingCount (buildFailed s n) Obj.FETCH_RETRIES = waitingCount s Obj.FETCH_RETRIES + 1 := by
  have tried := (loadAttempt_frame s (Obj.table_LOAD n)).keep
  unfold buildFailed
  dsimp only
  rw [if_pos (loadAttempt_last last)]
  refine ⟨?_, ?_, ?_, ?_⟩
  · rw [getObj_postEvent, getObj_setLoad_state]
  · rw [getObj_postEvent, getObj_setLoad_load]
  · obtain ⟨log, tally⟩ := tried .errorLog rfl
    have turn : (loadAttempt s (Obj.table_LOAD n)).1.turn.no = s.turn.no := tried .turnNo rfl
    have logged := postEvent_logged (setLoad (setTable (loadAttempt s (Obj.table_LOAD n)).1 n
      { getTable s n with buildGeo := none }) n 3 0) 0x3010 n
    unfold Logged at *
    rw [logged, ← log, ← tally, ← turn]
    rfl
  · rw [waitingCount_postEvent _ _ _ (by decide)]
    exact waitingCount_loadAttempt s _

theorem buildFailed_more {n : Nat}
    (more : lookD s.host.tries (Obj.table_LOAD n) 0 + 1 < getObj s Obj.FETCH_RETRY_LIMIT) :
    buildFailed s n = (loadAttempt s (Obj.table_LOAD n)).1 := by
  unfold buildFailed
  rw [loadAttempt_more more]
  exact if_neg Bool.false_ne_true

/-! ### The switch -/

theorem exec_tableSwitch {n : Nat} (ready : getObj s (Obj.table_LOAD_STATE n) = 2) :
    exec (.tableSwitch n) s = .next (setObj (setTable s n { getTable s n with switchDue := boundary s }) (Obj.table_SWITCH n) 1) :=
  congrArg Host.Outcome.next (if_neg (not_not_intro ready))

/-- Where no version was active, nothing has waited for a promotion. -/
theorem exec_tableVersionSwitch {n : Nat} (hp : s.turn.phase = .p4) (asked : (getTable s n).switchDue ≠ 0)
    (due : (getTable s n).switchDue ≤ boundary s) (fresh : (getTable s n).active = none) :
    exec (.tableVersionSwitch n) s = .next (switchTable s n) := by
  refine congrArg Host.Outcome.next ((if_pos ⟨hp, asked, due⟩).trans ?_)
  rw [fresh]
  rfl

theorem switchTable_built {n : Nat} {v : TableVer} (built : (getTable s n).built = some v) :
    getTable (switchTable s n) n = { active := some v, built := none, buildGeo := none, switchDue := 0 } ∧
      getObj (switchTable s n) (Obj.table_LOAD_STATE n) = 0 ∧
      getObj (switchTable s n) (Obj.table_VERSION n) = (getObj s (Obj.table_VERSION n) + 1) % 2 ^ 32 := by
  unfold switchTable
  simp only [built]
  refine ⟨?_, ?_, ?_⟩
  · exact getTable_movePages_self s n _
  · rw [getObj_setObj_ne _ _ (table_LOAD_STATE_ne_SWITCH n), getObj_setObj_self]
  · rw [getObj_setObj_ne _ _ (table_VERSION_ne_SWITCH n), getObj_setObj_ne _ _ (table_VERSION_ne_LOAD_STATE n),
      getObj_setObj_self, getObj_movePages]

/-- Settles O27: the load, the build by what its fetch brings, and the switch. -/
theorem tablesBuildAndSwitch : Obligations.TablesBuildAndSwitch := by
  intro n s
  refine ⟨fun idle => ?_, fun fmt w rows b => tableBuildComplete_bytes, fun loading reached => ?_,
    fun f => exec_tableBuildComplete_unreached, fun ready => ?_, fun v hp built asked due fresh => ?_⟩
  · refine ⟨_, exec_tableLoad idle, getObj_setLoad_state _ _ _ _, getObj_setLoad_load _ _ _ _, ?_⟩
    rw [getTable_setLoad, getTable_movePages_self]
    exact ⟨rfl, rfl⟩
  · obtain ⟨⟨fmt, w, rows⟩, geo⟩ := Option.ne_none_iff_exists'.mp loading
    have failed : exec (.tableBuildComplete n .failed) s = .next (buildFailed s n) := exec_tableBuildComplete geo reached
    refine ⟨fun last => ⟨_, failed, buildFailed_last last⟩, fun more => ⟨_, failed, ?_⟩⟩
    rw [buildFailed_more more]
    refine ⟨?_, ?_, ?_, waitingCount_loadAttempt s _⟩
    · rw [loadAttempt_more more]
      exact congrArg (Option.getD · 0) (look_put_self _ _ _)
    · exact (loadAttempt_frame s _).keep .comp rfl
    · exact (loadAttempt_frame s _).keep .objs rfl
  · refine ⟨_, exec_tableSwitch ready, ?_, getObj_setObj_self _ _ _⟩
    exact congrArg Table.switchDue (getTable_setTable_self s n _)
  · obtain ⟨table, state, version⟩ := switchTable_built built
    refine ⟨_, exec_tableVersionSwitch hp asked due fresh, ?_, ?_, state, version⟩
    · rw [table]
    · rw [table]

end Sys2Proof.Machine

/-! Image slots: the load of an image, its failures and its placing (R141, R143 to R145). -/

namespace Sys2Proof.Machine

open Sys2Proof

variable {s t u : State}

/-! ### What a frame keeps -/

theorem Frame.getObj {w : List Part} (f : Frame w s t) (h : w.contains .objs = false) (a : Nat) : getObj t a = getObj s a :=
  congrArg (fun objs => (look objs a).getD (objDefault a)) (f.keep .objs h)

theorem Frame.getImg {w : List Part} (f : Frame w s t) (h : w.contains .images = false) (n : Nat) : getImg t n = getImg s n :=
  congrArg (look · n) (f.keep .images h)

/-- What is logged from a state on which only other parts have changed is logged from the state before. -/
theorem Frame.logged {w : List Part} {code detail : Nat} (f : Frame w s u) (hl : w.contains .errorLog = false)
    (ht : w.contains .turnNo = false) (h : Logged u t code detail) : Logged s t code detail := by
  obtain ⟨log, tally⟩ := f.keep .errorLog hl
  have turn : u.turn.no = s.turn.no := f.keep .turnNo ht
  unfold Logged at h ⊢
  rw [h, log, tally, turn]

@[simp] theorem look_del_self {κ α : Type} [DecidableEq κ] (l : List (κ × α)) (k : κ) : look (del l k) k = none := by
  induction l with
  | nil => rfl
  | cons p l ih =>
    obtain ⟨a, v⟩ := p
    by_cases h : a = k
    · simpa [del, h] using ih
    · simpa [del, look, h] using ih

/-! ### The objects of a slot -/

/-- The objects of a slot are distinct. -/
theorem slot_field_ne (n : Nat) {a b : Nat} (h : a ≠ b) : (0x4D10 + n) * 256 + a ≠ (0x4D10 + n) * 256 + b :=
  fun e => h (Nat.add_left_cancel e)

/-- Writing one object of a slot leaves the others. -/
theorem getObj_setObj_slot (s : State) (n : Nat) {a b : Nat} (v : Nat) (h : b ≠ a) :
    getObj (setObj s ((0x4D10 + n) * 256 + a) v) ((0x4D10 + n) * 256 + b) = getObj s ((0x4D10 + n) * 256 + b) :=
  getObj_setObj_ne s v (slot_field_ne n h)

/-! ### LOAD (R143) -/

theorem exec_imageLoad {n : Nat} (idle : slotState s n = 0 ∨ slotState s n = 3) :
    exec (.imageLoad n) s =
      .next (setObj (setObj (setObj s (Obj.slot_LOAD n) 1) (Obj.slot_LOAD_STATE n) 1) (Obj.slot_FAIL_CAUSE n) 0) :=
  congrArg Host.Outcome.next (if_pos idle)

/-! ### A load that fails (R144) -/

theorem slotFail_reads (s : State) (n cause : Nat) :
    slotState (slotFail s n cause) n = 3 ∧ getObj (slotFail s n cause) (Obj.slot_FAIL_CAUSE n) = cause ∧
      getImg (slotFail s n cause) n = none := by
  unfold slotFail slotState getImg
  simp [getObj_setObj_slot]

theorem slotFail_logged (s : State) (n cause : Nat) : Logged s (slotFail s n cause) 0x3013 (n + 16 * cause) :=
  postEvent_logged _ _ _

/-! ### The fetch of an image (R85, R143) -/

theorem exec_imageLoadComplete_waits {n : Nat} {f : Fetch} {peers : List (Nat × Nat)} (waits : slotState s n ≠ 1 ∨
      (getImg s n).isSome = true ∨ sourceReach s (getObj s (Obj.slot_SRC_LOC n)) (getObj s (Obj.slot_SRC_ADDR n)) f = false) :
    exec (.imageLoadComplete n f peers) s = .next s := congrArg Host.Outcome.next (if_pos waits)

/-- A load of slot `n` whose fetch can have ended as `f` says. -/
structure Fetches (s : State) (n : Nat) (f : Fetch) : Prop where
  loading : slotState s n = 1
  empty : getImg s n = none
  reached : sourceReach s (getObj s (Obj.slot_SRC_LOC n)) (getObj s (Obj.slot_SRC_ADDR n)) f = true

theorem Fetches.not_waits {n : Nat} {f : Fetch} (h : Fetches s n f) : ¬(slotState s n ≠ 1 ∨ (getImg s n).isSome = true ∨
    sourceReach s (getObj s (Obj.slot_SRC_LOC n)) (getObj s (Obj.slot_SRC_ADDR n)) f = false) := by
  simp [h.loading, h.empty, h.reached]

theorem Fetches.exec_failed {n : Nat} (h : Fetches s n .failed) (peers : List (Nat × Nat))
    (last : getObj s Obj.FETCH_RETRY_LIMIT ≤ lookD s.host.tries (Obj.slot_LOAD n) 0 + 1) :
    exec (.imageLoadComplete n .failed peers) s = .next (slotFail (loadAttempt s (Obj.slot_LOAD n)).1 n 1) :=
  congrArg Host.Outcome.next ((if_neg h.not_waits).trans (if_pos (loadAttempt_last last)))

/-- The state in which the image of a slot has been fetched. -/
def imageFetched (s : State) (n : Nat) : State := loadFetched s (Obj.slot_LOAD n)

theorem imageFetched_frame (s : State) (n : Nat) : Frame [.rings] s (imageFetched s n) := loadFetched_frame s _

/-- The state after the bytes of an image have been read: a failed load, or the image placed. -/
def imageRead (s : State) (n : Nat) (b : List Byte) (peers : List (Nat × Nat)) : State :=
  match parseImage b with
  | .error c => slotFail s n c
  | .ok (role, img) => placeImage s n role img b peers

theorem imageRead_error {n c : Nat} {b : List Byte} (bad : parseImage b = .error c) (peers : List (Nat × Nat)) :
    imageRead s n b peers = slotFail s n c := by
  unfold imageRead
  rw [bad]

theorem imageRead_ok {n role : Nat} {img : Image} {b : List Byte} (good : parseImage b = .ok (role, img))
    (peers : List (Nat × Nat)) : imageRead s n b peers = placeImage s n role img b peers := by
  unfold imageRead
  rw [good]

theorem Fetches.exec_bytes {n : Nat} {b : List Byte} (h : Fetches s n (.bytes b)) (inHost : getObj s (Obj.slot_SRC_LOC n) = 0)
    (peers : List (Nat × Nat)) :
    exec (.imageLoadComplete n (.bytes b) peers) s = .next (imageRead (imageFetched s n) n b peers) := by
  refine congrArg Host.Outcome.next ((if_neg h.not_waits).trans ?_)
  rw [inHost]
  rfl

/-! ### Placing an image (R143 to R145) -/

/-- The state in which ROLE and LAYERS of a slot describe its image. -/
def described (s : State) (n role : Nat) (img : Image) : State :=
  setObj (setObj s (Obj.slot_ROLE n) role) (Obj.slot_LAYERS n) img.layers.length

theorem role_described (s : State) (n role : Nat) (img : Image) :
    getObj (described s n role img) (Obj.slot_ROLE n) = role := by
  rw [described, getObj_setObj_slot _ _ _ (by decide), getObj_setObj_self]

theorem layers_described (s : State) (n role : Nat) (img : Image) :
    getObj (described s n role img) (Obj.slot_LAYERS n) = img.layers.length := getObj_setObj_self _ _ _

theorem modelQuota_described (s : State) (n role : Nat) (img : Image) : modelQuota (described s n role img) = modelQuota s := by
  have apart : ∀ k, Obj.MODEL_QUOTA_GIB ≠ (0x4D10 + n) * 256 + k := fun k => by
    unfold Obj.MODEL_QUOTA_GIB
    omega
  unfold modelQuota described
  rw [getObj_setObj_ne _ _ (apart _), getObj_setObj_ne _ _ (apart _)]

/-- The image as its slot holds it: its layers under the slot's PRECISION_MODE (R177). -/
def heldImage (s : State) (n : Nat) (img : Image) : Image :=
  { img with layers := modeLayers (getObj s (Obj.slot_PRECISION_MODE n)) img.layers }

theorem heldImage_described (s : State) (n role : Nat) (img k : Image) :
    heldImage (described s n role k) n img = heldImage s n img := by
  unfold heldImage described
  rw [getObj_setObj_ne _ _ (by unfold Obj.slot_PRECISION_MODE Obj.slot_LAYERS; omega),
    getObj_setObj_ne _ _ (by unfold Obj.slot_PRECISION_MODE Obj.slot_ROLE; omega)]

/-- Whether a layer is larger than a quota. -/
def largerThan (quota : Nat) (img : Image) : Bool := img.layers.any fun l => decide (quota < l.wBytes + l.altBytes)

theorem placeImage_tooLarge {n role : Nat} {img : Image} (large : largerThan (modelQuota s) (heldImage s n img) = true)
    (b : List Byte) (peers : List (Nat × Nat)) : placeImage s n role img b peers = slotFail (described s n role img) n 5 := by
  rw [← heldImage_described s n role img img, ← modelQuota_described s n role img] at large
  exact if_pos large

/-- The state in which slot `n` holds the image `k` whole, with a copy in flash and in the cache. -/
def heldWhole (s : State) (n : Nat) (k : Image) (b : List Byte) : State :=
  shareImage (keepImage (setImg s n { k with readyDue := dueTurn s }) n b) k

theorem placeImage_whole {n role : Nat} {img : Image} (fits : largerThan (modelQuota s) (heldImage s n img) = false)
    (room : layersBytes (heldImage s n img).layers + 65536 ≤ modelQuota s - quotaUsed s) (b : List Byte)
    (peers : List (Nat × Nat)) :
    placeImage s n role img b peers =
      setObj (setObj (heldWhole (described s n role img) n (heldImage s n img) b) (Obj.slot_SEGMENTS n) 1)
        (Obj.slot_BYTES_LOCAL n) (layersBytes (heldImage s n img).layers + 65536) := by
  rw [← heldImage_described s n role img img] at fits room ⊢
  rw [← modelQuota_described s n role img] at fits
  exact (if_neg (ne_true_of_eq_false fits)).trans (if_pos room)

theorem heldWhole_reads (s : State) (n : Nat) (k : Image) (b : List Byte) :
    getImg (heldWhole s n k b) n = some { k with readyDue := dueTurn s } ∧ look (heldWhole s n k b).flash.images n = some b ∧
      ∀ a, getObj (heldWhole s n k b) a = getObj s a := by
  have shared := shareImage_frame (keepImage (setImg s n { k with readyDue := dueTurn s }) n b) k
  refine ⟨?_, ?_, fun a => shared.getObj rfl a⟩
  · exact (shared.getImg rfl n).trans (getImg_setImg_self s n _)
  · have flash := shared.keep .flash rfl
    exact (congrArg (fun f => look f.images n) flash).trans (look_put_self _ _ _)

/-- A slot that holds its image whole: ROLE, LAYERS and BYTES_LOCAL read what the image takes (R143, R145). -/
theorem placeImage_whole_reads {n role : Nat} {img : Image} (fits : largerThan (modelQuota s) (heldImage s n img) = false)
    (room : layersBytes (heldImage s n img).layers + 65536 ≤ modelQuota s - quotaUsed s) (b : List Byte)
    (peers : List (Nat × Nat)) :
    getImg (placeImage s n role img b peers) n = some { heldImage s n img with readyDue := dueTurn s } ∧
      getObj (placeImage s n role img b peers) (Obj.slot_ROLE n) = role ∧
      getObj (placeImage s n role img b peers) (Obj.slot_LAYERS n) = img.layers.length ∧
      look (placeImage s n role img b peers).flash.images n = some b ∧
      getObj (placeImage s n role img b peers) (Obj.slot_BYTES_LOCAL n) = layersBytes (heldImage s n img).layers + 65536 := by
  obtain ⟨image, copy, objs⟩ := heldWhole_reads (described s n role img) n (heldImage s n img) b
  rw [placeImage_whole fits room]
  refine ⟨image, ?_, ?_, copy, getObj_setObj_self _ _ _⟩
  · rw [getObj_setObj_slot _ _ _ (by decide), getObj_setObj_slot _ _ _ (by decide), objs, role_described]
  · rw [getObj_setObj_slot _ _ _ (by decide), getObj_setObj_slot _ _ _ (by decide), objs, layers_described]

/-- Settles O28: the load of a slot by how its fetch ends, and the image by its checks and by what its layers need (log entries 7,
22 and 77). -/
theorem imagesLoad : Obligations.ImagesLoad := by
  intro n s
  refine ⟨fun idle => ⟨_, exec_imageLoad idle, ?_⟩, fun f peers => exec_imageLoadComplete_waits,
    fun loading empty => ⟨fun peers reached last => ?_, fun peers b inHost reached => ?_⟩⟩
  · simp [slotState, getObj_setObj_slot]
  · have h : Fetches s n .failed := ⟨loading, empty, reached⟩
    obtain ⟨state, cause, image⟩ := slotFail_reads (loadAttempt s (Obj.slot_LOAD n)).1 n 1
    exact ⟨_, h.exec_failed peers last, state, cause, image, (loadAttempt_frame s _).logged rfl rfl (slotFail_logged _ n 1)⟩
  · have h : Fetches s n (.bytes b) := ⟨loading, empty, by rwa [inHost]⟩
    have ended := h.exec_bytes inHost peers
    refine ⟨fun c bad => ?_, fun role img good => ?_⟩
    · rw [imageRead_error bad] at ended
      obtain ⟨state, cause, -⟩ := slotFail_reads (imageFetched s n) n c
      exact ⟨_, ended, state, cause, (imageFetched_frame s n).logged rfl rfl (slotFail_logged _ n c)⟩
    · rw [imageRead_ok good] at ended
      refine ⟨fun large => ?_, fun fits room => ⟨_, ended, placeImage_whole_reads (s := imageFetched s n) fits room b peers⟩⟩
      rw [placeImage_tooLarge (s := imageFetched s n) large] at ended
      obtain ⟨state, cause, -⟩ := slotFail_reads (described (imageFetched s n) n role img) n 5
      exact ⟨_, ended, state, cause, slotFail_logged (described (imageFetched s n) n role img) n 5⟩

end Sys2Proof.Machine

/-! The placement of a spread encoder, as it is asked of the ledger (R146, R149, R178). -/

namespace Sys2Proof.Machine

open Sys2Proof

variable {s : State}

/-- Requests that do not rest on the ledger's own are asked in the order of the list. -/
theorem foldl_ledgerRequest {α : Type} (ask : State → α → LedgerRec) (steady : ∀ s r a, ask (ledgerRequest s r) a = ask s a)
    (l : List α) (s : State) : l.foldl (fun u a => ledgerRequest u (ask u a)) s =
      { s with ledger := { s.ledger with outReqs := s.ledger.outReqs ++ l.map (ask s) } } := by
  induction l generalizing s with
  | nil => simp
  | cons a l ih =>
    have same : ask (ledgerRequest s (ask s a)) = ask s := funext fun b => steady s _ b
    rw [List.foldl_cons, ih, same, List.map_cons, List.append_cons]
    rfl

/-- What is asked of the ledger for a segment: its holders, with the watch settings of its slot. -/
def placementAsked (n : Nat) (s : State) (g : SegMap) : LedgerRec :=
  .segment n g.seg g.primary g.replica (watchSettings s n)

/-- Settles O29: every segment that is not yet placed is asked for, once none has a copy under way (log entry 33). -/
theorem placementIsProposed : Obligations.PlacementIsProposed := by
  intro n img s image
  have placed : exec (.segmentPlacementComplete n) s = .next (if (img.segs.any fun g => !g.unsent.isEmpty) = true then s
      else (img.segs.filter fun g => !g.placed).foldl (fun u g => ledgerRequest u (placementAsked n u g)) s) := by
    refine congrArg Host.Outcome.next ?_
    rw [image]
    rfl
  refine ⟨fun copied => ⟨_, placed, ?_⟩, fun ⟨g, hg, copying⟩ => ?_⟩
  · have none_left : (img.segs.any fun g => !g.unsent.isEmpty) = false :=
      List.any_eq_false.mpr fun g hg => by simp [copied g hg]
    rw [none_left, if_neg Bool.false_ne_true]
    exact foldl_ledgerRequest (placementAsked n) (fun _ _ _ => rfl) _ s
  · have some_left : (img.segs.any fun g => !g.unsent.isEmpty) = true :=
      List.any_eq_true.mpr ⟨g, hg, by simpa using copying⟩
    rw [placed, some_left, if_pos rfl]

end Sys2Proof.Machine

/-! An encoder in its home segment: the turn's run, and what it leaves in the queries (R135, R139, R147, R154, R156). -/

namespace Sys2Proof.Machine

open Sys2Proof

variable {s t : State}

/-! ### What the queries' vectors rest on -/

theorem Frame.dimsOf {w : List Part} (f : Frame w s t) (h : w.contains .objs = false) (c : Nat) : dimsOf t c = dimsOf s c := by
  unfold Machine.dimsOf isHamming sketchBitsOf
  rw [f.getObj h, f.getObj h, f.getObj h]

theorem Frame.countedTurn {w : List Part} (f : Frame w s t) (hn : w.contains .turnNo = false) (hp : w.contains .phase = false) :
    countedTurn t = countedTurn s := by
  have no : t.turn.no = s.turn.no := f.keep .turnNo hn
  have phase : t.turn.phase = s.turn.phase := f.keep .phase hp
  unfold Machine.countedTurn inTime
  rw [no, phase]

/-! ### Queries that slip (R56, R156) -/

theorem map_updFirst {α β : Type} {p : α → Bool} {f : α → α} {g : α → β} (hf : ∀ a, g (f a) = g a) (l : List α) :
    (updFirst p f l).map g = l.map g := by
  induction l with
  | nil => rfl
  | cons a l ih =>
    cases ha : p a with
    | true => simp [updFirst, ha, hf]
    | false => simp [updFirst, ha, ih]

theorem slipQuery_handles (s : State) (qh : Nat) : (slipQuery s qh).queries.map (·.qh) = s.queries.map (·.qh) := by
  unfold slipQuery
  split
  · rfl
  · split
    · rfl
    · exact map_updFirst (f := fun q : Query => { q with slip := true }) (fun _ => rfl) s.queries

/-- Slips do not change which halves compose. -/
theorem composes_foldl_slipQuery (l : List Query) (s : State) (h : Nat) :
    composes (l.foldl (fun u q => slipQuery u q.qh) s) h = composes s h := by
  have slip : ∀ (u : State) (q : Query), (slipQuery u q.qh).turn = u.turn := fun u q => by rw [slipQuery_eq]
  have turn := foldl_keeps (fun u (q : Query) => slipQuery u q.qh) State.turn slip l s
  unfold composes halfStalled boardOf
  rw [turn]

/-- The queries of a slot's segment 0 whose half composes in this turn. -/
def composedReady (s : State) (slot : Nat) : List Query := (segmentReady s slot).filter fun q => composes s q.half

/-- The state in which the others have slipped. -/
def othersSlipped (s : State) (slot : Nat) : State :=
  ((segmentReady s slot).filter fun q => !composes s q.half).foldl (fun u q => slipQuery u q.qh) s

theorem othersSlipped_frame (s : State) (slot : Nat) : Frame [.counters, .queries] s (othersSlipped s slot) :=
  (Frame.refl _ _).foldl fun u q => slipQuery_frame u q.qh

theorem othersSlipped_handles (s : State) (slot : Nat) : (othersSlipped s slot).queries.map (·.qh) = s.queries.map (·.qh) :=
  foldl_keeps (fun u (q : Query) => slipQuery u q.qh) (fun u => u.queries.map (·.qh)) (fun u q => slipQuery_handles u q.qh) _ s

/-- A query that runs is still there once the others have slipped. -/
theorem mem_othersSlipped_of_ready {slot : Nat} {q : Query} (h : q ∈ composedReady s slot) :
    ∃ k ∈ (othersSlipped s slot).queries, k.qh = q.qh := by
  have here : q ∈ s.queries := (List.mem_filter.mp (List.mem_filter.mp h).1).1
  have handle : q.qh ∈ (othersSlipped s slot).queries.map (·.qh) := othersSlipped_handles s slot ▸ List.mem_map_of_mem here
  exact List.mem_map.mp handle

/-! ### ENCODER_SEGMENT of a home segment (R147) -/

theorem exec_encoderSegment {slot : Nat} {img : Image} (image : getImg s slot = some img) (loaded : slotState s slot = 2)
    (bad : Option Nat) : exec (.encoderSegment slot 0 bad) s = .next (runHomeSegment s slot img bad) := by
  refine congrArg Host.Outcome.next ((if_pos rfl).trans ?_)
  rw [image]
  exact if_pos loaded

/-- The run of an encoder that is not spread, on the queries whose half composes. -/
def encoderRun (s : State) (slot : Nat) (img : Image) (bad : Option Nat) : Except Nat Ran :=
  let u := othersSlipped s slot
  let sample := sampleRows u .composer (getObj u (Obj.slot_PRECISION_MODE slot)) (getObj u (Obj.slot_SAMPLE_ROWS slot))
  runLayers slot img (fun _ _ _ => f0) bad sample img.layers 0 u [(0xFFFF, (composedReady s slot).map (·.input))]

/-- An encoder that is not spread and may run in this turn. -/
structure MayRun (s : State) (slot : Nat) (img : Image) : Prop where
  whole : img.segs = []
  fresh : img.ranAt ≠ s.turn.no + 1
  sound : slotBad s slot = false

/-- The state after a run, with its layers watched. -/
def watchedRun (slot count : Nat) (r : Ran) : State :=
  (List.range count).foldl (fun s li => watchLayer slot s li (look r.sampled li)) r.s

theorem watchedRun_frame (slot count : Nat) (r : Ran) :
    Frame [.counters, .queues, .rings, .images, .errorLog] r.s (watchedRun slot count r) :=
  (Frame.refl _ _).foldl fun u li => watchLayer_frame slot u li _

/-- The state in which a slot's image has run in this turn. -/
def markRan (s : State) (slot : Nat) : State :=
  match getImg s slot with
  | none => s
  | some i => setImg s slot { i with ranAt := s.turn.no + 1 }

theorem markRan_frame (s : State) (slot : Nat) : Frame [.images] s (markRan s slot) := by
  unfold markRan
  split
  · exact Frame.refl _ _
  · exact setImg_frame _ _ _

/-- The state after a run: its outputs taken as vectors, or the error of the layer whose weights are bad. -/
def afterRun (s : State) (slot : Nat) (img : Image) : Except Nat Ran → State
  | .error li => markError (weightError (othersSlipped s slot) slot li) ((composedReady s slot).map (·.qh))
  | .ok r => takeVectors (markRan (watchedRun slot img.layers.length r) slot) (composedReady s slot)
      ((look r.outs (img.layers.length - 1)).getD [])

theorem runHomeSegment_whole {slot : Nat} {img : Image} (whole : img.segs = []) (fresh : img.ranAt ≠ s.turn.no + 1)
    (sound : slotBad s slot = false) (bad : Option Nat) :
    runHomeSegment s slot img bad = if composedReady s slot = [] then othersSlipped s slot
      else afterRun s slot img (encoderRun s slot img bad) := by
  have runs : ¬(img.ranAt = s.turn.no + 1 ∨ slotBad s slot = true) := by simp [fresh, sound]
  have home : homeLayers img = img.layers := by
    unfold homeLayers
    rw [whole]
  unfold runHomeSegment
  rw [if_neg runs, home]
  simp only [if_true, composes_foldl_slipQuery]
  rfl

/-! ### What a run leaves (R139, R154) -/

theorem mem_takeVectors {qs : List Query} {last : Batch} {q : Query} {p : Query × List (List Flt)} (here : q ∈ s.queries)
    (ran : (qs.zip last).find? (fun x => x.1.qh == q.qh) = some p) :
    { q with vec := some (encoderVec (dimsOf s q.coll) p.2), seg := 1, ready := countedTurn s } ∈ (takeVectors s qs last).queries := by
  refine List.mem_map.mpr ⟨q, here, ?_⟩
  rw [ran]

theorem mem_markError {qhs : List Nat} {q : Query} (here : q ∈ s.queries) (marked : q.qh ∈ qhs) :
    { q with error := true } ∈ (markError s qhs).queries :=
  List.mem_map.mpr ⟨q, here, if_pos (List.contains_iff_mem.mpr marked)⟩

theorem weightError_logged (s : State) (slot li : Nat) : Logged s (weightError s slot li) 0x3014 (slot + 16 * li) := by
  have posted := postEvent_logged s 0x3014 (slot + 16 * li)
  unfold weightError
  dsimp only
  split
  · exact posted
  · refine posted.of_errorLog_eq ?_
    obtain ⟨log, -⟩ := (readBlocks_frame _ (bump (postEvent s 0x3014 (slot + 16 * li)) Obj.WEIGHT_ERRORS 1) li).keep .errorLog rfl
    exact log

theorem encoderRun_frame {slot : Nat} {img : Image} {bad : Option Nat} {r : Ran} (ran : encoderRun s slot img bad = .ok r) :
    Frame [.counters, .streams, .free] (othersSlipped s slot) r.s := runLayers_frame _ _ _ _ _ _ _ _ _ _ ran

/-- The state whose queries take the vectors differs from the one in which the others have slipped in no query, object or turn. -/
theorem ranState_frame {slot : Nat} {img : Image} {bad : Option Nat} {r : Ran} (ran : encoderRun s slot img bad = .ok r) :
    Frame [.counters, .queues, .rings, .images, .streams, .errorLog, .free] (othersSlipped s slot)
      (markRan (watchedRun slot img.layers.length r) slot) := by
  refine Frame.then ?_ (markRan_frame _ _) rfl
  refine Frame.then ?_ (watchedRun_frame _ _ _) rfl
  exact (Frame.refl _ _).then (encoderRun_frame ran) rfl

theorem afterRun_ok {slot : Nat} {img : Image} {bad : Option Nat} {r : Ran} (ran : encoderRun s slot img bad = .ok r) {q : Query}
    (here : q ∈ (othersSlipped s slot).queries) {p : Query × List (List Flt)}
    (own : ((composedReady s slot).zip ((look r.outs (img.layers.length - 1)).getD [])).find? (fun x => x.1.qh == q.qh) = some p) :
    { q with vec := some (encoderVec (dimsOf s q.coll) p.2), seg := 1, ready := countedTurn s } ∈
      (afterRun s slot img (.ok r)).queries := by
  have slipped := othersSlipped_frame s slot
  have frame := ranState_frame ran
  have queries : _ = (othersSlipped s slot).queries := frame.keep .queries rfl
  have taken := mem_takeVectors (s := markRan (watchedRun slot img.layers.length r) slot) (queries ▸ here) own
  rw [frame.dimsOf rfl, slipped.dimsOf rfl, frame.countedTurn rfl rfl, slipped.countedTurn rfl rfl] at taken
  exact taken

theorem afterRun_error (s : State) (slot : Nat) (img : Image) (li : Nat) :
    Logged s (afterRun s slot img (.error li)) 0x3014 (slot + 16 * li) ∧
      ∀ q ∈ composedReady s slot, ∃ k ∈ (afterRun s slot img (.error li)).queries, k.qh = q.qh ∧ k.error = true := by
  refine ⟨(othersSlipped_frame s slot).logged rfl rfl (weightError_logged _ slot li), fun q ready => ?_⟩
  obtain ⟨k, here, handle⟩ := mem_othersSlipped_of_ready ready
  have queries : (weightError (othersSlipped s slot) slot li).queries = (othersSlipped s slot).queries :=
    (weightError_frame _ slot li).keep .queries rfl
  have marked : k.qh ∈ (composedReady s slot).map (·.qh) := handle ▸ List.mem_map_of_mem ready
  exact ⟨_, mem_markError (queries ▸ here) marked, handle, rfl⟩

/-- Settles O30: a slot that may not run, and a run by whether a query is ready and how it ends (log entries 69 and 79). -/
theorem encoderGivesVectors : Obligations.EncoderGivesVectors := by
  intro slot img bad s image loaded whole
  have exec_eq := exec_encoderSegment image loaded bad
  refine ⟨fun idle => exec_eq.trans (congrArg _ (if_pos idle)), fun fresh sound => ?_⟩
  rw [runHomeSegment_whole whole fresh sound] at exec_eq
  refine ⟨fun none_ready => ⟨_, exec_eq, if_pos none_ready⟩, fun some_ready => ?_⟩
  replace exec_eq := exec_eq.trans (congrArg _ (if_neg some_ready))
  refine ⟨fun r ran => ⟨_, exec_eq, fun q here p own => ?_⟩, fun li failed => ⟨_, exec_eq, ?_⟩⟩
  · rw [show encoderRun s slot img bad = .ok r from ran]
    exact ⟨_, afterRun_ok ran here own, rfl⟩
  · rw [show encoderRun s slot img bad = .error li from failed]
    exact afterRun_error s slot img li

end Sys2Proof.Machine

/-! UNLOAD: what its test decides (R152). -/

namespace Sys2Proof.Machine

open Sys2Proof

variable {s : State}

/-- The state in which a slot that holds an image awaits the test of UNLOAD. -/
def awaitingTest (s : State) (n : Nat) (img : Image) : State :=
  setObj (setImg s n { img with testDue := true }) (Obj.slot_UNLOAD n) 1

/-- The test reads the service fields after UNLOAD has been written. -/
theorem exec_unload {n : Nat} {img : Image} (image : getImg s n = some img) :
    exec (.unload n) s = .next (if slotNamed (awaitingTest s n img) n = true
      then setObj (setImg (awaitingTest s n img) n { img with testDue := false }) (Obj.slot_UNLOAD n) 0
      else setImg (awaitingTest s n img) n { img with testDue := false, freeing := true }) := by
  have written : writeUnload s n = awaitingTest s n img := by
    unfold writeUnload
    rw [image]
    rfl
  have waits : getImg (awaitingTest s n img) n = some { img with testDue := true } := getImg_setImg_self s n _
  refine congrArg Host.Outcome.next ?_
  unfold testUnload
  rw [written, waits]
  dsimp only
  rw [Bool.not_true, if_neg Bool.false_ne_true]

theorem exec_unload_unnamed {n : Nat} {img : Image} (image : getImg s n = some img)
    (unnamed : slotNamed (awaitingTest s n img) n = false) :
    exec (.unload n) s = .next (setImg (awaitingTest s n img) n { img with testDue := false, freeing := true }) := by
  rw [exec_unload image, unnamed, if_neg Bool.false_ne_true]

/-! ### A slot number beyond the sixteen slots

The address of UNLOAD of slot 240 is that of ENCODER_IMAGE of collection 0. -/

theorem findRow_mem {idx sub : Nat} {l : List ObjRow} {r : ObjRow} (h : findRow idx sub l = some r) : r ∈ l := by
  induction l with
  | nil => exact absurd h (Option.some_ne_none r).symm
  | cons x l ih =>
    unfold findRow at h
    split at h
    · injection h with h
      exact h ▸ List.mem_cons_self
    · exact List.mem_cons_of_mem _ (ih h)

theorem objRowsAt_models {idx : Nat} (lo : 0x4C00 ≤ idx) (hi : idx < 0x5000) :
    objRowsAt idx = objs05a ++ objs05b ++ objs06 := by
  rw [objRowsAt, if_neg (by omega), if_neg (by omega), if_neg (by omega), if_neg (by omega), if_neg (by omega),
    if_neg (by omega), if_neg (by omega), if_pos hi]

theorem models_dflt_ne_240 : ∀ r ∈ objs05a ++ objs05b ++ objs06, r.dflt ≠ 240 := by decide

/-- No object among those of chapters 05 and 06 has the default 240. -/
theorem objDefault_ne_240 {a : Nat} (lo : 0x4C0000 ≤ a) (hi : a < 0x500000) : objDefault a ≠ 240 := by
  rw [objDefault, if_neg (by omega), rowAt, objRow]
  split
  · decide
  · rw [if_neg (by omega), objRowsAt_models (by omega) (by omega)]
    cases hr : findRow (a / 256) (a % 256) (objs05a ++ objs05b ++ objs06) with
    | none => decide
    | some r => exact models_dflt_ne_240 r (findRow_mem hr)

/-- The encoder of collection 0 is in slot 240. -/
def slot240Named : State :=
  { State.reset with
    dict := { State.reset.dict with objs := [(Obj.coll_ENCODER_IMAGE 0, 240)] }, images := [(240, default)] }

theorem slotNamed_slot240Named : slotNamed slot240Named 240 = true :=
  List.any_eq_true.mpr ⟨0, List.mem_range.mpr (by decide), rfl⟩

theorem getObj_awaitingTest_ne_240 {a : Nat} (lo : 0x4C0000 ≤ a) (hi : a < 0x500000) :
    getObj (awaitingTest slot240Named 240 default) a ≠ 240 := by
  by_cases h : a = Obj.slot_UNLOAD 240
  · rw [h, awaitingTest, getObj_setObj_self]
    decide
  · have unset : getObj slot240Named a = objDefault a := congrArg (Option.getD · (objDefault a)) (if_neg (Ne.symm h))
    rw [awaitingTest, getObj_setObj_ne _ _ h]
    exact fun named => objDefault_ne_240 lo hi (unset.symm.trans named)

/-- Writing UNLOAD of slot 240 takes the name away: no collection names the slot when UNLOAD is tested. -/
theorem slotNamed_awaitingTest : slotNamed (awaitingTest slot240Named 240 default) 240 = false := by
  refine List.any_eq_false.mpr fun c hc => ?_
  have small : c < 4096 := List.mem_range.mp hc
  have encoder := getObj_awaitingTest_ne_240 (a := Obj.coll_ENCODER_IMAGE c)
    (by unfold Obj.coll_ENCODER_IMAGE; omega) (by unfold Obj.coll_ENCODER_IMAGE; omega)
  have rescorer := getObj_awaitingTest_ne_240 (a := Obj.coll_RESCORER_IMAGE c)
    (by unfold Obj.coll_RESCORER_IMAGE; omega) (by unfold Obj.coll_RESCORER_IMAGE; omega)
  simp [encoder, rescorer]

/-- Refutes O31: the statement is about every slot number, and the model does not clamp the one that a command brings. Where
collection 0 names slot 240, UNLOAD = 1 of that slot is written over the collection's ENCODER_IMAGE; the test then finds the
slot unnamed and UNLOAD stays 1, where the third clause has it read back 0. The sixteen slots of a node (Table 6.7) have no
address in common with a collection. -/
theorem not_slotsReloadUnloadAndFree : ¬ Obligations.SlotsReloadUnloadAndFree := by
  intro h
  obtain ⟨-, slots⟩ := h
  have image : getImg slot240Named 240 = some default := rfl
  obtain ⟨-, -, named, -⟩ := slots 240 0 default slot240Named image
  obtain ⟨t, ht, cleared, -⟩ := named slotNamed_slot240Named
  have freed := Host.Outcome.next.inj ((exec_unload_unnamed image slotNamed_awaitingTest).symm.trans ht)
  have kept : getObj t (Obj.slot_UNLOAD 240) = 1 := freed ▸ getObj_setObj_self _ _ _
  exact absurd (kept.symm.trans cleared) Nat.one_ne_zero

end Sys2Proof.Machine

/-! The end of a statistics epoch (R174, R177, R178, R456). -/

namespace Sys2Proof.Machine

open Sys2Proof

variable {s : State}

/-! ### Members of a map and of a list after an update -/

section Members

variable {κ α : Type} [DecidableEq κ]

theorem mem_of_look {l : List (κ × α)} {k : κ} {v : α} (h : look l k = some v) : (k, v) ∈ l := by
  induction l with
  | nil => exact absurd h (Option.some_ne_none v).symm
  | cons p l ih =>
    unfold look at h
    split at h
    · next same => exact List.mem_cons.mpr (.inl (Prod.ext same.symm (Option.some.inj h).symm))
    · exact List.mem_cons_of_mem p (ih h)

theorem mem_put {l : List (κ × α)} {k : κ} {v : α} {p : κ × α} (h : p ∈ put l k v) : p = (k, v) ∨ p ∈ l := by
  induction l with
  | nil => exact .inl (List.mem_singleton.mp h)
  | cons q l ih =>
    unfold put at h
    split at h
    · exact (List.mem_cons.mp h).imp_right (List.mem_cons_of_mem q)
    · obtain rfl | later := List.mem_cons.mp h
      · exact .inr List.mem_cons_self
      · exact (ih later).imp_right (List.mem_cons_of_mem q)

theorem mem_atIdx {f : α → α} {i : Nat} {l : List α} {a : α} (h : a ∈ atIdx f i l) : a ∈ l ∨ ∃ b ∈ l, a = f b := by
  induction l generalizing i with
  | nil => simp [atIdx] at h
  | cons b l ih =>
    cases i with
    | zero =>
      obtain rfl | later := List.mem_cons.mp h
      · exact .inr ⟨b, List.mem_cons_self, rfl⟩
      · exact .inl (List.mem_cons_of_mem b later)
    | succ i =>
      obtain rfl | later := List.mem_cons.mp h
      · exact .inl List.mem_cons_self
      · exact (ih later).imp (List.mem_cons_of_mem b) fun ⟨c, hc, e⟩ => ⟨c, List.mem_cons_of_mem b hc, e⟩

end Members

/-! ### Noted events (R177, R178) -/

/-- No layer of the image has an event 0x7022 noted for the epoch. -/
def Image.Unnoted (img : Image) : Prop := ∀ l ∈ img.layers, l.noted = false

/-- No slot has a layer with a noted event. -/
def Unnoted (s : State) : Prop := ∀ p ∈ s.images, p.2.Unnoted

theorem Image.unnoted_publish (img : Image) : Image.Unnoted { img with layers := img.layers.map Layer.publish } := by
  intro l hl
  obtain ⟨k, -, rfl⟩ := List.mem_map.mp hl
  rfl

theorem Image.Unnoted.atIdx {img : Image} (h : img.Unnoted) {f : Layer → Layer} (hf : ∀ l, (f l).noted = l.noted) (i : Nat) :
    Image.Unnoted { img with layers := atIdx f i img.layers } := by
  intro l hl
  obtain here | ⟨k, hk, rfl⟩ := mem_atIdx hl
  · exact h l here
  · exact (hf k).trans (h k hk)

theorem Unnoted.getImg {n : Nat} {img : Image} (h : Unnoted s) (image : getImg s n = some img) : img.Unnoted :=
  h _ (mem_of_look image)

theorem Unnoted.setImg {n : Nat} {img : Image} (h : Unnoted s) (himg : img.Unnoted) : Unnoted (setImg s n img) := by
  intro p hp
  obtain rfl | other := mem_put hp
  · exact himg
  · exact h p other

/-! ### The statistics that are published (R174, R178) -/

/-- Statistics that another node sends of a layer change its set and leave its note. -/
theorem Unnoted.takeRemote (h : Unnoted s) (x : (Nat × Nat) × LayerStats) : Unnoted (takeRemote s x) := by
  unfold Machine.takeRemote
  dsimp only
  split
  · exact h
  · next image =>
    refine Unnoted.setImg h ((Unnoted.getImg h image).atIdx (fun _ => ?_) x.1.2)
    rfl

theorem takeRemote_turn (s : State) (x : (Nat × Nat) × LayerStats) : (takeRemote s x).turn = s.turn := by
  unfold takeRemote
  dsimp only
  split <;> rfl

theorem unnoted_foldl_takeRemote (xs : List ((Nat × Nat) × LayerStats)) (h : Unnoted s) : Unnoted (xs.foldl takeRemote s) := by
  induction xs generalizing s with
  | nil => exact h
  | cons x xs ih => exact ih (h.takeRemote x)

theorem unnoted_publishStats (s : State) : Unnoted (publishStats s) := by
  refine unnoted_foldl_takeRemote s.remoteStats fun p hp => ?_
  obtain ⟨q, -, rfl⟩ := List.mem_map.mp hp
  exact q.2.unnoted_publish

theorem publishStats_turn (s : State) : (publishStats s).turn =
    { s.turn with statPub := s.turn.statStart, statStart := s.turn.no, statEnd := false } := by
  unfold publishStats
  dsimp only
  rw [foldl_keeps takeRemote State.turn takeRemote_turn]

theorem sendRemoteStats_turn (s : State) : (sendRemoteStats s).turn = s.turn := by
  unfold sendRemoteStats
  refine foldl_keeps _ State.turn (fun u r => ?_) s.remotes s
  refine foldl_keeps _ State.turn (fun _ _ => ?_) (List.range r.count) u
  rfl

/-! ### The droop events (R456) -/

/-- The droop events of half `h` in the running epoch. -/
def droops (s : State) (h : Nat) : Nat := (s.ras.droop.filter (· == h)).length

theorem droops_congr {t : State} (same : t.ras = s.ras) (h : Nat) : droops t h = droops s h := by
  unfold droops
  rw [same]

/-- The state in which the count of half `h` is in its object. -/
def droopCounted (s : State) (h : Nat) : State := setObj s (if h = 0 then Obj.DROOP_H0 else Obj.DROOP_H1) (droops s h)

/-- The count of a half, with event 0x1010 where it is above a limit `m` that is not 0. -/
def publishHalfDroop (m : Nat) (s : State) (h : Nat) : State :=
  if m ≠ 0 ∧ m < droops s h then postEvent (droopCounted s h) 0x1010 h else droopCounted s h

/-- The two halves, one after the other. -/
def publishHalves (s : State) : State :=
  publishHalfDroop (getObj s Obj.DROOP_MAX) (publishHalfDroop (getObj s Obj.DROOP_MAX) s 0) 1

theorem publishDroop_eq (s : State) : publishDroop s =
    { publishHalves s with ras := { (publishHalves s).ras with droop := [] } } := rfl

section Half

variable (m : Nat) (s : State) (h : Nat)

/-- What the posting of an event keeps is as the count leaves it. -/
theorem publishHalfDroop_keeps {β : Type} (g : State → β) (hg : ∀ u c d, g (postEvent u c d) = g u) :
    g (publishHalfDroop m s h) = g (droopCounted s h) := by
  unfold publishHalfDroop
  split
  · exact hg (droopCounted s h) 0x1010 h
  · rfl

theorem publishHalfDroop_turn : (publishHalfDroop m s h).turn = s.turn :=
  publishHalfDroop_keeps m s h State.turn postEvent_turn

theorem droops_publishHalfDroop (k : Nat) : droops (publishHalfDroop m s h) k = droops s k :=
  droops_congr (publishHalfDroop_keeps m s h State.ras postEvent_ras) k

theorem getObj_publishHalfDroop (a : Nat) : getObj (publishHalfDroop m s h) a = getObj (droopCounted s h) a :=
  publishHalfDroop_keeps m s h (getObj · a) fun u c d => getObj_postEvent u c d a

end Half

theorem publishDroop_turn (s : State) : (publishDroop s).turn = s.turn := by
  rw [publishDroop_eq]
  exact (publishHalfDroop_turn _ _ 1).trans (publishHalfDroop_turn _ s 0)

/-- The events begin anew in a part that holds no object. -/
theorem getObj_publishDroop (s : State) (a : Nat) : getObj (publishDroop s) a = getObj (publishHalves s) a := by
  rw [publishDroop_eq]
  rfl

theorem getObj_publishDroop_h0 (s : State) : getObj (publishDroop s) Obj.DROOP_H0 = droops s 0 := by
  calc getObj (publishDroop s) Obj.DROOP_H0
    _ = getObj (publishHalves s) Obj.DROOP_H0 := getObj_publishDroop s _
    _ = getObj (publishHalfDroop (getObj s Obj.DROOP_MAX) s 0) Obj.DROOP_H0 :=
      (getObj_publishHalfDroop _ _ 1 _).trans (getObj_setObj_ne _ _ (by decide))
    _ = droops s 0 := (getObj_publishHalfDroop _ s 0 _).trans (getObj_setObj_self s _ _)

theorem getObj_publishDroop_h1 (s : State) : getObj (publishDroop s) Obj.DROOP_H1 = droops s 1 := by
  calc getObj (publishDroop s) Obj.DROOP_H1
    _ = getObj (publishHalves s) Obj.DROOP_H1 := getObj_publishDroop s _
    _ = droops (publishHalfDroop (getObj s Obj.DROOP_MAX) s 0) 1 :=
      (getObj_publishHalfDroop _ _ 1 _).trans (getObj_setObj_self _ _ _)
    _ = droops s 1 := droops_publishHalfDroop _ s 0 1

/-! ### The epoch ends -/

theorem exec_statEpochEnd (p5 : s.turn.phase = .p5) (ends : s.turn.no % statEpoch s = 0 ∨ s.turn.statEnd = true) :
    exec .statEpochEnd s = .next (publishDroop (sendRemoteStats (publishStats s))) :=
  congrArg Host.Outcome.next (if_pos ⟨p5, ends⟩)

/-- The statistics of remote segments are sent once the sums have restarted, and the droop counts are published last. -/
theorem epochEnded_turn (s : State) : (publishDroop (sendRemoteStats (publishStats s))).turn =
    { s.turn with statPub := s.turn.statStart, statStart := s.turn.no, statEnd := false } := by
  rw [publishDroop_turn, sendRemoteStats_turn, publishStats_turn]

/-- Publishing and sending the statistics leaves the droop events. -/
theorem droops_afterStats (s : State) (h : Nat) : droops (sendRemoteStats (publishStats s)) h = droops s h :=
  droops_congr (((sendRemoteStats_frame _).keep .ras rfl).trans ((publishStats_frame s).keep .ras rfl)) h

theorem epochEnded_unnoted (s : State) : Unnoted (publishDroop (sendRemoteStats (publishStats s))) := by
  have kept : (publishDroop (sendRemoteStats (publishStats s))).images = (publishStats s).images :=
    ((publishDroop_frame _).keep .images rfl).trans ((sendRemoteStats_frame _).keep .images rfl)
  unfold Unnoted
  rw [kept]
  exact unnoted_publishStats s

/-- Settles O32: the statistics are published and restart, then the droop counts (R174, R177, R456). -/
theorem statisticsEpochEnds : Obligations.StatisticsEpochEnds := by
  intro s p5 ends
  have turn := epochEnded_turn s
  exact ⟨_, exec_statEpochEnd p5 ends, congrArg TurnSt.statStart turn, congrArg TurnSt.statEnd turn, rfl,
    (getObj_publishDroop_h0 _).trans (droops_afterStats s 0), (getObj_publishDroop_h1 _).trans (droops_afterStats s 1),
    epochEnded_unnoted s⟩

end Sys2Proof.Machine

/-! The load of a collection image (R182, R183, R211). -/

namespace Sys2Proof.Machine

open Sys2Proof

variable {s : State} {c : Nat}

/-! ### The objects of a load are distinct -/

theorem coll_IMG_LOAD_ne_IMG_STATE (c : Nat) : Obj.coll_IMG_LOAD c ≠ Obj.coll_IMG_STATE c :=
  fun h => absurd (Nat.add_left_cancel h) (by decide)

theorem coll_IMG_LOAD_ne_IMG_CAUSE (c : Nat) : Obj.coll_IMG_LOAD c ≠ Obj.coll_IMG_CAUSE c :=
  fun h => absurd (Nat.add_left_cancel h) (by decide)

theorem coll_IMG_STATE_ne_IMG_CAUSE (c : Nat) : Obj.coll_IMG_STATE c ≠ Obj.coll_IMG_CAUSE c :=
  fun h => absurd (Nat.add_left_cancel h) (by decide)

/-! ### How a load stands -/

/-- IMG_STATE, IMG_CAUSE and IMG_LOAD of a collection are written. -/
def setCollLoad (s : State) (c st cause load : Nat) : State :=
  setObj (setObj (setObj s (Obj.coll_IMG_STATE c) st) (Obj.coll_IMG_CAUSE c) cause) (Obj.coll_IMG_LOAD c) load

section Load

variable (s : State) (c st cause load : Nat)

theorem getObj_setCollLoad_state : getObj (setCollLoad s c st cause load) (Obj.coll_IMG_STATE c) = st := by
  rw [setCollLoad, getObj_setObj_ne _ _ (coll_IMG_LOAD_ne_IMG_STATE c).symm,
    getObj_setObj_ne _ _ (coll_IMG_STATE_ne_IMG_CAUSE c), getObj_setObj_self]

theorem getObj_setCollLoad_cause : getObj (setCollLoad s c st cause load) (Obj.coll_IMG_CAUSE c) = cause := by
  rw [setCollLoad, getObj_setObj_ne _ _ (coll_IMG_LOAD_ne_IMG_CAUSE c).symm, getObj_setObj_self]

theorem getObj_setCollLoad_load : getObj (setCollLoad s c st cause load) (Obj.coll_IMG_LOAD c) = load :=
  getObj_setObj_self _ _ _

theorem getColl_setCollLoad (n : Nat) : getColl (setCollLoad s c st cause load) n = getColl s n := rfl

end Load

/-! ### IMG_LOAD (R185, R211) -/

theorem exec_imgLoad_absent (absent : collState s c = 0) (kept : (getColl s c).dropDue = 0) :
    exec (.imgLoad c) s = .next (setCollLoad (setColl s c { getColl s c with pend := some 3 }) c 1 0 1) :=
  congrArg Host.Outcome.next (if_neg (not_or.mpr ⟨not_not_intro absent, not_not_intro kept⟩))

theorem exec_imgLoad_present (present : collState s c ≠ 0) : exec (.imgLoad c) s = .next (setObj s (Obj.coll_IMG_LOAD c) 0) :=
  congrArg Host.Outcome.next (if_pos (.inl present))

/-- A change that is pending reads as STATE 3 (R183). -/
theorem collState_of_pend {n : Nat} (h : (getColl s c).pend = some n) : collState s c = 3 := by
  unfold collState
  dsimp only
  rw [h]
  rfl

/-! ### A load that fails (R211) -/

/-- The collection after its load has failed: nothing of the load is left. -/
def failedColl (s : State) (c : Nat) : Coll :=
  { getColl s c with
    pend := if (getColl s c).pend = some 3 then none else (getColl s c).pend
    loads := (getColl s c).loads.filter (·.1 != selfNode s) }

theorem collFail_eq (s : State) (c cause : Nat) :
    collFail s c cause = postEvent (setCollLoad (setColl s c (failedColl s c)) c 3 cause 0) 0x3015 (c + 2 ^ 12 * cause) := rfl

theorem collFail_reads (s : State) (c cause : Nat) :
    getObj (collFail s c cause) (Obj.coll_IMG_STATE c) = 3 ∧ getObj (collFail s c cause) (Obj.coll_IMG_CAUSE c) = cause ∧
      getObj (collFail s c cause) (Obj.coll_IMG_LOAD c) = 0 := by
  simp only [collFail_eq, getObj_postEvent, getObj_setCollLoad_state, getObj_setCollLoad_cause, getObj_setCollLoad_load, and_self]

theorem getColl_collFail_self (s : State) (c cause : Nat) : getColl (collFail s c cause) c = failedColl s c := by
  calc getColl (collFail s c cause) c
    _ = getColl (setCollLoad (setColl s c (failedColl s c)) c 3 cause 0) c :=
      congrArg (fun l => (look l c).getD Coll.reset) (postEvent_colls _ _ _)
    _ = failedColl s c := (getColl_setCollLoad _ _ _ _ _ _).trans (getColl_setColl_self s c _)

theorem collFail_logged (s : State) (c cause : Nat) : Logged s (collFail s c cause) 0x3015 (c + 2 ^ 12 * cause) :=
  postEvent_logged _ _ _

/-! ### The fetch of an image (R85, R211) -/

theorem exec_collectionImageLoadComplete_unreached {f : Fetch}
    (unreached : sourceReach s (getObj s (Obj.coll_IMG_LOC c)) (getObj s (Obj.coll_IMG_ADDR c)) f = false) :
    exec (.collectionImageLoadComplete c f) s = .next s :=
  congrArg Host.Outcome.next (if_pos (.inr (.inr (.inr unreached))))

/-- A load of collection `c` whose fetch can have ended as `f` says. -/
structure CollFetches (s : State) (c : Nat) (f : Fetch) : Prop where
  waits : (getColl s c).pend = some 3
  loading : getObj s (Obj.coll_IMG_STATE c) = 1
  asked : getObj s (Obj.coll_IMG_LOAD c) ≠ 0
  reached : sourceReach s (getObj s (Obj.coll_IMG_LOC c)) (getObj s (Obj.coll_IMG_ADDR c)) f = true

theorem CollFetches.proceeds {f : Fetch} (h : CollFetches s c f) :
    ¬((getColl s c).pend ≠ some 3 ∨ getObj s (Obj.coll_IMG_STATE c) ≠ 1 ∨ getObj s (Obj.coll_IMG_LOAD c) = 0 ∨
      sourceReach s (getObj s (Obj.coll_IMG_LOC c)) (getObj s (Obj.coll_IMG_ADDR c)) f = false) := by
  simp [h.waits, h.loading, h.asked, h.reached]

/-- The state after the last try of a fetch has failed. -/
def collUnfetched (s : State) (c : Nat) : State := collFail (loadAttempt s (Obj.coll_IMG_LOAD c)).1 c 1

theorem CollFetches.exec_failed (h : CollFetches s c .failed)
    (last : getObj s Obj.FETCH_RETRY_LIMIT ≤ lookD s.host.tries (Obj.coll_IMG_LOAD c) 0 + 1) :
    exec (.collectionImageLoadComplete c .failed) s = .next (collUnfetched s c) :=
  congrArg Host.Outcome.next ((if_neg h.proceeds).trans (if_pos (loadAttempt_last last)))

theorem pend_collUnfetched (h : (getColl s c).pend = some 3) : (getColl (collUnfetched s c) c).pend = none := by
  have kept : getColl (loadAttempt s (Obj.coll_IMG_LOAD c)).1 c = getColl s c :=
    congrArg (fun l => (look l c).getD Coll.reset) ((loadAttempt_frame s _).keep .colls rfl)
  rw [collUnfetched, getColl_collFail_self]
  exact if_pos (kept ▸ h)

theorem collUnfetched_logged (s : State) (c : Nat) : Logged s (collUnfetched s c) 0x3015 (c + 2 ^ 12) :=
  (loadAttempt_frame s _).logged rfl rfl (collFail_logged _ c 1)

/-! ### The checks of an image, and what follows them (R197, R211) -/

/-- The collection that holds the image `b` of this node's load. -/
def loadedColl (s : State) (c : Nat) (b : List Byte) : Coll :=
  { getColl s c with loads := put (getColl s c).loads (selfNode s) b }

/-- The image is kept, sent to the other members, and the ledger is asked for the collection. -/
def collShared (s : State) (c : Nat) (b : List Byte) : State :=
  ledgerRequest (setObj (sendAll (setColl s c (loadedColl s c b)) (otherMembers s) (.copy (.image c b))) (Obj.coll_IMG_LOAD c) 0)
    (.descriptor (Obj.coll_STATE c) 1)

/-- The state after the bytes of an image have been checked: a failed load, or the image shared. -/
def collChecked (s : State) (c : Nat) (b : List Byte) : State :=
  match parseColl s c b with
  | .error e => collFail s c e
  | .ok x => if pastLists s x then collFail s c 5 else if noRoom s c x then collFail s c 6 else collShared s c b

section Checked

variable {b : List Byte} {x : CollImg}

theorem collChecked_error {e : Nat} (bad : parseColl s c b = .error e) : collChecked s c b = collFail s c e := by
  unfold collChecked
  rw [bad]

theorem collChecked_ok (good : parseColl s c b = .ok x) : collChecked s c b =
    if pastLists s x then collFail s c 5 else if noRoom s c x then collFail s c 6 else collShared s c b := by
  unfold collChecked
  rw [good]

theorem collChecked_past (good : parseColl s c b = .ok x) (past : pastLists s x = true) :
    collChecked s c b = collFail s c 5 := (collChecked_ok good).trans (if_pos past)

theorem collChecked_full (good : parseColl s c b = .ok x) (within : pastLists s x = false) (full : noRoom s c x = true) :
    collChecked s c b = collFail s c 6 :=
  (collChecked_ok good).trans ((if_neg (ne_true_of_eq_false within)).trans (if_pos full))

theorem collChecked_passed (good : parseColl s c b = .ok x) (within : pastLists s x = false) (room : noRoom s c x = false) :
    collChecked s c b = collShared s c b :=
  (collChecked_ok good).trans ((if_neg (ne_true_of_eq_false within)).trans (if_neg (ne_true_of_eq_false room)))

end Checked

/-- The state in which the image of a collection has been fetched. -/
def collFetched (s : State) (c : Nat) : State := loadFetched s (Obj.coll_IMG_LOAD c)

theorem CollFetches.exec_bytes {b : List Byte} (h : CollFetches s c (.bytes b)) (inHost : getObj s (Obj.coll_IMG_LOC c) = 0) :
    exec (.collectionImageLoadComplete c (.bytes b)) s = .next (collChecked (collFetched s c) c b) := by
  refine congrArg Host.Outcome.next ((if_neg h.proceeds).trans ?_)
  rw [inHost]
  rfl

theorem collFail_collFetched (s : State) (c e : Nat) :
    getObj (collFail (collFetched s c) c e) (Obj.coll_IMG_STATE c) = 3 ∧
      getObj (collFail (collFetched s c) c e) (Obj.coll_IMG_CAUSE c) = e ∧
      Logged s (collFail (collFetched s c) c e) 0x3015 (c + 2 ^ 12 * e) := by
  obtain ⟨state, cause, -⟩ := collFail_reads (collFetched s c) c e
  exact ⟨state, cause, (loadFetched_frame s _).logged rfl rfl (collFail_logged _ c e)⟩

theorem getColl_collShared_self (s : State) (c : Nat) (b : List Byte) : getColl (collShared s c b) c = loadedColl s c b := by
  unfold collShared
  rw [sendAll_eq]
  exact getColl_setColl_self s c _

theorem collShared_reads (s : State) (c : Nat) (b : List Byte) :
    getObj (collShared s c b) (Obj.coll_IMG_LOAD c) = 0 ∧ (getColl (collShared s c b) c).pend = (getColl s c).pend ∧
      (collShared s c b).fab.out = s.fab.out ++ (otherMembers s).map (fun n => (n, Sect.copy (.image c b))) ∧
      (collShared s c b).ledger.outReqs = s.ledger.outReqs ++ [LedgerRec.descriptor (Obj.coll_STATE c) 1] := by
  rw [getColl_collShared_self]
  unfold collShared
  rw [sendAll_eq]
  exact ⟨getObj_setObj_self _ _ _, rfl, rfl, rfl⟩

/-- Settles O33: IMG_LOAD by whether the collection is absent, and a load by how its fetch ends and what its checks find (log
entries 7 and 41). -/
theorem collectionImagesLoad : Obligations.CollectionImagesLoad := by
  intro c s
  refine ⟨fun absent kept => ⟨_, exec_imgLoad_absent absent kept, ?_⟩, fun present => ⟨_, exec_imgLoad_present present, ?_⟩,
    fun waits loading asked => ⟨fun f => exec_collectionImageLoadComplete_unreached, fun reached last => ?_,
      fun b e inHost reached bad => ?_, fun b x inHost reached good within room => ?_⟩⟩
  · have pend : (getColl (setCollLoad (setColl s c { getColl s c with pend := some 3 }) c 1 0 1) c).pend = some 3 :=
      congrArg Coll.pend (getColl_setColl_self s c _)
    exact ⟨getObj_setCollLoad_state _ _ _ _ _, getObj_setCollLoad_cause _ _ _ _ _, getObj_setCollLoad_load _ _ _ _ _, pend,
      collState_of_pend pend⟩
  · refine ⟨getObj_setObj_self _ _ _, fun a other => getObj_setObj_ne s 0 ?_, rfl⟩
    simpa using other
  · have h : CollFetches s c .failed := ⟨waits, loading, asked, reached⟩
    obtain ⟨state, cause, load⟩ := collFail_reads (loadAttempt s (Obj.coll_IMG_LOAD c)).1 c 1
    exact ⟨_, h.exec_failed last, state, cause, load, pend_collUnfetched waits, collUnfetched_logged s c⟩
  · have h : CollFetches s c (.bytes b) := ⟨waits, loading, asked, by rwa [inHost]⟩
    have fails : collChecked (collFetched s c) c b = collFail (collFetched s c) c e := by
      obtain error | ⟨x, good, ⟨rfl, past⟩ | ⟨rfl, within, full⟩⟩ := bad
      · exact collChecked_error (s := collFetched s c) error
      · exact collChecked_past (s := collFetched s c) good past
      · exact collChecked_full (s := collFetched s c) good within full
    exact ⟨_, (h.exec_bytes inHost).trans (congrArg _ fails), collFail_collFetched s c e⟩
  · have h : CollFetches s c (.bytes b) := ⟨waits, loading, asked, by rwa [inHost]⟩
    have passes := collChecked_passed (s := collFetched s c) good within room
    obtain ⟨load, pend, sent, proposed⟩ := collShared_reads (collFetched s c) c b
    exact ⟨_, (h.exec_bytes inHost).trans (congrArg _ passes), load, pend.trans waits, sent, proposed⟩

end Sys2Proof.Machine

/-! Row logic: what a row command does, the row operations, the row tail and the commands of the host (R242 to R254, R260). -/

namespace Sys2Proof.Machine

open Sys2Proof

variable {s t : State} {b : BankId}

/-! ### Row commands -/

/-- The row that a command could not read: only a tail command reads index and stamp rows (R244). -/
def tailBad (op : RowOp) (bad : Option Nat) : Option Nat :=
  match op with
  | .count | .select => bad
  | .nop | .and | .or | .xor | .not | .pred | .hclear | .hdump => none

theorem exec_rowInstr (op : RowOp) (src : RowSrc) (b : BankId) (cmd : RowCmd) (bad : Option Nat) (s : State) :
    exec (rowInstr op src b cmd bad) s = .next (rowCommand s op src b cmd (tailBad op bad)) := by
  cases op <;> rfl

/-- The state after the Planner's command in a group with a window. -/
def plannerRan (s : State) (op : RowOp) (b : BankId) (cmd : RowCmd) (bad : Option Nat) : State :=
  (runCmd s .planner b (clampCmd { cmd with op := op }) (tailBad op bad) 0 (seenNow s b)).1

theorem exec_planner_window {op : RowOp} {cmd : RowCmd} {bad : Option Nat} (window : hasWindow s b = true)
    (ran : plannerRan s op b cmd bad = t) : exec (rowInstr op .planner b cmd bad) s = .next t :=
  ((exec_rowInstr op .planner b cmd bad s).trans (congrArg Host.Outcome.next (if_pos window))).trans (congrArg _ ran)

theorem exec_planner_noWindow (closed : hasWindow s b = false) (op : RowOp) (cmd : RowCmd) (bad : Option Nat) :
    exec (rowInstr op .planner b cmd bad) s = .next s :=
  (exec_rowInstr op .planner b cmd bad s).trans (congrArg Host.Outcome.next (if_neg (Bool.eq_false_iff.mp closed)))

/-! ### Rows -/

@[simp] theorem readRow_length (s : State) (b : BankId) (r : Nat) : (readRow s b r).length = rowBytes := readBytes_length _ _ _

@[simp] theorem readRow_bump (s : State) (a n : Nat) (b : BankId) (r : Nat) : readRow (bump s a n) b r = readRow s b r := by
  rw [readRow, bump_smem, readRow]

theorem readRow_getD (s : State) (b : BankId) (r : Nat) {i : Nat} (hi : i < rowBytes) :
    (readRow s b r).getD i 0 = byteAt s.smem.cells (rowAddr b r + i) := readBytes_getD _ _ hi

/-- Bytes read depend on the bytes of their addresses alone. -/
theorem readBytes_congr {m k : List Host.Cell} {a n : Nat} (h : ∀ i, i < n → byteAt m (a + i) = byteAt k (a + i)) :
    readBytes m a n = readBytes k a n := by
  induction n generalizing a with
  | zero => rfl
  | succ n ih =>
    rw [readBytes, readBytes, show byteAt m a = byteAt k a from h 0 n.succ_pos, ih fun i hi => ?_]
    rw [Nat.add_assoc, Nat.add_comm 1 i]
    exact h (i + 1) (Nat.succ_lt_succ hi)

theorem readRow_writeSmem_self (wf : Memory.wf s.smem.cells = true) (r : Nat) {d : List Byte} (whole : d.length = rowBytes) :
    readRow (writeSmem s (rowAddr b r) d) b r = d := by
  unfold readRow
  rw [← whole]
  exact readBytes_writeBytes wf _ d

/-- A row written leaves the other rows of its bank. -/
theorem readRow_writeSmem_ne (s : State) {q r : Nat} (other : q ≠ r) {d : List Byte} (whole : d.length = rowBytes) :
    readRow (writeSmem s (rowAddr b r) d) b q = readRow s b q := by
  refine readBytes_congr fun i hi => byteAt_writeBytes_outside _ _ _ ?_
  simp only [rowAddr, rowBytes] at hi whole ⊢
  omega

/-! ### Row operations -/

/-- What a row operation makes of a byte of each operand row. -/
def rowFn (op : RowOp) (x y : Byte) : Byte :=
  match op with
  | .and => x &&& y
  | .or => x ||| y
  | .xor => x ^^^ y
  | .not => ~~~ x
  | .nop | .pred | .count | .select | .hclear | .hdump => x

variable {x y : List Byte}

theorem rowOpOut_length (op : RowOp) (same : x.length = y.length) : (rowOpOut op x y).length = x.length := by
  have zipped : ∀ f : Byte × Byte → Byte, ((x.zip y).map f).length = x.length := fun f => by
    rw [List.length_map, List.length_zip, same, Nat.min_self]
  cases op with
  | and | or | xor => exact zipped _
  | not => exact List.length_map _
  | nop | pred | count | select | hclear | hdump => rfl

theorem getD_map_zip (f : Byte × Byte → Byte) {i : Nat} (hx : i < x.length) (hy : i < y.length) :
    ((x.zip y).map f).getD i 0 = f (x.getD i 0, y.getD i 0) := by
  have hz : i < ((x.zip y).map f).length := by
    rw [List.length_map, List.length_zip]
    omega
  rw [← List.getElem_eq_getD (h := hz) 0, List.getElem_map, List.getElem_zip, List.getElem_eq_getD (h := hx) 0,
    List.getElem_eq_getD (h := hy) 0]

theorem getD_map_byte (f : Byte → Byte) {i : Nat} (hx : i < x.length) : (x.map f).getD i 0 = f (x.getD i 0) := by
  have hm : i < (x.map f).length := by rwa [List.length_map]
  rw [← List.getElem_eq_getD (h := hm) 0, List.getElem_map, List.getElem_eq_getD (h := hx) 0]

theorem rowOpOut_getD (op : RowOp) {i : Nat} (hx : i < x.length) (hy : i < y.length) :
    (rowOpOut op x y).getD i 0 = rowFn op (x.getD i 0) (y.getD i 0) := by
  cases op with
  | and | or | xor => exact getD_map_zip _ hx hy
  | not => exact getD_map_byte _ hx
  | nop | pred | count | select | hclear | hdump => rfl

theorem waitingCount_runRowOp (s : State) (b : BankId) (c : RowCmd) :
    waitingCount (runRowOp s b c) Obj.ROW_OPS = waitingCount s Obj.ROW_OPS + 1 := waitingCount_bump_self _ _ Nat.one_ne_zero

theorem byteAt_runRowOp_inside (wf : Memory.wf s.smem.cells = true) (b : BankId) (c : RowCmd) {i : Nat} (hi : i < rowBytes) :
    byteAt (runRowOp s b c).smem.cells (rowAddr b c.rowD + i) =
      rowFn c.op (byteAt s.smem.cells (rowAddr b c.rowA + i)) (byteAt s.smem.cells (rowAddr b c.rowB + i)) := by
  have length := rowOpOut_length c.op (x := readRow s b c.rowA) (y := readRow s b c.rowB) (by simp only [readRow_length])
  rw [readRow_length] at length
  calc byteAt (runRowOp s b c).smem.cells (rowAddr b c.rowD + i)
    _ = (rowOpOut c.op (readRow s b c.rowA) (readRow s b c.rowB)).getD i 0 := byteAt_writeBytes_inside wf _ _ (length ▸ hi)
    _ = rowFn c.op ((readRow s b c.rowA).getD i 0) ((readRow s b c.rowB).getD i 0) := by
      apply rowOpOut_getD <;> rwa [readRow_length]
    _ = _ := by rw [readRow_getD s b _ hi, readRow_getD s b _ hi]

theorem byteAt_runRowOp_outside (s : State) (b : BankId) (c : RowCmd) {a : Nat}
    (h : a < rowAddr b c.rowD ∨ rowAddr b c.rowD + rowBytes ≤ a) :
    byteAt (runRowOp s b c).smem.cells a = byteAt s.smem.cells a := by
  refine byteAt_writeBytes_outside _ _ _ ?_
  rwa [rowOpOut_length _ (by simp only [readRow_length]), readRow_length]

/-- The four operations that combine rows. -/
def combinesRows : RowOp → Bool
  | .and | .or | .xor | .not => true
  | .nop | .pred | .count | .select | .hclear | .hdump => false

theorem plannerRan_rowOp {op : RowOp} (combines : combinesRows op = true) (s : State) (b : BankId) (cmd : RowCmd) :
    plannerRan s op b cmd none = runRowOp s b (clampCmd { cmd with op := op }) := by
  cases op with
  | and | or | xor | not => rfl
  | nop | pred | count | select | hclear | hdump => cases combines

/-- The row of the destination holds what the operation makes of the operand rows, every other byte is as it was, and one row
operation has been counted. -/
def Combined (op : RowOp) (b : BankId) (cmd : RowCmd) (s t : State) : Prop :=
  (∀ i, i < 1024 → byteAt t.smem.cells (rowAddr b cmd.rowD + i)
    = rowFn op (byteAt s.smem.cells (rowAddr b cmd.rowA + i)) (byteAt s.smem.cells (rowAddr b cmd.rowB + i))) ∧
  (∀ a, a < rowAddr b cmd.rowD ∨ rowAddr b cmd.rowD + 1024 ≤ a → byteAt t.smem.cells a = byteAt s.smem.cells a) ∧
  waitingCount t Obj.ROW_OPS = waitingCount s Obj.ROW_OPS + 1

/-- The clamps of Table 10.2 leave the rows that a command names. -/
theorem runRowOp_combined (wf : Memory.wf s.smem.cells = true) (op : RowOp) (b : BankId) (cmd : RowCmd) :
    Combined op b cmd s (runRowOp s b (clampCmd { cmd with op := op })) :=
  ⟨fun _ => byteAt_runRowOp_inside wf b (clampCmd { cmd with op := op }),
    fun _ => byteAt_runRowOp_outside s b (clampCmd { cmd with op := op }), waitingCount_runRowOp s b _⟩

theorem rowOp_completes {op : RowOp} (combines : combinesRows op = true) (window : hasWindow s b = true)
    (wf : Memory.wf s.smem.cells = true) (cmd : RowCmd) : Completes (rowInstr op .planner b cmd none) s (Combined op b cmd s) :=
  ⟨_, exec_planner_window window (plannerRan_rowOp combines s b cmd), runRowOp_combined wf op b cmd⟩

/-- Settles O41: a row operation by the bytes of the row that it writes, and the Planner's commands by whether a window is open
(log entry 45). -/
theorem rowOperationsCombineRows : Obligations.RowOperationsCombineRows := by
  intro b cmd s wf
  refine ⟨fun window => ⟨?_, ?_, ?_, ?_, s, exec_planner_window (op := .nop) (bad := none) window rfl, rfl⟩,
    fun closed op bad => exec_planner_noWindow closed op cmd bad⟩
  · exact rowOp_completes (op := .and) rfl window wf cmd
  · exact rowOp_completes (op := .or) rfl window wf cmd
  · exact rowOp_completes (op := .xor) rfl window wf cmd
  · exact rowOp_completes (op := .not) rfl window wf cmd

/-! ### The row tail -/

theorem lookD_put_self {κ α : Type} [DecidableEq κ] (l : List (κ × α)) (k : κ) (v d : α) : lookD (put l k v) k d = v := by
  rw [lookD, look_put_self, Option.getD_some]

/-- What the commands still queued in a bank see is in the bank alone. -/
theorem ownSeen_keeps {β : Type} (g : State → β) (kept : ∀ s b v, g (setBank s b v) = g s) (s : State) (b : BankId)
    (f : Seen → Seen) : g (ownSeen s b f) = g s := by
  unfold ownSeen
  dsimp only
  split
  · rfl
  · exact kept s b _

theorem setPred_preds (s : State) (b : BankId) (p : Pred) : look (setPred s b p).smem.preds (groupKey b) = some p :=
  (congrArg (look · (groupKey b)) (ownSeen_keeps (fun s => s.smem.preds) (fun _ _ _ => rfl) _ b _)).trans (look_put_self _ _ _)

theorem histOf_clearHist (s : State) (b : BankId) : histOf (clearHist s b) b = [] :=
  (congrArg (lookD · (groupKey b) []) (ownSeen_keeps (fun s => s.smem.hists) (fun _ _ _ => rfl) _ b _)).trans
    (lookD_put_self _ _ _ _)

theorem setPred_cells (s : State) (b : BankId) (p : Pred) : (setPred s b p).smem.cells = s.smem.cells :=
  (setPred_frame s b p).keep .smemCells rfl

theorem clearHist_cells (s : State) (b : BankId) : (clearHist s b).smem.cells = s.smem.cells :=
  (clearHist_frame s b).keep .smemCells rfl

theorem tailRows_ne_zero (w : Nat) : tailRows w ≠ 0 := by
  match w with
  | 0 | 1 | 2 | 3 => decide
  | n + 4 => exact Nat.one_ne_zero

/-! ### The histogram -/

theorem lookD_histAdd_self (h : List (Nat × Nat)) (d : Nat) :
    lookD (histAdd h d) d 0 = min (2 ^ 32 - 1) (lookD h d 0 + 1) := by
  unfold histAdd lookD
  rw [look_sput_of_ne _ _ (by omega), Option.getD_some]

theorem lookD_histAdd_ne (h : List (Nat × Nat)) {d e : Nat} (other : e ≠ d) : lookD (histAdd h d) e 0 = lookD h e 0 :=
  congrArg (Option.getD · 0) (look_sput_ne _ _ _ other)

/-- Each bin of a histogram within 32 bits counts the hits of its distance, up to 2^32 - 1 (R251). -/
theorem lookD_foldl_histAdd {α : Type} (dist : α → Nat) (hits : List α) {h : List (Nat × Nat)} {d : Nat}
    (small : lookD h d 0 < 2 ^ 32) :
    lookD (hits.foldl (fun h x => histAdd h (dist x)) h) d 0 =
      min (2 ^ 32 - 1) (lookD h d 0 + (hits.filter fun x => dist x == d).length) := by
  induction hits generalizing h with
  | nil =>
    simp only [List.foldl_nil, List.filter_nil, List.length_nil]
    omega
  | cons x xs ih =>
    by_cases here : dist x = d
    · subst here
      rw [List.foldl_cons, ih (by rw [lookD_histAdd_self]; omega), lookD_histAdd_self,
        List.filter_cons_of_pos (by exact beq_self_eq_true _), List.length_cons]
      omega
    · have other := lookD_histAdd_ne h (Ne.symm here)
      rw [List.foldl_cons, ih (other.symm ▸ small), other, List.filter_cons_of_neg (by simpa using here)]

theorem length_leBytes (n v : Nat) : (leBytes n v).length = n := by
  induction n generalizing v with
  | zero => rfl
  | succ n ih => exact congrArg Nat.succ (ih _)

theorem histOf_setHist (s : State) (b : BankId) (h : List (Nat × Nat)) : histOf (setHist s b h) b = h := lookD_put_self _ _ _ _

theorem histRow_length (h : List (Nat × Nat)) (r : Nat) : (histRow h r).length = rowBytes := by
  unfold histRow
  rw [List.length_flatMap]
  simp only [length_leBytes]
  rw [List.map_const', List.sum_replicate_nat, List.length_range, rowBytes]

/-- The rows of a histogram, written from row `d` of a bank on. -/
def dumpRows (h : List (Nat × Nat)) (b : BankId) (d : Nat) (rs : List Nat) (s : State) : State :=
  rs.foldl (fun s r => writeSmem s (rowAddr b (d + r)) (histRow h r)) s

theorem dumpRows_cons (h : List (Nat × Nat)) (b : BankId) (d q : Nat) (rs : List Nat) (s : State) :
    dumpRows h b d (q :: rs) s = dumpRows h b d rs (writeSmem s (rowAddr b (d + q)) (histRow h q)) :=
  List.foldl_cons ..

@[simp] theorem waitingCount_writeSmem (s : State) (a : Nat) (d : List Byte) (n : Nat) :
    waitingCount (writeSmem s a d) n = waitingCount s n := rfl

theorem waitingCount_dumpRows (h : List (Nat × Nat)) (b : BankId) (d : Nat) (rs : List Nat) (s : State) (a : Nat) :
    waitingCount (dumpRows h b d rs s) a = waitingCount s a := by
  unfold dumpRows
  exact foldl_keeps _ (fun s => waitingCount s a) (fun _ _ => waitingCount_writeSmem _ _ _ _) rs s

theorem readRow_dumpRows_of_notMem {h : List (Nat × Nat)} {d r : Nat} {rs : List Nat} (out : r ∉ rs) (s : State) :
    readRow (dumpRows h b d rs s) b (d + r) = readRow s b (d + r) := by
  induction rs generalizing s with
  | nil => rfl
  | cons q rs ih =>
    rw [List.mem_cons, not_or] at out
    have other : d + r ≠ d + q := fun same => out.1 (Nat.add_left_cancel same)
    rw [dumpRows_cons, ih out.2, readRow_writeSmem_ne s other (histRow_length h q)]

theorem readRow_dumpRows {h : List (Nat × Nat)} {d r : Nat} {rs : List Nat} (once : rs.Nodup) (here : r ∈ rs)
    (wf : Memory.wf s.smem.cells = true) : readRow (dumpRows h b d rs s) b (d + r) = histRow h r := by
  induction rs generalizing s with
  | nil => cases here
  | cons q rs ih =>
    obtain ⟨fresh, rest⟩ := List.nodup_cons.mp once
    rw [dumpRows_cons]
    obtain rfl | later := List.mem_cons.mp here
    · rw [readRow_dumpRows_of_notMem fresh, readRow_writeSmem_self wf _ (histRow_length h r)]
    · exact ih rest later (writeSmem_wf wf _ _)

/-! ### The tail commands of the Planner -/

section Tail

variable (s : State) (b : BankId) (cmd : RowCmd)

/-- The predicate of a bank's group, zero where none is loaded. -/
def predOf (s : State) (b : BankId) : Pred := (look s.smem.preds (groupKey b)).getD Pred.zero

/-- The entries that a tail command of operation `op` finds taking part. -/
def hitsOf (s : State) (op : RowOp) (b : BankId) (cmd : RowCmd) : List (Nat × Nat × Nat) :=
  tailHits s b (clampCmd { cmd with op := op }) (predOf s b)

/-- The state after the rows of a tail command have been counted. -/
def tailCounted (s : State) (cmd : RowCmd) : State := bump s Obj.TAIL_ROWS (tailRows cmd.width)

theorem waitingCount_tailCounted :
    waitingCount (tailCounted s cmd) Obj.TAIL_ROWS = waitingCount s Obj.TAIL_ROWS + tailRows cmd.width :=
  waitingCount_bump_self _ _ (tailRows_ne_zero _)

/-- The entries that SELECT returns. -/
def selected (s : State) (b : BankId) (cmd : RowCmd) : List (Nat × Nat × Nat) :=
  (hitsOf s .select b cmd).filter fun x => decide (x.2.1 ≤ min (widthBits cmd.width) cmd.theta)

theorem plannerRan_pred : plannerRan s .pred b cmd none = setPred s b (parsePred (readRow s b cmd.rowA)) := rfl
theorem plannerRan_hclear : plannerRan s .hclear b cmd none = clearHist s b := rfl
theorem plannerRan_count_bad (a : Nat) : plannerRan s .count b cmd (some a) = tailCounted s cmd := rfl

/-- The state after COUNT has added the entries that take part to the histogram. -/
def counted (s : State) (b : BankId) (cmd : RowCmd) : State :=
  setHist (tailCounted s cmd) b ((hitsOf s .count b cmd).foldl (fun h x => histAdd h x.2.1) (histOf s b))

theorem plannerRan_count : plannerRan s .count b cmd none = counted s b cmd := if_pos rfl

theorem bin_counted {d : Nat} (small : lookD (histOf s b) d 0 < 2 ^ 32) : lookD (histOf (counted s b cmd) b) d 0 =
    min (2 ^ 32 - 1) (lookD (histOf s b) d 0 + ((hitsOf s .count b cmd).filter fun x => x.2.1 == d).length) := by
  rw [counted, histOf_setHist]
  exact lookD_foldl_histAdd (fun x : Nat × Nat × Nat => x.2.1) _ small

/-- The state after SELECT has returned its entries over the bus, 16 bytes each. -/
def returned (s : State) (b : BankId) (cmd : RowCmd) : State :=
  bump (tailCounted s cmd) Obj.BUS_BYTES (16 * (selected s b cmd).length)

theorem plannerRan_select : plannerRan s .select b cmd none = returned s b cmd := rfl

theorem tailRows_returned : waitingCount (returned s b cmd) Obj.TAIL_ROWS = waitingCount s Obj.TAIL_ROWS + tailRows cmd.width :=
  (waitingCount_bump_ne _ _ (by decide)).trans (waitingCount_tailCounted s cmd)

theorem busBytes_returned (any : selected s b cmd ≠ []) : waitingCount (returned s b cmd) Obj.BUS_BYTES =
    waitingCount s Obj.BUS_BYTES + 16 * (selected s b cmd).length := by
  have bytes : 16 * (selected s b cmd).length ≠ 0 :=
    Nat.mul_ne_zero (by decide) fun none => any (List.length_eq_zero_iff.mp none)
  rw [returned, waitingCount_bump_self _ _ bytes, tailCounted, waitingCount_bump_ne _ _ (by decide)]

/-- The state after HDUMP has written the four rows of the histogram, whose bins cross the bus. -/
def dumped (s : State) (b : BankId) (cmd : RowCmd) : State :=
  bump (dumpRows (histOf s b) b cmd.rowD (List.range 4) s) Obj.BUS_BYTES (4 * (widthBits cmd.width + 1))

theorem plannerRan_hdump : plannerRan s .hdump b cmd none = dumped s b cmd := rfl

theorem readRow_dumped (wf : Memory.wf s.smem.cells = true) {r : Nat} (hr : r < 4) :
    readRow (dumped s b cmd) b (cmd.rowD + r) = histRow (histOf s b) r := by
  rw [dumped, readRow_bump, readRow_dumpRows List.nodup_range (List.mem_range.mpr hr) wf]

theorem busBytes_dumped : waitingCount (dumped s b cmd) Obj.BUS_BYTES =
    waitingCount s Obj.BUS_BYTES + 4 * (widthBits cmd.width + 1) := by
  rw [dumped, waitingCount_bump_self _ _ (by omega), waitingCount_dumpRows]

end Tail

/-- Settles O42: each tail command of the Planner by what it leaves (log entry 45). -/
theorem rowTailFillsTheHistogram : Obligations.RowTailFillsTheHistogram := by
  intro b cmd s window wf
  refine ⟨?_, ?_, fun bad => ?_, fun any => ?_, ?_, ?_⟩
  · exact ⟨_, exec_planner_window window (plannerRan_pred s b cmd), setPred_preds s b _, setPred_cells s b _⟩
  · exact ⟨_, exec_planner_window window (plannerRan_count s b cmd), rfl, waitingCount_tailCounted s cmd,
      fun _ => bin_counted s b cmd⟩
  · exact ⟨_, exec_planner_window window (plannerRan_count_bad s b cmd bad), rfl, waitingCount_tailCounted s cmd⟩
  · exact ⟨_, exec_planner_window window (plannerRan_select s b cmd), rfl, tailRows_returned s b cmd,
      busBytes_returned s b cmd any⟩
  · exact ⟨_, exec_planner_window window (plannerRan_hdump s b cmd), fun _ => readRow_dumped s b cmd wf,
      busBytes_dumped s b cmd⟩
  · exact ⟨_, exec_planner_window window (plannerRan_hclear s b cmd), histOf_clearHist s b, clearHist_cells s b⟩

/-! ### The commands of the host -/

/-- Whether the host may name the rows of a command depends on the host region alone. -/
theorem cmdOk_of_frame {w : List Part} (f : Frame w s t) (kept : w.contains .objs = false) (b : BankId) (c : RowCmd) :
    cmdOk t b c = cmdOk s b c := by
  have objs : getObj t = getObj s := funext (f.getObj kept)
  have rows : hostRowOk t b = hostRowOk s b := by
    funext r
    unfold hostRowOk inRegion regionBytes
    rw [objs]
  rw [cmdOk, cmdOk, rows]

theorem waitingCount_setPred (s : State) (b : BankId) (p : Pred) (n : Nat) : waitingCount (setPred s b p) n = waitingCount s n :=
  ownSeen_keeps (fun s => waitingCount s n) (fun _ _ _ => rfl) _ b _

theorem waitingCount_clearHist (s : State) (b : BankId) (n : Nat) : waitingCount (clearHist s b) n = waitingCount s n :=
  ownSeen_keeps (fun s => waitingCount s n) (fun _ _ _ => rfl) _ b _

/-- A row command counts in ROW_OPS, TAIL_ROWS and BUS_BYTES alone. -/
theorem waitingCount_runCmd {n : Nat} (rowOps : n ≠ Obj.ROW_OPS) (rows : n ≠ Obj.TAIL_ROWS) (bus : n ≠ Obj.BUS_BYTES) (s : State)
    (src : RowSrc) (b : BankId) (c : RowCmd) (bad : Option Nat) (seq : Nat) (x : Seen) :
    waitingCount (runCmd s src b c bad seq x).1 n = waitingCount s n := by
  have tail : waitingCount (bump s Obj.TAIL_ROWS (tailRows c.width)) n = waitingCount s n := waitingCount_bump_ne _ _ rows
  unfold runCmd
  cases c.op with
  | nop => rfl
  | and | or | xor | not => exact waitingCount_bump_ne _ _ rowOps
  | pred => exact waitingCount_setPred _ _ _ _
  | hclear => exact waitingCount_clearHist _ _ _
  | hdump =>
    have dump := waitingCount_dumpRows (histOf s b) b c.rowD (List.range 4) s n
    cases src with
    | planner => exact (waitingCount_bump_ne _ _ bus).trans dump
    | host => exact dump
  | count =>
    cases bad with
    | some a => exact tail
    | none =>
      dsimp only
      split
      · exact tail
      · exact tail
  | select =>
    cases bad with
    | some a => exact tail
    | none =>
      cases src with
      | planner => exact (waitingCount_bump_ne _ _ bus).trans tail
      | host => exact tail

theorem waitingCount_writeRecords (s : State) (b : BankId) (slot : Nat) (rs : List Nat) (n : Nat) :
    waitingCount (writeRecords s b slot rs) n = waitingCount s n := by
  unfold writeRecords
  exact foldl_keeps _ (fun s => waitingCount s n) (fun _ _ => waitingCount_writeSmem _ _ _ _) _ s

theorem waitingCount_useOps (s : State) (b : BankId) (k n : Nat) : waitingCount (useOps s b k) n = waitingCount s n := by
  unfold useOps
  split
  · rfl
  · rfl

/-- The state in which the front command of a bank has had its effect and its records stand in the result row. -/
def hostRecorded (s : State) (b : BankId) (c : RowCmd) (bad : Option Nat) : State :=
  let x := asExecuted s b c
  let r := runCmd s .host b x bad ((getBank s b).done + 1).toNat ((getBank s b).seen.headD (seenNow s b))
  writeRecords r.1 b x.rslot r.2

/-- That state once a row that the tail could not read has been reported too (R244). -/
def hostReported (s : State) (b : BankId) (c : RowCmd) (bad : Option Nat) : State :=
  let tail := decide ((asExecuted s b c).op = .count) || decide ((asExecuted s b c).op = .select)
  match bad with
  | some a => if tail then postEvent (hostRecorded s b c bad) 0x3016 (a % 2 ^ 40) else hostRecorded s b c bad
  | none => hostRecorded s b c bad

/-- That state once its row activations and its completion have been counted (R260). -/
def hostCounted (s : State) (b : BankId) (c : RowCmd) (bad : Option Nat) : State :=
  bump (useOps (hostReported s b c bad) b (cmdCost (asExecuted s b c))) Obj.HOST_CMDS 1

theorem hostRun_eq (s : State) (b : BankId) (c : RowCmd) (bad : Option Nat) :
    hostRun s b c bad = setBank (hostCounted s b c bad) b
      { getBank s b with
        queue := (getBank s b).queue.tail, seen := (getBank (hostCounted s b c bad) b).seen.tail
        done := (getBank s b).done + 1
        rejects := if cmdOk (hostCounted s b c bad) b c then (getBank s b).rejects
          else min 0xFFFF ((getBank s b).rejects + 1) } := rfl

section HostRun

variable (s : State) (b : BankId) (c : RowCmd) (bad : Option Nat)

theorem hostReported_cases : hostReported s b c bad = hostRecorded s b c bad ∨
    ∃ detail, hostReported s b c bad = postEvent (hostRecorded s b c bad) 0x3016 detail := by
  unfold hostReported
  dsimp only
  split
  · split
    · exact .inr ⟨_, rfl⟩
    · exact .inl rfl
  · exact .inl rfl

theorem hostRecorded_frame : Frame [.counters, .smemCells, .smemMisc] s (hostRecorded s b c bad) :=
  (runCmd_frame ..).then (writeRecords_frame ..) rfl

theorem hostCounted_frame : Frame [.counters, .queues, .rings, .smemCells, .smemMisc, .errorLog] s (hostCounted s b c bad) := by
  have reported : Frame [.counters, .queues, .rings, .smemCells, .smemMisc, .errorLog] s (hostReported s b c bad) := by
    obtain same | ⟨detail, posted⟩ := hostReported_cases s b c bad
    · rw [same]
      exact (Frame.refl _ s).then (hostRecorded_frame s b c bad) rfl
    · rw [posted]
      exact ((Frame.refl _ s).then (hostRecorded_frame s b c bad) rfl).then (postEvent_frame ..) rfl
  exact (reported.then (useOps_frame ..) rfl).then (bump_frame ..) rfl

theorem waitingCount_hostCounted : waitingCount (hostCounted s b c bad) Obj.HOST_CMDS = waitingCount s Obj.HOST_CMDS + 1 := by
  have recorded : waitingCount (hostRecorded s b c bad) Obj.HOST_CMDS = waitingCount s Obj.HOST_CMDS :=
    (waitingCount_writeRecords ..).trans (waitingCount_runCmd (by decide) (by decide) (by decide) ..)
  rw [hostCounted, waitingCount_bump_self _ _ Nat.one_ne_zero, waitingCount_useOps]
  obtain same | ⟨detail, posted⟩ := hostReported_cases s b c bad
  · rw [same, recorded]
  · rw [posted, waitingCount_postEvent _ _ _ (by decide), recorded]

variable {c}

/-- A command that names a row the host may not name runs as NOP, which leaves the rows (R250). -/
theorem hostCounted_rejected_cells (refused : cmdOk s b c = false) : (hostCounted s b c bad).smem.cells = s.smem.cells := by
  have nop : asExecuted s b c = { c with op := .nop } := if_neg (Bool.eq_false_iff.mp refused)
  have recorded : hostRecorded s b c bad = s := by
    unfold hostRecorded
    rw [nop]
    rfl
  have reported : (hostReported s b c bad).smem = s.smem := by
    obtain same | ⟨detail, posted⟩ := hostReported_cases s b c bad
    · rw [same, recorded]
    · rw [posted, recorded, postEvent_smem]
  have used : (hostCounted s b c bad).smem.cells = (hostReported s b c bad).smem.cells := (useOps_frame ..).keep .smemCells rfl
  rw [used, reported]

end HostRun

theorem exec_host_runs {op : RowOp} {cmd : RowCmd} (front : (getBank s b).queue.head? = some (clampCmd { cmd with op := op }))
    (may : canRun s b (asExecuted s b (clampCmd { cmd with op := op })) = true) (bad : Option Nat) :
    exec (rowInstr op .host b cmd bad) s = .next (hostRun s b (clampCmd { cmd with op := op }) (tailBad op bad)) :=
  (exec_rowInstr op .host b cmd bad s).trans (congrArg Host.Outcome.next (if_pos ⟨front, may⟩))

theorem exec_host_waits {op : RowOp} {cmd : RowCmd} (waits : (getBank s b).queue.head? ≠ some (clampCmd { cmd with op := op }) ∨
    canRun s b (asExecuted s b (clampCmd { cmd with op := op })) = false) (bad : Option Nat) :
    exec (rowInstr op .host b cmd bad) s = .next s := by
  refine (exec_rowInstr op .host b cmd bad s).trans (congrArg Host.Outcome.next (if_neg fun ⟨front, may⟩ => ?_))
  obtain other | held := waits
  · exact other front
  · exact absurd may (Bool.eq_false_iff.mp held)

/-- Settles O43: the bank, the count and the rows after the command at the front of the queue, which waits elsewhere (log entry
45). -/
theorem hostRowCommandsComplete : Obligations.HostRowCommandsComplete := by
  intro op b cmd bad s
  refine ⟨fun front may => ⟨_, exec_host_runs front may bad, ?_⟩, fun waits => exec_host_waits waits bad⟩
  rw [hostRun_eq]
  refine ⟨?_, waitingCount_hostCounted s b _ _, hostCounted_rejected_cells s b _⟩
  rw [getBank_setBank_self, cmdOk_of_frame (hostCounted_frame s b _ _) rfl]

end Sys2Proof.Machine

/-! Clocks, power and start-up: the clock monitor, the frequency counter, throttling, bands, resets and the start-up steps
(R257, R433, R465 to R480). -/

namespace Sys2Proof.Machine

open Sys2Proof

variable {s : State}

/-! ### The clock monitor (R465 to R468) -/

theorem lookD_put_ne {κ α : Type} [DecidableEq κ] (l : List (κ × α)) {k q : κ} (v d : α) (other : q ≠ k) :
    lookD (put l k v) q d = lookD l q d := by
  rw [lookD, look_put_ne l v other, lookD]

theorem exec_clockMonitorWindow (on : nodeOn s = true) (w : ClockWindow) :
    exec (.clockMonitorWindow w) s = .next (restore (declare (countWindow s w))) := congrArg Host.Outcome.next (if_pos on)

section Window

variable (s : State) {pcie fab : Nat}

/-- A window in which REFCLK_FAB agrees with XTAL puts off no pair but that of REFCLK_PCIE. -/
theorem pairOff_countWindow_xtal (agree : agrees fab 6400 1 = true) {p : Nat} (other : p ≠ 0)
    (good : lookD s.clk.pairBad p 0 < 2) :
    pairOff (countWindow s (.xtal pcie fab)) p = false := by
  refine decide_eq_false (Nat.not_le.mpr ?_)
  by_cases h : p = 1
  · subst h
    have last : lookD (countWindow s (.xtal pcie fab)).clk.pairBad 1 0 =
        if agrees fab 6400 1 then 0 else lookD (countPair s 0 (agrees pcie 4096 1)).clk.pairBad 1 0 + 1 := lookD_put_self _ _ _ _
    rw [last, if_pos agree]
    exact Nat.zero_lt_two
  · have same : lookD (countWindow s (.xtal pcie fab)).clk.pairBad p 0 = lookD s.clk.pairBad p 0 :=
      (lookD_put_ne _ _ _ h).trans (lookD_put_ne _ _ _ other)
    rwa [same]

theorem pairBad_countWindow_pcie : lookD (countWindow s (.xtal pcie fab)).clk.pairBad 0 0 =
    if agrees pcie 4096 1 then 0 else lookD s.clk.pairBad 0 0 + 1 :=
  (lookD_put_ne _ _ _ Nat.zero_ne_one).trans (lookD_put_self _ _ _ _)

theorem pairGood_countWindow_pcie : lookD (countWindow s (.xtal pcie fab)).clk.pairGood 0 0 =
    if agrees pcie 4096 1 then lookD s.clk.pairGood 0 0 + 1 else 0 :=
  (lookD_put_ne _ _ _ Nat.zero_ne_one).trans (lookD_put_self _ _ _ _)

end Window

/-- Where REFCLK_FAB and OSC agree with XTAL and with each other, REFCLK_PCIE alone can have failed. -/
theorem offSources_pcie (sound : s.clk.failed = []) (quiet : ∀ p, p ≠ 0 → pairOff s p = false) :
    offSources s = if pairOff s 0 then [2] else [] := by
  simp [offSources, sound, quiet 1, quiet 2, quiet 3]

theorem declare_none (none : offSources s = []) : declare s = s := by
  unfold declare
  rw [none]
  rfl

/-- The state after REFCLK_PCIE has been declared failed. -/
def pcieLost (s : State) : State :=
  setObj (postEvent (loseSource s 2) 0x0001 (clockDetail (loseSource s 2))) Obj.CLOCK_LOSSES
    ((getObj s Obj.CLOCK_LOSSES + 1) % 2 ^ 64)

theorem declare_pcie (sound : s.clk.failed = []) (off : offSources s = [2]) : declare s = pcieLost s := by
  unfold declare
  rw [off, sound]
  rfl

theorem pcieLost_clk (s : State) : (pcieLost s).clk = (loseSource s 2).clk := postEvent_clk _ _ _

theorem pcieLost_failed (sound : s.clk.failed = []) : (pcieLost s).clk.failed = [2] := by
  rw [pcieLost_clk]
  exact congrArg (· ++ [2]) sound

theorem pcieLost_linkUp (s : State) : (pcieLost s).host.linkUp = false := postEvent_host_linkUp _ _ _

theorem clockDetail_pcie (sound : s.clk.failed = []) : clockDetail (loseSource s 2) = 4 + 256 * s.clk.fallback := by
  have failed : (loseSource s 2).clk.failed = [2] := congrArg (· ++ [2]) sound
  have fallback : (loseSource s 2).clk.fallback = s.clk.fallback := Nat.or_zero _
  rw [clockDetail, failedMask, failed, fallback]
  rfl

theorem pcieLost_logged (sound : s.clk.failed = []) : Logged s (pcieLost s) 0x0001 (4 + 256 * s.clk.fallback) :=
  clockDetail_pcie sound ▸ postEvent_logged (loseSource s 2) _ _

theorem restore_none (none : s.clk.failed.filter (sourceBack s) = []) : restore s = s := by
  unfold restore
  rw [none]
  rfl

/-- A source whose last window disagreed is not restored. -/
theorem restore_pcieLost (sound : s.clk.failed = []) (bad : lookD s.clk.pairGood 0 0 = 0) : restore (pcieLost s) = pcieLost s := by
  have failed := pcieLost_failed sound
  have good : lookD (pcieLost s).clk.pairGood 0 0 = 0 := by
    rw [pcieLost_clk]
    exact bad
  refine restore_none ?_
  simp [failed, sourceBack, pairBack, good]

/-- A window in which REFCLK_FAB agrees can declare REFCLK_PCIE alone. -/
theorem offSources_countWindow_xtal {pcie fab : Nat} (sound : s.clk.failed = []) (agree : agrees fab 6400 1 = true)
    (counts : ∀ p, lookD s.clk.pairBad p 0 < 2) : offSources (countWindow s (.xtal pcie fab)) =
      if 2 ≤ (if agrees pcie 4096 1 then 0 else lookD s.clk.pairBad 0 0 + 1) then [2] else [] := by
  have quiet := offSources_pcie (s := countWindow s (.xtal pcie fab)) sound fun p hp =>
    pairOff_countWindow_xtal s agree hp (counts p)
  rw [quiet, pairOff, pairBad_countWindow_pcie]
  simp only [decide_eq_true_eq]

section Agree

variable {pcie fab : Nat} (on : nodeOn s = true) (sound : s.clk.failed = []) (agreeFab : agrees fab 6400 1 = true)
include on sound agreeFab

theorem exec_clockMonitorWindow_pcie (counts : ∀ p, lookD s.clk.pairBad p 0 = if p = 0 then 1 else 0)
    (off : agrees pcie 4096 1 = false) :
    exec (.clockMonitorWindow (.xtal pcie fab)) s = .next (pcieLost (countWindow s (.xtal pcie fab))) := by
  have lost : offSources (countWindow s (.xtal pcie fab)) = [2] := by
    rw [offSources_countWindow_xtal sound agreeFab fun p => by rw [counts p]; split <;> omega, off, counts 0]
    rfl
  have good : lookD (countWindow s (.xtal pcie fab)).clk.pairGood 0 0 = 0 := by
    rw [pairGood_countWindow_pcie, off]
    rfl
  rw [exec_clockMonitorWindow on, declare_pcie (s := countWindow s (.xtal pcie fab)) sound lost,
    restore_pcieLost (s := countWindow s (.xtal pcie fab)) sound good]

theorem exec_clockMonitorWindow_agree (counts : ∀ p, lookD s.clk.pairBad p 0 < 2) (agree : agrees pcie 4096 1 = true) :
    exec (.clockMonitorWindow (.xtal pcie fab)) s = .next (countWindow s (.xtal pcie fab)) := by
  have none : offSources (countWindow s (.xtal pcie fab)) = [] := by
    rw [offSources_countWindow_xtal sound agreeFab counts, agree]
    rfl
  have back : restore (countWindow s (.xtal pcie fab)) = countWindow s (.xtal pcie fab) :=
    restore_none (congrArg (List.filter (sourceBack (countWindow s (.xtal pcie fab)))) sound)
  rw [exec_clockMonitorWindow on, declare_none none, back]

end Agree

/-! ### The frequency counter (R469) -/

theorem exec_fmcStart (on : nodeOn s = true) : exec .fmcStart s = .next (doFmcStart s) := congrArg Host.Outcome.next (if_pos on)

theorem doFmcStart_reads (s : State) : getObj (doFmcStart s) Obj.FMC_STATE = 1 ∧ getObj (doFmcStart s) Obj.FMC_START = 1 :=
  ⟨(getObj_setObj_ne _ _ (by decide)).trans (getObj_setObj_self _ _ _), getObj_setObj_self _ _ _⟩

/-- The state after a measurement has ended, before its outcome stands in the objects. -/
def fmcStopped (s : State) : State := setObj { s with clk := { s.clk with fmcRun := false, fmcBad := false } } Obj.FMC_START 0

/-- The state after a measurement has ended with a count. -/
def fmcMeasured (s : State) (n mhz : Nat) : State :=
  setObj (setObj (setObj (fmcStopped s) Obj.FMC_STATE 2) Obj.FMC_COUNT n) Obj.FMC_MHZ mhz

/-- The state after a measurement whose reference or target failed has ended. -/
def fmcFailed (s : State) : State := setObj (fmcStopped s) Obj.FMC_STATE 3

section Fmc

variable (on : nodeOn s = true) (run : s.clk.fmcRun = true)
include on run

theorem exec_fmcGateEnd_good (good : s.clk.fmcBad = false) (n : Nat) :
    ∃ mhz, exec (.fmcGateEnd n) s = .next (fmcMeasured s (n % 2 ^ 64) mhz) := by
  refine ⟨_, congrArg Host.Outcome.next ((if_neg ?_).trans (if_neg ?_))⟩
  · simp [on, run]
  · simp [good]

theorem exec_fmcGateEnd_bad (bad : s.clk.fmcBad = true) (n : Nat) : exec (.fmcGateEnd n) s = .next (fmcFailed s) := by
  refine congrArg Host.Outcome.next ((if_neg ?_).trans (if_pos bad))
  simp [on, run]

end Fmc

theorem fmcMeasured_reads (s : State) (n mhz : Nat) :
    getObj (fmcMeasured s n mhz) Obj.FMC_STATE = 2 ∧ getObj (fmcMeasured s n mhz) Obj.FMC_COUNT = n ∧
      getObj (fmcMeasured s n mhz) Obj.FMC_START = 0 := by
  unfold fmcMeasured fmcStopped
  refine ⟨?_, ?_, ?_⟩
  · rw [getObj_setObj_ne _ _ (by decide), getObj_setObj_ne _ _ (by decide), getObj_setObj_self]
  · rw [getObj_setObj_ne _ _ (by decide), getObj_setObj_self]
  · rw [getObj_setObj_ne _ _ (by decide), getObj_setObj_ne _ _ (by decide), getObj_setObj_ne _ _ (by decide), getObj_setObj_self]

theorem fmcFailed_reads (s : State) : getObj (fmcFailed s) Obj.FMC_STATE = 3 ∧ getObj (fmcFailed s) Obj.FMC_START = 0 :=
  ⟨getObj_setObj_self _ _ _, (getObj_setObj_ne _ _ (by decide)).trans (getObj_setObj_self _ _ _)⟩

/-! ### Power samples and throttling (R473, R474) -/

theorem exec_powerSample (on : nodeOn s = true) (rails : List Nat) (tj0 tj1 : Nat) (scr : List Nat) :
    exec (.powerSample rails tj0 tj1 scr) s = .next (doPowerSample s rails tj0 tj1 scr) := congrArg Host.Outcome.next (if_pos on)

/-- Whether the last ten samples exceed the power limit. -/
def overPower (s : State) : Bool := decide (getObj s Obj.PKG_LIMIT_W * 103 < 10 * s.clk.samples.foldl (· + ·) 0)

/-- Whether a junction reading exceeds the throttling temperature. -/
def overTemp (s : State) (tj : Nat) : Bool := decide (getObj s Obj.TJ_THROTTLE_C < tj)

/-- The stretch of half `h` and its clear steps after a sample whose hottest junction reads `tj`. -/
def stretchOf (s : State) (h tj : Nat) : Nat × Nat :=
  stretchStep (overPower s || overTemp s tj) (nth s.clk.stretch h) (nth s.clk.clearFor h)

/-- The episodes that go on after a sample: over the power limit, and of each half. -/
def episodesOf (s : State) (tj0 tj1 : Nat) : List Nat :=
  let on0 := episodeOn (overPower s) (s.clk.episodes.contains 0) (decide (0 < (stretchOf s 0 tj0).1 + (stretchOf s 1 tj1).1))
  let on1 := episodeOn (overTemp s tj0) (s.clk.episodes.contains 1) (decide (0 < (stretchOf s 0 tj0).1))
  let on2 := episodeOn (overTemp s tj1) (s.clk.episodes.contains 2) (decide (0 < (stretchOf s 1 tj1).1))
  (if on0 then [0] else []) ++ (if on1 then [1] else []) ++ (if on2 then [2] else [])

/-- The state in which a sample has stretched the clocks, before its events are posted and the turn is counted. -/
def stretched (s : State) (tj0 tj1 : Nat) : State :=
  { s with clk := { s.clk with
    stretch := [(stretchOf s 0 tj0).1, (stretchOf s 1 tj1).1], clearFor := [(stretchOf s 0 tj0).2, (stretchOf s 1 tj1).2]
    episodes := episodesOf s tj0 tj1 } }

/-- The events of the episodes that begin. -/
def throttlePosted (power : Bool) (therm : Nat) (s : State) : State :=
  let s := if power then postEvent s 0x1001 3 else s
  if therm = 0 then s else postEvent s 0x1002 therm

/-- The turn counts as one with a stretched clock. -/
def turnThrottled (s : State) : State := bump { s with clk := { s.clk with throttled := true } } Obj.THROTTLE_TURNS 1

theorem throttle_cases (s : State) (tj0 tj1 : Nat) : ∃ power therm,
    throttle s tj0 tj1 = throttlePosted power therm (stretched s tj0 tj1) ∨
      throttle s tj0 tj1 = turnThrottled (throttlePosted power therm (stretched s tj0 tj1)) :=
  ⟨_, _, (Decidable.em _).imp (fun clear => if_pos clear) fun stretches => if_neg stretches⟩

theorem throttlePosted_clk (power : Bool) (therm : Nat) (s : State) : (throttlePosted power therm s).clk = s.clk := by
  simp only [throttlePosted, apply_ite State.clk, postEvent_clk, ite_self]

/-- What of the clocks the count of the turn leaves is as the stretch leaves it. -/
theorem throttle_keeps {β : Type} (g : Clk → β) (kept : ∀ c v, g { c with throttled := v } = g c) (s : State) (tj0 tj1 : Nat) :
    g (throttle s tj0 tj1).clk = g (stretched s tj0 tj1).clk := by
  obtain ⟨power, therm, posted | counted⟩ := throttle_cases s tj0 tj1
  · rw [posted, throttlePosted_clk]
  · rw [counted, ← throttlePosted_clk power therm (stretched s tj0 tj1)]
    exact kept _ true

section Hot

variable {tj0 : Nat} (hot : getObj s Obj.TJ_THROTTLE_C < tj0) (tj1 : Nat)
include hot

/-- The stretch of a hot half rises by one, up to four. -/
theorem throttle_stretch : nth (throttle s tj0 tj1).clk.stretch 0 = min 4 (nth s.clk.stretch 0 + 1) := by
  rw [throttle_keeps Clk.stretch fun _ _ => rfl]
  have exceeds : overTemp s tj0 = true := decide_eq_true hot
  have step : (stretchOf s 0 tj0).1 = min 4 (nth s.clk.stretch 0 + 1) := by
    rw [stretchOf, exceeds, Bool.or_true]
    rfl
  exact step

/-- The episode of half 0 goes on while it is hot. -/
theorem throttle_episode : (throttle s tj0 tj1).clk.episodes.contains 1 = true := by
  rw [throttle_keeps Clk.episodes fun _ _ => rfl]
  have on : episodeOn (overTemp s tj0) (s.clk.episodes.contains 1) (decide (0 < (stretchOf s 0 tj0).1)) = true := by
    rw [episodeOn, overTemp, decide_eq_true hot, Bool.true_or]
  have here : 1 ∈ episodesOf s tj0 tj1 := by
    simp only [episodesOf, on, if_true]
    exact List.mem_append_left _ (List.mem_append_right _ List.mem_cons_self)
  exact List.contains_iff_mem.mpr here

end Hot

/-! ### Readings -/

/-- The state after the readings of a sample have been taken. -/
def sampleTaken (s : State) (rails : List Nat) (tj0 tj1 : Nat) (scr : List Nat) : State :=
  { s with clk := { s.clk with
    samples := ((rails.take 14).foldl (· + ·) 0 :: s.clk.samples).take 10, railSum := addLists s.clk.railSum (rails.take 14)
    powerN := s.clk.powerN + 1, tj := [tj0, tj1], scrTemp := scr.take 4 } }

/-- In diagnostic mode the readings are published with every sample. -/
def sampleShown (s : State) : State := if diagMode s then publishTemps (publishPower s 1) else s

theorem doPowerSample_eq (s : State) (rails : List Nat) (tj0 tj1 : Nat) (scr : List Nat) : doPowerSample s rails tj0 tj1 scr =
    throttle (scratchHot (sampleShown (sampleTaken s rails tj0 tj1 scr)) s.clk.scrTemp) tj0 tj1 := rfl

/-- The rail powers are published, `n` samples summed, rounded down to `q` watts. -/
def showRails (n q : Nat) (rails : List (Nat × Nat)) (s : State) : State :=
  rails.foldl (fun s p => setObj s (Obj.RAIL_POWER_W (p.2 + 1)) (min 65535 (p.1 / n / q * q))) s

/-- The sums of the readings begin anew. -/
def restartSums (s : State) : State := { s with clk := { s.clk with railSum := [], powerN := 0 } }

theorem publishPower_eq (s : State) (q : Nat) : publishPower s q =
    restartSums (showRails (max 1 s.clk.powerN) q s.clk.railSum.zipIdx (setObj s Obj.PKG_POWER_W
      (min 65535 (s.clk.railSum.foldl (· + ·) 0 / max 1 s.clk.powerN / q * q)))) := rfl

/-- Writing objects leaves the clocks. -/
theorem clk_foldl_setObj {α : Type} (addr val : State → α → Nat) (l : List α) (s : State) :
    (l.foldl (fun s a => setObj s (addr s a) (val s a)) s).clk = s.clk := foldl_keeps _ State.clk (fun _ _ => setObj_clk _ _ _) l s

theorem clk_showRails (n q : Nat) (rails : List (Nat × Nat)) (s : State) : (showRails n q rails s).clk = s.clk :=
  clk_foldl_setObj _ _ rails s

/-- The objects of the readings are none of them the throttling temperature. -/
theorem limit_showRails (n q : Nat) (rails : List (Nat × Nat)) (s : State) :
    getObj (showRails n q rails s) Obj.TJ_THROTTLE_C = getObj s Obj.TJ_THROTTLE_C := by
  have other : ∀ i, Obj.TJ_THROTTLE_C ≠ Obj.RAIL_POWER_W i := fun i => Nat.ne_of_lt (Nat.lt_add_right i (by decide))
  exact foldl_keeps _ (fun s => getObj s Obj.TJ_THROTTLE_C) (fun s p => getObj_setObj_ne s _ (other _)) rails s

theorem limit_publishPower (s : State) (q : Nat) : getObj (publishPower s q) Obj.TJ_THROTTLE_C = getObj s Obj.TJ_THROTTLE_C := by
  rw [publishPower_eq]
  exact (limit_showRails _ q _ _).trans (getObj_setObj_ne s _ (by decide))

theorem limit_publishTemps (s : State) : getObj (publishTemps s) Obj.TJ_THROTTLE_C = getObj s Obj.TJ_THROTTLE_C := by
  have other : ∀ i, Obj.TJ_THROTTLE_C ≠ Obj.STACK_TEMP_C i := fun i => Nat.ne_of_lt (Nat.lt_add_right i (by decide))
  unfold publishTemps
  dsimp only
  rw [foldl_keeps _ (fun s => getObj s Obj.TJ_THROTTLE_C) (fun s p => getObj_setObj_ne s _ (other _)),
    getObj_setObj_ne _ _ (by decide), getObj_setObj_ne _ _ (by decide), getObj_setObj_ne _ _ (by decide)]

/-- The publication of the power readings touches neither the stretch nor the junction readings. -/
theorem publishPower_clk (s : State) (q : Nat) :
    (publishPower s q).clk.stretch = s.clk.stretch ∧ (publishPower s q).clk.tj = s.clk.tj := by
  rw [publishPower_eq, restartSums, clk_showRails]
  exact ⟨rfl, rfl⟩

theorem sampleShown_keeps (s : State) : getObj (sampleShown s) Obj.TJ_THROTTLE_C = getObj s Obj.TJ_THROTTLE_C ∧
    (sampleShown s).clk.stretch = s.clk.stretch ∧ (sampleShown s).clk.tj = s.clk.tj := by
  unfold sampleShown
  split
  · have clk : (publishTemps (publishPower s 1)).clk = (publishPower s 1).clk := (publishTemps_frame _).keep .clk rfl
    rw [clk, limit_publishTemps]
    exact ⟨limit_publishPower s 1, publishPower_clk s 1⟩
  · exact ⟨rfl, rfl, rfl⟩

theorem doPowerSample_hot {tj0 : Nat} (hot : getObj s Obj.TJ_THROTTLE_C < tj0) (rails : List Nat) (tj1 : Nat) (scr : List Nat) :
    let t := doPowerSample s rails tj0 tj1 scr
    nth t.clk.stretch 0 = min 4 (nth s.clk.stretch 0 + 1) ∧ t.clk.tj = [tj0, tj1] ∧ t.clk.episodes.contains 1 = true := by
  obtain ⟨limit, stretch, tj⟩ := sampleShown_keeps (sampleTaken s rails tj0 tj1 scr)
  have events := scratchHot_frame (sampleShown (sampleTaken s rails tj0 tj1 scr)) s.clk.scrTemp
  have clk := events.keep .clk rfl
  have still := (events.getObj rfl Obj.TJ_THROTTLE_C).trans limit
  rw [doPowerSample_eq]
  refine ⟨?_, ?_, throttle_episode (still ▸ hot) tj1⟩
  · rw [throttle_stretch (still ▸ hot) tj1, clk, stretch]
    rfl
  · rw [throttle_keeps Clk.tj fun _ _ => rfl]
    exact (congrArg Clk.tj clk).trans tj

/-! ### Trips and bands (R257, R475, R476) -/

theorem thermalTrip_completes (on : nodeOn s = true) : Completes .thermalTrip s fun t =>
    t.clk.tripped = true ∧ t.out = s.out ++ [Output.thermTrip] ∧ ∃ code detail, Logged s t code detail := by
  refine ⟨_, congrArg Host.Outcome.next (if_neg ?_), rfl, rfl, _, _, rfl⟩
  simp [on]

/-- The band of a stack at a temperature. -/
def bandAt (s : State) (stack temp : Nat) : Nat := max (bandUp temp) (bandDown temp (getObj s (Obj.STACK_BAND stack)))

/-- The state after a stack's temperature has been read. -/
def tempRead (s : State) (stack temp : Nat) : State :=
  let s := { s with clk := { s.clk with stackTemp := put s.clk.stackTemp stack (min 255 temp) } }
  if diagMode s then setObj s (Obj.STACK_TEMP_C stack) (min 255 temp) else s

/-- The state after a stack's band has followed its temperature. -/
def bandSet (s : State) (stack temp : Nat) : State := setObj (tempRead s stack temp) (Obj.STACK_BAND stack) (bandAt s stack temp)

theorem exec_stackBandChange (s : State) (stack temp : Nat) : exec (.stackBandChange stack temp) s =
    .next (if getObj s (Obj.STACK_BAND stack) ≠ 3 ∧ bandAt s stack temp = 3 then postEvent (bandSet s stack temp) 0x1003 stack
      else bandSet s stack temp) := rfl

theorem bandSet_frame (s : State) (stack temp : Nat) : Frame [.objs, .clk] s (bandSet s stack temp) := by
  have read : Frame [.objs, .clk] s (tempRead s stack temp) := by
    have taken := (Frame.refl [.objs, .clk] s).then (frame_set_clk (clk := { s.clk with
      stackTemp := put s.clk.stackTemp stack (min 255 temp) })) rfl
    exact Frame.ite (taken.then (setObj_frame _ _ _) rfl) taken
  exact read.then (setObj_frame _ _ _) rfl

theorem stackBandChange_band (s : State) (stack temp : Nat) : Completes (.stackBandChange stack temp) s fun t =>
    getObj t (Obj.STACK_BAND stack) = bandAt s stack temp ∧
      (getObj s (Obj.STACK_BAND stack) ≠ 3 → bandAt s stack temp = 3 → Logged s t 0x1003 stack) := by
  have band : getObj (bandSet s stack temp) (Obj.STACK_BAND stack) = bandAt s stack temp := getObj_setObj_self _ _ _
  refine ⟨_, exec_stackBandChange s stack temp, ?_⟩
  split
  · have logged := (bandSet_frame s stack temp).logged rfl rfl (postEvent_logged _ 0x1003 stack)
    exact ⟨(getObj_postEvent _ _ _ _).trans band, fun _ _ => logged⟩
  · next stays => exact ⟨band, fun low hot => absurd ⟨low, hot⟩ stays⟩

theorem bandDown_le (temp band : Nat) : bandDown temp band ≤ band := by
  induction band with
  | zero => exact Nat.le_refl 0
  | succ b ih =>
    unfold bandDown
    split
    · exact Nat.le_succ_of_le ih
    · exact Nat.le_refl _

theorem bandDown_cool {temp : Nat} (cool : temp ≤ 83) (band : Nat) : bandDown temp band = 0 := by
  induction band with
  | zero => rfl
  | succ b ih => rw [bandDown, if_pos (by omega), ih]

theorem bandAt_hot {stack temp : Nat} (hot : 95 < temp) (le : getObj s (Obj.STACK_BAND stack) ≤ 3) : bandAt s stack temp = 3 := by
  rw [bandAt, bandUp, if_pos hot]
  exact Nat.max_eq_left (Nat.le_trans (bandDown_le _ _) le)

theorem bandAt_cool {temp : Nat} (cool : temp ≤ 83) (stack : Nat) : bandAt s stack temp = 0 := by
  have up : bandUp temp = 0 := by
    rw [bandUp, if_neg (by omega), if_neg (by omega), if_neg (by omega)]
  rw [bandAt, up, bandDown_cool cool, Nat.max_self]

/-! ### Resets (R472, R477, R478) -/

theorem exec_por_rises (low : s.clk.porLow = true) (untripped : s.clk.tripped = false) : exec (.por true) s =
    .next { s with clk := { Clk.reset with freqs := s.nv.freqs, resetCause := if s.clk.powered then 1 else 0 } } := by
  have proceeds : ¬((!s.clk.porLow || (s.clk.tripped && s.clk.powered)) = true) := by simp [low, untripped]
  refine congrArg Host.Outcome.next ((if_neg proceeds).trans ?_)
  rw [untripped]
  rfl

theorem exec_perstAssert (high : s.host.perstLow = false) : exec .perstAssert s =
    .next { dropResults s with host := { HostIf.reset with perstLow := true }, dict := { s.dict with mb := Mailbox.reset } } :=
  congrArg Host.Outcome.next (if_neg (Bool.eq_false_iff.mp high))

/-! ### Start-up (R433, R479) -/

theorem bootStage_of_inStep {n : Nat} (h : inStep s n = true) : s.clk.bootStage = n := by
  rw [inStep, Bool.and_eq_true, beq_iff_eq] at h
  exact h.2

theorem copyPasses_of {c : Option Nat} {v : Nat} (svn : c = some v) (least : s.nv.minSvn ≤ v) : copyPasses s c = true := by
  rw [svn]
  exact decide_eq_true least

section Boot

variable {a b : Option Nat} {ms : Nat} (step : inStep s 2 = true) (fresh : s.clk.bootFailed = false)
  (first : s.nv.activateB = false)
include step fresh first

theorem doBoot_eq : doBoot s a b ms =
    if copyPasses s (copySvn s.nv.fwA a) then startFirmware s false ((copySvn s.nv.fwA a).getD 0) ms
    else if copyPasses s (copySvn s.nv.fwB b) then startFirmware s true ((copySvn s.nv.fwB b).getD 0) ms
    else { s with clk := { s.clk with bootFailed := true } } := by
  unfold doBoot
  rw [step, fresh, first]
  rfl

theorem exec_bootComplete_first {v : Nat} (svn : copySvn s.nv.fwA a = some v) (least : s.nv.minSvn ≤ v) :
    exec (.bootComplete a b ms) s = .next (startFirmware s false v ms) := by
  refine congrArg Host.Outcome.next ?_
  rw [doBoot_eq step fresh first, copyPasses_of svn least, svn]
  rfl

theorem exec_bootComplete_second {v : Nat} (bad : copyPasses s (copySvn s.nv.fwA a) = false) (svn : copySvn s.nv.fwB b = some v)
    (least : s.nv.minSvn ≤ v) : exec (.bootComplete a b ms) s = .next (startFirmware s true v ms) := by
  refine congrArg Host.Outcome.next ?_
  rw [doBoot_eq step fresh first, bad, copyPasses_of svn least, svn]
  rfl

theorem exec_bootComplete_neither (badA : copyPasses s (copySvn s.nv.fwA a) = false)
    (badB : copyPasses s (copySvn s.nv.fwB b) = false) :
    exec (.bootComplete a b ms) s = .next { s with clk := { s.clk with bootFailed := true } } := by
  refine congrArg Host.Outcome.next ?_
  rw [doBoot_eq step fresh first, badA, badB]
  rfl

end Boot

theorem exec_memoryTrainingComplete (step : inStep s 3 = true) (failed : List Nat) (ms : Nat) :
    exec (.memoryTrainingComplete failed ms) s = .next (recordFail (endStep s 3 ms) ((failed.filter (· < 8)).map (384 + ·))) :=
  congrArg Host.Outcome.next (if_pos step)

theorem mem_recordFail {u : Nat} {units : List Nat} (here : u ∈ units) (s : State) : u ∈ (recordFail s units).ras.selfFail :=
  mem_nub.mpr (List.mem_append_right _ here)

/-! ### Repair (R349, R350) -/

/-- A Scratch Bank that is retired stays so, and OWNER reads 0xFF. -/
def Retired (s : State) (n : Nat) : Prop := (getScr s n).retired = true ∧ (getScr s n).owner = 255

theorem retired_retireBank_self (s : State) (n : Nat) : Retired (retireBank s n) n := by
  rw [Retired, retireBank, getScr_setScr_self]
  exact ⟨rfl, rfl⟩

theorem Retired.retireBank {n : Nat} (h : Retired s n) (b : Nat) : Retired (retireBank s b) n := by
  by_cases here : n = b
  · exact here ▸ retired_retireBank_self s n
  · rw [Retired, Machine.retireBank, getScr_setScr_ne _ _ here]
    exact h

theorem Retired.foldl {n : Nat} (bs : List Nat) (h : Retired s n) : Retired (bs.foldl Machine.retireBank s) n := by
  induction bs generalizing s with
  | nil => exact h
  | cons b bs ih => exact ih (h.retireBank b)

theorem retired_of_mem {n : Nat} {bs : List Nat} (here : n ∈ bs) (s : State) : Retired (bs.foldl retireBank s) n := by
  induction bs generalizing s with
  | nil => cases here
  | cons b bs ih =>
    obtain rfl | later := List.mem_cons.mp here
    · exact (retired_retireBank_self s n).foldl bs
    · exact ih later _

/-- Retiring banks changes their registers alone. -/
theorem foldl_retireBank_keeps {β : Type} (g : State → β) (kept : ∀ s n v, g (setScr s n v) = g s) (bs : List Nat) (s : State) :
    g (bs.foldl retireBank s) = g s := foldl_keeps _ g (fun _ _ => kept _ _ _) bs s

section Repair

variable (s : State) (fuses banks tiles : List Nat) (ms : Nat)

theorem exec_repairFuseLoadComplete (step : inStep s 4 = true) :
    exec (.repairFuseLoadComplete fuses banks tiles ms) s = .next (doRepairLoad s fuses banks tiles ms) :=
  congrArg Host.Outcome.next (if_pos step)

theorem doRepairLoad_bootStage : (doRepairLoad s fuses banks tiles ms).clk.bootStage = 5 :=
  foldl_retireBank_keeps (fun s => s.clk.bootStage) (fun _ _ _ => rfl) _ _

theorem doRepairLoad_steered : (doRepairLoad s fuses banks tiles ms).scratch.steered =
    steer ((fuses.take 4096).map repairWord ++ s.nv.softRepair) :=
  foldl_retireBank_keeps (fun s => s.scratch.steered) (fun _ _ _ => rfl) _ _

variable {banks}

theorem retired_doRepairLoad {n : Nat} (here : n ∈ banks) (exist : n < 256) : Retired (doRepairLoad s fuses banks tiles ms) n :=
  retired_of_mem (mem_nub.mpr (List.mem_filter.mpr ⟨here, decide_eq_true exist⟩)) _

end Repair

/-! ### Flash (R353, R354) -/

section Mount

variable (s : State) (present trained differ : List Nat) (margins : List (Nat × Nat)) (targets luns raw ms : Nat)

theorem exec_flashTranslationMount (step : inStep s 5 = true) :
    exec (.flashTranslationMount present trained differ margins targets luns raw ms) s =
      .next (doMount s present trained differ margins targets luns raw ms) := congrArg Host.Outcome.next (if_pos step)

/-- The objects of a channel lie past those of the part. -/
theorem dies_ne_chan (c : Nat) : Obj.DIES ≠ Obj.chan_DIES_READ_ONLY c := by
  show 0x600002 ≠ (0x6010 + c) * 256 + 0x05
  omega

theorem doMount_dies : getObj (doMount s present trained differ margins targets luns raw ms) Obj.DIES =
    min 2048 ((mountable (trained.filter present.contains) differ).length * targets * luns) := by
  unfold doMount
  dsimp only
  rw [getObj_setObj_ne _ _ (by decide), foldl_keeps _ (fun s => getObj s Obj.DIES) (fun s c => getObj_postEvent s _ c _)]
  refine (foldl_keeps _ (fun s => getObj s Obj.DIES) (fun s c => getObj_setObj_ne s _ (dies_ne_chan c)) _ _).trans ?_
  have capacity : ∀ (u : State) (d r g : Nat),
      getObj (setObj (setObj (setObj u Obj.DIES d) Obj.RAW_GB r) Obj.USER_GB g) Obj.DIES = d := fun u d r g => by
    rw [getObj_setObj_ne _ _ (by decide), getObj_setObj_ne _ _ (by decide), getObj_setObj_self]
  split
  · exact capacity _ _ _ _
  · exact capacity _ _ _ _

theorem doMount_bootStage : (doMount s present trained differ margins targets luns raw ms).clk.bootStage = 6 := by
  have clk : (doMount s present trained differ margins targets luns raw ms).clk = (endStep s 5 ms).clk := by
    unfold doMount
    dsimp only
    rw [setObj_clk, foldl_keeps _ State.clk (fun s c => postEvent_clk s _ c)]
    refine (clk_foldl_setObj _ _ _ _).trans ?_
    split
    · exact (clk_foldl_setObj _ _ margins _).trans (clk_foldl_setObj _ _ _ _)
    · exact (clk_foldl_setObj _ _ margins _).trans (clk_foldl_setObj _ _ _ _)
  exact congrArg Clk.bootStage clk

end Mount

/-! ### The index versions and READY (R443, R479, R480) -/

theorem exec_indexVersionsSwitch (step : inStep s 6 = true) (ms : Nat) :
    exec (.indexVersionsSwitch ms) s = .next (doVersionsSwitch s ms) := congrArg Host.Outcome.next (if_pos step)

/-- The discard that a loss of power cut is completed. -/
def scrubResumed (s : State) : State :=
  if s.nv.scrubPending then { s with nv := { s.nv with retained := [] }, flash := { s.flash with maps := [], used := 0 } } else s

theorem doVersionsSwitch_reads (s : State) (ms : Nat) :
    (doVersionsSwitch s ms).clk.bootStage = 7 ∧ (doVersionsSwitch s ms).clk.stepDone = true ∧
      (doVersionsSwitch s ms).clk.readyDue = nextTurn s.turn.no := by
  have no : (scrubResumed s).turn.no = s.turn.no := by
    unfold scrubResumed
    split
    · rfl
    · rfl
  exact ⟨rfl, rfl, congrArg nextTurn no⟩

theorem doVersionsSwitch_scrubbed (pending : s.nv.scrubPending = true) (ms : Nat) :
    (doVersionsSwitch s ms).nv.retained = [] ∧ (doVersionsSwitch s ms).flash.maps = [] := by
  have resumed : scrubResumed s =
    { s with nv := { s.nv with retained := [] }, flash := { s.flash with maps := [], used := 0 } } := if_pos pending
  exact ⟨congrArg (fun u : State => u.nv.retained) resumed, congrArg (fun u : State => u.flash.maps) resumed⟩

theorem exec_ready (step : inStep s 7 = true) (done : s.clk.stepDone = true) (phase : s.turn.phase = .p5)
    (due : s.clk.readyDue ≤ s.turn.no) (ms : Nat) : exec (.ready ms) s = .next (doReady s ms) := by
  refine congrArg Host.Outcome.next (if_pos ?_)
  simp [step, done, phase, due]

theorem exec_ready_early (early : inStep s 7 = false) (ms : Nat) : exec (.ready ms) s = .next s := by
  refine congrArg Host.Outcome.next (if_neg ?_)
  simp [early]

/-- The log may have taken the event of the cut scrub; the rest of what survives a loss of power is as READY leaves it. -/
theorem doReady_minSvn (s : State) (ms : Nat) : (doReady s ms).nv.minSvn = max s.nv.minSvn s.sec.fwSvn := by
  unfold doReady
  dsimp only
  split
  · rfl
  · rfl

theorem doReady_scrubbed (pending : s.nv.scrubPending = true) (ms : Nat) :
    (doReady s ms).nv.tenant = 0 ∧ (doReady s ms).nv.switches = (s.nv.switches + 1) % 2 ^ 64 := by
  unfold doReady
  rw [pending]
  exact ⟨rfl, rfl⟩

theorem exec_retainedMediaDiscard (member : isMember s = true) (late : s.ras.load + 65535 ≤ s.turn.no)
    (kept : s.nv.retained ≠ []) :
    exec .retainedMediaDiscard s =
      .next (discardPages { s with nv := { s.nv with retained := [] } } (s.nv.retained.flatMap fun r => r.2.2)) := by
  refine congrArg Host.Outcome.next (if_pos ?_)
  simp [member, late, kept]

/-- Settles O60, clause by clause (log entries 1, 63, 64 and 91). -/
theorem nodeStartsAndStops : Obligations.NodeStartsAndStops := by
  intro s
  refine ⟨?_, ?_, ?_, ?_, ?_, ?_, ?_, ?_, ?_, ?_, ?_, ?_, ?_, ?_, ?_, ?_, ?_, ?_, ?_, ?_⟩
  · intro pcie fab on sound counts off agree
    exact ⟨_, exec_clockMonitorWindow_pcie on sound agree counts off, pcieLost_failed sound, pcieLost_linkUp _,
      pcieLost_logged (s := countWindow s (.xtal pcie fab)) sound, getObj_setObj_self _ _ _⟩
  · intro pcie fab on sound counts agree agreeFab
    exact ⟨_, exec_clockMonitorWindow_agree on sound agreeFab counts agree, sound, rfl⟩
  · exact fun on => ⟨_, exec_fmcStart on, rfl, doFmcStart_reads s⟩
  · refine fun n on run => ⟨fun good => ?_, fun bad => ⟨_, exec_fmcGateEnd_bad on run bad n, rfl, fmcFailed_reads s⟩⟩
    obtain ⟨mhz, measured⟩ := exec_fmcGateEnd_good on run good n
    exact ⟨_, measured, rfl, fmcMeasured_reads s _ mhz⟩
  · exact fun rails tj0 tj1 scr on hot => ⟨_, exec_powerSample on rails tj0 tj1 scr, doPowerSample_hot hot rails tj1 scr⟩
  · exact thermalTrip_completes
  · refine fun stack temp => ⟨fun hot le => ?_, fun cool _ => ?_⟩
    · exact (stackBandChange_band s stack temp).imp fun t ⟨band, logged⟩ =>
        ⟨band.trans (bandAt_hot hot le), fun low => logged low (bandAt_hot hot le)⟩
    · exact (stackBandChange_band s stack temp).imp fun t ⟨band, _⟩ => band.trans (bandAt_cool cool stack)
  · exact ⟨porLow s, rfl, rfl, rfl, rfl, rfl, rfl, rfl, rfl, rfl⟩
  · exact fun low untripped => ⟨_, exec_por_rises low untripped, rfl, rfl, rfl, rfl⟩
  · exact ⟨_, rfl, rfl, rfl, rfl, rfl⟩
  · exact fun high => ⟨_, exec_perstAssert high, rfl, rfl, rfl, rfl, rfl⟩
  · exact ⟨_, rfl, rfl⟩
  · intro a b ms step fresh first
    refine ⟨fun v svn least => ?_, fun v bad svn least => ?_, fun badA badB => ?_⟩
    · exact ⟨_, exec_bootComplete_first step fresh first svn least, rfl, rfl, rfl, rfl, rfl⟩
    · exact ⟨_, exec_bootComplete_second step fresh first bad svn least, rfl, rfl, rfl, rfl, rfl⟩
    · exact ⟨_, exec_bootComplete_neither step fresh first badA badB, bootStage_of_inStep step, rfl, rfl⟩
  · refine fun failed ms step => ⟨_, exec_memoryTrainingComplete step failed ms, rfl, fun n here small => mem_recordFail ?_ _⟩
    exact List.mem_map.mpr ⟨n, List.mem_filter.mpr ⟨here, decide_eq_true small⟩, rfl⟩
  · exact fun fuses banks tiles ms step => ⟨_, exec_repairFuseLoadComplete s fuses banks tiles ms step,
      doRepairLoad_bootStage .., doRepairLoad_steered .., fun n here exist => retired_doRepairLoad s fuses tiles ms here exist⟩
  · exact fun present trained differ margins targets luns raw ms step =>
      ⟨_, exec_flashTranslationMount s _ _ _ _ _ _ _ _ step, doMount_bootStage .., doMount_dies ..⟩
  · intro ms step
    obtain ⟨stage, done, due⟩ := doVersionsSwitch_reads s ms
    exact ⟨_, exec_indexVersionsSwitch step ms, stage, done, due, fun pending => doVersionsSwitch_scrubbed pending ms⟩
  · exact fun ms step done phase due => ⟨_, exec_ready step done phase due ms, rfl, doReady_minSvn s ms,
      fun pending => doReady_scrubbed pending ms⟩
  · exact fun ms early => exec_ready_early early ms
  · exact fun member late kept => ⟨_, exec_retainedMediaDiscard member late kept, rfl⟩

end Sys2Proof.Machine

/-! Ingest: entries taken up, committed, reported stale and staged anew (R295, R296, R299 to R302; log entry 47). -/

namespace Sys2Proof.Machine

open Sys2Proof

variable {s : State} {w : Write} {wid : Nat}

/-! ### Entries taken up (R295, R299; Table 13.1) -/

/-- An entry that the Ingest Engine has not taken up yet. -/
structure AwaitsTakeUp (s : State) (wid : Nat) (w : Write) : Prop where
  found : getWrite s wid = some w
  fresh : w.ready = false
  sound : w.refused = none

/-- An entry once it has been taken up. -/
def Write.takenUp (w : Write) : Write := { w with ready := true }

/-- An operation takes up the entries that are its own. -/
theorem AwaitsTakeUp.passes (h : AwaitsTakeUp s wid w) {op : IngOp} (own : w.op = op) :
    ¬(w.op ≠ op ∨ w.ready = true ∨ w.refused.isSome = true) := by
  simp [own, h.fresh, h.sound]

theorem AwaitsTakeUp.takeUp_noId (h : AwaitsTakeUp s wid w) {op : IngOp} (own : w.op = op) (noid : w.noid = true) :
    takeUp s op wid = bump (onWrite s wid Write.takenUp) Obj.NOID_DISCARDS 1 := by
  unfold takeUp
  rw [h.found]
  exact (if_neg (h.passes own)).trans (if_pos noid)

/-- An entry with an ID goes on by its operation and by what it is for. -/
theorem AwaitsTakeUp.takeUp_nop (h : AwaitsTakeUp s wid w) (own : w.op = .nop) (id : w.noid = false) :
    takeUp s .nop wid = onWrite s wid Write.takenUp := by
  unfold takeUp
  rw [h.found]
  exact (if_neg (h.passes own)).trans (if_neg (ne_true_of_eq_false id))

theorem AwaitsTakeUp.takeUp_delete (h : AwaitsTakeUp s wid w) (own : w.op = .delete) (id : w.noid = false)
    (vector : w.table = none) : takeUp s .delete wid = onWrite s wid Write.takenUp := by
  unfold takeUp
  rw [h.found]
  dsimp only
  rw [if_neg (h.passes own), if_neg (ne_true_of_eq_false id), vector]
  rfl

theorem AwaitsTakeUp.takeUp_creates (h : AwaitsTakeUp s wid w) {op : IngOp} (own : w.op = op) (id : w.noid = false)
    (vector : w.table = none) (creates : op = .insert ∨ op = .upsert) : takeUp s op wid = stageWrite s w := by
  unfold takeUp
  rw [h.found]
  dsimp only
  rw [if_neg (h.passes own), if_neg (ne_true_of_eq_false id), vector]
  obtain rfl | rfl := creates <;> rfl

/-- An entry taken up is ready, and nothing has left the node. -/
theorem onWrite_takenUp_reads (h : getWrite s wid = some w) :
    (onWrite s wid Write.takenUp).fab = s.fab ∧ getWrite (onWrite s wid Write.takenUp) wid = some { w with ready := true } :=
  ⟨rfl, getWrite_onWrite h fun _ => rfl⟩

theorem stageWrite_eq (s : State) (w : Write) :
    stageWrite s w = onWrite (sendList s (w.holders.map fun h => (h, Sect.stage w.prep))) w.wid
      fun w => { w with ready := true, sentTurn := s.turn.no } := by
  unfold stageWrite
  rw [sendAll_eq]
  rfl

/-- The vector is sent to every holder, and the turn in which it left is kept (R299, Table 13.2). -/
theorem stageWrite_reads (h : getWrite s w.wid = some w) :
    (stageWrite s w).fab.out = s.fab.out ++ w.holders.map (fun h => (h, Sect.stage w.prep)) ∧
      getWrite (stageWrite s w) w.wid = some { w with ready := true, sentTurn := s.turn.no } := by
  rw [stageWrite_eq]
  exact ⟨rfl, getWrite_onWrite (s := sendList s _) h fun _ => rfl⟩

theorem AwaitsTakeUp.staged (h : AwaitsTakeUp s wid w) {op : IngOp} (own : w.op = op) (id : w.noid = false)
    (vector : w.table = none) (creates : op = .insert ∨ op = .upsert) :
    (takeUp s op wid).fab.out = s.fab.out ++ w.holders.map (fun h => (h, Sect.stage w.prep)) ∧
      getWrite (takeUp s op wid) wid = some { w with ready := true, sentTurn := s.turn.no } := by
  rw [h.takeUp_creates own id vector creates]
  obtain rfl := getWrite_wid h.found
  exact stageWrite_reads h.found

/-! ### Commits (R296, R301, R302, R83) -/

theorem mayCommit_eq_true : mayCommit s w = true ↔ queueHead s w = true ∧ (getQ s (getQ s w.sq).resultQ).told = false ∧
    w.refused = none ∧ w.ready = true ∧ w.minTurn ≤ s.turn.no ∧ (w.creates = true → w.allAcked = true) := by
  simp [mayCommit, and_assoc, Decidable.imp_iff_not_or]

theorem Write.table_of_creates (h : w.creates = true) : w.table = none := by
  simp only [Write.creates, Bool.and_eq_true, Option.isNone_iff_eq_none] at h
  obtain ⟨⟨vector, -⟩, -⟩ := h
  exact vector

/-- A vector waits for no group of a table. -/
theorem rowAway_of_vector (s : State) (vector : w.table = none) : rowAway s w = false := by
  have noRow : rowTarget s w = none := by
    unfold rowTarget
    rw [vector, Option.bind_none, ite_self]
  unfold rowAway
  rw [noRow, Option.any_none]

theorem tryCommit_of_mayCommit (found : getWrite s wid = some w) (vector : w.table = none) (may : mayCommit s w = true) :
    tryCommit s wid = answerCommit s w := by
  obtain ⟨-, -, sound, -⟩ := mayCommit_eq_true.mp may
  unfold tryCommit
  simp only [found, sound, may, rowAway_of_vector s vector, Option.isSome_none, Bool.not_true, Bool.false_eq_true, if_false]
  rfl

theorem tryCommit_of_not_mayCommit (found : getWrite s wid = some w) (sound : w.refused = none) (waits : mayCommit s w = false) :
    tryCommit s wid = s := by
  unfold tryCommit
  simp only [found, sound, waits, Option.isSome_none, Bool.not_false, Bool.false_eq_true, if_false, if_true]

/-- The record that the commit of a write, or its abort, puts into the batch of its turn (R302). -/
def batchRec (w : Write) (abort : Bool) : CommitRec :=
  { wid := w.prep.wid, coll := w.coll, op := w.op, id := w.id, key := w.prep.key, abort := abort, seq := w.wid }

theorem commitRec_commitOut (s : State) (w : Write) (abort : Bool) :
    (commitRec s w abort).ing.commitOut = s.ing.commitOut ++ [(w.wid, batchRec w abort)] := rfl

/-- The effect of the commit of a vector on the engine is its record in the batch. -/
theorem commitEffect_ing (vector : w.table = none) (id : w.noid = false) (acts : w.op ≠ .nop) :
    (commitEffect s w).ing = (commitRec s w false).ing := by
  unfold commitEffect
  simp only [vector, id, acts, decide_false, Bool.or_self, Bool.false_eq_true, if_false]
  split
  · exact (addDrift_frame _ w).keep .ing rfl
  · rfl

theorem finishWrite_commitOut (s : State) (w : Write) (st : Status) : (finishWrite s w st).ing.commitOut = s.ing.commitOut := by
  have kept : (postResult s (ingestRes s w st)).ing = s.ing := (postResult_frame s _).keep .ing rfl
  unfold finishWrite
  dsimp only
  rw [kept]

theorem finishWrite_results (s : State) (w : Write) (st : Status) :
    ∃ l, (finishWrite s w st).host.results = s.host.results ++ l := by
  change ∃ l, (postResult s (ingestRes s w st)).host.results = s.host.results ++ l
  unfold postResult
  split
  · exact ⟨[], (List.append_nil _).symm⟩
  · exact ⟨_, rfl⟩

/-- A commit's effect reads what the result is made of as it was. -/
theorem commitEffect_ingestRes (s : State) (w : Write) (st : Status) : ingestRes (commitEffect s w) w st = ingestRes s w st := by
  have same := commitEffect_frame s w
  have queues : (commitEffect s w).host.queues = s.host.queues := same.keep .queues rfl
  have turn : (commitEffect s w).turn.no = s.turn.no := same.keep .turnNo rfl
  unfold ingestRes getQ
  rw [queues, turn]

/-- The commit's own result comes first among those that it posts. -/
theorem commitWrite_results (may : mayCommit s w = true) (hsq : w.sq < 16384) :
    (commitWrite s w).host.results = s.host.results ++ [ingestRes s w .ok] := by
  obtain ⟨-, untold, -⟩ := mayCommit_eq_true.mp may
  have same := commitEffect_frame s w
  have queues : (commitEffect s w).host.queues = s.host.queues := same.keep .queues rfl
  obtain ⟨-, results, -⟩ := same.keep .rings rfl
  have untold' : (getQ (commitEffect s w) (ingestRes (commitEffect s w) w .ok).rq).told = false := by
    rw [commitEffect_ingestRes]
    unfold getQ at *
    rw [queues]
    exact untold
  have posted := postResult_results_untold (s := bump (commitEffect s w) Obj.INGEST_COMMITS 1)
    (r := ingestRes (commitEffect s w) w .ok) hsq untold'
  rw [← results, ← commitEffect_ingestRes s w]
  exact posted

theorem answerCommit_results (may : mayCommit s w = true) (hsq : w.sq < 16384) :
    ∃ l, (answerCommit s w).host.results = s.host.results ++ ingestRes s w .ok :: l := by
  refine postRefused_keeps (P := fun u => ∃ l, u.host.results = s.host.results ++ ingestRes s w .ok :: l) ?_ _ _
    ⟨[], commitWrite_results may hsq⟩
  rintro u x st ⟨l, posted⟩
  obtain ⟨more, added⟩ := finishWrite_results u x st
  exact ⟨l ++ more, by rw [added, posted, List.append_assoc, List.cons_append]⟩

theorem answerCommit_commitOut (vector : w.table = none) (id : w.noid = false) (acts : w.op ≠ .nop) :
    (answerCommit s w).ing.commitOut = s.ing.commitOut ++ [(w.wid, batchRec w false)] := by
  refine postRefused_keeps (P := fun u => u.ing.commitOut = s.ing.commitOut ++ [(w.wid, batchRec w false)]) ?_ _ _ ?_
  · exact fun u x st kept => (finishWrite_commitOut u x st).trans kept
  · refine (finishWrite_commitOut (bump (commitEffect s w) Obj.INGEST_COMMITS 1) w .ok).trans ?_
    rw [bump_ing, commitEffect_ing vector id acts, commitRec_commitOut]

theorem getWrite_answerCommit (s : State) (w : Write) : getWrite (answerCommit s w) w.wid = none :=
  postRefused_keeps (P := fun u => getWrite u w.wid = none) (fun _ x st gone => getWrite_finishWrite_none gone x st) _ _
    (getWrite_finishWrite_self _ w .ok)

theorem waitingCount_of_ctrPend {t : State} (h : t.dict.ctrPend = s.dict.ctrPend) (a : Nat) : waitingCount t a = waitingCount s a :=
  congrArg (fun c => (look c a).getD 0) h

/-- A commit counts in INGEST_COMMITS, once and nowhere else (log entry 47). -/
theorem waitingCount_answerCommit (s : State) (w : Write) (a : Nat) :
    waitingCount (answerCommit s w) a = waitingCount (bump s Obj.INGEST_COMMITS 1) a := by
  have refusals : (answerCommit s w).dict.ctrPend = (commitWrite s w).dict.ctrPend := (postRefused_frame _ _ _).keep .counters rfl
  have posted : (commitWrite s w).dict.ctrPend = (bump (commitEffect s w) Obj.INGEST_COMMITS 1).dict.ctrPend :=
    (finishWrite_frame _ w .ok).keep .counters rfl
  have effect : (commitEffect s w).dict.ctrPend = s.dict.ctrPend := (commitEffect_frame s w).keep .counters rfl
  refine waitingCount_of_ctrPend (refusals.trans (posted.trans ?_)) a
  unfold bump
  dsimp only
  rw [effect]

/-- An entry that may commit is answered (R301). -/
theorem exec_ingestCommit (hp : s.turn.phase = .p6) (found : getWrite s wid = some w) (vector : w.table = none)
    (may : mayCommit s w = true) : exec (.ingestCommit wid) s = .next (answerCommit s w) :=
  congrArg Host.Outcome.next ((if_pos hp).trans (tryCommit_of_mayCommit found vector may))

/-- An attempt to commit a vector counts in no counter but INGEST_COMMITS. -/
theorem waitingCount_tryCommit (found : getWrite s wid = some w) (sound : w.refused = none) (vector : w.table = none) {a : Nat}
    (other : a ≠ Obj.INGEST_COMMITS) : waitingCount (tryCommit s wid) a = waitingCount s a := by
  cases may : mayCommit s w with
  | true => rw [tryCommit_of_mayCommit found vector may, waitingCount_answerCommit, waitingCount_bump_ne _ _ other]
  | false => rw [tryCommit_of_not_mayCommit found sound may]

/-! ### Silent holders reported stale (R301, R334) -/

/-- A holder as it stands once the silent ones are stale. -/
def markStale (silent : List Nat) (h : Holder) : Holder :=
  if silent.contains h.node && (decide (h.role = .primary) || decide (h.role = .replica)) then { h with role := .stale } else h

/-- A holder that takes a stale primary's place. -/
def Holder.promoted (h : Holder) : Holder := { h with role := .primary }

/-- The holders of a list as this node asks the leader to record them. -/
def staleHolders (s : State) (key : Nat) (silent : List Nat) : List Holder :=
  let marked := (holdersNext s key).map (markStale silent)
  if (holdersNext s key).any fun h => decide (h.role = .primary) && silent.contains h.node then
    updFirst (fun h => decide (h.role = .replica)) Holder.promoted marked
  else marked

theorem reportStale_eq (s : State) (key : Nat) (silent : List Nat) :
    reportStale s key silent =
      bump (ledgerRequest s (.list key (staleHolders s key silent))) Obj.STALE_REPLICAS silent.length := rfl

theorem role_markStale {silent : List Nat} {h : Holder} (named : silent.contains (markStale silent h).node = true) :
    (markStale silent h).role ≠ .primary ∧ (markStale silent h).role ≠ .replica := by
  unfold markStale at *
  split
  · exact ⟨Role.noConfusion, Role.noConfusion⟩
  · next kept =>
    rw [if_neg kept] at named
    rw [named, Bool.true_and, Bool.or_eq_true, decide_eq_true_iff, decide_eq_true_iff] at kept
    exact not_or.mp kept

theorem mem_updFirst {α : Type} {p : α → Bool} {f : α → α} {l : List α} {b : α} (h : b ∈ updFirst p f l) :
    b ∈ l ∨ ∃ a ∈ l, p a = true ∧ b = f a := by
  induction l with
  | nil => exact .inl h
  | cons a l ih =>
    unfold updFirst at h
    split at h
    · next hit =>
      obtain rfl | rest := List.mem_cons.mp h
      · exact .inr ⟨a, List.mem_cons_self, hit, rfl⟩
      · exact .inl (List.mem_cons_of_mem _ rest)
    · obtain rfl | rest := List.mem_cons.mp h
      · exact .inl List.mem_cons_self
      · exact (ih rest).imp (List.mem_cons_of_mem _) fun ⟨c, hc, hit⟩ => ⟨c, List.mem_cons_of_mem _ hc, hit⟩

/-- No silent holder goes on to serve: the one promoted has acknowledged. -/
theorem staleHolders_silent {key : Nat} {silent : List Nat} {h : Holder} (mem : h ∈ staleHolders s key silent)
    (named : silent.contains h.node = true) : h.role ≠ .primary ∧ h.role ≠ .replica := by
  have ofMarked : ∀ k ∈ (holdersNext s key).map (markStale silent), silent.contains k.node = true →
      k.role ≠ .primary ∧ k.role ≠ .replica := by
    intro k hk hnamed
    obtain ⟨h, -, rfl⟩ := List.mem_map.mp hk
    exact role_markStale hnamed
  unfold staleHolders at mem
  dsimp only at mem
  split at mem
  · obtain kept | ⟨k, hk, replica, rfl⟩ := mem_updFirst mem
    · exact ofMarked h kept named
    · exact absurd (of_decide_eq_true replica) (ofMarked k hk named).2
  · exact ofMarked h mem named

/-! ### ACK_WAIT turns have passed (R301) -/

theorem ackExpired_eq_true : ackExpired s w = true ↔ w.creates = true ∧ w.ready = true ∧ w.allAcked = false ∧
    w.sentTurn + 2 + getObj s Obj.ACK_WAIT ≤ s.turn.no := by
  simp [ackExpired, and_assoc]

/-- The holders of a write that have acknowledged it, and those that have not. -/
def Write.heard (w : Write) : List Nat := w.holders.filter fun h => w.acked.contains h
def Write.silent (w : Write) : List Nat := w.holders.filter fun h => !w.acked.contains h

/-- Where some holder has acknowledged and not every one has, some holder is silent. -/
theorem Write.silent_ne_nil (heard : w.heard ≠ []) (waits : w.allAcked = false) : w.silent ≠ [] := by
  intro noneSilent
  have every : ∀ h ∈ w.holders, w.acked.contains h = true := by simpa [Write.silent] using noneSilent
  have anyHolder : w.holders ≠ [] := by
    intro empty
    simp [Write.heard, empty] at heard
  have all : w.allAcked = true := by
    simp only [Write.allAcked, Bool.and_eq_true, Bool.not_eq_true', List.isEmpty_eq_false_iff, List.all_eq_true]
    exact ⟨anyHolder, every⟩
  exact Bool.false_ne_true (waits.symm.trans all)

/-- The state in which the silent holders of a write are reported and it waits for the others no longer. -/
def withoutSilent (s : State) (w : Write) : State :=
  onWrite (reportStale s w.prep.key w.silent) w.wid fun x => { x with holders := w.heard }

theorem doAckExpiry_heard (found : getWrite s wid = some w) (expired : ackExpired s w = true) (heard : w.heard ≠ []) :
    doAckExpiry s wid = tryCommit (withoutSilent s w) wid := by
  obtain rfl := getWrite_wid found
  unfold doAckExpiry
  rw [found]
  dsimp only
  rw [expired, if_neg (by decide)]
  exact if_pos heard

/-- The silent holders count in STALE_REPLICAS and are asked to be recorded as stale; whether the write commits with the
others changes neither. -/
theorem doAckExpiry_heard_reads (found : getWrite s wid = some w) (sound : w.refused = none) (expired : ackExpired s w = true)
    (heard : w.heard ≠ []) :
    waitingCount (doAckExpiry s wid) Obj.STALE_REPLICAS = waitingCount s Obj.STALE_REPLICAS + w.silent.length ∧
    (doAckExpiry s wid).ledger.outReqs = s.ledger.outReqs ++ [.list w.prep.key (staleHolders s w.prep.key w.silent)] := by
  obtain ⟨creates, -, waits, -⟩ := ackExpired_eq_true.mp expired
  have named : w.silent.length ≠ 0 := mt List.length_eq_zero_iff.mp (Write.silent_ne_nil heard waits)
  have found' : getWrite (withoutSilent s w) wid = some { w with holders := w.heard } := by
    obtain rfl := getWrite_wid found
    exact getWrite_onWrite (s := reportStale s w.prep.key w.silent) found fun _ => rfl
  have ledger : (tryCommit (withoutSilent s w) wid).ledger = (withoutSilent s w).ledger := (tryCommit_frame _ wid).keep .ledger rfl
  rw [doAckExpiry_heard found expired heard, ledger]
  refine ⟨?_, rfl⟩
  rw [waitingCount_tryCommit found' sound (Write.table_of_creates creates) (by decide)]
  exact waitingCount_bump_self (ledgerRequest s _) _ named

/-- A write as it is staged anew, under the next number, on holders `hs`. -/
def Write.renewed (w : Write) (n : Nat) (hs : List Nat) : Write :=
  { w with prep := { w.prep with wid := n }, holders := hs, acked := [] }

/-- The state in which a write that no holder acknowledged has its new number; the batch of the turn aborts the old one (log
entry 47). -/
def renewWrite (s : State) (w : Write) : State :=
  let u := commitRec s w true
  onWrite { u with ing := { u.ing with nextWid := u.ing.nextWid + 1 } } w.wid
    fun x => x.renewed s.ing.nextWid (stagingHolders s w.prep.key)

theorem getWrite_renewWrite (found : getWrite s w.wid = some w) :
    getWrite (renewWrite s w) w.wid = some (w.renewed s.ing.nextWid (stagingHolders s w.prep.key)) := by
  unfold renewWrite
  exact getWrite_onWrite found fun _ => rfl

theorem doAckExpiry_unheard (found : getWrite s wid = some w) (expired : ackExpired s w = true) (unheard : w.heard = [])
    (served : stagingHolders s w.prep.key ≠ []) :
    doAckExpiry s wid =
      bump (stageWrite (renewWrite s w) (w.renewed s.ing.nextWid (stagingHolders s w.prep.key))) Obj.RESTAGES 1 := by
  obtain rfl := getWrite_wid found
  have renewed := getWrite_renewWrite found
  unfold doAckExpiry
  rw [found]
  dsimp only
  rw [expired, if_neg (by decide)]
  refine (if_neg fun heard => heard unheard).trans ((if_neg served).trans ?_)
  change bump ((getWrite (renewWrite s w) w.wid).elim (renewWrite s w) (stageWrite (renewWrite s w))) Obj.RESTAGES 1 = _
  rw [renewed, Option.elim_some]

/-- The vector leaves again for every holder that serves its list. -/
theorem doAckExpiry_unheard_reads (found : getWrite s wid = some w) (expired : ackExpired s w = true) (unheard : w.heard = [])
    (served : stagingHolders s w.prep.key ≠ []) :
    (doAckExpiry s wid).fab.out = s.fab.out
      ++ (stagingHolders s w.prep.key).map (fun h => (h, Sect.stage { w.prep with wid := s.ing.nextWid })) ∧
    (doAckExpiry s wid).ing.nextWid = s.ing.nextWid + 1 ∧
    waitingCount (doAckExpiry s wid) Obj.RESTAGES = waitingCount s Obj.RESTAGES + 1 := by
  rw [doAckExpiry_unheard found expired unheard served, stageWrite_eq]
  exact ⟨rfl, rfl, waitingCount_bump_self _ _ Nat.one_ne_zero⟩

theorem exec_ackWaitExpiry (hp : s.turn.phase = .p6) (wid : Nat) :
    exec (.ackWaitExpiry wid) s = .next (doAckExpiry s wid) := congrArg Host.Outcome.next (if_pos hp)

/-- Settles O44: each operation by what it sends, the commit, and the expiry by whether a holder was heard (log entry 47). -/
theorem ingestStagesAndCommits : Obligations.IngestStagesAndCommits := by
  intro wid w s found
  dsimp only
  refine ⟨fun fresh sound => ?_, fun hp may vector id acts hsq => ?_, fun hp sound expired => ⟨fun heard => ?_,
    fun unheard served => ⟨_, exec_ackWaitExpiry hp wid, doAckExpiry_unheard_reads found expired unheard served⟩⟩⟩
  · have h : AwaitsTakeUp s wid w := ⟨found, fresh, sound⟩
    refine ⟨fun id vector => ⟨fun own => ?_, fun own => ?_, fun own => ?_⟩, fun id own => ?_, fun noid own => ?_⟩
    · exact ⟨_, rfl, h.staged own id vector (.inl rfl)⟩
    · exact ⟨_, rfl, h.staged own id vector (.inr rfl)⟩
    · exact ⟨_, congrArg Host.Outcome.next (h.takeUp_delete own id vector), onWrite_takenUp_reads found⟩
    · exact ⟨_, congrArg Host.Outcome.next (h.takeUp_nop own id), onWrite_takenUp_reads found⟩
    · exact ⟨_, congrArg Host.Outcome.next (h.takeUp_noId own noid), onWrite_takenUp_reads found,
        waitingCount_bump_self _ _ Nat.one_ne_zero⟩
  · obtain rfl := getWrite_wid found
    refine ⟨_, exec_ingestCommit hp found vector may, ?_, answerCommit_results may hsq, getWrite_answerCommit s w, ?_⟩
    · rw [answerCommit_commitOut vector id acts]
      exact List.mem_append_right _ List.mem_cons_self
    · rw [waitingCount_answerCommit, waitingCount_bump_self _ _ Nat.one_ne_zero]
  · obtain ⟨counted, asked⟩ := doAckExpiry_heard_reads found sound expired heard
    exact ⟨_, exec_ackWaitExpiry hp wid, counted, _, asked, fun h mem named => staleHolders_silent mem named⟩

end Sys2Proof.Machine

/-! The directory of IDs and the upkeep of lists: ordering, compaction, drift, splits and merges (R303 to R316, R491; log entries
48, 81 and 87). -/

namespace Sys2Proof.Machine

open Sys2Proof

variable {s : State}

/-! ### Ordering at a directory shard (R304, R305) -/

/-- Where no ID has two records, none has after one ID's record has been replaced. -/
theorem nodup_ids_concat {recs : List DirRec} (single : (recs.map (·.1)).Nodup) (r : DirRec) :
    (((recs.filter fun x => x.1 != r.1) ++ [r]).map (·.1)).Nodup := by
  rw [List.map_append, List.map_singleton, List.nodup_append]
  refine ⟨single.sublist (List.filter_sublist.map _), List.pairwise_singleton _ _, fun id named id' new => ?_⟩
  obtain ⟨x, mem, rfl⟩ := List.mem_map.mp named
  obtain rfl := List.mem_singleton.mp new
  exact bne_iff_ne.mp (List.mem_filter.mp mem).2

/-- Every commit leaves at most one record of an ID. -/
theorem nodup_ids_orderOne {o : Ordered} (single : (o.recs.map (·.1)).Nodup) (t : Nat) (p : Nat × CommitRec) :
    ((orderOne t o p).recs.map (·.1)).Nodup := by
  have ended : ((o.recs.filter fun x => x.1 != p.2.id).map (·.1)).Nodup := single.sublist (List.filter_sublist.map _)
  unfold orderOne
  dsimp only
  split
  · exact nodup_ids_concat single (p.2.id, p.2.key, p.1, t)
  · exact nodup_ids_concat single (p.2.id, p.2.key, p.1, t)
  · exact ended
  · exact single

/-- What a shard makes of the commits of a turn. -/
def orderShard (s : State) (c sh turn : Nat) (d : DirShard) : Ordered :=
  (shardCommits s c sh turn).foldl (orderOne turn) { recs := d.recs, stamps := [], overs := 0, misses := 0 }

theorem nodup_ids_orderShard {d : DirShard} (single : (d.recs.map (·.1)).Nodup) (s : State) (c sh turn : Nat) :
    ((orderShard s c sh turn d).recs.map (·.1)).Nodup :=
  List.foldlRecOn (motive := fun o => (o.recs.map (·.1)).Nodup) (shardCommits s c sh turn) (orderOne turn) single
    fun _ single p _ => nodup_ids_orderOne single turn p

/-- A shard that has ordered a turn. -/
def DirShard.after (turn : Nat) (o : Ordered) (d : DirShard) : DirShard :=
  { d with recs := o.recs, done := turn, sent := ((turn, o.stamps) :: d.sent).take 64 }

/-- The stamps of a turn leave for every member, to each those of its lists. -/
theorem sendStamps_eq (s : State) (t sh c : Nat) (xs : List Stamp) :
    sendStamps s t sh c xs = sendList s (s.ledger.members.map fun m => (m, Sect.stamp t sh c (xs.filter (stampFor s m)))) :=
  foldl_send id (fun m => Sect.stamp t sh c (xs.filter (stampFor s m))) s.ledger.members s

/-- Shard `d` of this node may order the commits of `turn`: every member's batch of it has been counted. -/
structure OrdersNow (s : State) (c sh turn : Nat) (d : DirShard) : Prop where
  found : (s.ing.shards.find? fun d => d.coll == c && d.shard == sh) = some d
  next : turn = d.done + 1
  whole : d.missing = []
  counted : (s.ledger.members.all fun n => decide (turn ≤ lookD s.ing.batchThrough n 0)) = true

variable {c sh turn : Nat} {d : DirShard}

/-- The state in which a primary has ordered a turn and counted overwrites and misses, before it sends the stamps. -/
def orderedPrimary (s : State) (c sh turn : Nat) (o : Ordered) : State :=
  bump (bump (onShard s c sh (DirShard.after turn o)) Obj.INSERT_OVERWRITES o.overs) Obj.DELETE_MISSES o.misses

/-- A primary sends the stamps. -/
theorem OrdersNow.doOrdering_eq (h : OrdersNow s c sh turn d) :
    doOrdering s c sh turn =
      let o := orderShard s c sh turn d
      if d.primary then sendStamps (orderedPrimary s c sh turn o) turn sh c o.stamps
      else onShard s c sh (DirShard.after turn o) := by
  have now : ¬(turn ≠ d.done + 1 ∨ d.missing ≠ [] ∨
      (s.ledger.members.all fun n => decide (turn ≤ lookD s.ing.batchThrough n 0)) = false) := by
    rw [h.counted]
    simp [← h.next, h.whole]
  unfold doOrdering
  rw [h.found]
  exact if_neg now

theorem find?_onShard (found : (s.ing.shards.find? fun d => d.coll == c && d.shard == sh) = some d) {f : DirShard → DirShard}
    (keeps : ∀ d, (f d).coll = d.coll ∧ (f d).shard = d.shard) :
    ((onShard s c sh f).ing.shards.find? fun d => d.coll == c && d.shard == sh) = some (f d) := by
  refine (find?_updFirst (fun d named => ?_) s.ing.shards).trans (congrArg (Option.map f) found)
  obtain ⟨coll, shard⟩ := keeps d
  rwa [coll, shard]

theorem OrdersNow.find?_doOrdering (h : OrdersNow s c sh turn d) :
    ((doOrdering s c sh turn).ing.shards.find? fun d => d.coll == c && d.shard == sh) =
      some (d.after turn (orderShard s c sh turn d)) := by
  have ordered := find?_onShard h.found (f := DirShard.after turn (orderShard s c sh turn d)) fun _ => ⟨rfl, rfl⟩
  rw [h.doOrdering_eq]
  dsimp only
  split
  · rw [sendStamps_eq]
    exact ordered
  · exact ordered

/-- The lists to which entries have gone depend on the splits and merges alone. -/
theorem derivedKeys_of_derived {t : State} (same : t.ing.derived = s.ing.derived) (n : Nat) (ks : List Nat) :
    derivedKeys t n ks = derivedKeys s n ks := by
  induction n generalizing ks with
  | zero => rfl
  | succ n ih =>
    unfold derivedKeys
    rw [same, ih]

/-- To whom a stamp goes depends on those and on the holders of lists. -/
theorem stampFor_of_holders {t : State} (derived : t.ing.derived = s.ing.derived) (holders : ∀ k, holdersOf t k = holdersOf s k) :
    stampFor t = stampFor s := by
  funext node x
  unfold stampFor
  simp only [derived, derivedKeys_of_derived derived, holders]

theorem stampFor_orderedPrimary (s : State) (c sh turn : Nat) (o : Ordered) : stampFor (orderedPrimary s c sh turn o) = stampFor s :=
  stampFor_of_holders rfl fun _ => rfl

theorem OrdersNow.doOrdering_out (h : OrdersNow s c sh turn d) (primary : d.primary = true) :
    (doOrdering s c sh turn).fab.out = s.fab.out ++ s.ledger.members.map fun m =>
      (m, Sect.stamp turn sh c ((orderShard s c sh turn d).stamps.filter (stampFor s m))) := by
  rw [h.doOrdering_eq]
  dsimp only
  rw [if_pos primary, sendStamps_eq, stampFor_orderedPrimary]
  rfl

/-- At its boundary a rebuilt shard is forgotten among the rebuilds, and its event is posted (R491). -/
theorem directoryRebuildComplete_logged {r due : Nat} (rebuilt : look s.ing.rebuilds (c, sh) = some (r, due))
    (hp : s.turn.phase = .p4) (asked : due ≠ 0) (here : due ≤ boundary s) :
    Completes (.directoryRebuildComplete c sh) s fun t => Logged s t 0x7033 (c + 2 ^ 12 * sh) := by
  refine ⟨_, ?_, postEvent_logged { s with ing := { s.ing with rebuilds := del s.ing.rebuilds (c, sh) } } _ _⟩
  refine congrArg Host.Outcome.next ?_
  rw [rebuilt]
  exact if_pos ⟨hp, asked, here⟩

/-! ### Lists of this node -/

variable {key : Nat} {l : ListCopy}

theorem getList_key (found : getList s key = some l) : l.key = key := by
  have named := List.find?_some found
  exact beq_iff_eq.mp named

theorem getList_of_lists {t : State} (same : t.lists = s.lists) (key : Nat) : getList t key = getList s key := by
  unfold getList
  rw [same]

@[simp] theorem getList_setList_self (s : State) (l : ListCopy) : getList (setList s l) l.key = some l := by
  unfold getList setList
  split
  · next held =>
    obtain ⟨x, mem, named⟩ := List.any_eq_true.mp held
    obtain ⟨y, found⟩ := Option.isSome_iff_exists.mp (List.find?_isSome (p := (·.key == l.key)).mpr ⟨x, mem, named⟩)
    have replaced := find?_updFirst (p := fun x : ListCopy => x.key == l.key) (f := fun _ => l) (fun _ _ => beq_self_eq_true _) s.lists
    exact replaced.trans (congrArg _ found)
  · next absent =>
    have unnamed : s.lists.find? (·.key == l.key) = none := by
      rw [List.find?_eq_none]
      exact fun x mem named => absent (List.any_eq_true.mpr ⟨x, mem, named⟩)
    simp [List.find?_append, unnamed]

theorem waitingCount_setList (s : State) (l : ListCopy) (a : Nat) : waitingCount (setList s l) a = waitingCount s a :=
  waitingCount_of_ctrPend ((setList_frame s l).keep .counters rfl) a

/-! ### Compaction (R203, R308, R309) -/

theorem exec_compactionStart_closed (found : getList s key = some l) (closed : slackOpen s 9 = false) :
    exec (.compactionStart key) s = .next s := by
  refine congrArg Host.Outcome.next ?_
  unfold doCompactionStart
  rw [found]
  exact if_pos (by simp [closed])

theorem exec_compactionStart_notDue (found : getList s key = some l) (rests : compactionDue s l = false) :
    exec (.compactionStart key) s = .next s := by
  refine congrArg Host.Outcome.next ?_
  unfold doCompactionStart
  rw [found]
  exact if_pos (by simp [rests])

/-- A list of this node that is due for compaction in an open window, and that nothing holds back (R308, R323, R336, R359). -/
structure CompactsNow (s : State) (key : Nat) (l : ListCopy) : Prop where
  found : getList s key = some l
  window : slackOpen s 9 = true
  flashOn : s.flash.stopped = false
  idle : l.compacting = none
  switched : l.built = none
  sound : l.quarantined = false
  notCopied : copySource s key = false
  notReshaped : reshaping s key = false
  due : compactionDue s l = true

/-- The segments that the compaction of a list takes (R309). -/
def takenBases (s : State) (l : ListCopy) : List Nat := takeBases s l (l.staying s.turn.no (foldEntries l l.newCut []))

/-- A list whose compaction has begun in turn `st`. -/
def ListCopy.begun (l : ListCopy) (st : Nat) (taken : List Nat) : ListCopy := { l with compacting := some (st, l.newCut, taken) }

/-- A list without full vectors and hot copy needs no room, and one of fewer than four segments has a place for the new one. -/
theorem CompactsNow.exec_compactionStart (h : CompactsNow s key l) (hamming : isHamming s (keyColl key) = true)
    (cold : l.newest.hot = false) (few : l.newest.bases.length < 4) :
    exec (.compactionStart key) s = .next (setList s (l.begun s.turn.no (takenBases s l))) := by
  have starts : ¬(!slackOpen s 9 || s.flash.stopped || l.compacting.isSome || l.built.isSome || l.quarantined || copySource s key
      || reshaping s key || !compactionDue s l) = true := by
    simp [h.window, h.flashOn, h.idle, h.switched, h.sound, h.notCopied, h.notReshaped, h.due]
  have place : ¬ 4 ≤ l.newest.bases.length - (takenBases s l).length := by omega
  refine congrArg Host.Outcome.next ?_
  unfold doCompactionStart
  rw [h.found]
  refine (if_neg starts).trans ((if_neg place).trans (if_neg ?_))
  simp [hamming, cold]

/-- The entries that go on into the new segment of a compaction that began in turn `st`. -/
def ListCopy.folded (l : ListCopy) (st cut : Nat) (taken : List Nat) : List Nat :=
  (foldEntries l cut taken).filter fun i => (l.entry i).stays st

/-- The segments of a list that a compaction does not take. -/
def ListCopy.untaken (l : ListCopy) (taken : List Nat) : List (List Nat) :=
  (l.newest.bases.zipIdx.filter fun p => !taken.contains p.2).map (·.1)

/-- The segments of the set that a compaction builds. -/
def ListCopy.compacted (l : ListCopy) (st cut : Nat) (taken : List Nat) : List (List Nat) :=
  if l.folded st cut taken = [] then l.untaken taken else l.untaken taken ++ [l.folded st cut taken]

theorem untaken_sublist (l : ListCopy) (taken : List Nat) : (l.untaken taken).Sublist l.newest.bases := by
  have kept := (List.filter_sublist (p := fun p => !taken.contains p.2) (l := l.newest.bases.zipIdx)).map Prod.fst
  rwa [List.zipIdx_map_fst] at kept

theorem mem_folded {st cut i : Nat} {taken : List Nat} (mem : i ∈ l.folded st cut taken) :
    i ∈ foldEntries l cut taken ∧ st ≤ (l.entry i).delTurn ∧ (l.entry i).aborted = false := by
  obtain ⟨folds, stays⟩ := List.mem_filter.mp mem
  simp only [Entry.stays, Bool.not_eq_true', Bool.or_eq_false_iff, decide_eq_false_iff_not, Nat.not_lt] at stays
  exact ⟨folds, stays⟩

/-- The new set holds what stood in segments that were not taken, and what was folded and is neither dead nor aborted (R309). -/
theorem mem_compacted {st cut i : Nat} {taken : List Nat} (mem : i ∈ (l.compacted st cut taken).flatten) :
    i ∈ l.newest.bases.flatten ∨ (i ∈ foldEntries l cut taken ∧ st ≤ (l.entry i).delTurn ∧ (l.entry i).aborted = false) := by
  have old (stood : i ∈ (l.untaken taken).flatten) : i ∈ l.newest.bases.flatten := by
    obtain ⟨b, untaken, mem⟩ := List.mem_flatten.mp stood
    exact List.mem_flatten.mpr ⟨b, (untaken_sublist l taken).subset untaken, mem⟩
  unfold ListCopy.compacted at mem
  split at mem
  · exact .inl (old mem)
  · rw [List.flatten_append, List.flatten_singleton] at mem
    exact (List.mem_append.mp mem).imp old mem_folded

/-- A list whose new set is built and waits for boundary `due`. -/
def ListCopy.builtAs (l : ListCopy) (st cut : Nat) (taken : List Nat) (media : List (Nat × Nat)) (due : Nat) : ListCopy :=
  { l with compacting := none, built := some (l.compacted st cut taken, cut, media), switchDue := due }

/-- The new segment's records get their place on flash, and the segment its mirror (R309, R327). -/
theorem exec_compactionComplete {st cut : Nat} {taken : List Nat} (found : getList s key = some l)
    (runs : l.compacting = some (st, cut, taken)) :
    let p := placeSegment s (keyColl key) (l.folded st cut taken)
    exec (.compactionComplete key) s =
      .next (addMirror (setList p.1 (l.builtAs st cut taken p.2 (dueTurn s))) key (l.folded st cut taken)) := by
  refine congrArg Host.Outcome.next ?_
  unfold doCompactionComplete
  rw [found]
  dsimp only
  rw [runs]
  rfl

/-- The mirror of the new segment leaves the lists as they are (R327). -/
theorem getList_addMirror_setList (s : State) (l : ListCopy) (key : Nat) (es : List Nat) :
    getList (addMirror (setList s l) key es) l.key = some l := by
  have mirrored : (addMirror (setList s l) key es).lists = (setList s l).lists := (addMirror_frame _ _ _).keep .lists rfl
  rw [getList_of_lists mirrored, getList_setList_self]

/-- A list whose built set has come into force at boundary `n`. -/
def ListCopy.switched (l : ListCopy) (n : Nat) (bases : List (List Nat)) (cut : Nat) (adopted : List Nat)
    (media : List (Nat × Nat)) : ListCopy :=
  { l.push n bases cut adopted media with built := none, switchDue := 0 }

/-- At its boundary the built set comes into force (R310). -/
theorem exec_segmentSetSwitch {bases : List (List Nat)} {cut : Nat} {media : List (Nat × Nat)} (found : getList s key = some l)
    (built : l.built = some (bases, cut, media)) (hp : s.turn.phase = .p4) (asked : l.switchDue ≠ 0)
    (here : l.switchDue ≤ boundary s) :
    ∃ adopted, exec (.segmentSetSwitch key) s =
      .next (bump (setList s (l.switched (boundary s) bases cut adopted media)) Obj.COMPACTIONS 1) := by
  have due : exec (.segmentSetSwitch key) s = .next (switchSet s key (boundary s)) := by
    refine congrArg Host.Outcome.next (if_pos ?_)
    rw [found]
    exact ⟨hp, asked, here⟩
  rw [due]
  unfold switchSet
  rw [found]
  dsimp only
  rw [built]
  exact ⟨_, rfl⟩

/-! ### Drift of centroids (R311 to R313) -/

/-- An adaptation epoch of collection `c` ends now. -/
structure EpochEnds (s : State) (c : Nat) : Prop where
  phase : s.turn.phase = .p5
  held : (getColl s c).life ≠ 0
  adapts : isSet s (Obj.coll_ADAPT_EN c) = true
  first : (getColl s c).epochDone ≠ s.turn.no
  onEpoch : s.turn.no % max 1 (getObj s (Obj.coll_ADAPT_EPOCH c)) = 0

/-- The state in which this node's drift records have left for every other member and are counted here. -/
def driftSent (s : State) (c : Nat) : State :=
  let r := driftRecs s c
  let u := sendAll r.1 (otherMembers r.1) (.drift c s.turn.no r.2)
  countDrift u (selfNode u) c s.turn.no r.2

/-- The state in which the accumulators of the next epoch are empty. -/
def epochBegun (s : State) (c : Nat) : State :=
  let u := driftSent s c
  setColl u c { getColl u c with driftN := [], driftSum := [], epochDone := s.turn.no }

theorem EpochEnds.exec_adaptationEpochEnd (h : EpochEnds s c) :
    exec (.adaptationEpochEnd c) s = .next (startReshapes (epochBegun s c) c s.turn.no) := by
  refine congrArg Host.Outcome.next (if_neg ?_)
  simp [h.phase, h.held, h.adapts, h.first, h.onEpoch]

theorem driftRecs_selfNode (s : State) (c : Nat) : selfNode (driftRecs s c).1 = selfNode s := by
  have objs : (driftRecs s c).1.dict.objs = s.dict.objs := (driftRecs_frame s c).keep .objs rfl
  unfold selfNode getObj
  rw [objs]

theorem driftRecs_otherMembers (s : State) (c : Nat) : otherMembers (driftRecs s c).1 = otherMembers s := by
  have ledger : (driftRecs s c).1.ledger = s.ledger := (driftRecs_frame s c).keep .ledger rfl
  unfold otherMembers
  rw [ledger, driftRecs_selfNode]

theorem driftSent_driftIn (s : State) (c : Nat) :
    (s.turn.no, selfNode s, (driftRecs s c).2) ∈ (getColl (driftSent s c) c).driftIn := by
  unfold driftSent countDrift
  dsimp only
  rw [sendAll_eq, getColl_setColl_self, ← driftRecs_selfNode s c]
  exact List.mem_append_right _ List.mem_cons_self

theorem driftSent_out (s : State) (c : Nat) :
    (driftSent s c).fab.out = s.fab.out ++ (otherMembers s).map fun m => (m, Sect.drift c s.turn.no (driftRecs s c).2) := by
  have fab : (driftRecs s c).1.fab = s.fab := (driftRecs_frame s c).keep .fab rfl
  unfold driftSent
  dsimp only
  rw [sendAll_eq, driftRecs_otherMembers, ← fab]
  rfl

/-- The accumulators are empty, and the records of the epoch that ended are kept (R312). -/
theorem epochBegun_coll (s : State) (c : Nat) :
    (getColl (epochBegun s c) c).driftN = [] ∧ (getColl (epochBegun s c) c).driftSum = [] ∧
      (getColl (epochBegun s c) c).epochDone = s.turn.no ∧
      (getColl (epochBegun s c) c).driftIn = (getColl (driftSent s c) c).driftIn := by
  unfold epochBegun
  dsimp only
  rw [getColl_setColl_self]
  exact ⟨rfl, rfl, rfl, rfl⟩

/-- The reshapes of an epoch leave the collections as they are (R314). -/
theorem startReshapes_coll (s : State) (c e : Nat) : getColl (startReshapes s c e) c = getColl s c := by
  have colls : (startReshapes s c e).colls = s.colls := (startReshapes_frame s c e).keep .colls rfl
  unfold getColl
  rw [colls]

theorem EpochEnds.completes (h : EpochEnds s c) :
    Completes (.adaptationEpochEnd c) s fun t =>
      (getColl t c).driftN = [] ∧ (getColl t c).driftSum = [] ∧ (getColl t c).epochDone = s.turn.no ∧
      ∃ rs, (s.turn.no, selfNode s, rs) ∈ (getColl t c).driftIn ∧
        t.fab.out = s.fab.out ++ (otherMembers s).map fun m => (m, Sect.drift c s.turn.no rs) := by
  obtain ⟨counts, sums, ended, records⟩ := epochBegun_coll s c
  have fab : (startReshapes (epochBegun s c) c s.turn.no).fab = (epochBegun s c).fab := (startReshapes_frame _ _ _).keep .fab rfl
  refine ⟨_, h.exec_adaptationEpochEnd, ?_⟩
  dsimp only
  rw [startReshapes_coll, records, fab]
  exact ⟨counts, sums, ended, _, driftSent_driftIn s c, driftSent_out s c⟩

theorem driftSet_length (s : State) (c epoch : Nat) (cs : CentSet) : (driftSet s c epoch cs).cents.length = cs.cents.length :=
  List.length_map _

/-- A dead centroid does not move (R313). -/
theorem driftOf_dead {x : Centroid} (dead : x.dead = true) (s : State) (c epoch : Nat) : driftOf s c epoch x = none := if_pos dead

theorem mem_driftSet_of_dead {x : Centroid} {cs : CentSet} (mem : x ∈ cs.cents) (dead : x.dead = true) (s : State) (c epoch : Nat) :
    x ∈ (driftSet s c epoch cs).cents := by
  refine List.mem_map.mpr ⟨x, mem, ?_⟩
  rw [driftOf_dead dead]

/-- A collection whose set has moved by the records of an epoch: the new set waits for the ledger. -/
def Coll.drifted (v : Coll) (epoch : Nat) (new : CentSet) : Coll :=
  { v with driftPend := some (epoch, new), driftIn := v.driftIn.filter fun r => decide (epoch ≤ r.1) }

/-- With every member's records counted the moved set is kept and reported (R313). -/
theorem exec_centroidDriftApply {epoch : Nat} {cs : CentSet} {old : List CentSet}
    (new : ((getColl s c).driftPend.any fun p => decide (epoch ≤ p.1)) = false) (anyMember : s.ledger.members ≠ [])
    (counted : (s.ledger.members.all fun n => ((getColl s c).driftIn.filter fun r => r.1 == epoch).any fun r => r.2.1 == n) = true)
    (held : (getColl s c).cents = cs :: old) :
    ∃ skips, exec (.centroidDriftApply c epoch) s = .next (ledgerRequest
      (bump (setColl s c ((getColl s c).drifted epoch (driftSet s c epoch cs))) Obj.DRIFT_SKIPS skips) (.report .drift c epoch)) := by
  have applies : exec (.centroidDriftApply c epoch) s = .next (doDriftApply s c epoch) := rfl
  have now : ¬(((getColl s c).driftPend.any fun p => decide (epoch ≤ p.1)) = true ∨ s.ledger.members = [] ∨
      (s.ledger.members.all fun n => ((getColl s c).driftIn.filter fun r => r.1 == epoch).any fun r => r.2.1 == n) = false) := by
    rw [new, counted]
    simp [anyMember]
  rw [applies]
  unfold doDriftApply
  dsimp only
  rw [if_neg now]
  split
  · next empty => exact absurd (held.symm.trans empty) (List.cons_ne_nil _ _)
  · next cs' old' held' =>
    obtain ⟨rfl, rfl⟩ := List.cons.inj (held.symm.trans held')
    exact ⟨_, rfl⟩

/-! ### Splits and merges (R315, R316) -/

/-- The state in which this node's build of a reshape is kept until the reshape takes effect. -/
def keepBuild (s : State) (key : Nat) (b : List Nat × List Nat × Nat × Nat) : State :=
  { s with ing := { s.ing with reshapes := updFirst (·.key == key) (fun r => { r with built := some b }) s.ing.reshapes } }

theorem exec_reshapeBuildComplete {r : Reshape} (found : s.ing.reshapes.find? (·.key == key) = some r) (unbuilt : r.built = none)
    (serves : servesList s key = true) :
    ∃ b, exec (.reshapeBuildComplete key) s = .next (ledgerRequest (keepBuild s key b) (.report .reshape key r.other)) := by
  have builds : exec (.reshapeBuildComplete key) s = .next (doReshapeBuild s key) := rfl
  rw [builds]
  unfold doReshapeBuild
  rw [found]
  dsimp only
  rw [unbuilt, serves, if_neg (by decide)]
  exact ⟨_, rfl⟩

theorem find?_keepBuild {r : Reshape} (found : s.ing.reshapes.find? (·.key == key) = some r)
    (b : List Nat × List Nat × Nat × Nat) :
    (keepBuild s key b).ing.reshapes.find? (·.key == key) = some { r with built := some b } :=
  (find?_updFirst (p := fun r : Reshape => r.key == key) (f := fun r => { r with built := some b }) (fun _ named => named)
    s.ing.reshapes).trans (congrArg (Option.map _) found)

/-- Settles O45: each command of the directory, of compaction, of drift and of reshapes by what it leaves (log entries 48, 81 and
87). -/
theorem listsAreMaintained : Obligations.ListsAreMaintained := by
  refine ⟨⟨fun c sh turn d s found next whole counted => ?_, fun c sh r due s rebuilt hp asked here => ?_,
      fun key l s found => ⟨exec_compactionStart_closed found, ?_, fun st cut taken runs => ?_,
        fun bases cut media built hp asked here => ?_⟩⟩,
    fun c s phase held adapts first onEpoch => ?_, fun c epoch cs old s new anyMember counted held => ?_,
    fun key r s found unbuilt serves => ?_⟩
  · have h : OrdersNow s c sh turn d := ⟨found, next, whole, counted⟩
    exact ⟨_, rfl, ⟨d.after turn (orderShard s c sh turn d), h.find?_doOrdering, rfl, rfl,
      fun single => nodup_ids_orderShard single s c sh turn⟩, h.doOrdering_out⟩
  · exact directoryRebuildComplete_logged rebuilt hp asked here
  · intro window flashOn idle switched sound notCopied notReshaped hamming cold few
    refine ⟨fun due => ?_, exec_compactionStart_notDue found⟩
    have h : CompactsNow s key l := ⟨found, window, flashOn, idle, switched, sound, notCopied, notReshaped, due⟩
    obtain rfl := getList_key found
    exact ⟨_, h.exec_compactionStart hamming cold few, takenBases s l, getList_setList_self s (l.begun s.turn.no _)⟩
  · have built := exec_compactionComplete found runs
    obtain rfl := getList_key found
    exact ⟨_, built, l.builtAs st cut taken _ (dueTurn s), _, _, getList_addMirror_setList _ _ l.key _, rfl, rfl, rfl,
      fun i mem => mem_compacted mem⟩
  · obtain ⟨adopted, switches⟩ := exec_segmentSetSwitch found built hp asked here
    obtain rfl := getList_key found
    exact ⟨_, switches, ⟨_, getList_setList_self s (l.switched (boundary s) bases cut adopted media), rfl, rfl, rfl, rfl, rfl⟩,
      (waitingCount_bump_self _ _ Nat.one_ne_zero).trans (congrArg (· + 1) (waitingCount_setList s _ _))⟩
  · exact EpochEnds.completes ⟨phase, held, adapts, first, onEpoch⟩
  · obtain ⟨skips, applies⟩ := exec_centroidDriftApply new anyMember counted held
    have moved := getColl_setColl_self s c ((getColl s c).drifted epoch (driftSet s c epoch cs))
    exact ⟨_, applies, rfl, driftSet s c epoch cs, congrArg Coll.driftPend moved, driftSet_length s c epoch cs,
      fun x mem dead => mem_driftSet_of_dead mem dead s c epoch, (congrArg Coll.cents moved).trans held⟩
  · obtain ⟨b, builds⟩ := exec_reshapeBuildComplete found unbuilt serves
    exact ⟨_, builds, rfl, _, b, find?_keepBuild found b, rfl⟩

end Sys2Proof.Machine

/-! Placement and the copying of lists: what a node asks of the ledger where a copy ends by a cause of R337 (log entries 81 and 88). -/

namespace Sys2Proof.Machine

open Sys2Proof

variable {s : State}

/-! ### The holders that a request builds on (R331, R334) -/

theorem holdersNext_of_frame {t : State} {w : List Part} (f : Frame w s t) (objs : w.contains .objs = false)
    (colls : w.contains .colls = false) (ledger : w.contains .ledger = false) (key : Nat) : holdersNext t key = holdersNext s key := by
  have sameLedger : t.ledger = s.ledger := f.keep .ledger ledger
  have sameColls : t.colls = s.colls := f.keep .colls colls
  unfold holdersNext holdersOf getColl
  simp only [sameLedger, sameColls, f.getObj objs]

/-- The last request that waits for a list names its holders. -/
theorem holdersNext_ledgerRequest_self (s : State) (key : Nat) (hs : List Holder) :
    holdersNext (ledgerRequest s (.list key hs)) key = hs := by
  simp [holdersNext, ledgerRequest]

theorem holdersNext_reportStale (s : State) (key : Nat) (silent : List Nat) :
    holdersNext (reportStale s key silent) key = staleHolders s key silent := by
  rw [reportStale_eq, holdersNext_of_frame (bump_frame _ _ _) rfl rfl rfl, holdersNext_ledgerRequest_self]

/-! ### A copy that ends by a cause (R337) -/

/-- The holders without the incoming target of a copy. -/
def CopyJob.leave (j : CopyJob) (hs : List Holder) : List Holder :=
  hs.filter fun h => !(h.node == j.target && decide (h.role = .incoming))

theorem exec_copyAbort {key cause : Nat} {j : CopyJob} (found : getJob s key = some j) (holds : abortCause s j cause = true) :
    exec (.copyAbort key cause) s = .next (abortJob cause s j) := by
  refine congrArg Host.Outcome.next ?_
  unfold doCopyAbort
  rw [found]
  exact if_pos holds

/-- The request that removes the target builds on the request that already waits for the list. -/
theorem outReqs_abortJob (cause : Nat) (s : State) (j : CopyJob) :
    (abortJob cause s j).ledger.outReqs = s.ledger.outReqs ++ [.list j.key (j.leave (holdersNext s j.key))] := by
  have dropped := dropJob_frame s j
  have ledger : (dropJob s j).ledger = s.ledger := dropped.keep .ledger rfl
  unfold abortJob
  dsimp only
  rw [bump_ledger, postEvent_ledger, holdersNext_of_frame dropped rfl rfl rfl, ← ledger]
  rfl

/-! ### A copy whose list has a request waiting -/

/-- This node, 0, is primary of list 7 and copies it to node 1; node 2 holds a replica. -/
def holders7 : List Holder :=
  [{ node := 0, role := .primary, firstPin := 0, lastPin := never }, { node := 2, role := .replica, firstPin := 0, lastPin := never },
   { node := 1, role := .incoming, firstPin := 0, lastPin := 0 }]

def copy7 : CopyJob := { (default : CopyJob) with key := 7, source := 0, target := 1, requested := 5, start := 5, total := 40 }

/-- The copy of list 7 is in progress, and its target has withdrawn from the partition. -/
def targetLost : State :=
  { State.reset with
    ledger := { State.reset.ledger with members := [0, 2], lists := [(7, holders7)] }
    place := { State.reset.place with jobs := [copy7] } }

/-- In the same turn the silent replica on node 2 has been reported stale (R301), and the request waits for the caravan. -/
def staleAndTargetLost : State := reportStale targetLost 7 [2]

/-- Refutes O46, in its last clause: a request that removes the target of an aborted copy builds on the last request that waits
for the list, not on the holders that the ledger names. Where node 2 waits to be recorded as stale, the abort of the copy to
node 1 asks for node 0 as primary and node 2 as stale; the clause has it ask for node 2 as a replica again. -/
theorem not_copiesArePlacedAndMoved : ¬ Obligations.CopiesArePlacedAndMoved := by
  intro h
  obtain ⟨-, copying⟩ := h
  have found : getJob staleAndTargetLost 7 = some copy7 := rfl
  have lost : abortCause staleAndTargetLost copy7 1 = true := rfl
  obtain ⟨-, -, -, -, aborts⟩ := copying 7 copy7 staleAndTargetLost found
  obtain ⟨t, ht, -, -, -, asked⟩ := aborts 1 lost
  obtain rfl := Host.Outcome.next.inj ((exec_copyAbort found lost).symm.trans ht)
  have waiting : holdersNext staleAndTargetLost copy7.key = staleHolders targetLost 7 [2] := holdersNext_reportStale _ _ _
  have requests := List.append_cancel_left ((outReqs_abortJob _ _ _).symm.trans asked)
  rw [waiting] at requests
  exact absurd requests (by decide)

end Sys2Proof.Machine

/-! Scratch Banks: what an access of the owner and of another does, and the handover of a bank (R342 to R345, R348, R350;
log entries 51 and 89). -/

namespace Sys2Proof.Machine

open Sys2Proof

variable {s : State} {addr code fault w b : Nat}

/-! ### Words of a bank -/

/-- A naturally aligned word lies in the bank of its address (R340, R345). -/
theorem scrBankOf_aligned (hw : w = 4 ∨ w = 8) (addr : Nat) : scrBankOf (scrAddr addr / w * w) = scrBankOf (scrAddr addr) := by
  obtain rfl | rfl := hw
  · unfold scrBankOf scrAddr
    omega
  · unfold scrBankOf scrAddr
    omega

/-- Of the 8-byte words, an aligned word touches that of its address. -/
theorem aligned_div_eight (hw : w = 4 ∨ w = 8) (a : Nat) : a / w * w / 8 = a / 8 := by
  obtain rfl | rfl := hw
  · omega
  · omega

/-! ### What SECDED finds (R348) -/

theorem secded_scratch (small : fault ≤ 1) (s : State) (word : Nat) : (secded s word fault).scratch = s.scratch := by
  obtain rfl | rfl := Nat.le_one_iff_eq_zero_or_eq_one.mp small
  · rfl
  · rfl

theorem secded_out (s : State) (word fault : Nat) : (secded s word fault).out = s.out := (secded_frame s word fault).keep .out rfl

/-- Only corrected errors are counted. -/
theorem waitingCount_secded (s : State) (word fault : Nat) {a : Nat} (h : a ≠ Obj.SCRATCH_CORRECTED) :
    waitingCount (secded s word fault) a = waitingCount s a := by
  unfold secded
  split
  · rfl
  · split
    · exact waitingCount_bump_ne s 1 h
    · split
      · rfl
      · rfl

/-! ### Requests of a code that does not own the bank (R344) -/

theorem foreign_scratch_cells (s : State) (b code : Nat) (write : Bool) : (foreign s b code write).scratch.cells = s.scratch.cells :=
  (foreign_frame s b code write).keep .scrCells rfl

theorem foreign_out (s : State) (b code : Nat) (write : Bool) : (foreign s b code write).out = s.out :=
  (foreign_frame s b code write).keep .out rfl

theorem foreign_write_reads (s : State) (b code : Nat) : (getScr (foreign s b code true) b).lastReq = code % 256 ∧
    waitingCount (foreign s b code true) Obj.NONOWNER_WRITES = waitingCount s Obj.NONOWNER_WRITES + 1 := by
  have drops : Obj.NONOWNER_WRITES ≠ Obj.bank_DROPS b := by
    unfold Obj.NONOWNER_WRITES Obj.bank_DROPS
    omega
  constructor
  · exact congrArg ScrBank.lastReq (getScr_setScr_self s b _)
  · exact (waitingCount_bump_ne _ 1 drops).trans (waitingCount_bump_self _ _ Nat.one_ne_zero)

/-! ### Atomics (R345) -/

/-- The state after an atomic has changed the word of `w` bytes at `a` by `f`. -/
def changeWord (s : State) (w a : Nat) (f : Nat → Nat) : State :=
  let old := readBytes s.scratch.cells a w
  let new := leBytes w (f (leNat old) % 2 ^ (8 * w))
  emit (bump { s with scratch := { s.scratch with cells := writeBytes s.scratch.cells a new } } Obj.ATOMICS 1) (.scratchData old)

theorem changeWord_reads (wf : Memory.wf s.scratch.cells = true) (w a : Nat) (f : Nat → Nat) :
    let old := readBytes s.scratch.cells a w
    (changeWord s w a f).out = s.out ++ [Output.scratchData old] ∧
      readBytes (changeWord s w a f).scratch.cells a w = leBytes w (f (leNat old) % 2 ^ (8 * w)) ∧
      (∀ q, q < a ∨ a + w ≤ q → byteAt (changeWord s w a f).scratch.cells q = byteAt s.scratch.cells q) ∧
      waitingCount (changeWord s w a f) Obj.ATOMICS = waitingCount s Obj.ATOMICS + 1 := by
  intro old
  have length := length_leBytes w (f (leNat old) % 2 ^ (8 * w))
  refine ⟨rfl, ?_, fun q outside => ?_, ?_⟩
  · have stored := readBytes_writeBytes wf a (leBytes w (f (leNat old) % 2 ^ (8 * w)))
    rwa [length] at stored
  · exact byteAt_writeBytes_outside _ a _ (length.symm ▸ outside)
  · exact waitingCount_bump_self _ _ Nat.one_ne_zero

section Atomic

variable (hw : w = 4 ∨ w = 8) (work : Option (Nat × Nat)) (f : Nat → Nat)
include hw

theorem atomic_foreign (foreignCode : ownerTakes (getScr s (scrBankOf (scrAddr addr))).owner code = false) :
    atomic s w addr code fault work f =
      emit (foreign s (scrBankOf (scrAddr addr)) code true) (.scratchData (List.replicate w 0)) := by
  unfold atomic
  simp only [scrBankOf_aligned hw, foreignCode, Bool.not_false, if_true]

variable (owns : ownerTakes (getScr s (scrBankOf (scrAddr addr))).owner code = true)
include owns

/-- An atomic of the owner, after SECDED has read its word. -/
theorem atomic_owner : atomic s w addr code fault work f =
    if (secded s (scrAddr addr / 8) fault).scratch.bad.contains (scrAddr addr / 8) then
      scrError (secded s (scrAddr addr / 8) fault) (scrAddr addr / w * w) work
    else changeWord (secded s (scrAddr addr / 8) fault) w (scrAddr addr / w * w) f := by
  unfold atomic
  simp only [scrBankOf_aligned hw, owns, Bool.not_true, Bool.false_eq_true, if_false, aligned_div_eight hw]
  rfl

theorem atomic_failed (bad : s.scratch.bad.contains (scrAddr addr / 8) = true) :
    atomic s w addr code 0 work f = scrError s (scrAddr addr / w * w) work := (atomic_owner hw work f owns).trans (if_pos bad)

/-- The atomic of the owner returns the old word, stores the new one and counts. -/
theorem atomic_sets (wf : Memory.wf s.scratch.cells = true) (small : fault ≤ 1)
    (sound : s.scratch.bad.contains (scrAddr addr / 8) = false) :
    let a := scrAddr addr / w * w
    let old := readBytes s.scratch.cells a w
    let t := atomic s w addr code fault work f
    t.out = s.out ++ [Output.scratchData old] ∧ readBytes t.scratch.cells a w = leBytes w (f (leNat old) % 2 ^ (8 * w)) ∧
      (∀ q, q < a ∨ a + w ≤ q → byteAt t.scratch.cells q = byteAt s.scratch.cells q) ∧
      waitingCount t Obj.ATOMICS = waitingCount s Obj.ATOMICS + 1 := by
  intro a old t
  have same := secded_scratch small s (scrAddr addr / 8)
  have changes : t = changeWord (secded s (scrAddr addr / 8) fault) w a f :=
    (atomic_owner hw work f owns).trans (if_neg (by simp only [same, sound, Bool.false_eq_true, not_false_eq_true]))
  obtain ⟨out, stored, others, counted⟩ := changeWord_reads (same ▸ wf) w a f
  rw [changes]
  refine ⟨?_, ?_, fun q outside => ?_, ?_⟩
  · rw [out, secded_out, same]
  · rw [stored, same]
  · rw [others q outside, same]
  · rw [counted, waitingCount_secded s _ fault (by decide)]

end Atomic

/-- A word that is uncorrectable is reported and left as it is (R348). -/
theorem scrError_reports (s : State) (a : Nat) (work : Option (Nat × Nat)) :
    Logged s (scrError s a work) 0x3018 (scrAddr a) ∧ (scrError s a work).out = s.out ++ [Output.scratchError] ∧
      (scrError s a work).scratch.cells = s.scratch.cells := by
  have marked := failWork_frame (postEvent s 0x3018 (scrAddr a)) work
  refine ⟨?_, ?_, (scrError_frame s a work).keep .scrCells rfl⟩
  · exact (postEvent_logged s 0x3018 (scrAddr a)).of_errorLog_eq (marked.keep .errorLog rfl).1
  · exact congrArg (· ++ _) ((marked.keep .out rfl).trans (postEvent_out _ _ _))

/-! ### Reads and writes (R344) -/

theorem doScratchRead_foreign (foreignCode : ownerTakes (getScr s (scrBankOf (scrAddr addr))).owner code = false) (n : Nat)
    (work : Option (Nat × Nat)) : doScratchRead s addr n code fault work =
      emit (foreign s (scrBankOf (scrAddr addr)) code false) (.scratchData (List.replicate (scrLen (scrAddr addr) n) 0)) := by
  unfold doScratchRead
  simp only [foreignCode, Bool.not_false, if_true]

theorem doScratchWrite_foreign (foreignCode : ownerTakes (getScr s (scrBankOf (scrAddr addr))).owner code = false)
    (d : List Byte) : doScratchWrite s addr d code fault = foreign s (scrBankOf (scrAddr addr)) code true := by
  unfold doScratchWrite
  simp only [foreignCode, Bool.not_false, if_true]

/-- Where no word is uncorrectable, the bytes of a write are stored one after the other. -/
theorem foldl_scrPut_sound (a e : Nat) (d : List Byte) (b : Nat) (m : List Host.Cell) :
    (((List.range' b d.length).map (a + ·)).zip d).foldl (scrPut a e []) m = writeBytes m (a + b) d := by
  induction d generalizing b m with
  | nil => rfl
  | cons x d ih => exact ih (b + 1) (setByte m (a + b) x)

theorem ownerWrite_sound (sound : s.scratch.bad = []) (a : Nat) (d : List Byte) :
    (ownerWrite s a d).scratch.cells = writeBytes s.scratch.cells a d := by
  have none : ((wordsOf a d.length).filter fun w => s.scratch.bad.contains w &&
      !(decide (a ≤ 8 * w) && decide (8 * w + 8 ≤ a + d.length))).length = 0 := by
    rw [sound]
    simp
  unfold ownerWrite
  dsimp only
  rw [if_pos none, sound, List.range_eq_range']
  exact foldl_scrPut_sound a (a + d.length) d 0 s.scratch.cells

section Owner

variable (owns : ownerTakes (getScr s (scrBankOf (scrAddr addr))).owner code = true) (sound : s.scratch.bad = [])
  (small : fault ≤ 1)
include owns sound small

theorem doScratchRead_owner (n : Nat) (work : Option (Nat × Nat)) : doScratchRead s addr n code fault work =
    emit (secded s (scrAddr addr / 8) fault)
      (.scratchData (readBytes s.scratch.cells (scrAddr addr) (scrLen (scrAddr addr) n))) := by
  have reads : ((wordsOf (scrAddr addr) (scrLen (scrAddr addr) n)).any fun w => s.scratch.bad.contains w) = false := by
    rw [sound]
    simp
  unfold doScratchRead
  simp only [owns, Bool.not_true, Bool.false_eq_true, if_false, secded_scratch small, reads]

theorem doScratchWrite_owner {d : List Byte} (fits : scrAddr addr % 2 ^ 26 + d.length ≤ 2 ^ 26) :
    (doScratchWrite s addr d code fault).scratch.cells = writeBytes s.scratch.cells (scrAddr addr) d := by
  have whole : d.take (scrLen (scrAddr addr) d.length) = d := by
    refine List.take_of_length_le ?_
    unfold scrLen scrAddr at *
    omega
  unfold doScratchWrite
  simp only [owns, Bool.not_true, Bool.false_eq_true, if_false, whole]
  rw [ownerWrite_sound (by rw [secded_scratch small, sound]), secded_scratch small]

end Owner

/-! ### Handover (R342, R343, R350) -/

/-- Taking a handover into the boundary in progress leaves the banks their owners. -/
theorem getScr_latchOwner (s : State) (b : Nat) : (getScr (latchOwner s b) b).owner = (getScr s b).owner ∧
    ∀ k, k ≠ b → getScr (latchOwner s b) k = getScr s k := by
  unfold latchOwner
  dsimp only
  split
  · refine ⟨?_, fun _ other => getScr_setScr_ne s _ other⟩
    show (getScr (setScr s b _) b).owner = _
    rw [getScr_setScr_self]
  · exact ⟨rfl, fun _ _ => rfl⟩

theorem dueTurn_latchOwner (s : State) (b : Nat) : dueTurn (latchOwner s b) = dueTurn s := by
  unfold latchOwner
  dsimp only
  split
  · rfl
  · rfl

theorem exec_nextOwnerWrite (keeps : (getScr s b).retired = false) (code : Nat) : exec (.nextOwnerWrite b code) s =
    .next (setScr (latchOwner s b) b { getScr (latchOwner s b) b with
      next := clampOwner code
      due := if clampOwner code = ownerLatched (latchOwner s b) b then 0 else dueTurn s }) := by
  rw [← dueTurn_latchOwner s b]
  refine if_neg ?_
  rw [keeps]
  decide

/-- Settles O47, clause by clause (log entries 51 and 89). -/
theorem scratchAccesses : Obligations.ScratchAccesses := by
  refine ⟨?_, fun b code s => ⟨fun keeps => ?_, fun retired => if_pos retired⟩⟩
  · intro addr operand code fault work s wf bank old sets refused failed
    refine ⟨fun owns small sound => ?_, fun owns bad noFault => ?_, fun foreignCode => ?_, fun owns sound small => ?_⟩
    · exact ⟨⟨_, rfl, atomic_sets (.inl rfl) work _ owns wf small sound⟩, ⟨_, rfl, atomic_sets (.inr rfl) work _ owns wf small sound⟩,
        ⟨_, rfl, atomic_sets (.inl rfl) work _ owns wf small sound⟩, ⟨_, rfl, atomic_sets (.inr rfl) work _ owns wf small sound⟩⟩
    · subst noFault
      have fails : ∀ f, failed (atomic s 8 addr code 0 work f) := fun f => by
        rw [atomic_failed (.inr rfl) work f owns bad]
        exact scrError_reports s _ work
      exact ⟨⟨_, rfl, fails _⟩, ⟨_, rfl, fails _⟩⟩
    · have answers : ∀ w, (w = 4 ∨ w = 8) → ∀ f, refused w (atomic s w addr code fault work f) := fun w hw f => by
        rw [atomic_foreign hw work f foreignCode]
        exact ⟨congrArg (· ++ _) (foreign_out s _ _ _), foreign_scratch_cells s _ _ _, foreign_write_reads s _ code⟩
      refine ⟨⟨_, rfl, answers 4 (.inl rfl) _⟩, ⟨_, rfl, answers 8 (.inr rfl) _⟩, ⟨_, rfl, answers 4 (.inl rfl) _⟩,
        ⟨_, rfl, answers 8 (.inr rfl) _⟩, fun d => ⟨_, rfl, ?_⟩, fun n => ⟨_, rfl, ?_⟩⟩
      · rw [doScratchWrite_foreign foreignCode]
        exact ⟨foreign_scratch_cells s _ _ _, foreign_out s _ _ _⟩
      · rw [doScratchRead_foreign foreignCode]
        exact ⟨congrArg (· ++ _) (foreign_out s _ _ _), foreign_scratch_cells s _ _ _⟩
    · refine ⟨fun n => ⟨_, rfl, ?_⟩, fun d fits => ⟨_, rfl, ?_⟩⟩
      · rw [doScratchRead_owner owns sound small]
        exact ⟨congrArg (· ++ _) (secded_out s _ _), congrArg Scratch.cells (secded_scratch small s _)⟩
      · dsimp only
        rw [doScratchWrite_owner owns sound small fits]
        exact ⟨readBytes_writeBytes wf _ d, fun a outside => byteAt_writeBytes_outside _ _ d outside⟩
  · obtain ⟨owner, others⟩ := getScr_latchOwner s b
    refine ⟨_, exec_nextOwnerWrite keeps code, ?_, ?_, ?_, fun k other => ?_⟩
    · rw [getScr_setScr_self]
    · rw [getScr_setScr_self, owner]
    · rw [getScr_setScr_self]
    · rw [getScr_setScr_ne _ _ other, others k other]

end Sys2Proof.Machine

/-! Wenmen ports: the events of a port that is fenced while it is up (R368, R381, R460). -/

namespace Sys2Proof.Machine

open Sys2Proof

/-! ### The newest entry of ERROR_LOG -/

/-- The newest entry of ERROR_LOG is the one that was entered last. -/
theorem getLast?_keepLast_concat {α : Type} (n : Nat) (l : List α) (a : α) : (keepLast (n + 1) (l ++ [a])).getLast? = some a := by
  rw [keepLast, List.reverse_append, List.reverse_singleton, List.singleton_append, List.take_succ_cons, List.reverse_cons,
    List.getLast?_concat]

/-- An entered event stands last in the log, under the log tally at which it was entered. -/
theorem Logged.getLast? {s t : State} {code detail : Nat} (h : Logged s t code detail) :
    t.nv.errorLog.getLast? = some (s.nv.logTally, { code := code, turn := s.turn.no, detail := detail }) := by
  rw [h]
  exact getLast?_keepLast_concat 65535 _ _

/-! ### A port that is fenced while the log tally wraps -/

/-- Port 0 of this node, 0, is up; the log tally, a 64-bit count, stands at its last value. -/
def upAtLastTally : State :=
  { setObj State.reset (Obj.port_LINK_STATE 0) linkIsUp with nv := { NonVol.reset with logTally := 2 ^ 64 - 1 } }

/-- The state after discovery on that port has named this node itself as the peer. -/
def fencedAtLastTally : State := discover upAtLastTally 0 0 0 0

theorem exec_discFlit_upAtLastTally : exec (.discFlit 0 0 0 0 0) upAtLastTally = .next fencedAtLastTally := rfl

/-- Event 0x4003 is entered under tally 0: the tally has wrapped. -/
theorem fencedAtLastTally_getLast? : fencedAtLastTally.nv.errorLog.getLast?.map Prod.fst = some 0 := rfl

/-- Refutes O48, in its last clause but one: LOG_TALLY is a 64-bit count that wraps. Where event 0x4001 of a port that goes down
before it is fenced is entered under the tally 2^64 - 1, event 0x4003 follows under the tally 0; the clause has it under 2^64. -/
theorem not_portsComeUpAndGoDown : ¬ Obligations.PortsComeUpAndGoDown := by
  intro h
  obtain ⟨-, -, -, -, -, foreign, -⟩ := h 0 upAtLastTally (by decide)
  obtain ⟨-, up⟩ := foreign 0 0 0 0 (.inr rfl)
  obtain ⟨t, ht, -, u, -, tally, -, fenced⟩ := up rfl
  obtain rfl := Host.Outcome.next.inj (exec_discFlit_upAtLastTally.symm.trans ht)
  have last := congrArg (Option.map Prod.fst) fenced.getLast?
  rw [fencedAtLastTally_getLast?, tally] at last
  exact Nat.succ_ne_zero _ (Option.some.inj last).symm

end Sys2Proof.Machine

/-! The Wenmen link layer: flits taken in sequence, acknowledged and sent again, PING and PONG (R367 to R371; log entry 52). -/

namespace Sys2Proof.Machine

open Sys2Proof

variable {s : State} {p : Nat} {f : Flit} {v : Port}

/-! ### What ACK and CREDITS do to a port (R370) -/

/-- Whether ACK of a flit names an entry of the replay buffer. -/
def ackNames (f : Flit) (r : Nat × Nat × List Sys2Proof.Frame × Nat) : Bool := (r.1 + 1) % 4096 == f.ack

/-- A port after the header of a flit: what ACK names is released, CREDITS are returned. -/
def Port.heard (v : Port) (f : Flit) : Port :=
  let v := if v.replay.any (ackNames f) then { v with replay := (v.replay.dropWhile (!ackNames f ·)).drop 1, resends := 0 } else v
  { v with credits := atIdx (fun c => min (nth vlBuffers f.credVl) (c + f.credits)) f.credVl v.credits }

theorem Port.heard_keeps (v : Port) (f : Flit) :
    (v.heard f).rxSeq = v.rxSeq ∧ (v.heard f).nakked = v.nakked ∧ (v.heard f).wait = v.wait := by
  unfold Port.heard
  dsimp only
  split
  · exact ⟨rfl, rfl, rfl⟩
  · exact ⟨rfl, rfl, rfl⟩

/-- An ACK that names nothing releases nothing. -/
theorem Port.heard_unnamed (unnamed : ∀ r ∈ v.replay, (r.1 + 1) % 4096 ≠ f.ack) :
    (v.heard f).replay = v.replay ∧ (v.heard f).resends = v.resends := by
  have none : ¬v.replay.any (ackNames f) = true := by
    rw [List.any_eq_true]
    exact fun ⟨r, mem, named⟩ => unnamed r mem (beq_iff_eq.mp named)
  unfold Port.heard
  simp only [if_neg none, and_self]

/-- An ACK releases the flit that it names and those before it. -/
theorem Port.heard_named {old new : List (Nat × Nat × List Sys2Proof.Frame × Nat)} {r : Nat × Nat × List Sys2Proof.Frame × Nat}
    (split : v.replay = old ++ r :: new) (named : (r.1 + 1) % 4096 = f.ack) (before : ∀ x ∈ old, (x.1 + 1) % 4096 ≠ f.ack) :
    (v.heard f).replay = new ∧ (v.heard f).resends = 0 := by
  have here : ackNames f r = true := beq_iff_eq.mpr named
  have past : ∀ x ∈ old, (!ackNames f x) = true := fun x mem => by
    rw [Bool.not_eq_true']
    exact beq_false_of_ne (before x mem)
  have some : v.replay.any (ackNames f) = true := by
    rw [split, List.any_append, List.any_cons, here, Bool.true_or, Bool.or_true]
  have rest : (v.replay.dropWhile (!ackNames f ·)).drop 1 = new := by
    rw [split, List.dropWhile_append_of_pos past, List.dropWhile_cons_of_neg (by simp [here])]
    rfl
  unfold Port.heard
  simp only [if_pos some, rest, and_self]

/-! ### The flits that the link layer answers with -/

/-- NAK with the SEQ that the receiver expects. -/
def nakFor (seq : Nat) : Flit := { ty := 2, seq := 0, ack := seq, vl := 0, credVl := 0, credits := 0, time := 0, fec := 0 }

/-- The acknowledgement of a data flit, with the credit of its buffer. -/
def ackFor (seq vl : Nat) : Flit := { ty := 0, seq := 0, ack := seq, vl := 0, credVl := vl, credits := 1, time := 0, fec := 0 }

/-- PING and PONG, of types 3 and 4, with the time they carry. -/
def timeFlit (ty ack time : Nat) : Flit := { ty := ty, seq := 0, ack := ack, vl := 0, credVl := 0, credits := 0, time := time % 2 ^ 64, fec := 0 }

theorem sendNak_eq (first : (getPort s p).nakked = false) :
    sendNak s p = emit (setPort s p { getPort s p with nakked := true }) (.flitOut p (nakFor (getPort s p).rxSeq)) := by
  unfold sendNak
  simp only [first]
  rfl

theorem sendNak_reads (first : (getPort s p).nakked = false) : (getPort (sendNak s p) p).rxSeq = (getPort s p).rxSeq ∧
    (getPort (sendNak s p) p).nakked = true ∧ (sendNak s p).out = s.out ++ [Output.flitOut p (nakFor (getPort s p).rxSeq)] := by
  have port : getPort (sendNak s p) p = { getPort s p with nakked := true } := by
    rw [sendNak_eq first]
    exact getPort_setPort_self s p _
  refine ⟨(congrArg Port.rxSeq port).trans rfl, congrArg Port.nakked port, ?_⟩
  rw [sendNak_eq first]
  rfl

/-! ### Flits that are sent again (R370) -/

/-- A port from which every unacknowledged flit is sent again. -/
def Port.again (v : Port) : Port := { v with resends := v.resends + 1 }

/-- The flits of the replay buffer as they leave again. -/
def Port.resent (v : Port) (p : Nat) : List Output := v.replay.map fun r =>
  .flitOut p { ty := 1, seq := r.1, ack := v.rxSeq, vl := r.2.1, credVl := 0, credits := 0, time := 0, fec := 0, fptr := r.2.2.2 }

theorem resendFlits_eq (some : (getPort s p).replay ≠ []) (few : (getPort s p).resends < 64) : resendFlits s p =
    let t := bump (setPort s p (getPort s p).again) (Obj.port_FLIT_RETRIES p) (getPort s p).replay.length
    { t with out := t.out ++ (getPort s p).resent p } := by
  unfold resendFlits
  dsimp only
  rw [if_neg some, if_neg (Nat.not_le.mpr few)]
  exact foldl_emit _ _ _

theorem resendFlits_reads (some : (getPort s p).replay ≠ []) (few : (getPort s p).resends < 64) :
    (getPort (resendFlits s p) p).resends = (getPort s p).resends + 1 ∧
      (getPort (resendFlits s p) p).replay = (getPort s p).replay ∧
      (resendFlits s p).out.length = s.out.length + (getPort s p).replay.length ∧
      waitingCount (resendFlits s p) (Obj.port_FLIT_RETRIES p) =
        waitingCount s (Obj.port_FLIT_RETRIES p) + (getPort s p).replay.length := by
  have port : getPort (resendFlits s p) p = (getPort s p).again := by
    rw [resendFlits_eq some few]
    exact getPort_setPort_self s p _
  refine ⟨congrArg Port.resends port, (congrArg Port.replay port).trans rfl, ?_, ?_⟩
  · rw [resendFlits_eq some few]
    exact (List.length_append ..).trans (congrArg (s.out.length + ·) (List.length_map _))
  · rw [resendFlits_eq some few]
    exact waitingCount_bump_self (setPort s p _) _ (mt List.length_eq_zero_iff.mp some)

/-! ### PING (R371) -/

theorem foldl_ping (now : Nat) (ports : List Nat) (s : State) : ports.foldl (ping now) s =
    { s with out := s.out ++ ports.map fun p => .flitOut p (timeFlit 3 (getPort s p).rxSeq now) } := by
  induction ports generalizing s with
  | nil => simp
  | cons p ports ih =>
    rw [List.foldl_cons, ih, List.map_cons, ping, emit_out, List.append_assoc, List.singleton_append]
    rfl

theorem exec_pingTimer_due (due : s.turn.no % 64 = 0) (now : Nat) : exec (.pingTimer now) s =
    .next (((List.range 16).filter fun p => linkState s p == linkIsUp).foldl (ping now) s) := congrArg Host.Outcome.next (if_pos due)

/-! ### A port that is up, with no flit waiting -/

section Up

variable (up : linkState s p = linkIsUp)
include up

theorem exec_replayTimeout : exec (.replayTimeout p) s = .next (resendFlits s p) := congrArg Host.Outcome.next (if_pos up)

theorem takeFlit_uncorrectable (bad : f.fec = 3) (k : State → State) :
    takeFlit s p f k = sendNak (bump s (Obj.port_FEC_UNCORRECTABLE p) 1) p := by
  unfold takeFlit
  simp only [up, bad, ne_eq, not_true_eq_false, false_and, if_false, if_true, Nat.reduceEqDiff]

theorem takeFlit_whole (whole : f.fec = 0) (ty : f.ty ≤ 5) (k : State → State) : takeFlit s p f k = k s := by
  unfold takeFlit
  simp only [up, whole, ne_eq, not_true_eq_false, false_and, if_false, OfNat.zero_ne_ofNat, zero_ne_one,
    Nat.not_lt.mpr ty]

variable (idle : (getPort s p).wait = [])
include idle

omit up in
theorem flitHeader_eq : flitHeader s p f = setPort s p ((getPort s p).heard f) := by
  obtain ⟨-, -, wait⟩ := (getPort s p).heard_keeps f
  have none : flitsOf ((getPort s p).heard f).wait = 0 := by
    rw [wait, idle]
    rfl
  exact (congrArg (drain (setPort s p ((getPort s p).heard f)) p) none).trans rfl

variable (whole : f.fec = 0) (ty : f.ty ≤ 5)
include whole ty

theorem exec_dataFlit_expected (next : f.seq = (getPort s p).rxSeq) : exec (.dataFlit p f) s =
    .next (emit (setPort (setPort s p ((getPort s p).heard f)) p
        { (getPort s p).heard f with rxSeq := ((getPort s p).rxSeq + 1) % 4096, nakked := false })
      (.flitOut p (ackFor (((getPort s p).rxSeq + 1) % 4096) f.vl))) := by
  obtain ⟨rx, -, -⟩ := (getPort s p).heard_keeps f
  refine congrArg Host.Outcome.next ?_
  rw [takeFlit_whole up whole ty]
  simp only [up, ne_eq, not_true_eq_false, if_false, flitHeader_eq idle, getPort_setPort_self, rx, next]
  rfl

theorem exec_dataFlit_other (other : f.seq ≠ (getPort s p).rxSeq) : exec (.dataFlit p f) s =
    .next (sendNak (setPort s p ((getPort s p).heard f)) p) := by
  obtain ⟨rx, -, -⟩ := (getPort s p).heard_keeps f
  refine congrArg Host.Outcome.next ?_
  rw [takeFlit_whole up whole ty]
  simp only [up, ne_eq, not_true_eq_false, if_false, flitHeader_eq idle, getPort_setPort_self, rx, other, not_false_eq_true, if_true]

theorem exec_idleFlit : exec (.idleFlit p f) s = .next (setPort s p ((getPort s p).heard f)) := by
  refine congrArg Host.Outcome.next ?_
  rw [takeFlit_whole up whole ty, flitHeader_eq idle]

theorem exec_nakFlit : exec (.nakFlit p f) s = .next (resendFlits (setPort s p ((getPort s p).heard f)) p) := by
  refine congrArg Host.Outcome.next ?_
  rw [takeFlit_whole up whole ty, flitHeader_eq idle]

theorem exec_pingFlit (hold : Nat) : exec (.pingFlit p f hold) s =
    .next (emit (setPort s p ((getPort s p).heard f)) (.flitOut p (timeFlit 4 (getPort s p).rxSeq (f.time + hold)))) := by
  obtain ⟨rx, -, -⟩ := (getPort s p).heard_keeps f
  refine congrArg Host.Outcome.next ?_
  rw [takeFlit_whole up whole ty]
  simp only [flitHeader_eq idle, getPort_setPort_self, rx]
  rfl

omit idle in
/-- Neither the event of a long delay nor the frames that wait touch the delay that a PONG gives. -/
theorem pongFlit_completes (arrival : Nat) : Completes (.pongFlit p f arrival) s fun t =>
    getObj t (Obj.port_LINK_DELAY_PS p) = min (2 ^ 32 - 1) ((arrival - f.time) * 25) := by
  refine ⟨_, congrArg Host.Outcome.next (takeFlit_whole up whole ty _), ?_⟩
  dsimp only
  rw [(moveWaiting_frame _ p).getObj rfl, (delayEvent_frame _ p _).getObj rfl, getObj_setObj_self]

end Up

/-- Settles O49, clause by clause (log entry 52). -/
theorem flitsAreTakenInSequence : Obligations.FlitsAreTakenInSequence := by
  intro p f s up idle ty v ack nak
  obtain ⟨rx, nakked, -⟩ := v.heard_keeps f
  have port : getPort (setPort s p (v.heard f)) p = v.heard f := getPort_setPort_self _ _ _
  refine ⟨fun whole next => ?_, fun whole other first => ?_, fun bad first => ?_, fun whole unnamed => ?_,
    fun old r new whole split named before => ?_, fun whole some few unnamed => ?_, fun some few => ?_, fun hold whole => ?_,
    fun arrival whole => ?_, fun now due exist => ?_, fun now early => ?_⟩
  · refine ⟨_, exec_dataFlit_expected up idle whole ty next, ?_, ?_, rfl⟩
    · exact congrArg Port.rxSeq (getPort_setPort_self (setPort s p (v.heard f)) p _)
    · exact congrArg Port.nakked (getPort_setPort_self (setPort s p (v.heard f)) p _)
  · have sent := sendNak_reads (s := setPort s p (v.heard f)) (p := p) (by rw [port, nakked, first])
    rw [port, rx] at sent
    exact ⟨_, exec_dataFlit_other up idle whole ty other, sent⟩
  · obtain ⟨rx, -, out⟩ := sendNak_reads (s := bump s (Obj.port_FEC_UNCORRECTABLE p) 1) (p := p) first
    refine ⟨_, congrArg Host.Outcome.next (takeFlit_uncorrectable up bad _), rx, out, ?_⟩
    rw [sendNak_eq (s := bump s (Obj.port_FEC_UNCORRECTABLE p) 1) first]
    exact waitingCount_bump_self s _ Nat.one_ne_zero
  · exact ⟨_, exec_idleFlit up idle whole ty, (congrArg Port.replay port).trans (Port.heard_unnamed unnamed).1, rfl⟩
  · obtain ⟨replay, resends⟩ := Port.heard_named split named before
    exact ⟨_, exec_idleFlit up idle whole ty, (congrArg Port.replay port).trans replay,
      (congrArg Port.resends port).trans resends, rfl⟩
  · obtain ⟨replay, resends⟩ := Port.heard_unnamed unnamed
    have reads := resendFlits_reads (s := setPort s p (v.heard f)) (p := p) (by rwa [port, replay]) (by rwa [port, resends])
    rw [port, replay, resends] at reads
    exact ⟨_, exec_nakFlit up idle whole ty, reads⟩
  · obtain ⟨resends, replay, out, -⟩ := resendFlits_reads some few
    exact ⟨_, exec_replayTimeout up, resends, replay, out⟩
  · exact ⟨_, exec_pingFlit up idle whole ty hold, rfl⟩
  · exact pongFlit_completes up whole ty arrival
  · have here : p ∈ (List.range 16).filter fun p => linkState s p == linkIsUp :=
      List.mem_filter.mpr ⟨List.mem_range.mpr exist, beq_iff_eq.mpr up⟩
    refine ⟨_, exec_pingTimer_due due now, ?_⟩
    rw [foldl_ping]
    exact List.mem_append_right _ (List.mem_map_of_mem here)
  · exact congrArg Host.Outcome.next (if_neg early)

end Sys2Proof.Machine

/-! Frames, acknowledgements and boundary marks (R28, R29, R372, R374, R378, R381), and the pooled cache (R389, R390; log entries 18,
40, 52 and 90). -/

namespace Sys2Proof.Machine

open Sys2Proof

variable {s : State} {f : Sys2Proof.Frame} {st : TStream}

/-! ### Frames that go on (R372) -/

/-- What waits at a port goes out after what has left the node. -/
theorem mem_out_drain {o : Output} (p n : Nat) (h : o ∈ s.out) : o ∈ (drain s p n).out := by
  induction n generalizing s with
  | zero => exact h
  | succ n ih =>
    unfold drain
    dsimp only
    split
    · exact h
    · split
      · exact h
      · exact ih (List.mem_append_left _ h)

theorem mem_out_putFrame (s : State) (p : Nat) (f : Sys2Proof.Frame) : Output.frameOut p f ∈ (putFrame s p f).out :=
  mem_out_drain p _ (List.mem_append_right _ List.mem_cons_self)

/-! ### The replies that frames carry (R390) -/

theorem askLender_keeps (s : State) (lender key : Nat) :
    (askLender s lender key).fab.inStreams = s.fab.inStreams ∧ (askLender s lender key).fab.kept = s.fab.kept := by
  unfold askLender
  split
  · exact ⟨rfl, rfl⟩
  · exact ⟨rfl, rfl⟩

/-- Requests that wait for a port, as they go. -/
def askWaiting (s : State) (g : Nat × Nat) : State := askLender s g.1 g.2

/-- What is kept once a reply has come. -/
def keptWith (s : State) (key : Nat) (value : Option (List Byte)) : List (Nat × CacheEnt) :=
  match value with
  | some v => if s.fab.kept.any (·.2.key == key) then s.fab.kept else s.fab.kept ++ [(dueTurn s, { key := key, value := v })]
  | none => s.fab.kept

theorem takeReply_eq (s : State) (src key : Nat) (value : Option (List Byte)) : takeReply s src key value =
    s.fab.getWait.foldl askWaiting
      { s with fab := { s.fab with kept := keptWith s key value, gets := s.fab.gets.erase (src, key), getWait := [] } } := rfl

theorem takeReply_inStreams (s : State) (src key : Nat) (value : Option (List Byte)) :
    (takeReply s src key value).fab.inStreams = s.fab.inStreams := by
  rw [takeReply_eq]
  exact foldl_keeps askWaiting (fun s => s.fab.inStreams) (fun s g => (askLender_keeps s g.1 g.2).1) _ _

/-- An entry that is not yet kept is kept, to be counted at the boundary whose P2 tick follows. -/
theorem takeReply_kept {key : Nat} (new : (s.fab.kept.any (·.2.key == key)) = false) (src : Nat) (v : List Byte) :
    (takeReply s src key (some v)).fab.kept = s.fab.kept ++ [(dueTurn s, { key := key, value := v })] := by
  rw [takeReply_eq, foldl_keeps askWaiting (fun s => s.fab.kept) fun s g => (askLender_keeps s g.1 g.2).2]
  exact if_neg (Bool.eq_false_iff.mp new)

/-! ### Frames that enter their stream (R374) -/

/-- Whether a stream is that of a frame. -/
def streamOf (f : Sys2Proof.Frame) (t : TStream) : Bool := t.peer == f.src && t.cls == f.cls

/-- The stream of a frame, a new one where none stands. -/
def streamFor (s : State) (f : Sys2Proof.Frame) : TStream :=
  (s.fab.inStreams.find? (streamOf f)).getD { peer := f.src, cls := f.cls, next := 0, held := [], out := [] }

/-- A stream after a frame has entered it. -/
def TStream.entered (st : TStream) (f : Sys2Proof.Frame) : TStream :=
  if f.seq = st.next then
    let d := deliver st.held.length (st.next + 1) st.held
    { st with next := d.1, held := d.2 }
  else if 2 ^ 63 ≤ (f.seq - st.next).toNat ∨ st.held.contains f.seq = true ∨ 256 ≤ st.held.length then st
  else { st with held := st.held ++ [f.seq] }

/-- A reply with the frame that carried it: source, SEQ, key and value. -/
abbrev Carried := Nat × Tally × Nat × Option (List Byte)

/-- The reply that a frame brings into a stream. -/
def TStream.carried (st : TStream) (f : Sys2Proof.Frame) : List Carried :=
  match f.reply with
  | some r => if st.entered f = st ∨ f.cls ≠ 3 then [] else [(f.src, f.seq, r)]
  | none => []

/-- Whether a reply waits on after a frame: it is of another stream, or its frame is held. -/
def TStream.waits (st : TStream) (f : Sys2Proof.Frame) (r : Carried) : Bool :=
  !(r.1 == f.src && f.cls == 3) || (st.entered f).held.contains r.2.1

/-- A reply is taken out of the frame that carried it. -/
def takeCarried (s : State) (r : Carried) : State := takeReply s r.1 r.2.2.1 r.2.2.2

/-- The state in which a frame has entered its stream, before the replies of the frames delivered are taken. -/
def frameEntered (s : State) (f : Sys2Proof.Frame) : State :=
  { s with fab := { s.fab with
    inStreams := s.fab.inStreams.filter (fun t => !streamOf f t) ++ [(streamFor s f).entered f]
    replies := (s.fab.replies ++ (streamFor s f).carried f).filter ((streamFor s f).waits f) } }

theorem frameIn_eq (s : State) (f : Sys2Proof.Frame) : frameIn s f =
    ((s.fab.replies ++ (streamFor s f).carried f).filter fun r => !(streamFor s f).waits f r).foldl takeCarried (frameEntered s f) := rfl

theorem TStream.entered_next (none : st.held = []) (next : f.seq = st.next) :
    st.entered f = { st with next := st.next + 1, held := [] } := by
  unfold TStream.entered
  rw [if_pos next, none]
  rfl

theorem TStream.entered_early (none : st.held = []) (later : f.seq ≠ st.next) (near : (f.seq - st.next).toNat < 2 ^ 63) :
    st.entered f = { st with held := [f.seq] } := by
  have room : ¬(2 ^ 63 ≤ (f.seq - st.next).toNat ∨ st.held.contains f.seq = true ∨ 256 ≤ st.held.length) := by
    rw [none]
    rintro (far | held | full)
    · exact Nat.not_le.mpr near far
    · cases held
    · cases full
  unfold TStream.entered
  rw [if_neg later, if_neg room, none]
  rfl

theorem TStream.entered_own (own : streamOf f st = true) : (st.entered f).peer = f.src ∧ (st.entered f).cls = f.cls := by
  rw [streamOf, Bool.and_eq_true, beq_iff_eq, beq_iff_eq] at own
  unfold TStream.entered
  split
  · exact own
  · split
    · exact own
    · exact own

section Enter

variable (found : s.fab.inStreams.find? (streamOf f) = some st)
include found

theorem streamFor_eq : streamFor s f = st := congrArg (Option.getD · _) found

/-- The stream of a frame stands among the streams, with the frame in it. -/
theorem frameIn_stream : ∃ k ∈ (frameIn s f).fab.inStreams, k.peer = f.src ∧ k.cls = f.cls ∧ k = st.entered f := by
  obtain ⟨peer, cls⟩ := TStream.entered_own (List.find?_some found)
  refine ⟨st.entered f, ?_, peer, cls, rfl⟩
  rw [frameIn_eq, foldl_keeps takeCarried (fun s => s.fab.inStreams) fun s r => takeReply_inStreams s r.1 r.2.2.1 r.2.2.2]
  exact List.mem_append_right _ (streamFor_eq found ▸ List.mem_cons_self)

/-- The reply in a frame that is delivered at once is kept. -/
theorem frameIn_kept {key : Nat} {v : List Byte} (none : st.held = []) (next : f.seq = st.next) (cache : f.cls = 3)
    (reply : f.reply = some (key, some v)) (noReplies : s.fab.replies = []) (new : (s.fab.kept.any (·.2.key == key)) = false) :
    (dueTurn s, { key := key, value := v }) ∈ (frameIn s f).fab.kept := by
  have entered := TStream.entered_next none next
  have moves : ¬(st.entered f = st ∨ f.cls ≠ 3) := by
    rintro (same | other)
    · have loops : st.next + 1 = st.next := congrArg TStream.next (entered.symm.trans same)
      bv_omega
    · exact other cache
  have carried : st.carried f = [(f.src, f.seq, key, some v)] := by
    unfold TStream.carried
    rw [reply]
    exact if_neg moves
  have delivered : st.waits f (f.src, f.seq, key, some v) = false := by
    simp [TStream.waits, entered, cache]
  have takes : frameIn s f = takeReply (frameEntered s f) f.src key (some v) := by
    rw [frameIn_eq, streamFor_eq found, noReplies, carried, List.nil_append, List.filter_cons_of_pos (by rw [delivered]; rfl)]
    rfl
  rw [takes, takeReply_kept (s := frameEntered s f) new]
  exact List.mem_append_right _ List.mem_cons_self

end Enter

/-! ### Frames at a node (R372, R381) -/

theorem exec_frameReceive_foreign (foreignPart : f.part ≠ getObj s Obj.PARTITION_ID) :
    exec (.frameReceive f) s = .next (bump s Obj.FRAMES_WRONG_PART 1) := congrArg Host.Outcome.next (if_pos foreignPart)

section Member

variable (part : f.part = getObj s Obj.PARTITION_ID)
include part

theorem exec_frameReceive_noMember (lost : s.ledger.members.contains f.dst = false) : exec (.frameReceive f) s = .next s := by
  refine congrArg Host.Outcome.next ((if_neg (not_not.mpr part)).trans (if_pos ?_))
  rw [lost]
  rfl

variable (member : s.ledger.members.contains f.dst = true)
include member

/-- What a frame of this partition does at a member: it is taken where it is for this node, else it goes on. -/
theorem exec_frameReceive_member : exec (.frameReceive f) s = .next (
    if f.dst = selfNode s then
      if f.good then frameIn s f else emit s (.streamAck f.src f.cls (((s.fab.inStreams.find? (streamOf f)).map (·.next)).getD 0) true)
    else if 3 ≤ f.hops then { s with fab := { s.fab with badFrames := s.fab.badFrames + 1 } }
    else if s.turn.escalated then s
    else
      match portTo s f.dst with
      | none => s
      | some p => putFrame s p { f with hops := f.hops + 1 }) := by
  refine congrArg Host.Outcome.next ((if_neg (not_not.mpr part)).trans (if_neg ?_))
  rw [member]
  decide

end Member

/-! ### Acknowledgements (R374, R394, R395) -/

theorem exec_e2eAckTimer (s : State) : exec .e2eAckTimer s =
    .next { s with out := s.out ++ s.fab.inStreams.map fun x => Output.streamAck x.peer x.cls x.next false } :=
  congrArg Host.Outcome.next (foldl_emit _ _ _)

/-- Whether a frame lies below the SEQ that an acknowledgement names. -/
def below (next : Tally) (f : Sys2Proof.Frame) : Bool := decide (0 < (next - f.seq).toNat) && decide ((next - f.seq).toNat < 2 ^ 63)

theorem below_eq_false {next : Tally} : below next f = false ↔ (next - f.seq).toNat = 0 ∨ 2 ^ 63 ≤ (next - f.seq).toNat := by
  rw [below, Bool.and_eq_false_iff, decide_eq_false_iff_not, decide_eq_false_iff_not, Nat.not_lt, Nat.not_lt, Nat.le_zero]

/-- A stream from which the frames below an acknowledgement have been released. -/
def TStream.acked (next : Tally) (st : TStream) : TStream := { st with out := st.out.filter fun f => !below next f }

/-- The state in which an acknowledgement has released the frames of stream `st`, below SEQ `next`. -/
def ackTaken (s : State) (dst cls : Nat) (next : Tally) (st : TStream) : State :=
  { s with fab := { s.fab with
    streams := s.fab.streams.map fun x => if x.peer == dst && x.cls == cls then { x with out := (st.acked next).out } else x
    unconsumed := put s.fab.unconsumed dst (lookD s.fab.unconsumed dst 0 -
      (st.out.filter fun f => below next f && f.last && decide (f.cls = 0)).length) } }

/-- Where no more frames are on their way than the window holds, an acknowledgement sends none. -/
theorem exec_transportAck {dst cls : Nat} (found : (s.fab.streams.find? fun t => t.peer == dst && t.cls == cls) = some st)
    (window : st.out.length ≤ streamWindow) (next : Tally) :
    exec (.transportAck dst cls next false) s = .next (ackTaken s dst cls next st) := by
  have fewer : (st.acked next).out.length ≤ st.out.length := List.length_filter_le _ _
  have none : ((st.acked next).out.take streamWindow).drop
      (min streamWindow st.out.length - (st.out.length - (st.acked next).out.length)) = [] := by
    rw [List.drop_eq_nil_iff, List.length_take]
    omega
  refine congrArg Host.Outcome.next ?_
  rw [found]
  exact congrArg (List.foldl routeFrame (ackTaken s dst cls next st)) none

theorem ackTaken_stream {dst cls : Nat} (found : (s.fab.streams.find? fun t => t.peer == dst && t.cls == cls) = some st)
    (next : Tally) : st.peer = dst ∧ st.cls = cls ∧ st.acked next ∈ (ackTaken s dst cls next st).fab.streams := by
  have own := List.find?_some found
  have both := own
  rw [Bool.and_eq_true, beq_iff_eq, beq_iff_eq] at both
  refine ⟨both.1, both.2, List.mem_map.mpr ⟨st, List.mem_of_find?_eq_some found, ?_⟩⟩
  exact if_pos own

theorem mem_acked_out {next : Tally} (mem : f ∈ st.out) :
    f ∈ (st.acked next).out ↔ (next - f.seq).toNat = 0 ∨ 2 ^ 63 ≤ (next - f.seq).toNat := by
  rw [TStream.acked, List.mem_filter, Bool.not_eq_true', below_eq_false]
  exact and_iff_right mem

/-! ### Boundary marks (R28, R29, R378) -/

section Mark

variable {p : Nat} {m : Mark}

theorem exec_boundaryMark_ignored (h : carries s p = false ∨ 3 < m.hops) (hold : Nat) (off : Int) :
    exec (.boundaryMark p m hold off) s = .next s := congrArg Host.Outcome.next (if_pos h)

/-- The peer of a port at which a mark came is a member. -/
def markHeard (s : State) (p : Nat) : State := { s with fab := { s.fab with memberPorts := nub (s.fab.memberPorts ++ [p]) } }

/-- The correction of a measured offset in ticks, at most 40 either way. -/
def steerOf (off : Int) : Int := if 40 < off * 5 / 4 then -40 else if off * 5 / 4 < -40 then 40 else -(off * 5 / 4)

theorem natAbs_steerOf_le (off : Int) : (steerOf off).natAbs ≤ 40 := by
  unfold steerOf
  split
  · decide
  · split
    · decide
    · omega

/-- The time base steered by the first mark of a boundary. -/
def markTaken (s : State) (m : Mark) (off : Int) : State :=
  { s with turn := { s.turn with
    markTurn := m.turn + 1, markSeen := true, alignOff := off
    alignBad := if 1000 < off.natAbs then s.turn.alignBad + 1 else 0, steer := steerOf off } }

variable (carried : carries s p = true) (near : m.hops ≤ 3) (hold : Nat) (off : Int)
include carried near

theorem exec_boundaryMark_heard : exec (.boundaryMark p m hold off) s = .next (
    if !isMember s ∨ isLeader s = true ∨ m.turn < s.turn.markTurn then markHeard s p
    else ((upPorts s).filter (· != p)).foldl (fun u q => emit u (.markOut q
      { turn := m.turn, hops := m.hops + 1, corr := m.corr + getObj s (Obj.port_LINK_DELAY_PS p) / 50 + hold }))
      (markTaken (markHeard s p) m off)) := by
  have heard : ¬(carries s p = false ∨ 3 < m.hops) := by
    rw [carried]
    rintro (none | far)
    · cases none
    · exact Nat.not_lt.mpr near far
  exact congrArg Host.Outcome.next (if_neg heard)

theorem exec_boundaryMark_known (known : m.turn < s.turn.markTurn) :
    exec (.boundaryMark p m hold off) s = .next (markHeard s p) :=
  (exec_boundaryMark_heard carried near hold off).trans (congrArg Host.Outcome.next (if_pos (.inr (.inr known))))

theorem exec_boundaryMark_first (member : isMember s = true) (follows : isLeader s = false) (first : s.turn.markTurn ≤ m.turn) :
    exec (.boundaryMark p m hold off) s = .next { markTaken (markHeard s p) m off with
      out := s.out ++ ((upPorts s).filter (· != p)).map fun q => Output.markOut q
        { turn := m.turn, hops := m.hops + 1, corr := m.corr + getObj s (Obj.port_LINK_DELAY_PS p) / 50 + hold } } := by
  have steers : ¬(!isMember s ∨ isLeader s = true ∨ m.turn < s.turn.markTurn) := by
    rw [member, follows]
    rintro (no | leads | late)
    · cases no
    · cases leads
    · exact Nat.not_lt.mpr first late
  refine (exec_boundaryMark_heard carried near hold off).trans (congrArg Host.Outcome.next ((if_neg steers).trans ?_))
  exact foldl_emit _ _ _

end Mark

/-! ### The pooled cache (R389, R390) -/

section Cache

variable {key : Nat}

/-- The entry of a key among entries. -/
def valueOf (es : List CacheEnt) (key : Nat) : Option (List Byte) := (es.find? (·.key == key)).map (·.value)

theorem valueOf_others_self (es : List CacheEnt) (key : Nat) : valueOf (es.filter (·.key != key)) key = none := by
  have none : (es.filter (·.key != key)).find? (·.key == key) = none := by
    rw [List.find?_eq_none]
    intro e mem own
    rw [List.mem_filter, bne_iff_ne] at mem
    exact mem.2 (beq_iff_eq.mp own)
  rw [valueOf, none]
  rfl

theorem valueOf_others_ne (es : List CacheEnt) {k : Nat} (other : k ≠ key) : valueOf (es.filter (·.key != key)) k = valueOf es k := by
  have kept : (fun e : CacheEnt => decide ((e.key != key) = true ∧ (e.key == k) = true)) = fun e => e.key == k := by
    funext e
    by_cases own : e.key = k
    · simp [own, other]
    · simp [own]
  rw [valueOf, valueOf, List.find?_filter, kept]

theorem valueOf_append (es fs : List CacheEnt) (k : Nat) : valueOf (es ++ fs) k = (valueOf es k).or (valueOf fs k) := by
  rw [valueOf, valueOf, valueOf, List.find?_append, Option.map_or]

theorem valueOf_own (es : List CacheEnt) (key k : Nat) :
    valueOf (es.filter (·.key == key)) k = if k = key then valueOf es key else none := by
  split
  · next same =>
    rw [same, valueOf, valueOf, List.find?_filter]
    simp only [and_self, Bool.decide_eq_true]
  · next other =>
    have none : (es.filter (·.key == key)).find? (·.key == k) = none := by
      rw [List.find?_eq_none]
      intro e mem own
      rw [List.mem_filter, beq_iff_eq] at mem
      exact other ((beq_iff_eq.mp own).symm.trans mem.2)
    rw [valueOf, none]
    rfl

/-- A read changes no entry. -/
theorem cacheFind_cacheTouch (s : State) (key k : Nat) : cacheFind (cacheTouch s key) k = cacheFind s k := by
  refine (valueOf_append _ _ k).trans ?_
  rw [valueOf_own]
  by_cases same : k = key
  · rw [same, valueOf_others_self, if_pos rfl, Option.none_or]
    rfl
  · rw [valueOf_others_ne _ same, if_neg same, Option.or_none]
    rfl

theorem exec_get_lender (lends : lenderOf s key = some (selfNode s)) (src : Nat) :
    exec (.get src key) s = .next (emit (cacheTouch s key) (.cacheReply src key (cacheFind s key))) :=
  congrArg Host.Outcome.next (if_pos lends)

theorem exec_get_other (other : lenderOf s key ≠ some (selfNode s)) (src : Nat) :
    exec (.get src key) s = .next (emit s (.cacheReply src key none)) := congrArg Host.Outcome.next (if_neg other)

theorem exec_put_ignored {v : List Byte} (src : Nat) (h : lenderOf s key ≠ some (selfNode s) ∨ (cacheFind s key).isSome = true ∨
    v.length < 64 ∨ 65536 < v.length) : exec (.put src key v) s = .next s := by
  refine congrArg Host.Outcome.next ?_
  by_cases lends : lenderOf s key = some (selfNode s)
  · refine (if_pos lends).trans (if_pos ?_)
    obtain other | exist | short | long := h
    · exact absurd lends other
    · exact .inr (.inr (.inl exist))
    · exact .inl short
    · exact .inr (.inl long)
  · exact if_neg lends

/-- Eviction drops the oldest entries. -/
theorem evict_suffix (cap n : Nat) (es : List CacheEnt) : evict cap n es <:+ es := by
  induction es with
  | nil => exact List.suffix_refl []
  | cons e es ih =>
    unfold evict
    split
    · exact List.suffix_refl _
    · exact ih.trans (List.suffix_cons e es)

theorem cacheBytes_evict_le {cap n : Nat} (fits : n ≤ cap) (es : List CacheEnt) : cacheBytes (evict cap n es) + n ≤ cap := by
  induction es with
  | nil => exact (Nat.zero_add n).symm ▸ fits
  | cons e es ih =>
    unfold evict
    split
    · assumption
    · exact ih

theorem cacheBytes_concat (es : List CacheEnt) (e : CacheEnt) : cacheBytes (es ++ [e]) = cacheBytes es + (16 + e.value.length) := by
  rw [cacheBytes, List.foldl_append]
  exact Nat.add_assoc _ 16 _

/-- A new entry that fits is stored by the slot's lender, which evicts others for it. -/
theorem put_completes {v : List Byte} (lends : lenderOf s key = some (selfNode s)) (long : 64 ≤ v.length) (short : v.length ≤ 65536)
    (new : cacheFind s key = none) (fits : 16 + v.length ≤ getObj s Obj.CACHE_LEND_GIB * 2 ^ 30) (src : Nat) :
    Completes (.put src key v) s fun t => cacheFind t key = some v ∧
      cacheBytes t.fab.cache ≤ getObj s Obj.CACHE_LEND_GIB * 2 ^ 30 := by
  have legal : ¬(v.length < 64 ∨ 65536 < v.length ∨ (cacheFind s key).isSome = true ∨
      getObj s Obj.CACHE_LEND_GIB * 2 ^ 30 < 16 + v.length) := by
    rw [new]
    rintro (h | h | h | h)
    · exact Nat.not_lt.mpr long h
    · exact Nat.not_lt.mpr short h
    · cases h
    · exact Nat.not_lt.mpr fits h
  refine ⟨_, congrArg Host.Outcome.next ((if_pos lends).trans (if_neg legal)), ?_, ?_⟩
  · have absent : s.fab.cache.find? (·.key == key) = none := Option.map_eq_none_iff.mp new
    have gone : (evict (getObj s Obj.CACHE_LEND_GIB * 2 ^ 30) (16 + v.length) s.fab.cache).find? (·.key == key) = none := by
      rw [List.find?_eq_none] at absent ⊢
      exact fun e mem => absent e ((evict_suffix _ _ _).subset mem)
    refine (valueOf_append _ _ key).trans ?_
    rw [valueOf, gone]
    simp [valueOf]
  · dsimp only
    rw [cacheBytes_concat]
    exact cacheBytes_evict_le fits _

end Cache

/-- Settles O50, clause by clause (log entries 18, 40, 52 and 90). -/
theorem framesAndCacheAnswer : Obligations.FramesAndCacheAnswer := by
  refine ⟨⟨fun f s => ⟨?_, fun part lost => exec_frameReceive_noMember part lost, fun foreignPart => ?_, ?_, ?_⟩, ?_, ?_, ?_, ?_, ?_⟩,
    fun src key s => ⟨fun lends => ?_, fun other => ?_, ?_, fun v h => exec_put_ignored src h, ?_⟩⟩
  · intro bad part member here
    refine ⟨_, (exec_frameReceive_member part member).trans (congrArg Host.Outcome.next (if_pos here)), ?_⟩
    rw [bad]
    exact ⟨_, rfl, rfl⟩
  · exact ⟨_, exec_frameReceive_foreign foreignPart, rfl, waitingCount_bump_self s _ Nat.one_ne_zero⟩
  · intro st good part member here found none
    have enters : exec (.frameReceive f) s = .next (frameIn s f) :=
      (exec_frameReceive_member part member).trans (congrArg Host.Outcome.next ((if_pos here).trans (if_pos good)))
    obtain ⟨k, mem, peer, cls, rfl⟩ := frameIn_stream found
    refine ⟨fun next => ?_, fun key v next cache reply noReplies new => ?_, fun later near => ?_⟩
    · rw [TStream.entered_next none next] at mem peer cls
      exact ⟨_, enters, _, mem, peer, cls, rfl, rfl⟩
    · exact ⟨_, enters, frameIn_kept found none next cache reply noReplies new⟩
    · rw [TStream.entered_early none later near] at mem peer cls
      exact ⟨_, enters, _, mem, peer, cls, rfl, rfl⟩
  · intro p part member elsewhere calm
    have goesOn := (exec_frameReceive_member part member).trans (congrArg Host.Outcome.next (if_neg elsewhere))
    refine ⟨fun few route => ⟨_, goesOn, ?_⟩, fun many => ⟨_, goesOn.trans (congrArg Host.Outcome.next (if_pos many)), rfl, rfl⟩⟩
    rw [if_neg (Nat.not_le.mpr few), calm, route]
    exact mem_out_putFrame s p _
  · exact fun s => ⟨_, exec_e2eAckTimer s, rfl⟩
  · intro dst cls next st s found window
    obtain ⟨peer, own, mem⟩ := ackTaken_stream found next
    exact ⟨_, exec_transportAck found window next, rfl, st.acked next, mem, peer, own,
      fun f released => (List.mem_filter.mp released).1, fun f sent => mem_acked_out sent⟩
  · intro p hold m off s member follows near carried known
    refine ⟨_, exec_boundaryMark_known carried near hold off known, rfl, ?_⟩
    exact mem_nub.mpr (List.mem_append_right _ List.mem_cons_self)
  · exact fun p hold m off s h => exec_boundaryMark_ignored h hold off
  · intro p hold m off s member follows near first carried
    refine ⟨_, exec_boundaryMark_first carried near hold off member follows first, rfl, rfl, natAbs_steerOf_le off, rfl,
      fun q up other => ?_⟩
    exact List.mem_append_right _ (List.mem_map_of_mem (List.mem_filter.mpr ⟨up, bne_iff_ne.mpr other⟩))
  · exact ⟨_, exec_get_lender lends src, rfl, fun k => cacheFind_cacheTouch s key k⟩
  · exact ⟨_, exec_get_other other src, rfl, rfl⟩
  · exact fun v lends long short new fits => put_completes lends long short new fits src
  · exact ⟨_, rfl, valueOf_others_self _ key, fun k other => valueOf_others_ne _ other⟩

end Sys2Proof.Machine

/-! Heartbeats, elections, and how a node enters a partition (R386, R387, R458; log entries 53, 81 and 90). -/

namespace Sys2Proof.Machine

open Sys2Proof

variable {s : State}

/-! ### Heartbeats (R386) -/

section Holder

variable (holds : isHolder s = true)
include holds

theorem exec_heartbeat_leader : exec (.heartbeat s.ledger.leader) s =
    .next { s with ledger := { s.ledger with beatSeen := true } } := by
  refine congrArg Host.Outcome.next (if_pos ?_)
  rw [holds, beq_self_eq_true, Bool.and_self]

omit holds in
theorem exec_heartbeat_other {n : Nat} (other : n ≠ s.ledger.leader) : exec (.heartbeat n) s = .next s := by
  refine congrArg Host.Outcome.next (if_neg ?_)
  rw [beq_false_of_ne (Ne.symm other), Bool.and_false]
  decide

theorem exec_leaderTimeout_stands (follows : isLeader s = false) (late : getObj s Obj.LEADER_TIMEOUT ≤ s.ledger.beats) :
    exec .leaderTimeout s = .next (emit { s with ledger := { s.ledger with term := s.ledger.term + 1, standing := s.ledger.term + 1 } }
      (.electOut (s.ledger.term + 1) s.ledger.applied)) := by
  refine congrArg Host.Outcome.next (if_pos ?_)
  rw [holds, follows, decide_eq_true late]
  rfl

omit holds in
theorem exec_leaderTimeout_early (early : s.ledger.beats < getObj s Obj.LEADER_TIMEOUT) : exec .leaderTimeout s = .next s := by
  refine congrArg Host.Outcome.next (if_neg ?_)
  rw [decide_eq_false (Nat.not_le.mpr early), Bool.and_false]
  decide

/-! ### Votes (R386) -/

/-- This node as a candidate, where it stands. -/
def ownCand (s : State) : List (Nat × Nat × Nat) :=
  if s.ledger.standing = 0 then [] else [(selfNode s, s.ledger.standing, s.ledger.applied)]

/-- The candidates for which a vote may be cast: holders, of a term in which none has been cast. -/
def openCands (s : State) (cands : List (Nat × Nat × Nat)) : List (Nat × Nat × Nat) :=
  (ownCand s ++ cands).filter fun c => decide (s.ledger.votedTerm < c.2.1) && s.ledger.holders.contains c.1

/-- The candidate for whom this node votes. -/
def votePick (s : State) (cands : List (Nat × Nat × Nat)) : Option (Nat × Nat × Nat) :=
  if s.ledger.beats = 0 then none else bestCand (openCands s cands)

/-- The state after the vote has been cast; a vote for itself is not sent. -/
def voteCast (s : State) (pick : Option (Nat × Nat × Nat)) : State :=
  match pick with
  | none => s
  | some c =>
    let s := { s with ledger := { s.ledger with votedTerm := c.2.1 } }
    if c.1 = selfNode s then s else emit s (.voteOut c.1 c.2.1)

/-- The holders other than `me` whose votes have come. -/
def votesOfOthers (holders : List Nat) (me : Nat) (votes : List Nat) : List Nat :=
  nub (votes.filter fun v => holders.contains v && v != me)

/-- The votes for this node, `me`. -/
def votesForSelf (holders : List Nat) (me : Nat) (pick : Option (Nat × Nat × Nat)) (votes : List Nat) : Nat :=
  (votesOfOthers holders me votes).length + (if (pick.map fun c => c.1) = some me then 1 else 0)

/-- After a vote, this node leads from the next boundary where it stands and has a majority. -/
def voteCounted (me : Nat) (pick : Option (Nat × Nat × Nat)) (votes : List Nat) (t : State) : State :=
  if t.ledger.standing ≠ 0 ∧ t.ledger.holders.length < 2 * votesForSelf t.ledger.holders me pick votes then
    { t with ledger := { t.ledger with electDue := boundary t } }
  else t

omit holds in
/-- Casting a vote changes the term voted in and what has left the node. -/
theorem voteCast_keeps (s : State) (pick : Option (Nat × Nat × Nat)) :
    (voteCast s pick).ledger.standing = s.ledger.standing ∧ (voteCast s pick).ledger.holders = s.ledger.holders ∧
      (voteCast s pick).turn = s.turn := by
  unfold voteCast
  split
  · exact ⟨rfl, rfl, rfl⟩
  · dsimp only
    split
    · exact ⟨rfl, rfl, rfl⟩
    · exact ⟨rfl, rfl, rfl⟩

theorem exec_vote (window : s.turn.phase = .p6) (cands : List (Nat × Nat × Nat)) (votes : List Nat) : exec (.vote cands votes) s =
    .next (voteCounted (selfNode s) (votePick s cands) votes (voteCast s (votePick s cands))) := by
  have takes : ¬(isHolder s = false ∨ s.turn.phase ≠ .p6) := by
    rw [holds, window]
    rintro (no | no)
    · cases no
    · exact no rfl
  exact congrArg Host.Outcome.next (if_neg takes)

omit holds in
/-- A node that does not stand is not elected. -/
theorem voteCounted_rests {t : State} (rests : t.ledger.standing = 0) (me : Nat) (pick : Option (Nat × Nat × Nat)) (votes : List Nat) :
    voteCounted me pick votes t = t := if_neg fun stands => stands.1 rests

/-- A holder that does not stand votes for a candidate of a term in which it has not voted. -/
theorem exec_vote_cast (window : s.turn.phase = .p6) (unheard : s.ledger.beats ≠ 0) (rests : s.ledger.standing = 0) {n term : Nat}
    (other : n ≠ selfNode s) (holder : s.ledger.holders.contains n = true) (new : s.ledger.votedTerm < term) (last : Nat) :
    exec (.vote [(n, term, last)] []) s =
      .next (emit { s with ledger := { s.ledger with votedTerm := term } } (.voteOut n term)) := by
  have pick : votePick s [(n, term, last)] = some (n, term, last) := by
    have candidate : openCands s [(n, term, last)] = [(n, term, last)] := by
      rw [openCands, ownCand, if_pos rests, List.nil_append]
      exact List.filter_cons_of_pos (by rw [decide_eq_true new, holder]; rfl)
    rw [votePick, if_neg unheard, candidate]
    rfl
  rw [exec_vote holds window, pick]
  exact congrArg Host.Outcome.next ((voteCounted_rests ((voteCast_keeps s _).1.trans rests) _ _ _).trans (if_neg other))

/-- It votes once in a term. -/
theorem exec_vote_none (window : s.turn.phase = .p6) (unheard : s.ledger.beats ≠ 0) (rests : s.ledger.standing = 0) {n term : Nat}
    (voted : term ≤ s.ledger.votedTerm) (last : Nat) : exec (.vote [(n, term, last)] []) s = .next s := by
  have pick : votePick s [(n, term, last)] = none := by
    have none : openCands s [(n, term, last)] = [] := by
      rw [openCands, ownCand, if_pos rests, List.nil_append]
      exact List.filter_cons_of_neg (by rw [decide_eq_false (Nat.not_lt.mpr voted), Bool.false_and]; decide)
    rw [votePick, if_neg unheard, none]
    rfl
  rw [exec_vote holds window, pick]
  exact congrArg Host.Outcome.next (voteCounted_rests rests _ _ _)

/-- A candidate with a majority of the holders leads from the next boundary. -/
theorem vote_elects (window : s.turn.phase = .p6) (stands : s.ledger.standing ≠ 0) {votes : List Nat}
    (majority : s.ledger.holders.length < 2 * (votesOfOthers s.ledger.holders (selfNode s) votes).length) :
    Completes (.vote [] votes) s fun t => t.ledger.electDue = boundary s := by
  obtain ⟨standing, holders, turn⟩ := voteCast_keeps s (votePick s [])
  have elected : (voteCast s (votePick s [])).ledger.standing ≠ 0 ∧ (voteCast s (votePick s [])).ledger.holders.length <
      2 * votesForSelf (voteCast s (votePick s [])).ledger.holders (selfNode s) (votePick s []) votes := by
    rw [standing, holders]
    exact ⟨stands, Nat.lt_of_lt_of_le majority (Nat.mul_le_mul_left 2 (Nat.le_add_right _ _))⟩
  refine ⟨_, exec_vote holds window [] votes, ?_⟩
  rw [voteCounted, if_pos elected]
  exact congrArg (fun turn => nextTurn turn.no) turn

end Holder

/-! ### FOUND (R387) -/

/-- The ledger with its requests for the leader left out. -/
def Ledger.settled (l : Ledger) : Ledger := { l with outReqs := [] }

theorem linkRecord_keeps {β : Type} (g : State → β) (kept : ∀ s r, g (ledgerRequest s r) = g s) (s : State) (p : Nat) (up : Bool) :
    g (linkRecord s p up) = g s := by
  unfold linkRecord
  split
  · exact kept s _
  · rfl

/-- Entering the links in the link map asks the ledger and changes nothing else. -/
theorem recordLinks_keeps {β : Type} (g : State → β) (kept : ∀ s r, g (ledgerRequest s r) = g s) (s : State) :
    g (recordLinks s) = g s := foldl_keeps _ g (fun s p => linkRecord_keeps g kept s p true) _ _

/-- The state in which a node has founded a partition, before its links are recorded. -/
def founded (s : State) : State :=
  let f := freshMember s
  { f with ledger := { f.ledger with members := [selfNode s], holders := [selfNode s], leader := selfNode s, term := 1, joinSent := false }
           ing := { f.ing with batchThrough := [(selfNode s, f.turn.no)] }
           ras := { f.ras with load := boundary f } }

theorem exec_found (apart : isMember s = false) (calm : s.turn.escalated = false) :
    exec .found s = .next (setObj (recordLinks (founded s)) Obj.FOUND 0) := by
  refine congrArg Host.Outcome.next (if_neg ?_)
  rw [apart, calm]
  decide

theorem exec_found_refused (h : isMember s = true ∨ s.turn.escalated = true) : exec .found s = .next (setObj s Obj.FOUND 0) := by
  refine congrArg Host.Outcome.next (if_pos ?_)
  obtain member | escalated := h
  · rw [member, Bool.true_or]
  · rw [escalated, Bool.or_true]

/-- A node that founds a partition is its one member, sole holder and leader. -/
theorem found_completes (apart : isMember s = false) (calm : s.turn.escalated = false) : Completes .found s fun t =>
    t.ledger.members = [selfNode s] ∧ t.ledger.holders = [selfNode s] ∧ t.ledger.leader = selfNode s ∧ t.ledger.term = 1 ∧
      t.colls = [] ∧ t.lists = [] ∧ getObj t Obj.FOUND = 0 := by
  have ledger : (recordLinks (founded s)).ledger.settled = (founded s).ledger.settled :=
    recordLinks_keeps (fun s => s.ledger.settled) (fun _ _ => rfl) _
  refine ⟨_, exec_found apart calm, (congrArg Ledger.members ledger).trans rfl, (congrArg Ledger.holders ledger).trans rfl,
    (congrArg Ledger.leader ledger).trans rfl, (congrArg Ledger.term ledger).trans rfl, ?_, ?_, getObj_setObj_self _ _ _⟩
  · exact recordLinks_keeps State.colls (fun _ _ => rfl) (founded s)
  · exact recordLinks_keeps State.lists (fun _ _ => rfl) (founded s)

/-! ### JOIN (R387, R458) -/

theorem exec_join_refused (h : isMember s = true ∨ isSet s Obj.SELFTEST_PASS = false ∨ s.turn.withdrawn = true) :
    exec .join s = .next (setObj s Obj.JOIN 0) := congrArg Host.Outcome.next (if_pos h)

/-- The state in which a node asks to join, before its request is sent. -/
def joining (s : State) : State := setObj { s with ledger := { s.ledger with joinSent := false } } Obj.JOIN 1

/-- JOIN is none of the objects of a port. -/
theorem carries_joining (s : State) : carries (joining s) = carries s := by
  have state : ∀ p, Obj.port_LINK_STATE p ≠ Obj.JOIN := fun p same => by
    unfold Obj.port_LINK_STATE Obj.JOIN at same
    omega
  have delay : ∀ p, Obj.port_LINK_DELAY_PS p ≠ Obj.JOIN := fun p same => by
    unfold Obj.port_LINK_DELAY_PS Obj.JOIN at same
    omega
  funext p
  unfold carries linkState joining
  rw [getObj_setObj_ne _ _ (state p), getObj_setObj_ne _ _ (delay p)]
  rfl

theorem isMember_joining (s : State) : isMember (joining s) = isMember s := by
  unfold isMember selfNode joining
  rw [getObj_setObj_ne _ _ (by decide)]
  rfl

/-- A sound node that is no member and has not withdrawn asks over the lowest up port whose peer is a member. -/
theorem exec_join (apart : isMember s = false) (pass : isSet s Obj.SELFTEST_PASS = true) (stays : s.turn.withdrawn = false) :
    exec .join s = .next (
      match ((upPorts s).filter s.fab.memberPorts.contains).head? with
      | none => joining s
      | some p => emit { joining s with ledger := { s.ledger with joinSent := true } } (.joinReq p)) := by
  have asks : ¬(isMember s = true ∨ isSet s Obj.SELFTEST_PASS = false ∨ s.turn.withdrawn = true) := by
    rw [apart, pass, stays]
    decide
  have sends : ¬(isSet (joining s) Obj.JOIN = false ∨ isMember (joining s) = true ∨ (joining s).ledger.joinSent = true) := by
    rw [isMember_joining, apart, isSet, joining, getObj_setObj_self]
    rintro (no | no | no)
    · cases no
    · cases no
    · cases no
  have ports : upPorts (joining s) = upPorts s := congrArg (List.range 16).filter (carries_joining s)
  refine congrArg Host.Outcome.next ((if_neg asks).trans ?_)
  show sendJoin (joining s) = _
  unfold sendJoin
  rw [if_neg sends, ports]
  rfl

/-! ### MEMBER_REQUEST (R387) -/

theorem exec_memberRequest (n : Nat) (tag : List Byte) (st : Nat) : exec (.memberRequest n tag st) s =
    .next (if isMember s then ledgerRequest s (.member n true tag st) else s) := rfl

/-- Settles O52, clause by clause (log entries 53, 81 and 90). -/
theorem holdersElectAndNodesJoin : Obligations.HoldersElectAndNodesJoin := by
  refine ⟨fun s holds => ⟨⟨_, exec_heartbeat_leader holds, rfl⟩, fun n other => exec_heartbeat_other other, ?_,
    exec_leaderTimeout_early, ?_, ?_⟩, fun s apart => ⟨?_, ?_, ?_, ?_, ?_, ?_⟩, fun s member => ⟨?_, ?_, ?_⟩⟩
  · exact fun follows late => ⟨_, exec_leaderTimeout_stands holds follows late, rfl, rfl, rfl⟩
  · intro window unheard rests n term last other holder
    refine ⟨fun new => ?_, fun voted => exec_vote_none holds window unheard rests voted last⟩
    exact ⟨_, exec_vote_cast holds window unheard rests other holder new last, rfl, rfl, rfl⟩
  · exact fun window stands votes majority => vote_elects holds window stands majority
  · exact fun calm => found_completes apart calm
  · exact fun escalated => ⟨_, exec_found_refused (.inr escalated), getObj_setObj_self _ _ _, rfl⟩
  · intro p pass stays lowest
    refine ⟨_, exec_join apart pass stays, ?_⟩
    rw [lowest]
    exact ⟨getObj_setObj_self _ Obj.JOIN 1, rfl, rfl⟩
  · intro pass stays alone
    refine ⟨_, exec_join apart pass stays, ?_⟩
    rw [alone]
    exact ⟨getObj_setObj_self _ Obj.JOIN 1, rfl, rfl⟩
  · exact fun h => ⟨_, exec_join_refused (.inr h), getObj_setObj_self _ _ _, rfl⟩
  · exact fun n tag st => congrArg Host.Outcome.next (if_neg (Bool.eq_false_iff.mp apart))
  · exact ⟨_, exec_found_refused (.inl member), getObj_setObj_self _ _ _, rfl⟩
  · exact ⟨_, exec_join_refused (.inl member), getObj_setObj_self _ _ _, rfl⟩
  · exact fun n tag st => ⟨_, congrArg Host.Outcome.next (if_pos member), rfl⟩

end Sys2Proof.Machine

/-! Barrier slots: arrivals, messages, release, failure and CLEAR (R397 to R403; log entry 55). -/

namespace Sys2Proof.Machine

open Sys2Proof

variable {s : State} {n tile : Nat} {b : BSlot}

/-! ### What a slot's own update leaves (R397) -/

@[simp] theorem slotNodes_setBslot (s : State) (n k : Nat) (v : BSlot) : slotNodes (setBslot s n v) k = slotNodes s k := rfl
@[simp] theorem slotTiles_setBslot (s : State) (n k : Nat) (v : BSlot) : slotTiles (setBslot s n v) k = slotTiles s k := rfl
@[simp] theorem slotRoot_setBslot (s : State) (n k : Nat) (v : BSlot) : slotRoot (setBslot s n v) k = slotRoot s k := rfl
@[simp] theorem selfNode_setBslot (s : State) (n : Nat) (v : BSlot) : selfNode (setBslot s n v) = selfNode s := rfl

/-- Whether the local members of slot `n` have all arrived where the slot stands as `b` (R399). -/
def BSlot.complete (s : State) (n : Nat) (b : BSlot) : Bool :=
  (slotTiles s n).all (fun t => b.tiles.contains t) && (b.mc || !isSet s (Obj.bslot_MC_MEMBER n))

theorem locallyComplete_setBslot (s : State) (n : Nat) (b : BSlot) : locallyComplete (setBslot s n b) n = b.complete s n := by
  unfold locallyComplete
  rw [getBslot_setBslot_self]
  rfl

theorem BSlot.complete_eq_true : b.complete s n = true ↔
    (∀ u ∈ slotTiles s n, b.tiles.contains u = true) ∧ (b.mc = true ∨ isSet s (Obj.bslot_MC_MEMBER n) = false) := by
  rw [BSlot.complete, Bool.and_eq_true, List.all_eq_true, Bool.or_eq_true, Bool.not_eq_true']

/-- A slot with a tile that has not arrived is not complete. -/
theorem BSlot.complete_missing {u : Nat} (mem : u ∈ slotTiles s n) (missing : b.tiles.contains u = false) :
    b.complete s n = false := by
  rw [← Bool.not_eq_true, BSlot.complete_eq_true]
  rintro ⟨all, -⟩
  exact absurd (all u mem) (Bool.eq_false_iff.mp missing)

/-! ### Release (R399) -/

/-- A slot in its next generation, with nobody waiting. -/
def BSlot.released (b : BSlot) : BSlot :=
  { b with gen := (b.gen + 1) % 2 ^ 32, state := bsIdle, tiles := [], mc := false, remote := [], timer := false }

/-- The slot released, before a node without a member of its own tells the root. -/
def slotReleased (s : State) (n : Nat) : State := bump (setBslot s n (getBslot s n).released) Obj.BARRIERS_RELEASED 1

theorem releaseSlot_eq (s : State) (n : Nat) : releaseSlot s n = beginGen (slotReleased s n) n := rfl

theorem barrierSend_eq (s : State) (dsts : List Nat) (kind n gen cause : Nat) : barrierSend s dsts kind n gen cause =
    { s with out := s.out ++ dsts.map fun d => Output.barrierMsg d kind n gen cause } := foldl_emit _ _ _

/-- A release counts GEN on, and is counted. -/
theorem releaseSlot_reads (s : State) (n : Nat) : getBslot (releaseSlot s n) n = (getBslot s n).released ∧
    waitingCount (releaseSlot s n) Obj.BARRIERS_RELEASED = waitingCount s Obj.BARRIERS_RELEASED + 1 := by
  have begun := beginGen_frame (slotReleased s n) n
  rw [releaseSlot_eq]
  constructor
  · have same : getBslot (beginGen (slotReleased s n) n) n = getBslot (slotReleased s n) n :=
      congrArg (fun slots => (look slots n).getD BSlot.reset) (begun.keep .bslots rfl)
    exact same.trans (getBslot_setBslot_self s n _)
  · rw [waitingCount_of_ctrPend (begun.keep .counters rfl)]
    exact waitingCount_bump_self (setBslot s n _) _ Nat.one_ne_zero

/-- A node without a member of its own that is not the root tells the root at once that it is complete. -/
theorem releaseSlot_out (remote : slotRoot s n ≠ selfNode s) (none : slotTiles s n = [])
    (apart : isSet s (Obj.bslot_MC_MEMBER n) = false) :
    (releaseSlot s n).out = s.out ++ [Output.barrierMsg (slotRoot s n) kArrive n (((getBslot s n).gen + 1) % 2 ^ 32) 0] := by
  have complete : locallyComplete (slotReleased s n) n = true := by
    refine (locallyComplete_setBslot s n _).trans (BSlot.complete_eq_true.mpr ⟨fun u mem => ?_, .inr apart⟩)
    rw [none] at mem
    cases mem
  have gen : (getBslot (slotReleased s n) n).gen = ((getBslot s n).gen + 1) % 2 ^ 32 :=
    congrArg BSlot.gen (getBslot_setBslot_self s n (getBslot s n).released)
  rw [releaseSlot_eq, beginGen, if_pos ⟨complete, remote⟩, barrierSend_eq, gen]
  rfl

/-! ### Completion (R398, R399) -/

/-- A slot that is not complete goes on waiting. -/
theorem testSlot_waits (waits : locallyComplete s n = false) : testSlot s n = s :=
  if_neg fun done => absurd done.2.1 (Bool.eq_false_iff.mp waits)

/-- The slot of this node alone is released with its last member. -/
theorem testSlot_alone (gathers : (getBslot s n).state = bsGathering) (complete : locallyComplete s n = true)
    (alone : slotNodes s n = [selfNode s]) : testSlot s n = releaseSlot s n := by
  have others : slotOthers s n = [] := by
    rw [slotOthers, alone]
    simp
  have root : slotRoot s n = selfNode s := by
    rw [slotRoot, alone]
    rfl
  unfold testSlot
  dsimp only
  rw [others, if_pos ⟨gathers, complete, root, List.all_nil⟩]
  rfl

/-- A slot in progress with its timer running. -/
def BSlot.gathering (b : BSlot) : BSlot := { b with state := bsGathering, timer := true }

/-- An arrival that leaves the slot incomplete is held. -/
theorem afterArrival_held (waits : b.complete s n = false) : afterArrival s n b = setBslot s n b.gathering := by
  have incomplete : locallyComplete (setBslot s n b.gathering) n = false := (locallyComplete_setBslot s n _).trans waits
  exact (if_neg fun done => absurd done.1 (Bool.eq_false_iff.mp incomplete)).trans (testSlot_waits incomplete)

/-- The last arrival at the slot of this node alone releases it. -/
theorem afterArrival_last (complete : b.complete s n = true) (alone : slotNodes s n = [selfNode s]) :
    afterArrival s n b = releaseSlot (setBslot s n b.gathering) n := by
  have root : slotRoot s n = selfNode s := by
    rw [slotRoot, alone]
    rfl
  have gathers : (getBslot (setBslot s n b.gathering) n).state = bsGathering := by
    rw [getBslot_setBslot_self]
    rfl
  exact (if_neg fun elsewhere => elsewhere.2 root).trans
    (testSlot_alone gathers ((locallyComplete_setBslot s n _).trans complete) alone)

/-! ### Arrivals of this node (R398, R402) -/

/-- A slot at which a tile has arrived. -/
def BSlot.withTile (b : BSlot) (tile : Nat) : BSlot := { b with tiles := b.tiles ++ [tile], failFlag := b.failFlag.filter (· != tile) }

/-- A slot at which the Management Controller has arrived. -/
def BSlot.withMc (b : BSlot) : BSlot := { b with mc := true, failFlag := b.failFlag.filter (· != 128) }

/-- A slot that takes arrivals has neither failed nor is it disabled. -/
theorem bs_open {st : Nat} (takes : st = bsIdle ∨ st = bsGathering) : st ≠ bsFailed ∧ st ≠ bsDisabled := by
  obtain rfl | rfl := takes
  · decide
  · decide

theorem exec_arrive (member : (slotTiles s n).contains tile = true)
    (takes : (getBslot s n).state = bsIdle ∨ (getBslot s n).state = bsGathering) (first : (getBslot s n).tiles.contains tile = false) :
    exec (.arrive n tile) s = .next (afterArrival s n ((getBslot s n).withTile tile)) := by
  obtain ⟨sound, enabled⟩ := bs_open takes
  have named : ¬(!(slotTiles s n).contains tile) = true := by
    rw [member]
    decide
  have waits : ¬((getBslot s n).state = bsDisabled ∨ (getBslot s n).tiles.contains tile = true) := by
    rw [first]
    rintro (off | again)
    · exact enabled off
    · cases again
  exact congrArg Host.Outcome.next ((if_neg named).trans ((if_neg sound).trans (if_neg waits)))

theorem exec_arrive_failed (member : (slotTiles s n).contains tile = true) (failed : (getBslot s n).state = bsFailed) :
    exec (.arrive n tile) s =
      .next (setBslot s n { getBslot s n with failFlag := nub ((getBslot s n).failFlag ++ [tile]) }) := by
  have named : ¬(!(slotTiles s n).contains tile) = true := by
    rw [member]
    decide
  exact congrArg Host.Outcome.next ((if_neg named).trans (if_pos failed))

section Mc

variable (member : isSet s (Obj.bslot_MC_MEMBER n) = true)
  (takes : (getBslot s n).state = bsIdle ∨ (getBslot s n).state = bsGathering)
include member takes

theorem exec_bslotArrive_of : exec (.bslotArrive n) s = .next (
    if (getBslot s n).mc then bump s Obj.MC_EXTRA_ARRIVALS 1 else afterArrival s n (getBslot s n).withMc) := by
  obtain ⟨sound, enabled⟩ := bs_open takes
  have named : ¬(!isSet s (Obj.bslot_MC_MEMBER n)) = true := by
    rw [member]
    decide
  exact congrArg Host.Outcome.next ((if_neg named).trans ((if_neg sound).trans (if_neg enabled)))

theorem exec_bslotArrive (first : (getBslot s n).mc = false) :
    exec (.bslotArrive n) s = .next (afterArrival s n (getBslot s n).withMc) :=
  (exec_bslotArrive_of member takes).trans (congrArg Host.Outcome.next (if_neg (Bool.eq_false_iff.mp first)))

theorem exec_bslotArrive_again (again : (getBslot s n).mc = true) :
    exec (.bslotArrive n) s = .next (bump s Obj.MC_EXTRA_ARRIVALS 1) :=
  (exec_bslotArrive_of member takes).trans (congrArg Host.Outcome.next (if_pos again))

end Mc

/-! ### Messages of other nodes (R399 to R401) -/

section Message

variable {src gen : Nat}

theorem exec_message_stray (stray : strayMsg s src n gen = true) (cause : Nat) :
    exec (.arriveMessage src n gen) s = .next (bump s Obj.STRAY_MESSAGES 1) ∧
      exec (.releaseMessage src n gen) s = .next (bump s Obj.STRAY_MESSAGES 1) ∧
      exec (.abortMessage src n gen cause) s = .next (bump s Obj.STRAY_MESSAGES 1) :=
  ⟨congrArg Host.Outcome.next (if_pos stray), congrArg Host.Outcome.next (if_pos stray), congrArg Host.Outcome.next (if_pos stray)⟩

variable (heard : strayMsg s src n gen = false) (sound : (getBslot s n).state ≠ bsFailed)
include heard sound

/-- A slot at which an ARRIVE of another node has come. -/
def BSlot.withNode (b : BSlot) (src : Nat) : BSlot := { b with state := bsGathering, remote := nub (b.remote ++ [src]) }

theorem exec_arriveMessage_held (root : slotRoot s n = selfNode s) (waits : locallyComplete s n = false) :
    exec (.arriveMessage src n gen) s = .next (setBslot s n ((getBslot s n).withNode src)) := by
  have here : ¬((getBslot s n).state = bsFailed ∨ slotRoot s n ≠ selfNode s) := by
    rintro (failed | elsewhere)
    · exact sound failed
    · exact elsewhere root
  have incomplete : locallyComplete (setBslot s n ((getBslot s n).withNode src)) n = false :=
    (locallyComplete_setBslot s n _).trans waits
  exact congrArg Host.Outcome.next ((if_neg (Bool.eq_false_iff.mp heard)).trans ((if_neg here).trans (testSlot_waits incomplete)))

theorem exec_releaseMessage (remote : slotRoot s n ≠ selfNode s) : exec (.releaseMessage src n gen) s = .next (releaseSlot s n) := by
  have elsewhere : ¬((getBslot s n).state = bsFailed ∨ slotRoot s n = selfNode s) := by
    rintro (failed | root)
    · exact sound failed
    · exact remote root
  exact congrArg Host.Outcome.next ((if_neg (Bool.eq_false_iff.mp heard)).trans (if_neg elsewhere))

theorem exec_abortMessage (cause : Nat) : exec (.abortMessage src n gen cause) s = .next (failSlot s n (min 2 (cause % 4)) false) :=
  congrArg Host.Outcome.next ((if_neg (Bool.eq_false_iff.mp heard)).trans (if_neg sound))

end Message

/-! ### Failure (R401) -/

/-- A slot that has failed, its waiting members released with the failure flag. -/
def BSlot.failed (b : BSlot) : BSlot :=
  { b with state := bsFailed, tiles := [], mc := false, remote := [], timer := false
           failFlag := nub (b.failFlag ++ b.tiles ++ (if b.mc then [128] else [])) }

/-- The slot failed with a cause, before others are told and the event is posted. -/
def slotFailed (s : State) (n cause : Nat) : State :=
  bump (setObj (setBslot s n (getBslot s n).failed) (Obj.bslot_CAUSE n) cause) Obj.BARRIERS_FAILED 1

/-- The nodes that a node tells of a failure: the root, and as the root every other. -/
def failTold (s : State) (n : Nat) : List Nat := if slotRoot s n = selfNode s then slotOthers s n else [slotRoot s n]

/-- The slot failed and others told, before the event is posted. -/
def failSent (s : State) (n cause : Nat) (tell : Bool) : State :=
  if tell then barrierSend (slotFailed s n cause) (failTold (slotFailed s n cause) n) kAbort n (getBslot s n).gen cause
  else slotFailed s n cause

theorem failSlot_eq (s : State) (n cause : Nat) (tell : Bool) : failSlot s n cause tell =
    postEvent (failSent s n cause tell) 0x2041 (n + 2 ^ 6 * (getBslot s n).gen + 2 ^ 38 * cause) := rfl

/-- CAUSE of a slot is not NODE_ID. -/
theorem failTold_slotFailed (s : State) (n cause : Nat) : failTold (slotFailed s n cause) n = failTold s n := by
  have self : selfNode (slotFailed s n cause) = selfNode s := by
    refine getObj_setObj_ne (setBslot s n _) cause (fun same : Obj.NODE_ID = Obj.bslot_CAUSE n => ?_)
    unfold Obj.NODE_ID Obj.bslot_CAUSE at same
    omega
  have nodes : slotNodes (slotFailed s n cause) n = slotNodes s n := by
    unfold slotNodes
    rw [self]
    rfl
  unfold failTold slotRoot slotOthers
  rw [nodes, self]

theorem failSent_frame (s : State) (n cause : Nat) (tell : Bool) : Frame [.out] (slotFailed s n cause) (failSent s n cause tell) :=
  Frame.ite (barrierSend_frame _ _ _ _ _ _) (Frame.refl _ _)

/-- A failed slot keeps its generation, releases its members with the failure flag, shows its cause and is reported. -/
theorem failSlot_reads (s : State) (n cause : Nat) (tell : Bool) : getBslot (failSlot s n cause tell) n = (getBslot s n).failed ∧
    getObj (failSlot s n cause tell) (Obj.bslot_CAUSE n) = cause ∧
    Logged s (failSlot s n cause tell) 0x2041 (n + 2 ^ 6 * (getBslot s n).gen + 2 ^ 38 * cause) ∧
    waitingCount (failSlot s n cause tell) Obj.BARRIERS_FAILED = waitingCount s Obj.BARRIERS_FAILED + 1 := by
  have sent := failSent_frame s n cause tell
  have marked : Frame [.objs, .counters, .bslots] s (slotFailed s n cause) :=
    (((Frame.refl _ _).then (setBslot_frame s n _) rfl).then (setObj_frame _ _ _) rfl).then (bump_frame _ _ _) rfl
  rw [failSlot_eq]
  refine ⟨?_, ?_, ?_, ?_⟩
  · have same : getBslot (postEvent (failSent s n cause tell) 0x2041 (n + 2 ^ 6 * (getBslot s n).gen + 2 ^ 38 * cause)) n =
        getBslot (slotFailed s n cause) n := congrArg (fun slots => (look slots n).getD BSlot.reset)
      ((postEvent_bslots _ _ _).trans (sent.keep .bslots rfl))
    exact same.trans (getBslot_setBslot_self s n _)
  · rw [getObj_postEvent, sent.getObj rfl]
    exact getObj_setObj_self (setBslot s n _) _ cause
  · exact marked.logged rfl rfl (sent.logged rfl rfl (postEvent_logged _ _ _))
  · rw [waitingCount_postEvent _ _ _ (by decide), waitingCount_of_ctrPend (sent.keep .counters rfl)]
    exact waitingCount_bump_self (setObj (setBslot s n _) _ cause) _ Nat.one_ne_zero

theorem failSlot_out_quiet (s : State) (n cause : Nat) : (failSlot s n cause false).out = s.out := by
  rw [failSlot_eq, postEvent_out]
  rfl

theorem failSlot_out_tells (s : State) (n cause : Nat) : (failSlot s n cause true).out =
    s.out ++ (failTold s n).map fun d => Output.barrierMsg d kAbort n (getBslot s n).gen cause := by
  rw [failSlot_eq, postEvent_out, failSent, if_pos rfl, barrierSend_eq, failTold_slotFailed]
  rfl

theorem mem_failFlag_failed {x : Nat} (mem : x ∈ b.tiles) : x ∈ b.failed.failFlag :=
  mem_nub.mpr (List.mem_append_left _ (List.mem_append_right _ mem))

/-! ### CLEAR (R402) -/

theorem exec_clear_failed (failed : (getBslot s n).state = bsFailed) :
    exec (.clear n) s = .next (setBslot s n { getBslot s n with clearDue := dueTurn s }) := congrArg Host.Outcome.next (if_pos failed)

/-- A tile that has not arrived has still not when another does. -/
theorem BSlot.withTile_missing {u : Nat} (other : u ≠ tile) (missing : b.tiles.contains u = false) :
    (b.withTile tile).tiles.contains u = false := by
  rw [BSlot.withTile, List.contains_append, missing, List.contains_cons, beq_false_of_ne other]
  rfl

/-- With the last tile every one has arrived. -/
theorem BSlot.withTile_complete (all : ∀ u ∈ slotTiles s n, u = tile ∨ b.tiles.contains u = true)
    (mc : b.mc = true ∨ isSet s (Obj.bslot_MC_MEMBER n) = false) : (b.withTile tile).complete s n = true := by
  refine BSlot.complete_eq_true.mpr ⟨fun u mem => List.contains_iff_mem.mpr ?_, mc⟩
  obtain rfl | here := all u mem
  · exact List.mem_append_right _ List.mem_cons_self
  · exact List.mem_append_left _ (List.contains_iff_mem.mp here)

/-- Settles O53, clause by clause (log entry 55). -/
theorem barrierSlotsGatherAndRelease : Obligations.BarrierSlotsGatherAndRelease := by
  intro n s b released fails
  have failed : ∀ cause tell, fails cause (failSlot s n cause tell) := fun cause tell => by
    obtain ⟨slot, reason, logged, counted⟩ := failSlot_reads s n cause tell
    have flags : (getBslot (failSlot s n cause tell) n).failFlag = b.failed.failFlag := congrArg BSlot.failFlag slot
    exact ⟨(congrArg BSlot.state slot).trans rfl, (congrArg BSlot.gen slot).trans rfl, (congrArg BSlot.tiles slot).trans rfl,
      fun x mem => flags ▸ mem_failFlag_failed mem, reason, logged, counted⟩
  refine ⟨fun tile member takes first => ⟨?_, ?_⟩, fun tile member failed => ?_, fun member takes => ⟨?_, ?_⟩,
    fun src gen stray => ?_, fun src gen heard sound => ⟨?_, ?_, ?_⟩, ?_, ?_, fun sound => congrArg Host.Outcome.next (if_neg sound)⟩
  · rintro ⟨u, mem, other, missing⟩
    have held := afterArrival_held (BSlot.complete_missing mem (BSlot.withTile_missing other missing))
    have slot := getBslot_setBslot_self s n (b.withTile tile).gathering
    exact ⟨_, (exec_arrive member takes first).trans (congrArg Host.Outcome.next held), (congrArg BSlot.tiles slot).trans rfl,
      (congrArg BSlot.state slot).trans rfl, (congrArg BSlot.timer slot).trans rfl, (congrArg BSlot.gen slot).trans rfl, rfl⟩
  · intro all alone mc
    have last := afterArrival_last (BSlot.withTile_complete all mc) alone
    obtain ⟨slot, counted⟩ := releaseSlot_reads (setBslot s n (b.withTile tile).gathering) n
    rw [getBslot_setBslot_self] at slot
    refine ⟨_, (exec_arrive member takes first).trans (congrArg Host.Outcome.next last), ?_, counted⟩
    rw [slot]
    rfl
  · have slot := getBslot_setBslot_self s n { b with failFlag := nub (b.failFlag ++ [tile]) }
    have flags := congrArg BSlot.failFlag slot
    refine ⟨_, exec_arrive_failed member failed, ?_, (congrArg BSlot.state slot).trans failed⟩
    exact flags ▸ mem_nub.mpr (List.mem_append_right _ List.mem_cons_self)
  · rintro first ⟨u, mem, missing⟩
    have held := afterArrival_held (b := b.withMc) (BSlot.complete_missing mem missing)
    have slot := getBslot_setBslot_self s n b.withMc.gathering
    exact ⟨_, (exec_bslotArrive member takes first).trans (congrArg Host.Outcome.next held), (congrArg BSlot.mc slot).trans rfl,
      (congrArg BSlot.state slot).trans rfl, rfl⟩
  · exact fun again => ⟨_, exec_bslotArrive_again member takes again, rfl, waitingCount_bump_self s _ Nat.one_ne_zero⟩
  · have discarded := exec_message_stray stray
    exact ⟨⟨_, (discarded 0).1, rfl⟩, ⟨_, (discarded 0).2.1, rfl⟩, fun cause => ⟨_, (discarded cause).2.2, rfl⟩⟩
  · intro root waits
    have slot := getBslot_setBslot_self s n (b.withNode src)
    have nodes := congrArg BSlot.remote slot
    refine ⟨_, exec_arriveMessage_held heard sound root waits, ?_, (congrArg BSlot.state slot).trans rfl,
      (congrArg BSlot.gen slot).trans rfl⟩
    exact nodes ▸ mem_nub.mpr (List.mem_append_right _ List.mem_cons_self)
  · intro remote
    obtain ⟨slot, counted⟩ := releaseSlot_reads s n
    have release := exec_releaseMessage heard sound remote
    refine ⟨⟨_, release, ?_, counted⟩, fun none apart => ⟨_, release, releaseSlot_out remote none apart⟩⟩
    rw [slot]
    rfl
  · exact fun cause => ⟨_, exec_abortMessage heard sound cause, failed _ _, failSlot_out_quiet s n _⟩
  · intro gathers timer
    refine ⟨_, congrArg Host.Outcome.next (if_pos ⟨gathers, timer⟩), failed 1 true, fun d told => ?_⟩
    rw [failSlot_out_tells]
    exact List.mem_append_right _ (List.mem_map_of_mem told)
  · exact fun failed => ⟨_, exec_clear_failed failed, getBslot_setBslot_self s n _, fun _ _ => rfl⟩

end Sys2Proof.Machine

/-! Segmented transfers of the dictionary and its carriers (R405, R407, R412, R415 to R419, R427, R440; log entries 7, 31 and 61). -/

namespace Sys2Proof.Machine

open Sys2Proof

variable {s u : State} {req : Nat} {m : DictMsg}

/-! ### A request that is served (R405, R409) -/

/-- A request as a command of Table 19.3 hands it on, cut to its carrier. -/
def asked (req : Nat) (m : DictMsg) (cmd : Nat) : DictMsg := cutMsg req { m with cmd := cmd }

/-- The response to a request. -/
def replyTo (k : DictMsg) (code : Nat) (data : List Byte) : DictResp :=
  { cmd := k.cmd, tag := k.tag, index := k.index, sub := k.sub, code := code, data := data }

/-- A requester keeps its last request with the response. -/
def keepLastReply (k : DictMsg) (source : Nat) (r : DictResp) (q : Requester) : Requester := { q with last := some (k, source, r) }

/-- A request that repeats none runs, and its response is kept. -/
theorem serve_new {k : DictMsg} {source : Nat} {session : Bool} {code : Nat} {data : List Byte}
    (heard : ((cutMsg req k).resp || !serves s req (cutMsg req k)) = false)
    (new : ∀ x, (getReq s req).last = some x → x.1 ≠ cutMsg req k)
    (runs : runCommand s req source session (cutMsg req k) = (u, code, data)) :
    serve s req source session k = (onReq u req (keepLastReply (cutMsg req k) source (replyTo (cutMsg req k) code data)),
      some (replyTo (cutMsg req k) code data)) := by
  unfold serve
  dsimp only
  rw [heard, runs]
  cases last : (getReq s req).last with
  | none => rfl
  | some x =>
    obtain ⟨k', src, r⟩ := x
    have other : ¬(k' = cutMsg req k ∧ (req ≠ 0 ∨ src = source)) := fun same => new _ last same.1
    dsimp only
    rw [if_neg other]
    rfl

/-- The state in which a request that led to `u` has been answered. -/
def replied (u : State) (req : Nat) (k : DictMsg) (code : Nat) (data : List Byte) : State :=
  emit (onReq u req (keepLastReply k 0 (replyTo k code data))) (.dictResp req 0 (replyTo k code data))

theorem serveTo_new (served : Served s req m) (cmd : Nat) {code : Nat} {data : List Byte}
    (runs : runCommand s req 0 false (asked req m cmd) = (u, code, data)) :
    serveTo s req 0 { m with cmd := cmd } = replied u req (asked req m cmd) code data := by
  obtain ⟨on, up, firmware, request, -, -, new⟩ := served
  have heard : ((asked req m cmd).resp || !serves s req (asked req m cmd)) = false := by
    have plain : (asked req m cmd).resp = false := request
    rw [plain, serves, on, up, firmware]
    rfl
  have answer := serve_new (k := { m with cmd := cmd }) heard (fun x last same => new x last (same ▸ rfl)) runs
  unfold serveTo
  dsimp only
  rw [answer]
  rfl

/-- What a requester holds of its transfer, and what the objects, counts and commits are, is the same in both states. -/
def SameTransfer (req : Nat) (s t : State) : Prop :=
  t.dict.objs = s.dict.objs ∧ t.dict.ctrPend = s.dict.ctrPend ∧ t.dict.commits = s.dict.commits ∧
    (getReq t req).seg = (getReq s req).seg

theorem getReq_onReq_self (known : req < s.dict.reqs.length) (f : Requester → Requester) : getReq (onReq s req f) req = f (getReq s req) :=
  getD_atIdx_self f known _

theorem replied_sameTransfer (known : req < u.dict.reqs.length) (k : DictMsg) (code : Nat) (data : List Byte) :
    SameTransfer req u (replied u req k code data) :=
  ⟨rfl, rfl, rfl, (congrArg Requester.seg (getReq_onReq_self known (keepLastReply k 0 (replyTo k code data)))).trans rfl⟩

/-- A request that repeats none is answered with what its command gives, and leaves the state that this gives. -/
theorem Served.answers {i : Instr} {cmd code : Nat} {data : List Byte} {P : State → Prop} (served : Served s req m)
    (command : exec i s = .next (serveTo s req 0 { m with cmd := cmd }))
    (runs : runCommand s req 0 false (asked req m cmd) = (u, code, data)) (quiet : u.out = s.out)
    (reqs : u.dict.reqs.length = s.dict.reqs.length) (holds : ∀ t, SameTransfer req u t → P t) :
    Completes i s fun t => Answered s t req cmd m code data ∧ P t := by
  have known : req < u.dict.reqs.length := by
    obtain ⟨-, -, -, -, -, known, -⟩ := served
    exact reqs.symm ▸ known
  refine ⟨_, command.trans (congrArg Host.Outcome.next (serveTo_new served cmd runs)), ?_, holds _ (replied_sameTransfer known _ _ _)⟩
  exact congrArg (· ++ [Output.dictResp req 0 (replyTo (asked req m cmd) code data)]) quiet

theorem SameTransfer.transfer {t : State} (same : SameTransfer req s t) : (getReq t req).seg = (getReq s req).seg := by
  obtain ⟨-, -, -, transfer⟩ := same
  exact transfer

theorem SameTransfer.objects {t : State} (same : SameTransfer req s t) : ObjectsKeptBut [] s t :=
  fun a _ => by
    obtain ⟨objs, -, -, -⟩ := same
    exact congrArg (fun objs => (look objs a).getD (objDefault a)) objs

/-! ### The commands of a transfer (R427) -/

section Commands

variable (version : m.ver = 1)
include version

theorem runs_segReadInit : runCommand s req 0 false (asked req m 0x20) = doSegReadInit s req 0 (asked req m 0x20) :=
  if_neg fun other => other version

theorem runs_segRead : runCommand s req 0 false (asked req m 0x21) = doSegRead s req 0 (asked req m 0x21) :=
  if_neg fun other => other version

theorem runs_segWriteInit : runCommand s req 0 false (asked req m 0x22) = doSegWriteInit s req 0 false (asked req m 0x22) :=
  if_neg fun other => other version

theorem runs_segWrite : runCommand s req 0 false (asked req m 0x23) = doSegWrite s req 0 (asked req m 0x23) :=
  if_neg fun other => other version

theorem runs_segWriteEnd : runCommand s req 0 false (asked req m 0x24) = doSegWriteEnd s req 0 false (asked req m 0x24) :=
  if_neg fun other => other version

theorem runs_segAbort : runCommand s req 0 false (asked req m 0x25) = doSegAbort s req 0 :=
  if_neg fun other => other version

end Commands

theorem length_atIdx {α : Type} (f : α → α) (i : Nat) (l : List α) : (atIdx f i l).length = l.length := by
  induction l generalizing i with
  | nil => rw [atIdx]
  | cons a l ih =>
    cases i with
    | zero => rfl
    | succ i => exact congrArg (· + 1) (ih i)

theorem setSeg_reqs_length (s : State) (req : Nat) (g : Option Seg) : (setSeg s req g).dict.reqs.length = s.dict.reqs.length :=
  length_atIdx _ _ _

theorem getReq_setSeg_seg (known : req < s.dict.reqs.length) (g : Option Seg) : (getReq (setSeg s req g) req).seg = g :=
  congrArg Requester.seg (getReq_onReq_self known _)

/-! ### A transfer opens (R427) -/

/-- A transfer that reads `b` of object `a`. -/
def readTransfer (s : State) (source a : Nat) (b : List Byte) : Seg :=
  { write := false, addr := a, size := b.length, content := b, sent := 0, source := source, txn := false, deadline := segDeadline s }

/-- A transfer that writes object `a`. -/
def writeTransfer (s : State) (source a size : Nat) (txn : Bool) : Seg :=
  { write := true, addr := a, size := size, content := [], sent := 0, source := source, txn := txn, deadline := segDeadline s }

section Opening

variable {k : DictMsg} {source : Nat} {r : ObjRow} (visible : hidden s k = false) (row : rowAt (k.index * 256 + k.sub) = some r)
  (domain : r.ty.isDomain = true) (closed : (getReq s req).seg = none)
include visible row domain closed

theorem doSegReadInit_opens (plain : k.txn = false) :
    let b := if r.acc = .wo then [] else readBytesOf s req r (k.index * 256 + k.sub)
    doSegReadInit s req source k =
      (setSeg s req (some (readTransfer s source (k.index * 256 + k.sub) b)), codeOk, leBytes 8 b.length) := by
  unfold doSegReadInit
  dsimp only
  rw [visible, row]
  dsimp only
  rw [domain, closed, plain]
  rfl

theorem doSegWriteInit_opens {session : Bool} (passes : writeCode s req source (k.index * 256 + k.sub) r k.txn session 0 = codeOk) :
    doSegWriteInit s req source session k = (setSeg s req (some (writeTransfer s source (k.index * 256 + k.sub)
      (min (leNat (k.data.take 8)) r.ty.size) k.txn)), codeOk, []) := by
  unfold doSegWriteInit
  dsimp only
  rw [visible, row]
  dsimp only
  rw [domain, closed, passes]
  rfl

end Opening

/-! ### A transfer that no command fits, and one that goes on (R427) -/

theorem segFor_closed {source : Nat} {write : Bool} {k : DictMsg} (closed : (getReq s req).seg = none) :
    segFor s req source write k = none := by
  unfold segFor
  rw [closed]

section Open

variable {g : Seg} {source : Nat} {k : DictMsg}

theorem segFor_open {write : Bool} (found : (getReq s req).seg = some g) (own : req ≠ 0 ∨ g.source = source)
    (direction : g.write = write) (object : g.addr = k.index * 256 + k.sub) : segFor s req source write k = some g := by
  unfold segFor
  rw [found]
  refine if_neg ?_
  rintro (⟨first, other⟩ | other | other)
  · exact own.elim (· first) other
  · exact other direction
  · exact other object

theorem doSegAbort_open (found : (getReq s req).seg = some g) (own : req ≠ 0 ∨ g.source = source) :
    doSegAbort s req source = (setSeg s req none, codeOk, []) := by
  unfold doSegAbort
  rw [found]
  refine if_neg ?_
  rintro ⟨first, other⟩
  exact own.elim (· first) other

/-- The bytes that a SEG_READ takes. -/
def readLength (req : Nat) (k : DictMsg) (g : Seg) : Nat :=
  min (min (leNat (k.data.take 4)) (g.size - k.offset / 4 * 4)) (largestData req)

/-- What a SEG_READ leaves of its transfer: nothing where it gave the last byte. -/
def readOn (s : State) (req : Nat) (k : DictMsg) (g : Seg) : Option Seg :=
  if 0 < readLength req k g ∧ k.offset / 4 * 4 + readLength req k g = g.size then none
  else some { g with sent := g.sent + readLength req k g, deadline := segDeadline s }

theorem doSegRead_open (fits : segFor s req source false k = some g) : doSegRead s req source k =
    (setSeg s req (readOn s req k g), codeOk, slice g.content (k.offset / 4 * 4) (readLength req k g)) := by
  unfold doSegRead readOn
  rw [fits]
  dsimp only
  simp only [decide_eq_true_eq]
  rfl

section Write

variable (fits : segFor s req source true k = some g)
include fits

theorem doSegWrite_next (next : k.offset / 4 * 4 = g.sent)
    (whole : k.data.length % 4 = 0 ∨ g.size ≤ k.offset / 4 * 4 + k.data.length) :
    let b := g.content ++ k.data.take (g.size - k.offset / 4 * 4)
    doSegWrite s req source k =
      (setSeg s req (some { g with content := b, sent := b.length, deadline := segDeadline s }), codeOk, []) := by
  unfold doSegWrite
  rw [fits]
  dsimp only
  rw [if_neg (by omega), if_neg (by omega)]

theorem doSegWrite_gap (gap : g.sent < k.offset / 4 * 4) :
    doSegWrite s req source k = (setSeg s req (some { g with deadline := segDeadline s }), codeSegGap, []) := by
  unfold doSegWrite
  rw [fits]
  exact if_pos (.inr gap)

variable (full : g.size ≤ g.sent)
include full

theorem doSegWriteEnd_corrupt {session : Bool} (corrupt : crc32c g.content ≠ leNat (k.data.take 4)) :
    doSegWriteEnd s req source session k = (bump (setSeg s req none) Obj.SEG_CHECK_FAILS 1, codeSegCheck, []) := by
  unfold doSegWriteEnd
  rw [fits]
  exact (if_neg (Nat.not_lt.mpr full)).trans (if_pos corrupt)

theorem doSegWriteEnd_commits {session : Bool} {r : ObjRow} (whole : crc32c g.content = leNat (k.data.take 4))
    (row : rowAt g.addr = some r) (passes : writeCode s req source g.addr r k.txn session 0 = codeOk) (plain : k.txn = false)
    (data : g.addr ≠ Obj.FW_IMAGE) : doSegWriteEnd s req source session k =
      (commitOne (setSeg s req none) req g.addr (acceptBytes s req false r g.addr g.content), codeOk, []) := by
  unfold doSegWriteEnd
  rw [fits]
  dsimp only
  rw [if_neg (Nat.not_lt.mpr full), if_neg (not_not.mpr whole), row]
  dsimp only
  rw [passes, if_neg (not_not.mpr rfl), if_neg data, plain]
  rfl

end Write

end Open

/-- A write handed on as a transaction of its own waits for the next boundary. -/
theorem commitOne_closed (s : State) (req a : Nat) (b : List Byte) (closed : (getReq s req).isOpen = false) :
    commitOne s req a b = pushCommit (onReq (hideJobs s req) req fun q => { q with state := 2 }) req [(a, b)] true :=
  if_neg (Bool.eq_false_iff.mp closed)

/-! ### The answers to the commands of a transfer -/

section Answers

variable (served : Served s req m)
include served

theorem Served.version : m.ver = 1 := by
  obtain ⟨-, -, -, -, version, -, -⟩ := served
  exact version

theorem Served.known : req < s.dict.reqs.length := by
  obtain ⟨-, -, -, -, -, known, -⟩ := served
  exact known

/-- A command that replaces the transfer is answered, and changes no object. -/
theorem Served.replaces {i : Instr} {cmd code : Nat} {data : List Byte} {g : Option Seg}
    (command : exec i s = .next (serveTo s req 0 { m with cmd := cmd }))
    (runs : runCommand s req 0 false (asked req m cmd) = (setSeg s req g, code, data)) :
    Completes i s fun t => Answered s t req cmd m code data ∧ (getReq t req).seg = g ∧ ObjectsKeptBut [] s t :=
  served.answers command runs rfl (setSeg_reqs_length s req g) fun _ same =>
    ⟨same.transfer.trans (getReq_setSeg_seg served.known g), same.objects⟩

/-- A command that is refused is answered. -/
theorem Served.refused {i : Instr} {cmd code : Nat} (command : exec i s = .next (serveTo s req 0 { m with cmd := cmd }))
    (runs : runCommand s req 0 false (asked req m cmd) = refuse s code) :
    Completes i s fun t => Answered s t req cmd m code [] :=
  (served.answers (P := fun _ => True) command runs rfl rfl fun _ _ => trivial).imp fun _ answered => answered.1

theorem segReadInit_answers {r : ObjRow} (visible : hidden s m = false) (row : rowAt (m.index * 256 + m.sub) = some r)
    (domain : r.ty.isDomain = true) (closed : (getReq s req).seg = none) (plain : m.txn = false) :
    let b := if r.acc = .wo then [] else readBytesOf s req r (m.index * 256 + m.sub)
    Completes (.segReadInit req m) s fun t => Answered s t req 0x20 m codeOk (leBytes 8 b.length) ∧
      ∃ g, (getReq t req).seg = some g ∧ g.write = false ∧ g.addr = m.index * 256 + m.sub ∧ g.content = b ∧ g.size = b.length := by
  have opens := doSegReadInit_opens (k := asked req m 0x20) (source := 0) visible row domain closed plain
  refine (served.replaces rfl ((runs_segReadInit served.version).trans opens)).imp ?_
  rintro t ⟨answered, transfer, -⟩
  exact ⟨answered, _, transfer, rfl, rfl, rfl, rfl⟩

theorem segWriteInit_answers {r : ObjRow} (visible : hidden s m = false) (row : rowAt (m.index * 256 + m.sub) = some r)
    (domain : r.ty.isDomain = true) (closed : (getReq s req).seg = none)
    (passes : writeCode s req 0 (m.index * 256 + m.sub) r m.txn false 0 = codeOk) :
    Completes (.segWriteInit req m) s fun t => Answered s t req 0x22 m codeOk [] ∧
      ∃ g, (getReq t req).seg = some g ∧ g.write = true ∧ g.addr = m.index * 256 + m.sub ∧ g.content = [] ∧ g.sent = 0 ∧
        g.size = min (leNat ((cutMsg req m).data.take 8)) r.ty.size := by
  have opens := doSegWriteInit_opens (k := asked req m 0x22) (source := 0) visible row domain closed passes
  refine (served.replaces rfl ((runs_segWriteInit served.version).trans opens)).imp ?_
  rintro t ⟨answered, transfer, -⟩
  exact ⟨answered, _, transfer, rfl, rfl, rfl, rfl, rfl⟩

/-- Without a transfer its commands are refused. -/
theorem segments_refused (closed : (getReq s req).seg = none) :
    (Completes (.segRead req m) s fun t => Answered s t req 0x21 m codeSegState []) ∧
      (Completes (.segWrite req m) s fun t => Answered s t req 0x23 m codeSegState []) ∧
      (Completes (.segWriteEnd req m) s fun t => Answered s t req 0x24 m codeSegState []) ∧
      (Completes (.segAbort req m) s fun t => Answered s t req 0x25 m codeSegState []) := by
  refine ⟨served.refused rfl ((runs_segRead served.version).trans ?_), served.refused rfl ((runs_segWrite served.version).trans ?_),
    served.refused rfl ((runs_segWriteEnd served.version).trans ?_), served.refused rfl ((runs_segAbort served.version).trans ?_)⟩
  · rw [doSegRead, segFor_closed closed]
  · rw [doSegWrite, segFor_closed closed]
  · rw [doSegWriteEnd, segFor_closed closed]
  · rw [doSegAbort, closed]

variable {g : Seg} (found : (getReq s req).seg = some g) (own : req ≠ 0 ∨ g.source = 0)
include found own

theorem segAbort_answers : Completes (.segAbort req m) s fun t =>
    Answered s t req 0x25 m codeOk [] ∧ (getReq t req).seg = none ∧ ObjectsKeptBut [] s t :=
  served.replaces rfl ((runs_segAbort served.version).trans (doSegAbort_open found own))

variable (object : g.addr = m.index * 256 + m.sub)
include object

theorem segRead_answers (reading : g.write = false) :
    let off := m.offset / 4 * 4
    let n := min (min (leNat ((cutMsg req m).data.take 4)) (g.size - off)) (largestData req)
    Completes (.segRead req m) s fun t => Answered s t req 0x21 m codeOk (slice g.content off n) ∧
      (0 < n → off + n = g.size → (getReq t req).seg = none) ∧
      (off + n < g.size → (getReq t req).seg = some { g with sent := g.sent + n, deadline := segDeadline s }) := by
  intro off n
  have reads := doSegRead_open (segFor_open (k := asked req m 0x21) found own reading object)
  refine (served.replaces rfl ((runs_segRead served.version).trans reads)).imp ?_
  rintro t ⟨answered, transfer, -⟩
  refine ⟨answered, fun some last => transfer.trans (if_pos ⟨some, last⟩), fun more => transfer.trans (if_neg ?_)⟩
  exact fun ended => Nat.ne_of_lt more ended.2

variable (writing : g.write = true)
include writing

theorem segWrite_next_answers (next : m.offset / 4 * 4 = g.sent)
    (whole : (cutMsg req m).data.length % 4 = 0 ∨ g.size ≤ m.offset / 4 * 4 + (cutMsg req m).data.length) :
    Completes (.segWrite req m) s fun t => Answered s t req 0x23 m codeOk [] ∧ ObjectsKeptBut [] s t ∧
      ∃ k, (getReq t req).seg = some k ∧ k.content = g.content ++ (cutMsg req m).data.take (g.size - m.offset / 4 * 4) ∧
        k.sent = k.content.length := by
  have writes := doSegWrite_next (segFor_open (k := asked req m 0x23) found own writing object) next whole
  refine (served.replaces rfl ((runs_segWrite served.version).trans writes)).imp ?_
  rintro t ⟨answered, transfer, kept⟩
  exact ⟨answered, kept, _, transfer, rfl, rfl⟩

theorem segWrite_gap_answers (gap : g.sent < m.offset / 4 * 4) : Completes (.segWrite req m) s fun t =>
    Answered s t req 0x23 m codeSegGap [] ∧ ∃ k, (getReq t req).seg = some k ∧ k.content = g.content ∧ k.sent = g.sent := by
  have stays := doSegWrite_gap (segFor_open (k := asked req m 0x23) found own writing object) gap
  refine (served.replaces rfl ((runs_segWrite served.version).trans stays)).imp ?_
  rintro t ⟨answered, transfer, -⟩
  exact ⟨answered, _, transfer, rfl, rfl⟩

variable (full : g.size ≤ g.sent)
include full

theorem segWriteEnd_corrupt_answers (corrupt : crc32c g.content ≠ leNat ((cutMsg req m).data.take 4)) :
    Completes (.segWriteEnd req m) s fun t => Answered s t req 0x24 m codeSegCheck [] ∧ (getReq t req).seg = none ∧
      t.dict.commits = s.dict.commits ∧ waitingCount t Obj.SEG_CHECK_FAILS = waitingCount s Obj.SEG_CHECK_FAILS + 1 := by
  have fails := doSegWriteEnd_corrupt (session := false) (segFor_open (k := asked req m 0x24) found own writing object) full corrupt
  refine served.answers rfl ((runs_segWriteEnd served.version).trans fails) rfl (setSeg_reqs_length s req none) fun t same => ?_
  obtain ⟨-, counts, commits, transfer⟩ := same
  refine ⟨transfer.trans (getReq_setSeg_seg served.known none), commits, (waitingCount_of_ctrPend counts _).trans ?_⟩
  exact waitingCount_bump_self (setSeg s req none) _ Nat.one_ne_zero

theorem segWriteEnd_answers {r : ObjRow} (whole : crc32c g.content = leNat ((cutMsg req m).data.take 4))
    (row : rowAt (m.index * 256 + m.sub) = some r) (passes : writeCode s req 0 (m.index * 256 + m.sub) r false false 0 = codeOk)
    (plain : m.txn = false) (data : m.index * 256 + m.sub ≠ Obj.FW_IMAGE) (closed : (getReq s req).isOpen = false) :
    Completes (.segWriteEnd req m) s fun t => Answered s t req 0x24 m codeOk [] ∧ (getReq t req).seg = none ∧
      ({ req := req, writes := [(m.index * 256 + m.sub, acceptBytes s req false r (m.index * 256 + m.sub) g.content)],
         due := dueTurn s, shown := true } : CommitJob) ∈ t.dict.commits := by
  rw [← object] at row passes data ⊢
  let b := acceptBytes s req false r g.addr g.content
  let ended := setSeg s req none
  have still : (getReq ended req).isOpen = false :=
    (congrArg Requester.isOpen (getReq_onReq_self served.known fun q => { q with seg := none })).trans closed
  have commits : doSegWriteEnd s req 0 false (asked req m 0x24) =
      (pushCommit (onReq (hideJobs ended req) req fun q => { q with state := 2 }) req [(g.addr, b)] true, codeOk, []) := by
    rw [← commitOne_closed _ _ _ _ still]
    exact doSegWriteEnd_commits (segFor_open (k := asked req m 0x24) found own writing object) full whole row
      (plain.symm ▸ passes) plain data
  have handed : (hideJobs ended req).dict.reqs.length = s.dict.reqs.length := setSeg_reqs_length s req none
  refine served.answers rfl ((runs_segWriteEnd served.version).trans commits) rfl ((length_atIdx _ _ _).trans handed)
    fun t same => ?_
  obtain ⟨-, -, jobs, transfer⟩ := same
  constructor
  · refine transfer.trans ((congrArg Requester.seg (getReq_onReq_self (handed.symm ▸ served.known) _)).trans ?_)
    exact getReq_setSeg_seg served.known none
  · rw [jobs]
    exact List.mem_append_right _ List.mem_cons_self

end Answers

/-! ### The carriers (R415, R418, R419, R440) -/

theorem exec_fnFrame {f : FnFrame} (on : nodeOn s = true) : exec (.fnFrame f) s = .next (
    if fnAccepts s f then serveTo (bump s Obj.FN_FRAMES_IN 1) 0 f.src f.msg else bump s Obj.FN_FRAMES_DROPPED 1) := by
  refine congrArg Host.Outcome.next ?_
  rw [on]
  rfl

theorem exec_fnFrame_off {f : FnFrame} (off : nodeOn s = false) : exec (.fnFrame f) s = .next s := by
  refine congrArg Host.Outcome.next (if_pos ?_)
  rw [off]
  rfl

section Mailbox

variable {secure : Bool}

theorem exec_mbGo (taken : ideRefused s secure = false) : exec (.mbGo secure) s = .next (mailboxGo s) :=
  congrArg Host.Outcome.next (if_neg (Bool.eq_false_iff.mp taken))

theorem exec_mbGo_refused (refused : ideRefused s secure = true) : exec (.mbGo secure) s = .next (bump s Obj.IDE_REFUSED 1) :=
  congrArg Host.Outcome.next (if_pos refused)

theorem mailboxGo_busy (busy : s.dict.mb.busy = true) : mailboxGo s = onMb s fun b => { b with ignored := true } := if_pos busy

/-- A GO that is taken runs the mailbox's request, and the response stands there. -/
theorem mailboxGo_runs {r : DictResp} (idle : s.dict.mb.busy = false) (up : s.ras.mcDown = false)
    (runs : serve s 1 0 false (mailboxMsg s.dict.mb) = (u, some r)) :
    (mailboxGo s).dict.mb.response = respBytes r ∧ (mailboxGo s).dict.mb.done = true ∧ (mailboxGo s).dict.objs = u.dict.objs := by
  let answered := onMb u fun b => { b with response := respBytes r, done := true }
  have goes : mailboxGo s = if answered.dict.mb.irqEn = true then msixSend answered answered.dict.mb.vector else answered := by
    unfold mailboxGo
    rw [idle, up, runs]
    rfl
  have message : Frame [.hostRegs, .rings, .out] answered (mailboxGo s) := by
    rw [goes]
    split
    · exact msixSend_frame _ _
    · exact Frame.refl _ _
  have mailbox : (mailboxGo s).dict.mb = answered.dict.mb := message.keep .mailbox rfl
  have objs : (mailboxGo s).dict.objs = answered.dict.objs := message.keep .objs rfl
  rw [mailbox, objs]
  exact ⟨rfl, rfl, rfl⟩

end Mailbox

theorem exec_doeRequest_unserved (unserved : doeServed s = false) (o : DoeObj) : exec (.doeRequest o) s = .next s := by
  refine congrArg Host.Outcome.next (if_pos ?_)
  rw [unserved]
  rfl

theorem exec_doeRequest_discovery (served : doeServed s = true) (i : Nat) :
    exec (.doeRequest (.discovery i)) s = .next (doeAnswer s (.discovery (discoveryBytes i))) := by
  refine congrArg Host.Outcome.next ?_
  rw [served]
  rfl

theorem exec_doeRequest_dict (served : doeServed s = true) {r : DictResp} (runs : serve s 2 0 false m = (u, some r)) :
    exec (.doeRequest (.dict m)) s = .next (doeAnswer u (.dict r)) := by
  refine congrArg Host.Outcome.next ?_
  dsimp only
  rw [served, runs]
  rfl

/-! ### The idle timeout (R427) -/

section Idle

variable {g : Seg} (found : (getReq s req).seg = some g)
include found

theorem exec_segIdleTimeout : exec (.segIdleTimeout req) s =
    .next (if s.turn.phase = .p3 ∧ g.deadline ≤ boundary s then setSeg s req none else s) := by
  refine congrArg Host.Outcome.next ?_
  rw [found]

theorem segIdleTimeout_aborts (phase : s.turn.phase = .p3) (known : req < s.dict.reqs.length) (due : g.deadline ≤ boundary s) :
    Completes (.segIdleTimeout req) s fun t => (getReq t req).seg = none ∧ ObjectsKeptBut [] s t := by
  refine ⟨_, exec_segIdleTimeout found, ?_⟩
  rw [if_pos ⟨phase, due⟩]
  exact ⟨getReq_setSeg_seg known none, fun _ _ => rfl⟩

theorem exec_segIdleTimeout_waits (early : boundary s < g.deadline) : exec (.segIdleTimeout req) s = .next s := by
  rw [exec_segIdleTimeout found, if_neg fun ended => Nat.not_le.mpr early ended.2]

end Idle

/-! ### The obligation -/

/-- Settles O56: what each command of a transfer answers and leaves, and what each carrier does with a request. -/
theorem segmentsAndCarriersServe : Obligations.SegmentsAndCarriersServe := by
  unfold Obligations.SegmentsAndCarriersServe
  refine ⟨?transfers, ?carriers⟩
  case transfers =>
    intro req m s served a d off
    refine ⟨?opens, segments_refused served, ?goesOn⟩
    case opens =>
      intro r visible row domain closed plain
      refine ⟨segReadInit_answers served visible row domain closed plain, fun passes => ?_⟩
      exact segWriteInit_answers served visible row domain closed (plain.symm ▸ passes)
    case goesOn =>
      intro g found own
      refine ⟨segAbort_answers served found own, segRead_answers served found own, segWrite_next_answers served found own,
        segWrite_gap_answers served found own, fun object writing full => ⟨?_, ?_⟩⟩
      · exact segWriteEnd_corrupt_answers served found own object writing full
      · intro r whole row passes plain data closed
        exact segWriteEnd_answers served found own object writing full whole row passes plain data closed
  case carriers =>
    intro s
    refine ⟨?accepted, ?dropped, fun f => exec_fnFrame_off, ?go, ?busy, fun secure refused => ⟨_, exec_mbGo_refused refused, rfl⟩,
      ?doe, exec_doeRequest_unserved, ⟨_, rfl, rfl⟩, ?idle⟩
    case accepted =>
      intro f on accepts
      exact ⟨_, exec_fnFrame on, if_pos accepts⟩
    case dropped =>
      intro f on drops
      exact ⟨_, exec_fnFrame on, if_neg (Bool.eq_false_iff.mp drops)⟩
    case go =>
      intro secure u r taken idle up runs
      exact ⟨_, exec_mbGo taken, mailboxGo_runs idle up runs⟩
    case busy =>
      intro secure taken busy
      exact ⟨_, (exec_mbGo taken).trans (congrArg Host.Outcome.next (mailboxGo_busy busy)), rfl, fun _ _ => rfl⟩
    case doe =>
      intro served
      refine ⟨fun i => ⟨_, exec_doeRequest_discovery served i, rfl⟩, fun m u r runs => ?_⟩
      exact ⟨_, exec_doeRequest_dict served runs, rfl⟩
    case idle =>
      intro req g phase known found
      exact ⟨segIdleTimeout_aborts found phase known, exec_segIdleTimeout_waits found⟩

end Sys2Proof.Machine

/-! Tenancy and security: binding, diagnostic mode, the tenant switch and its scrub, firmware activation, attestation reports,
sessions and IDE failures (R431, R434, R437 to R442, R446; log entries 56, 57 and 62). -/

namespace Sys2Proof.Machine

open Sys2Proof

variable {s : State}

/-! ### Binding and diagnostic mode (R431, R446) -/

section Binding

variable {nonce : List Byte}

/-- The state in which a binding has taken effect, before its event. -/
def bound (s : State) (nonce : List Byte) : State :=
  { s with nv := { s.nv with tenant := 1, tag := padTo 32 (getDom s Obj.TENANT_TAG), nonce := padTo 32 nonce },
           sec := { s.sec with bindDue := 0, flashKey := flashKeyOf (padTo 32 nonce) } }

theorem exec_bind (phase : s.turn.phase = .p5) (asked : s.sec.bindDue ≠ 0) (due : s.sec.bindDue ≤ s.turn.no)
    (unbound : s.nv.tenant = 0) :
    exec (.bind nonce) s =
      .next (postEvent (bound s nonce) 0x5002 (leNat ((padTo 32 (getDom s Obj.TENANT_TAG)).take 8))) := by
  refine congrArg Host.Outcome.next (if_neg ?_)
  rintro (early | idle | waits | tenant)
  · exact early phase
  · exact asked idle
  · exact Nat.not_lt.mpr due waits
  · exact tenant unbound

/-- An event changes no more of what is kept without power than the log. -/
theorem postEvent_tenancy (s : State) (c d : Nat) : (postEvent s c d).nv.tenant = s.nv.tenant ∧
    (postEvent s c d).nv.tag = s.nv.tag ∧ (postEvent s c d).nv.nonce = s.nv.nonce := by
  rw [postEvent_nv]
  exact ⟨rfl, rfl, rfl⟩

theorem bind_stores (phase : s.turn.phase = .p5) (asked : s.sec.bindDue ≠ 0) (due : s.sec.bindDue ≤ s.turn.no)
    (unbound : s.nv.tenant = 0) : Completes (.bind nonce) s fun t =>
      t.nv.tenant = 1 ∧ t.nv.tag = padTo 32 (getDom s Obj.TENANT_TAG) ∧ t.nv.nonce = padTo 32 nonce ∧
        t.sec.flashKey = flashKeyOf (padTo 32 nonce) ∧ Logged s t 0x5002 (leNat ((padTo 32 (getDom s Obj.TENANT_TAG)).take 8)) := by
  obtain ⟨tenant, tag, keptNonce⟩ := postEvent_tenancy (bound s nonce) 0x5002 (leNat ((padTo 32 (getDom s Obj.TENANT_TAG)).take 8))
  exact ⟨_, exec_bind phase asked due unbound, tenant, tag, keptNonce, (congrArg Sec.flashKey (postEvent_sec _ _ _)),
    postEvent_logged (bound s nonce) _ _⟩

theorem exec_bind_idle (idle : s.turn.phase ≠ .p5 ∨ s.sec.bindDue = 0 ∨ s.nv.tenant ≠ 0) : exec (.bind nonce) s = .next s := by
  refine congrArg Host.Outcome.next (if_pos ?_)
  rcases idle with early | unasked | tenant
  · exact .inl early
  · exact .inr (.inl unasked)
  · exact .inr (.inr (.inr tenant))

theorem diagEn_begins (phase : s.turn.phase = .p5) (asked : s.sec.diagDue ≠ 0) (due : s.sec.diagDue ≤ s.turn.no)
    (unbound : s.nv.tenant = 0) : Completes (.diagEn nonce) s fun t =>
      t.nv.tenant = 3 ∧ t.nv.tag = List.replicate 32 0 ∧ t.nv.nonce = s.nv.nonce ∧
        t.sec.flashKey = flashKeyOf (padTo 32 nonce) := by
  refine ⟨_, congrArg Host.Outcome.next (if_neg ?_), rfl, rfl, rfl, rfl⟩
  rintro (early | idle | waits | tenant)
  · exact early phase
  · exact asked idle
  · exact Nat.not_lt.mpr due waits
  · exact tenant unbound

end Binding

/-! ### The tenant switch (R87, R442) -/

theorem resetQueues_releases (s : State) : (resetQueues s).host.queues = [] ∧ (resetQueues s).host.results = [] ∧
    getObj (resetQueues s) Obj.HOST_REGION_GIB = 0 ∧ getObj (resetQueues s) Obj.HOST_REGION_BASE = 0 := by
  refine ⟨rfl, rfl, ?_, getObj_setObj_self _ _ _⟩
  rw [resetQueues, getObj_setObj_ne _ _ (by decide), getObj_setObj_self]

theorem tenantSwitch_releases (asked : s.sec.switchDue ≠ 0) (phase : s.turn.phase = .p6) (due : s.turn.no = s.sec.switchDue) :
    Completes .tenantSwitch s fun t =>
      t.host.queues = [] ∧ t.host.results = [] ∧ getObj t Obj.HOST_REGION_GIB = 0 ∧ getObj t Obj.HOST_REGION_BASE = 0 := by
  refine ⟨_, congrArg Host.Outcome.next (if_neg ?_), resetQueues_releases _⟩
  rintro (idle | early | other)
  · exact asked idle
  · exact early phase
  · exact other due

theorem exec_tenantSwitch_otherTurn (other : s.turn.no ≠ s.sec.switchDue) : exec .tenantSwitch s = .next s :=
  congrArg Host.Outcome.next (if_pos (.inr (.inr other)))

/-- The state in which the tenant's state and keys are gone and the scrub runs. -/
def scrubbed (s : State) : State :=
  let r := scrubState (resetQueues s)
  { r with
    nv := { r.nv with tenant := 2, tag := List.replicate 32 0, nonce := [], scrubPending := true, retained := [] },
    sec := { r.sec with flashKey := [], switchDue := 0, scrubbing := true, scrubDone := none, bindDue := 0, diagDue := 0 },
    host := { r.host with session := none, ide := [0, 0, 0, 0], kept := [], tries := [] },
    ras := { r.ras with sweep := none, sweepRes := [], sweepPts := [] } }

theorem exec_scrubStart (asked : s.sec.switchDue ≠ 0) (phase : s.turn.phase = .p5) (due : s.turn.no = nextTurn s.sec.switchDue) :
    exec .scrubStart s = .next (if s.ras.sweep.isSome = true then setObj (setObj (scrubbed s) Obj.SWEEP_STATE 3) Obj.SWEEP_START 0
      else scrubbed s) := by
  refine congrArg Host.Outcome.next (if_neg ?_)
  rintro (idle | early | other)
  · exact asked idle
  · exact early phase
  · exact other due

/-- The start of the scrub changes, beyond the scrubbed state, objects of the sweep alone. -/
theorem scrubStart_scrubs (asked : s.sec.switchDue ≠ 0) (phase : s.turn.phase = .p5) (due : s.turn.no = nextTurn s.sec.switchDue) :
    Completes .scrubStart s fun t => ∃ d, t = { scrubbed s with dict := d } := by
  refine ⟨_, exec_scrubStart asked phase due, ?_⟩
  split
  · exact ⟨_, rfl⟩
  · exact ⟨_, rfl⟩

theorem scrubComplete_ends {ms : Nat} (runs : s.sec.scrubbing = true) (first : s.sec.scrubDone = none) :
    exec (.scrubComplete ms) s = .next { s with sec := { s.sec with scrubDone := some ms } } := by
  refine congrArg Host.Outcome.next (if_pos ?_)
  rw [runs, first]
  rfl

/-- The state in which a scrub has ended, before its event. -/
def scrubEnded (s : State) (ms : Nat) : State :=
  let t := { s with nv := { s.nv with tenant := 0, scrubPending := false, switches := (s.nv.switches + 1) % 2 ^ 64 },
                    sec := { s.sec with scrubbing := false, scrubDone := none } }
  setObj (setObj t Obj.SCRUB_MS (min ms 65535)) Obj.FILL_PCT 0

theorem exec_scrubEndBoundary {ms : Nat} (ended : s.sec.scrubDone = some ms) (phase : s.turn.phase = .p5) :
    exec .scrubEndBoundary s =
      .next (logEvent (scrubEnded s ms) { code := 0x5001, turn := s.turn.no, detail := min ms 65535 }) := by
  refine congrArg Host.Outcome.next ?_
  unfold doScrubEnd
  rw [ended]
  exact if_neg fun early => early phase

theorem scrubEndBoundary_frees {ms : Nat} (ended : s.sec.scrubDone = some ms) (phase : s.turn.phase = .p5) :
    Completes .scrubEndBoundary s fun t =>
      t.nv.tenant = 0 ∧ t.sec.scrubbing = false ∧ t.nv.switches = (s.nv.switches + 1) % 2 ^ 64 ∧
        getObj t Obj.SCRUB_MS = min ms 65535 ∧ Logged s t 0x5001 (min ms 65535) ∧ t.host = s.host := by
  refine ⟨_, exec_scrubEndBoundary ended phase, rfl, rfl, rfl, ?_, rfl, rfl⟩
  show getObj (scrubEnded s ms) Obj.SCRUB_MS = _
  rw [scrubEnded, getObj_setObj_ne _ _ (by decide), getObj_setObj_self]

/-! ### Firmware (R434) -/

theorem fwActivate_arms (staged : s.sec.staged = 1) : Completes .fwActivate s fun t =>
    getObj t Obj.FW_ACTIVATE = 1 ∧ t.nv.activateB = runsA s ∧ t.sec.activate = true :=
  ⟨_, congrArg Host.Outcome.next (if_pos staged), getObj_setObj_self _ _ _, rfl, rfl⟩

theorem fwActivate_ignored (unstaged : s.sec.staged ≠ 1) : Completes .fwActivate s fun t =>
    getObj t Obj.FW_ACTIVATE = 0 ∧ t.nv = s.nv ∧ t.sec = s.sec :=
  ⟨_, congrArg Host.Outcome.next (if_neg unstaged), getObj_setObj_self _ _ _, rfl, rfl⟩

/-! ### Reports (R437) -/

/-- A report does not speak of the contents of DOMAIN objects. -/
theorem reportOf_setDom (s : State) (a : Nat) (b nonce ct : List Byte) : reportOf (setDom s a b) nonce ct = reportOf s nonce ct := rfl

theorem attRequest_reports {req : Nat} (d : List Byte) (known : req < s.dict.reqs.length) :
    Completes (.attRequest req d) s fun t =>
      (getReq t req).report = reportOf s (d.take 32) [] ∧ ∀ r, r ≠ req → getReq t r = getReq s r := by
  refine ⟨_, rfl, ?_, fun r other => getD_atIdx_ne _ _ other _⟩
  rw [← reportOf_setDom s Obj.ATT_REQUEST (attRequest d)]
  exact congrArg Requester.report (getD_atIdx_self _ known _)

section Doe

variable {d coins : List Byte} (served : doeServed s = true)
include served

theorem exec_getReport : exec (.getReport d coins) s = .next (doGetReport s d coins) := congrArg Host.Outcome.next (if_pos served)

omit served in
/-- Without a key the report stands in the mailbox and opens no session. -/
theorem doGetReport_plain (keyless : leNat (slice d 32 2) ≠ 1184) :
    doGetReport s d coins = doeAnswer s (.report (reportOf s (padTo 32 d) [])) := if_pos (if_neg keyless)

omit served in
/-- With a key the report opens a session. -/
theorem doGetReport_session (key : leNat (slice d 32 2) = 1184) :
    ∃ keys, (doGetReport s d coins).host.session = some { keys := keys, lastSeq := none, mySeq := 0 } := by
  have keyed : (if leNat (slice d 32 2) = 1184 then 1184 else 0) ≠ 0 := by
    rw [if_pos key]
    decide
  unfold doGetReport
  dsimp only
  rw [if_neg keyed]
  exact ⟨_, rfl⟩

/-! ### Sessions and IDE (R438, R439, R440) -/

theorem exec_secured (seq : Nat) (ok : Bool) (body : SecBody) : exec (.secured seq ok body) s = .next (doSecured s seq ok body) :=
  congrArg Host.Outcome.next (if_pos served)

omit served in
theorem doeFail_answers (s : State) (cause : Nat) : (doeFail s cause).host.doeResp = some (.fail cause) ∧
    (doeFail s cause).host.session = s.host.session ∧
    waitingCount (doeFail s cause) Obj.SESSION_FAILS = waitingCount s Obj.SESSION_FAILS + 1 :=
  ⟨rfl, rfl, waitingCount_bump_self (doeAnswer s _) _ Nat.one_ne_zero⟩

theorem secured_sessionless {seq : Nat} {ok : Bool} {body : SecBody} (none : s.host.session = none) :
    Completes (.secured seq ok body) s fun t =>
      t.host.doeResp = some (.fail 1) ∧ waitingCount t Obj.SESSION_FAILS = waitingCount s Obj.SESSION_FAILS + 1 := by
  obtain ⟨answer, -, counted⟩ := doeFail_answers s 1
  refine ⟨doeFail s 1, (exec_secured served seq ok body).trans (congrArg Host.Outcome.next ?_), answer, counted⟩
  unfold doSecured
  rw [none]

variable {ss : Session} (session : s.host.session = some ss)
include session

theorem secured_repeated {seq l : Nat} (ok : Bool) (body : SecBody) (last : ss.lastSeq = some l) (old : seq ≤ l) :
    Completes (.secured seq ok body) s fun t => t.host.doeResp = some (.fail 2) ∧ t.host.session = s.host.session := by
  refine ⟨doeFail s 2, (exec_secured served seq ok body).trans (congrArg Host.Outcome.next ?_), rfl, rfl⟩
  unfold doSecured
  rw [session]
  refine if_pos ?_
  rw [last]
  exact decide_eq_true old

omit served session in
/-- A sequence number above the last one is new. -/
theorem newSeq {seq : Nat} (later : ∀ l, ss.lastSeq = some l → l < seq) :
    ¬(ss.lastSeq.map fun l => decide (seq ≤ l)).getD false = true := by
  cases last : ss.lastSeq with
  | none => exact Bool.false_ne_true
  | some l => exact fun old => Nat.not_lt.mpr (of_decide_eq_true old) (later l last)

/-- A wrong tag ends the session. -/
theorem secured_forged {seq : Nat} (body : SecBody) (later : ∀ l, ss.lastSeq = some l → l < seq) :
    Completes (.secured seq false body) s fun t =>
      t.host.doeResp = some (.fail 3) ∧ t.host.session = none ∧ Logged s t 0x5005 0 := by
  let ended : State := { s with host := { s.host with session := none } }
  refine ⟨postEvent (doeFail ended 3) 0x5005 0, (exec_secured served seq false body).trans (congrArg Host.Outcome.next ?_),
    postEvent_host_doeResp _ _ _, postEvent_host_session _ _ _, postEvent_logged (doeFail ended 3) _ _⟩
  unfold doSecured
  rw [session]
  exact (if_neg (newSeq later)).trans (if_pos rfl)

omit served session in
/-- A stream's new key set and state, with the session's sequence, before what was kept is written. -/
def ideSet (s : State) (ss : Session) (seq stream keySet : Nat) (secure : Bool) : State :=
  let t := setIde { s with host := { s.host with session := some { ss with lastSeq := some seq } } } stream (if secure then 2 else 1)
  { t with host := { t.host with ideSet := atIdx (fun _ => keySet % 2) stream t.host.ideSet } }

omit served session in
theorem securedAnswer_answers (r : Option DictResp) (session : s.host.session = some ss) :
    (securedAnswer s r).host.doeResp = some (.secured ss.mySeq r) ∧
      (securedAnswer s r).host.session = some { ss with mySeq := ss.mySeq + 1 } ∧ (securedAnswer s r).host.ide = s.host.ide := by
  unfold securedAnswer
  rw [session]
  exact ⟨rfl, rfl, rfl⟩

/-- IDE key management sets its stream, and is answered in the session. -/
theorem secured_ideKm {seq stream keySet : Nat} {secure : Bool} (later : ∀ l, ss.lastSeq = some l → l < seq)
    (known : stream < s.host.ide.length) : Completes (.secured seq true (.ideKm stream keySet secure)) s fun t =>
      t.host.ide.getD stream 0 = (if secure then 2 else 1) ∧ t.host.doeResp = some (.secured ss.mySeq none) ∧
        t.host.session = some { ss with lastSeq := some seq, mySeq := ss.mySeq + 1 } := by
  obtain ⟨streams, -, -, kept, -⟩ := (flushKept_frame (ideSet s ss seq stream keySet secure)).keep .doe rfl
  obtain ⟨answer, counted, same⟩ := securedAnswer_answers none kept
  refine ⟨securedAnswer (flushKept (ideSet s ss seq stream keySet secure)) none,
    (exec_secured served seq true _).trans (congrArg Host.Outcome.next ?_), ?_, answer, counted⟩
  · unfold doSecured
    rw [session]
    exact (if_neg (newSeq later)).trans (if_neg Bool.false_ne_true)
  · rw [same, streams]
    exact getD_atIdx_self _ known 0

end Doe

theorem ideIntegrityFailure_insecure {n : Nat} (secure : s.host.ide.getD n 0 = 2) :
    Completes (.ideIntegrityFailure n) s fun t => t.host.ide.getD n 0 = 1 ∧ Logged s t 0x5004 n := by
  have known : n < s.host.ide.length := by
    by_contra beyond
    rw [List.getD_eq_default _ _ (Nat.not_lt.mp beyond)] at secure
    cases secure
  refine ⟨postEvent (setIde s n 1) 0x5004 n, congrArg Host.Outcome.next (if_pos secure), ?_, postEvent_logged (setIde s n 1) _ _⟩
  rw [postEvent_host_ide]
  exact getD_atIdx_self _ known 0

/-! ### The obligation -/

/-- Settles O57: what each command of tenancy and of the sessions writes, case by case. -/
theorem tenancyAndSessions : Obligations.TenancyAndSessions := by
  unfold Obligations.TenancyAndSessions
  intro s
  refine ⟨fun nonce => bind_stores, fun nonce => exec_bind_idle, fun nonce => diagEn_begins, tenantSwitch_releases,
    exec_tenantSwitch_otherTurn, ?scrub, fun ms runs first => ⟨_, scrubComplete_ends runs first, rfl⟩,
    fun ms => scrubEndBoundary_frees, fwActivate_arms, fwActivate_ignored, fun req d => attRequest_reports d, ?report,
    fun seq ok body served => secured_sessionless served, ?session, fun n => ideIntegrityFailure_insecure,
    fun n insecure => congrArg Host.Outcome.next (if_neg insecure)⟩
  case scrub =>
    intro asked phase due
    refine (scrubStart_scrubs asked phase due).imp ?_
    rintro t ⟨d, rfl⟩
    exact ⟨rfl, rfl, rfl, rfl, rfl, rfl, rfl, rfl, rfl, rfl, rfl, rfl, rfl, rfl, rfl, rfl⟩
  case report =>
    intro d coins served
    refine ⟨fun keyless => ⟨_, exec_getReport served, ?_⟩, fun key => ⟨_, exec_getReport served, doGetReport_session key⟩⟩
    rw [doGetReport_plain keyless]
    exact ⟨rfl, rfl⟩
  case session =>
    intro seq body ss served session
    refine ⟨fun ok l => secured_repeated served session ok body, secured_forged served session body, ?_⟩
    rintro stream keySet secure later rfl known
    exact secured_ideKm served session later known

end Sys2Proof.Machine

/-! Watchdogs: what a trip counts, logs and resets, and when it escalates (R453 to R455; log entry 82). -/

namespace Sys2Proof.Machine

open Sys2Proof

variable {s : State}

/-! ### Trips (R454) -/

/-- A trip counts among those of its unit at once. -/
theorem tripsIn_trip (s : State) (level unit : Nat) {span : Nat} (some : 0 < span) :
    tripsIn (trip s level unit) level unit span = tripsIn s level unit span + 1 := by
  have now : (level == level && unit == unit && decide (s.turn.no < s.turn.no + span)) = true := by
    rw [beq_self_eq_true, beq_self_eq_true, decide_eq_true (Nat.lt_add_of_pos_right some)]
    rfl
  have here : ([⟨level, unit, s.turn.no⟩] : List Trip).filter (fun t => t.level == level && t.unit == unit &&
      decide (s.turn.no < t.turn + span)) = [⟨level, unit, s.turn.no⟩] := List.filter_cons_of_pos now
  show ((s.turn.trips ++ [(⟨level, unit, s.turn.no⟩ : Trip)]).filter fun t => t.level == level && t.unit == unit &&
      decide (s.turn.no < t.turn + span)).length = _
  rw [List.filter_append, here, List.length_append]
  rfl

theorem slipQuery_turn (s : State) (qh : Nat) : (slipQuery s qh).turn = s.turn := by
  unfold slipQuery
  split
  · rfl
  · split
    · rfl
    · rfl

/-- A slip is counted on its own. -/
theorem waitingCount_slipQuery (s : State) (qh : Nat) {a : Nat} (h : a ≠ Obj.SLIPPED_QUERIES) :
    waitingCount (slipQuery s qh) a = waitingCount s a := by
  unfold slipQuery
  split
  · rfl
  · split
    · rfl
    · exact waitingCount_bump_ne _ 1 h

theorem slipAll_turn (s : State) (work : List Nat) : (slipAll s work).turn = s.turn :=
  foldl_keeps slipQuery State.turn slipQuery_turn work s

theorem waitingCount_slipAll (s : State) (work : List Nat) {a : Nat} (h : a ≠ Obj.SLIPPED_QUERIES) :
    waitingCount (slipAll s work) a = waitingCount s a :=
  foldl_keeps slipQuery (waitingCount · a) (fun s qh => waitingCount_slipQuery s qh h) work s

/-- The state in which a trip has been counted and posted, and the work named has slipped. -/
def tripped (s : State) (level unit code detail : Nat) (work : List Nat) : State :=
  slipAll (postEvent (trip s level unit) code detail) work

theorem tripped_turn (s : State) (level unit code detail : Nat) (work : List Nat) :
    (tripped s level unit code detail work).turn = (trip s level unit).turn := (slipAll_turn _ _).trans (postEvent_turn _ _ _)

theorem tripped_keeps (s : State) (level unit code detail : Nat) (work : List Nat) :
    (tripped s level unit code detail work).turn.tileRetired = s.turn.tileRetired ∧
      (tripped s level unit code detail work).turn.escalated = s.turn.escalated := by
  rw [tripped_turn]
  exact ⟨rfl, rfl⟩

theorem tripped_frame (s : State) (level unit code detail : Nat) (work : List Nat) :
    Frame [.counters, .queues, .rings, .turnMisc, .queries, .errorLog] s (tripped s level unit code detail work) :=
  (((Frame.refl _ _).then (trip_frame s level unit) rfl).then (postEvent_frame _ _ _) rfl).then (slipAll_frame _ _) rfl

/-- The trip is logged and counted. -/
theorem tripped_reports (s : State) (level unit code detail : Nat) (work : List Nat) :
    Logged s (tripped s level unit code detail work) code detail ∧
      waitingCount (tripped s level unit code detail work) Obj.WDT_TRIPS = waitingCount s Obj.WDT_TRIPS + 1 := by
  have slips := slipAll_frame (postEvent (trip s level unit) code detail) work
  have counted : waitingCount (trip s level unit) Obj.WDT_TRIPS = waitingCount s Obj.WDT_TRIPS + 1 :=
    waitingCount_bump_self { s with turn := _ } _ Nat.one_ne_zero
  refine ⟨(postEvent_logged (trip s level unit) code detail).of_errorLog_eq (slips.keep .errorLog rfl).1, ?_⟩
  rw [tripped, waitingCount_slipAll _ _ (by decide), waitingCount_postEvent _ _ _ (by decide), counted]

theorem tripsIn_of_turn {t : State} (trips : t.turn.trips = s.turn.trips) (no : t.turn.no = s.turn.no) (level unit span : Nat) :
    tripsIn t level unit span = tripsIn s level unit span := by
  rw [tripsIn, tripsIn, trips, no]

theorem tripsIn_tripped (s : State) (level unit code detail : Nat) (work : List Nat) {span : Nat} (some : 0 < span) :
    tripsIn (tripped s level unit code detail work) level unit span = tripsIn s level unit span + 1 := by
  have turn := tripped_turn s level unit code detail work
  exact (tripsIn_of_turn (congrArg TurnSt.trips turn) (congrArg TurnSt.no turn) level unit span).trans
    (tripsIn_trip s level unit some)

/-! ### Escalation (R454) -/

/-- The state in which a node has escalated, before its ports go idle. -/
def escalating (s : State) (level : Nat) : State :=
  withdrawSoon (postEvent { s with turn := { s.turn with escalated := true } } 0x2008 level)

/-- A port of a node that has escalated goes to electrical idle. -/
def idlePort (s : State) (p : Nat) : State :=
  if linkState s p = linkOff then s else emit (setPort (setObj s (Obj.port_LINK_STATE p) linkDown) p Port.reset) (.portIdle p)

theorem escalate_new (calm : ¬s.turn.escalated = true) (level : Nat) :
    escalate s level = (List.range 16).foldl idlePort (escalating s level) := if_neg calm

theorem idlePort_turn (s : State) (p : Nat) : (idlePort s p).turn = s.turn := by
  unfold idlePort
  split
  · rfl
  · rfl

theorem withdrawSoon_escalated (s : State) : (withdrawSoon s).turn.escalated = s.turn.escalated := by
  unfold withdrawSoon
  split
  · rfl
  · rfl

theorem escalate_escalated (s : State) (level : Nat) : (escalate s level).turn.escalated = true := by
  by_cases before : s.turn.escalated = true
  · rw [escalate, if_pos before]
    exact before
  · rw [escalate_new before, foldl_keeps idlePort State.turn idlePort_turn, escalating, withdrawSoon_escalated, postEvent_turn]

/-! ### Tiles -/

section Tile

variable {tile : Nat} {work : List Nat}

theorem exec_tileWatchdog_idle (h : s.turn.phase ≠ .p3 ∨
    (s.turn.cur.any fun b => b.loans.any fun l => l.tile == tile && unretired s l.engine) = false) :
    exec (.tileWatchdog tile work) s = .next s := congrArg Host.Outcome.next (if_pos h)

/-- The state in which a tile stands idle for the next turn. -/
def tileReset (s : State) (tile : Nat) (work : List Nat) : State :=
  let t := tripped s levelTile tile 0x2001 tile work
  { t with turn := { t.turn with tileIdle := nub (t.turn.tileIdle ++ [tile]) } }

theorem tileReset_reads (s : State) (tile : Nat) (work : List Nat) : tile ∈ (tileReset s tile work).turn.tileIdle ∧
    (tileReset s tile work).turn.tileRetired = s.turn.tileRetired ∧
    tripsIn (tileReset s tile work) levelTile tile 64 = tripsIn s levelTile tile 64 + 1 ∧
    getObj (tileReset s tile work) Obj.TILES_GOOD = getObj s Obj.TILES_GOOD := by
  refine ⟨mem_nub.mpr (List.mem_append_right _ List.mem_cons_self), ?_, tripsIn_tripped s levelTile tile 0x2001 tile work (by decide), ?_⟩
  · exact (tripped_keeps s levelTile tile 0x2001 tile work).1
  · exact (tripped_frame s levelTile tile 0x2001 tile work).getObj rfl _

/-- A tile that is retired. -/
def tileRetire (s : State) (tile : Nat) : State :=
  postEvent (setObj { s with turn := { s.turn with tileRetired := s.turn.tileRetired ++ [tile] } } Obj.TILES_GOOD
    (getObj s Obj.TILES_GOOD - 1)) 0x2007 tile

theorem tileRetire_reads (s : State) (tile : Nat) : tile ∈ (tileRetire s tile).turn.tileRetired ∧
    getObj (tileRetire s tile) Obj.TILES_GOOD = getObj s Obj.TILES_GOOD - 1 := by
  constructor
  · rw [tileRetire, postEvent_turn]
    exact List.mem_append_right _ List.mem_cons_self
  · rw [tileRetire, getObj_postEvent, getObj_setObj_self]

variable (phase : s.turn.phase = .p3)
  (lent : (s.turn.cur.any fun b => b.loans.any fun l => l.tile == tile && unretired s l.engine) = true)
include phase lent

theorem exec_tileWatchdog : exec (.tileWatchdog tile work) s = .next (
    if 3 ≤ tripsIn (tileReset s tile work) levelTile tile 64 ∧ (tileReset s tile work).turn.tileRetired.contains tile = false then
      tileRetire (tileReset s tile work) tile
    else tileReset s tile work) := by
  have trips : ¬(s.turn.phase ≠ .p3 ∨
      (s.turn.cur.any fun b => b.loans.any fun l => l.tile == tile && unretired s l.engine) = false) := by
    rw [lent]
    rintro (early | idle)
    · exact early phase
    · cases idle
  exact congrArg Host.Outcome.next (if_neg trips)

/-- A tile that trips is reset, and stands idle in the next turn. -/
theorem tileWatchdog_resets (few : tripsIn s levelTile tile 64 < 2) : Completes (.tileWatchdog tile work) s fun t =>
    Logged s t 0x2001 tile ∧ tile ∈ t.turn.tileIdle ∧ t.turn.tileRetired = s.turn.tileRetired ∧
      waitingCount t Obj.WDT_TRIPS = waitingCount s Obj.WDT_TRIPS + 1 := by
  obtain ⟨logged, counted⟩ := tripped_reports s levelTile tile 0x2001 tile work
  obtain ⟨idle, retired, trips, -⟩ := tileReset_reads s tile work
  refine ⟨_, exec_tileWatchdog phase lent, ?_⟩
  rw [if_neg fun third => by omega]
  exact ⟨logged, idle, retired, counted⟩

/-- A tile that trips a third time within 64 turns is retired. -/
theorem tileWatchdog_retires (many : 2 ≤ tripsIn s levelTile tile 64) (sound : s.turn.tileRetired.contains tile = false) :
    Completes (.tileWatchdog tile work) s fun t =>
      tile ∈ t.turn.tileRetired ∧ getObj t Obj.TILES_GOOD = getObj s Obj.TILES_GOOD - 1 := by
  obtain ⟨-, retired, trips, good⟩ := tileReset_reads s tile work
  have third : 3 ≤ tripsIn (tileReset s tile work) levelTile tile 64 := by omega
  refine ⟨_, exec_tileWatchdog phase lent, ?_⟩
  rw [if_pos ⟨third, retired.symm ▸ sound⟩, ← good]
  exact tileRetire_reads _ _

end Tile

/-! ### Stage engines -/

section Engine

variable {quarter : Nat} {e : Engine} {work : List Nat}

theorem exec_stageEngineWatchdog_idle (works : stalls s e = false) : exec (.stageEngineWatchdog quarter e work) s = .next s :=
  congrArg Host.Outcome.next (if_pos (.inr works))

theorem exec_stageEngineWatchdog (phase : s.turn.phase = .p1 ∨ s.turn.phase = .p2 ∨ s.turn.phase = .p3) (stall : stalls s e = true) :
    exec (.stageEngineWatchdog quarter e work) s = .next (
      let u := quarter + 8 * engineNum e
      let t := tripped s levelEngine u 0x2002 u work
      if 3 ≤ tripsIn t levelEngine u 64 then escalate t levelEngine else t) := by
  have trips : ¬((s.turn.phase ≠ .p1 ∧ s.turn.phase ≠ .p2 ∧ s.turn.phase ≠ .p3) ∨ stalls s e = false) := by
    rw [stall]
    rintro (⟨not1, not2, not3⟩ | works)
    · obtain here | here | here := phase
      · exact not1 here
      · exact not2 here
      · exact not3 here
    · cases works
  exact congrArg Host.Outcome.next (if_neg trips)

/-- A stage engine that trips is reset; a third trip within 64 turns escalates. -/
theorem stageEngineWatchdog_completes (phase : s.turn.phase = .p1 ∨ s.turn.phase = .p2 ∨ s.turn.phase = .p3)
    (stall : stalls s e = true) : let u := quarter + 8 * engineNum e
    (tripsIn s levelEngine u 64 < 2 → Completes (.stageEngineWatchdog quarter e work) s fun t =>
      Logged s t 0x2002 u ∧ t.turn.escalated = s.turn.escalated ∧
      waitingCount t Obj.WDT_TRIPS = waitingCount s Obj.WDT_TRIPS + 1) ∧
    (2 ≤ tripsIn s levelEngine u 64 → Completes (.stageEngineWatchdog quarter e work) s fun t => t.turn.escalated = true) := by
  intro u
  have trips := tripsIn_tripped s levelEngine u 0x2002 u work (span := 64) (by decide)
  obtain ⟨logged, counted⟩ := tripped_reports s levelEngine u 0x2002 u work
  refine ⟨fun few => ⟨_, exec_stageEngineWatchdog phase stall, ?_⟩, fun many => ⟨_, exec_stageEngineWatchdog phase stall, ?_⟩⟩
  · have early : ¬3 ≤ tripsIn (tripped s levelEngine u 0x2002 u work) levelEngine u 64 := by omega
    dsimp only
    rw [if_neg early]
    exact ⟨logged, (tripped_keeps ..).2, counted⟩
  · have third : 3 ≤ tripsIn (tripped s levelEngine u 0x2002 u work) levelEngine u 64 := by omega
    dsimp only
    rw [if_pos third]
    exact escalate_escalated _ _

end Engine

/-! ### Sequencers -/

section Sequencer

variable {half late : Nat}

theorem exec_turnSequencerWatchdog_early (early : late ≤ 125) : exec (.turnSequencerWatchdog half late) s = .next s :=
  congrArg Host.Outcome.next (if_pos early)

/-- The state in which the sequencer of a half misses a turn. -/
def sequencerReset (s : State) (half missed : Nat) : State :=
  let t := tripped s levelSequencer half 0x2003 half []
  { t with turn := { t.turn with seqMissed := nub (t.turn.seqMissed ++ [(half, missed)]) } }

theorem exec_turnSequencerWatchdog (overdue : 125 < late) (window : s.turn.phase = .p6) (few : tripsIn s levelSequencer half 64 < 2) :
    exec (.turnSequencerWatchdog half late) s = .next (sequencerReset s half s.turn.no) := by
  have trips : tripsIn (sequencerReset s half s.turn.no) levelSequencer half 64 = tripsIn s levelSequencer half 64 + 1 :=
    tripsIn_tripped s levelSequencer half 0x2003 half [] (by decide)
  have missed : ∀ t : State, ¬3 ≤ tripsIn t levelSequencer half 64 → (if 3 ≤ tripsIn t levelSequencer half 64 then
    escalate t levelSequencer else t) = t := fun t few => if_neg few
  refine congrArg Host.Outcome.next ((if_neg (Nat.not_le.mpr overdue)).trans ?_)
  rw [window]
  exact missed (sequencerReset s half s.turn.no) (by omega)

/-- A sequencer that is reset misses the turn, and the trip is reported. -/
theorem turnSequencerWatchdog_completes (overdue : 125 < late) (few : tripsIn s levelSequencer half 64 < 2)
    (window : s.turn.phase = .p6) : Completes (.turnSequencerWatchdog half late) s fun t =>
      (half, s.turn.no) ∈ t.turn.seqMissed ∧ Logged s t 0x2003 half ∧
        waitingCount t Obj.WDT_TRIPS = waitingCount s Obj.WDT_TRIPS + 1 := by
  obtain ⟨logged, counted⟩ := tripped_reports s levelSequencer half 0x2003 half []
  exact ⟨_, exec_turnSequencerWatchdog overdue window few, mem_nub.mpr (List.mem_append_right _ List.mem_cons_self), logged, counted⟩

end Sequencer

/-! ### The Planner -/

theorem exec_plannerWatchdog_early (few : s.turn.repeats < getObj s Obj.PLANNER_REPEAT_LIMIT) :
    exec .plannerWatchdog s = .next s := congrArg Host.Outcome.next (if_pos few)

/-- The state in which the Planner's repeats begin anew. -/
def plannerReset (s : State) : State :=
  let t := tripped s levelPlanner 0 0x2004 (min 255 s.turn.repeats) []
  { t with turn := { t.turn with repeats := 0 } }

theorem exec_plannerWatchdog (many : getObj s Obj.PLANNER_REPEAT_LIMIT ≤ s.turn.repeats) (first : tripsIn s levelPlanner 0 1024 = 0) :
    exec .plannerWatchdog s = .next (plannerReset s) := by
  have trips : tripsIn (plannerReset s) levelPlanner 0 1024 = tripsIn s levelPlanner 0 1024 + 1 :=
    tripsIn_tripped s levelPlanner 0 0x2004 (min 255 s.turn.repeats) [] (by decide)
  have alone : ¬2 ≤ tripsIn (plannerReset s) levelPlanner 0 1024 := by omega
  exact congrArg Host.Outcome.next ((if_neg (Nat.not_lt.mpr many)).trans (if_neg alone))

/-- The first trip of the Planner does not escalate. -/
theorem plannerWatchdog_completes (many : getObj s Obj.PLANNER_REPEAT_LIMIT ≤ s.turn.repeats) (first : tripsIn s levelPlanner 0 1024 = 0) :
    Completes .plannerWatchdog s fun t =>
      t.turn.repeats = 0 ∧ Logged s t 0x2004 (min 255 s.turn.repeats) ∧ t.turn.escalated = s.turn.escalated ∧
        waitingCount t Obj.WDT_TRIPS = waitingCount s Obj.WDT_TRIPS + 1 := by
  obtain ⟨logged, counted⟩ := tripped_reports s levelPlanner 0 0x2004 (min 255 s.turn.repeats) []
  exact ⟨_, exec_plannerWatchdog many first, rfl, logged, (tripped_keeps ..).2, counted⟩

/-! ### The Management Controller (R455, R426, R438) -/

theorem exec_mcWatchdog_early {ms : Nat} (served : ms < getObj s Obj.MC_WDT_MS) : exec (.mcWatchdog ms) s = .next s :=
  congrArg Host.Outcome.next (if_pos (.inl served))

/-- The state in which the Management Controller resets. -/
def mcReset (s : State) : State :=
  let t := endTransactions (bump s Obj.WDT_TRIPS 1)
  { t with ras := { t.ras with mcDown := true }
           dict := { t.dict with served := false, reqs := t.dict.reqs.map fun r => { r with last := none } }
           host := { t.host with session := none, doeResp := none } }

theorem exec_mcWatchdog {ms : Nat} (late : getObj s Obj.MC_WDT_MS ≤ ms) (runs : s.ras.mcDown = false) (serves : s.dict.served = true) :
    exec (.mcWatchdog ms) s = .next (mcReset s) := by
  have trips : ¬(ms < getObj s Obj.MC_WDT_MS ∨ s.ras.mcDown = true ∨ s.dict.served = false) := by
    rw [runs, serves]
    rintro (early | down | silent)
    · exact Nat.not_lt.mpr late early
    · cases down
    · cases silent
  exact congrArg Host.Outcome.next (if_neg trips)

/-- Every requester loses its transaction, its transfer and its stored response. -/
theorem mcReset_reqs {r : Requester} (mem : r ∈ (mcReset s).dict.reqs) :
    r.isOpen = false ∧ r.staged = [] ∧ r.seg = none ∧ r.last = none := by
  obtain ⟨q, ended, rfl⟩ := List.mem_map.mp mem
  obtain ⟨p, -, rfl⟩ := List.mem_map.mp ended
  exact ⟨rfl, rfl, rfl, rfl⟩

theorem exec_mcResetComplete_up (runs : s.ras.mcDown = false) : exec .mcResetComplete s = .next s := by
  refine congrArg Host.Outcome.next (if_pos ?_)
  rw [runs]
  rfl

/-- After its reboot the Management Controller answers again, and event 0x2005 is posted. -/
theorem mcResetComplete_completes (down : s.ras.mcDown = true) : Completes .mcResetComplete s fun t =>
    t.ras.mcDown = false ∧ t.dict.served = true ∧ t.dict.mb.busy = false ∧ Logged s t 0x2005 0 := by
  refine ⟨_, congrArg Host.Outcome.next (if_neg (by rw [down]; decide)), ?_, ?_, ?_, postEvent_logged _ _ _⟩
  · rw [postEvent_ras]
  · rw [postEvent_dict_served]
  · rw [postEvent_dict_mb]

/-! ### Ledger holders -/

theorem exec_ledgerHolderWatchdog_early (few : s.ledger.noStore < 2) : exec .ledgerHolderWatchdog s = .next s := by
  refine congrArg Host.Outcome.next (if_neg ?_)
  rw [decide_eq_false (Nat.not_le.mpr few), Bool.and_false]
  decide

/-- A holder that has stored no epoch at two boundaries begins its ledger process anew. -/
theorem ledgerHolderWatchdog_completes (holds : isHolder s = true) (follows : isLeader s = false) (many : 2 ≤ s.ledger.noStore) :
    Completes .ledgerHolderWatchdog s fun t => t.ledger.noStore = 0 ∧ t.ledger.stored = [] ∧ Logged s t 0x2006 0 ∧
      waitingCount t Obj.WDT_TRIPS = waitingCount s Obj.WDT_TRIPS + 1 := by
  have trips : (isHolder s && !isLeader s && decide (2 ≤ s.ledger.noStore)) = true := by
    rw [holds, follows, decide_eq_true many]
    rfl
  refine ⟨_, congrArg Host.Outcome.next (if_pos trips), ?_, ?_, postEvent_logged (bump _ _ 1) _ _, ?_⟩
  · rw [postEvent_ledger]
    rfl
  · rw [postEvent_ledger]
    rfl
  · rw [waitingCount_postEvent _ _ _ (by decide)]
    exact waitingCount_bump_self { s with ledger := _ } _ Nat.one_ne_zero

/-- Settles O58, clause by clause (log entry 82). -/
theorem watchdogsResetTheirUnit : Obligations.WatchdogsResetTheirUnit := by
  refine fun s => ⟨fun tile work phase lent => ⟨tileWatchdog_resets phase lent, tileWatchdog_retires phase lent⟩,
    fun tile work h => exec_tileWatchdog_idle h, fun quarter e work works => exec_stageEngineWatchdog_idle works,
    fun quarter e work phase stall => stageEngineWatchdog_completes phase stall,
    fun half late overdue few window => turnSequencerWatchdog_completes overdue few window,
    fun half late early => exec_turnSequencerWatchdog_early early, plannerWatchdog_completes, exec_plannerWatchdog_early,
    fun ms late runs serves => ?_, fun ms served => exec_mcWatchdog_early served, mcResetComplete_completes,
    exec_mcResetComplete_up, ledgerHolderWatchdog_completes, exec_ledgerHolderWatchdog_early⟩
  exact ⟨_, exec_mcWatchdog late runs serves, rfl, rfl, rfl, rfl, fun r mem => mcReset_reqs mem,
    waitingCount_bump_self s _ Nat.one_ne_zero⟩

end Sys2Proof.Machine

/-! Repair and margins: salvage, patrol, failed blocks and relocated pages, sweeps, droops and the load of a new member
(R356, R362, R449 to R452, R456 to R458; log entries 50 and 81). -/

namespace Sys2Proof.Machine

open Sys2Proof

variable {s : State}

/-! ### Salvage (R451) -/

theorem waitingCount_writePage (s : State) (d : Nat) {a : Nat} (h : a ≠ Obj.PAGES_PROGRAMMED) :
    waitingCount (writePage s d).1 a = waitingCount s a := waitingCount_bump_ne { s with flash := _ } 1 h

/-- What placing records counts is the pages it programs. -/
theorem waitingCount_placeRecords (size : Nat) (ds : List Nat) {a : Nat} (h : a ≠ Obj.PAGES_PROGRAMMED) (n i : Nat)
    (cur : List (Nat × Nat × Nat)) (s : State) : waitingCount (placeRecords size ds n i cur s).1 a = waitingCount s a := by
  induction n generalizing i cur s with
  | zero => rfl
  | succ n ih =>
    unfold placeRecords
    dsimp only
    rw [ih]
    split
    · split
      · rfl
      · exact waitingCount_writePage s _ h
    · exact waitingCount_writePage s _ h

theorem waitingCount_placeSegment (s : State) (c : Nat) (es : List Nat) {a : Nat} (h : a ≠ Obj.PAGES_PROGRAMMED) :
    waitingCount (placeSegment s c es).1 a = waitingCount s a := by
  unfold placeSegment
  split
  · rfl
  · exact waitingCount_placeRecords _ _ h _ _ _ _

/-- The committed entries that a list reads. -/
def ListCopy.salvageable (l : ListCopy) : List Nat := (l.reads l.newest).filter fun i => !(l.entry i).staged && !(l.entry i).aborted

/-- Those of them that can be read whole. -/
def ListCopy.whole (l : ListCopy) (unreadable : List Nat) : List Nat :=
  l.salvageable.filter fun i => !unreadable.contains i && !l.bad.contains i

/-- A list whose one segment set, in force from boundary `due`, holds the entries that could be read whole. -/
def ListCopy.salvaged (l : ListCopy) (unreadable : List Nat) (media : List (Nat × Nat)) (due : Nat) : ListCopy :=
  let l' := l.push due (if l.whole unreadable = [] then [] else [l.whole unreadable]) l.delta.length [] media
  { l' with sets := l'.sets.take 1, bad := [], quarantined := false, compacting := none, built := none, switchDue := 0 }

/-- What the new segment set of a salvaged list reads was readable. -/
theorem ListCopy.salvaged_bases (l : ListCopy) (unreadable : List Nat) (media : List (Nat × Nat)) (due : Nat) :
    ∀ i ∈ (l.salvaged unreadable media due).newest.bases.flatten, unreadable.contains i = false ∧ l.bad.contains i = false := by
  have bases : (l.salvaged unreadable media due).newest.bases = if l.whole unreadable = [] then [] else [l.whole unreadable] := rfl
  intro i read
  rw [bases] at read
  have kept : i ∈ l.whole unreadable := by
    split at read
    · cases read
    · rwa [List.flatten_singleton] at read
  simpa only [Bool.and_eq_true, Bool.not_eq_true'] using (List.mem_filter.mp kept).2

section Salvage

variable {key : Nat} {bad : List Nat} {l : ListCopy}

/-- The state in which a salvaged list has been counted and reported. -/
def afterSalvage (s : State) (key : Nat) (unreadable : List Nat) (l : ListCopy) : State :=
  let p := placeSegment s (keyColl key) (l.whole unreadable)
  ledgerRequest (bump (setList p.1 (l.salvaged unreadable p.2 (dueTurn s))) Obj.SALVAGES 1)
    (.report .salvage key (l.salvageable.length - (l.whole unreadable).length))

theorem exec_salvageComplete (found : getList s key = some l) (enabled : isSet s Obj.SALVAGE_EN = true)
    (gate : gateOpen s 10 = true) (quarantined : l.quarantined = true) (chosen : salvages s key = true) :
    exec (.salvageComplete key bad) s = .next (afterSalvage s key bad l) := by
  refine congrArg Host.Outcome.next ?_
  unfold doSalvage
  rw [found]
  dsimp only
  rw [enabled, gate, quarantined, chosen]
  rfl

theorem afterSalvage_whole (found : getList s key = some l) : ∃ k, getList (afterSalvage s key bad l) key = some k ∧
    k.quarantined = false ∧ k.bad = [] ∧ k.newest.start = dueTurn s ∧
      ∀ i ∈ k.newest.bases.flatten, bad.contains i = false ∧ l.bad.contains i = false := by
  obtain rfl := getList_key found
  exact ⟨_, getList_setList_self _ (l.salvaged bad _ (dueTurn s)), rfl, rfl, rfl, l.salvaged_bases bad _ _⟩

theorem afterSalvage_reports (s : State) (key : Nat) (bad : List Nat) (l : ListCopy) :
    (∃ n, (afterSalvage s key bad l).ledger.outReqs = s.ledger.outReqs ++ [LedgerRec.report .salvage key n]) ∧
      waitingCount (afterSalvage s key bad l) Obj.SALVAGES = waitingCount s Obj.SALVAGES + 1 := by
  let p := placeSegment s (keyColl key) (l.whole bad)
  have listed : Frame [.counters, .lists, .flash] s (setList p.1 (l.salvaged bad p.2 (dueTurn s))) :=
    ((Frame.refl _ _).then (placeSegment_frame _ _ _) rfl).then (setList_frame _ _) rfl
  have ledger : (setList p.1 (l.salvaged bad p.2 (dueTurn s))).ledger = s.ledger := listed.keep .ledger rfl
  constructor
  · exact ⟨_, congrArg (fun x => Ledger.outReqs x ++ [LedgerRec.report .salvage key _]) ledger⟩
  · refine (waitingCount_bump_self _ _ Nat.one_ne_zero).trans (congrArg (· + 1) ?_)
    exact (waitingCount_setList _ _ _).trans (waitingCount_placeSegment _ _ _ (by decide))

end Salvage

/-! ### Centroids and the patrol (R449, R452) -/

theorem centroidReloadComplete_ends {c : Nat} (loading : (getColl s c).centLoading = true) :
    Completes (.centroidReloadComplete c) s fun t => getColl t c = { getColl s c with centLoading := false } :=
  ⟨_, congrArg Host.Outcome.next (if_pos loading), getColl_setColl_self _ _ _⟩

theorem exec_patrolRead_misses {hit : PatrolHit} (misses : patrolReads s hit = false) : exec (.patrolRead hit) s = .next s := by
  refine congrArg Host.Outcome.next ?_
  unfold doPatrol
  rw [misses]
  rfl

section Patrol

variable (slack : s.turn.phase = .p6)
include slack

theorem exec_patrolRead_corrected : exec (.patrolRead .corrected) s = .next (bump s Obj.PATROL_CORRECTED 1) := by
  have reads : patrolReads s .corrected = true := decide_eq_true slack
  refine congrArg Host.Outcome.next ?_
  unfold doPatrol
  rw [reads]
  rfl

/-- A word of the host region that the patrol cannot read is counted and logged with its address. -/
theorem patrolRead_hostRegion {a : Nat} (region : inRegion s a = true) (free : hasWindow s (bankAt a) = false) :
    Completes (.patrolRead (.hostRegion a)) s fun t => Logged s t 0x301D (a % 2 ^ 40) ∧
      waitingCount t Obj.PATROL_UNCORRECTABLE = waitingCount s Obj.PATROL_UNCORRECTABLE + 1 := by
  have reads : patrolReads s (.hostRegion a) = true := by
    unfold patrolReads
    dsimp only
    rw [decide_eq_true slack, region, free]
    rfl
  refine ⟨postEvent (bump s Obj.PATROL_UNCORRECTABLE 1) 0x301D (a % 2 ^ 40), congrArg Host.Outcome.next ?_,
    postEvent_logged (bump s _ 1) _ _, ?_⟩
  · unfold doPatrol
    rw [reads]
    rfl
  · rw [waitingCount_postEvent _ _ _ (by decide), waitingCount_bump_self _ _ Nat.one_ne_zero]

/-- A row of a table that the patrol cannot read is marked and logged. -/
theorem patrolRead_tableRow {n i : Nat} {v : TableVer} (active : (getTable s n).active = some v) (sound : (v.row i).err = false) :
    Completes (.patrolRead (.tableRow n i)) s fun t =>
      Logged s t 0x3011 (n + 64 * i) ∧ ∃ w, (getTable t n).active = some w ∧ (w.row i).err = true := by
  let lost := bump s Obj.PATROL_UNCORRECTABLE 1
  let marked := onActive lost n fun v => v.setRow i { v.row i with err := true }
  have reads : patrolReads s (.tableRow n i) = true := decide_eq_true slack
  refine ⟨postEvent marked 0x3011 (n + 64 * i), congrArg Host.Outcome.next ?_, ?_, v.setRow i { v.row i with err := true }, ?_, ?_⟩
  · unfold doPatrol
    rw [reads]
    dsimp only
    rw [active]
    exact if_neg (Bool.eq_false_iff.mp sound)
  · exact postEvent_logged marked _ _
  · have replaced : getTable marked n = _ := getTable_setTable_self lost n _
    rw [getTable_of_comp (postEvent_comp _ _ _), replaced]
    exact congrArg (Option.map _) active
  · unfold TableVer.row TableVer.setRow
    rw [look_put_self]
    rfl

end Patrol

/-! ### Failed blocks and relocated pages (R356, R362) -/

section Failure

variable {die block : Nat} {pages : List (Nat × Nat)} {d : Die}

/-- What a die has retired, and whether it takes writes. -/
def dieWear (s : State) (die : Nat) : Option (List Nat × Bool) :=
  (s.flash.dies.find? (·.num == die)).map fun d => (d.retired, d.readOnly)

theorem find?_onDie (s : State) (die : Nat) {f : Die → Die} (num : ∀ x, (f x).num = x.num) :
    (onDie s die f).flash.dies.find? (·.num == die) = (s.flash.dies.find? (·.num == die)).map f :=
  find?_updFirst (p := fun x : Die => x.num == die) (fun x named => (congrArg (· == die) (num x)).trans named) _

theorem dieWear_reprogram (die block : Nat) (s : State) (p : Nat × Nat) : dieWear (reprogram die block s p) die = dieWear s die := by
  unfold reprogram
  split
  · rfl
  · unfold dieWear
    rw [find?_onDie _ _ (f := Die.program p.2) fun _ => rfl, Option.map_map]
    rfl

/-- A die with one more retired block. -/
def Die.retire (block : Nat) (short : Bool) (x : Die) : Die :=
  { x with retired := x.retired ++ [block], readOnly := x.readOnly || short }

/-- The state in which a block is retired, before an event says that its die takes no more writes. -/
def blockRetired (s : State) (die block : Nat) (pages : List (Nat × Nat)) (short : Bool) : State :=
  bump (onDie (pages.foldl (reprogram die block) s) die (Die.retire block short)) Obj.BLOCKS_RETIRED 1

theorem blockRetired_die (found : s.flash.dies.find? (·.num == die) = some d) (short : Bool) :
    ∃ k, (blockRetired s die block pages short).flash.dies.find? (·.num == die) = some k ∧ k.retired = d.retired ++ [block] ∧
      k.readOnly = (d.readOnly || short) := by
  have wear : dieWear (pages.foldl (reprogram die block) s) die = some (d.retired, d.readOnly) :=
    (foldl_keeps _ (dieWear · die) (dieWear_reprogram die block) pages s).trans (congrArg (Option.map _) found)
  obtain ⟨x, at_die, same⟩ := Option.map_eq_some_iff.mp wear
  obtain ⟨retired, readOnly⟩ := Prod.mk.inj same
  refine ⟨x.retire block short, (find?_onDie _ die (f := Die.retire block short) fun _ => rfl).trans (congrArg (Option.map _) at_die), ?_, ?_⟩
  · exact congrArg (· ++ [block]) retired
  · exact congrArg (· || short) readOnly

theorem waitingCount_blockRetired (s : State) (die block : Nat) (pages : List (Nat × Nat)) (short : Bool) :
    waitingCount (blockRetired s die block pages short) Obj.BLOCKS_RETIRED = waitingCount s Obj.BLOCKS_RETIRED + 1 := by
  have programs : waitingCount (pages.foldl (reprogram die block) s) Obj.BLOCKS_RETIRED = waitingCount s Obj.BLOCKS_RETIRED :=
    foldl_keeps _ (waitingCount · _) (fun s p => waitingCount_of_ctrPend ((reprogram_frame die block s p).keep .counters rfl) _) pages s
  rw [blockRetired, waitingCount_bump_self _ _ Nat.one_ne_zero]
  exact congrArg (· + 1) programs

/-- A page of the failed block that is programmed in another block is mapped there. -/
theorem blockRetired_maps {p q : Nat} (mapped : (look s.flash.maps (die, p)).isSome = true) (free : pageFree s die q = true)
    (other : pageBlock q ≠ block) (short : Bool) :
    look (blockRetired s die block [(p, q)] short).flash.maps (die, p) = some q := by
  have programs : ((look s.flash.maps (die, p)).isNone || !pageFree s die q || pageBlock q == block) = false := by
    rw [Option.isNone_eq_false_iff.mpr mapped, free, beq_eq_false_iff_ne.mpr other]
    rfl
  show look (reprogram die block s (p, q)).flash.maps (die, p) = some q
  rw [reprogram, if_neg (Bool.eq_false_iff.mp programs)]
  exact look_put_self _ _ _

/-- Whether or not its die now takes no more writes, a failed block is retired. -/
theorem exec_programFailure (found : s.flash.dies.find? (·.num == die) = some d) (new : d.retired.contains block = false) :
    ∃ t, exec (.programFailure die block pages) s = .next t ∧
      t.flash = (blockRetired s die block pages (sparesShort (d.retired.length + 1))).flash ∧
      waitingCount t Obj.BLOCKS_RETIRED =
        waitingCount (blockRetired s die block pages (sparesShort (d.retired.length + 1))) Obj.BLOCKS_RETIRED := by
  let short := sparesShort (d.retired.length + 1)
  let r := blockRetired s die block pages short
  let chan := Obj.chan_DIES_READ_ONLY (dieAddr r die).1
  refine ⟨if (short && !d.readOnly) = true then postEvent (setObj r chan (getObj r chan + 1)) 0x3019 die else r,
    congrArg Host.Outcome.next ?_, ?_⟩
  · rw [found]
    exact if_neg (Bool.eq_false_iff.mp new)
  · split
    · exact ⟨postEvent_flash _ _ _, waitingCount_postEvent _ _ _ (by decide)⟩
    · exact ⟨rfl, rfl⟩

end Failure

section Relocation

variable {die lpn phys : Nat}

theorem exec_relocationCopyComplete_taken (taken : pageFree s die phys = false) :
    exec (.relocationCopyComplete die lpn phys) s = .next s := by
  refine congrArg Host.Outcome.next (if_pos ?_)
  rw [taken]
  exact Bool.or_true _

/-- A copied page is counted, and its new place waits for P5. -/
theorem relocationCopyComplete_shadows (mapped : (look s.flash.maps (die, lpn)).isSome = true)
    (free : pageFree s die phys = true) : Completes (.relocationCopyComplete die lpn phys) s fun t =>
      t.turn.shadow = s.turn.shadow ++ [Shadow.pageMap die lpn phys (dueTurn s)] ∧ t.flash.maps = s.flash.maps ∧
        waitingCount t Obj.PAGES_RELOCATED = waitingCount s Obj.PAGES_RELOCATED + 1 := by
  have copies : ((look s.flash.maps (die, lpn)).isNone || !pageFree s die phys) = false := by
    rw [Option.isNone_eq_false_iff.mpr mapped, free]
    rfl
  refine ⟨_, congrArg Host.Outcome.next (if_neg (Bool.eq_false_iff.mp copies)), rfl, rfl, ?_⟩
  exact waitingCount_bump_self (shadowPush (onDie s die _) _) _ Nat.one_ne_zero

end Relocation

/-! ### Margins (R456, R457) -/

theorem sweepStart_starts (idle : s.ras.sweep = none) : Completes .sweepStart s fun t =>
    t.ras.sweep = some (getObj s Obj.SWEEP_STACK, getObj s Obj.SWEEP_KIND, if getObj s Obj.SWEEP_STACK = 8 then 512 else 64) ∧
      getObj t Obj.SWEEP_STATE = 1 ∧ getObj t Obj.SWEEP_START = 1 := by
  have starts : ¬s.ras.sweep.isSome = true := by
    rw [idle]
    exact Bool.false_ne_true
  refine ⟨_, congrArg Host.Outcome.next (if_neg starts), rfl, ?_, getObj_setObj_self _ _ _⟩
  rw [getObj_setObj_ne _ _ (by decide), getObj_setObj_self]

theorem sweepStart_ignored (runs : s.ras.sweep ≠ none) :
    Completes .sweepStart s fun t => t.ras = s.ras ∧ getObj t Obj.SWEEP_START = 0 :=
  ⟨_, congrArg Host.Outcome.next (if_pos (Option.isSome_iff_ne_none.mpr runs)), rfl, getObj_setObj_self _ _ _⟩

/-- The end of a sweep shows in its objects. -/
theorem endSweep_ends (s : State) (kind : Nat) : (endSweep s kind).ras.sweep = none ∧
    getObj (endSweep s kind) Obj.SWEEP_STATE = 2 ∧ getObj (endSweep s kind) Obj.SWEEP_START = 0 := by
  unfold endSweep
  refine ⟨rfl, ?_, getObj_setObj_self _ _ _⟩
  rw [getObj_setObj_ne _ _ (by decide), getObj_setObj_self]

section Step

variable {stack chan st kind left : Nat} {result : List Nat} (runs : s.ras.sweep = some (st, kind, left))
include runs

theorem exec_sweepStep_closed (closed : slackOpen s 11 = false) : exec (.sweepStep stack chan result) s = .next s := by
  refine congrArg Host.Outcome.next ?_
  unfold doSweepStep
  rw [runs]
  refine if_pos ?_
  rw [closed]
  rfl

omit runs in
/-- The state in which a step has been taken from the pseudo-channel's points and from the stack's allowance. -/
def sweptOnce (s : State) (stack chan : Nat) : State :=
  let pc := 64 * stack + chan
  { s with ras := { s.ras with sweepUsed := put s.ras.sweepUsed stack (lookD s.ras.sweepUsed stack 0 + 1),
                               sweepPts := put s.ras.sweepPts pc (lookD s.ras.sweepPts pc 0 + 1) } }

omit runs in
theorem sweptOnce_counts (s : State) (stack chan : Nat) : (sweptOnce s stack chan).ras.sweep = s.ras.sweep ∧
    lookD (sweptOnce s stack chan).ras.sweepPts (64 * stack + chan) 0 = lookD s.ras.sweepPts (64 * stack + chan) 0 + 1 ∧
    lookD (sweptOnce s stack chan).ras.sweepUsed stack 0 = lookD s.ras.sweepUsed stack 0 + 1 := by
  have counts {l : List (Nat × Nat)} (k v : Nat) : lookD (put l k v) k 0 = v := congrArg (Option.getD · 0) (look_put_self l k v)
  exact ⟨rfl, counts _ _, counts _ _⟩

omit runs in
/-- The state in which a pseudo-channel has ended with its result. -/
def sweptChannel (s : State) (stack chan st kind left : Nat) (result : List Nat) : State :=
  let t := sweptOnce s stack chan
  { t with ras := { t.ras with sweep := some (st, kind, left - 1), sweepRes := t.ras.sweepRes ++ [(64 * stack + chan, result)] } }

variable (here : st = 8 ∨ st = stack) (hs : stack < 8) (hc : chan < 64) (opened : slackOpen s 11 = true)
  (free : hasWindow s { stack := stack, group := chan, bank := 0 } = false)
  (allowed : lookD s.ras.sweepUsed stack 0 < getObj s Obj.SWEEP_STEPS_PER_TURN)
  (unfinished : (s.ras.sweepRes.any fun r => r.1 == 64 * stack + chan) = false)
include here hs hc opened free allowed unfinished

theorem exec_sweepStep : exec (.sweepStep stack chan result) s = .next (
    if lookD s.ras.sweepPts (64 * stack + chan) 0 + 1 < sweepPoints kind then sweptOnce s stack chan
    else if left ≤ 1 then endSweep (sweptChannel s stack chan st kind left result) kind
    else sweptChannel s stack chan st kind left result) := by
  have chosen : (st != 8 && st != stack) = false := by
    rcases here with rfl | rfl <;> simp
  refine congrArg Host.Outcome.next ?_
  unfold doSweepStep
  rw [runs]
  dsimp only
  rw [opened, free, chosen, unfinished, decide_eq_false (by omega : ¬(8 ≤ stack ∨ 64 ≤ chan)), decide_eq_false (Nat.not_le.mpr allowed)]
  rfl

end Step

/-! ### The obligation -/

/-- Settles O59: what each repair and each step of a sweep leaves, from what each writes. -/
theorem repairsAndSweeps : Obligations.RepairsAndSweeps := by
  unfold Obligations.RepairsAndSweeps
  intro s
  refine ⟨?salvage, fun c => centroidReloadComplete_ends, fun hit => exec_patrolRead_misses,
    fun slack => ⟨_, exec_patrolRead_corrected slack, rfl⟩, fun a slack => patrolRead_hostRegion slack, fun n i v slack => patrolRead_tableRow slack,
    ?failure, fun die lpn phys => exec_relocationCopyComplete_taken, fun die lpn phys => relocationCopyComplete_shadows,
    sweepStart_starts, sweepStart_ignored, ?step, fun h => ⟨_, rfl, rfl⟩, ?loaded⟩
  case salvage =>
    intro key bad l found enabled gate quarantined chosen
    obtain ⟨k, listed, sound, clean, start, read⟩ := afterSalvage_whole (bad := bad) found
    obtain ⟨⟨n, reported⟩, counted⟩ := afterSalvage_reports s key bad l
    exact ⟨_, exec_salvageComplete found enabled gate quarantined chosen, ⟨k, n, listed, sound, clean, start, read, reported⟩, counted⟩
  case failure =>
    intro die block pages d found new
    obtain ⟨t, runs, flash, counted⟩ := exec_programFailure (pages := pages) found new
    refine ⟨t, runs, ?_, ?_, counted.trans (waitingCount_blockRetired _ _ _ _ _)⟩
    · rw [flash]
      exact blockRetired_die found _
    · rintro p q rfl mapped free other
      rw [flash]
      exact blockRetired_maps mapped free other _
  case step =>
    intro stack chan result st kind left runs here hs hc
    refine ⟨fun opened free allowed unfinished => ?_, exec_sweepStep_closed runs⟩
    have steps := exec_sweepStep (result := result) runs here hs hc opened free allowed unfinished
    refine ⟨fun more => ⟨_, steps, ?_⟩, fun last others => ⟨_, steps, ?_⟩, fun last alone => ⟨_, steps, ?_⟩⟩
    · rw [if_pos more]
      exact sweptOnce_counts s stack chan
    · rw [if_neg (Nat.not_lt.mpr last), if_neg (Nat.not_le.mpr others)]
      exact ⟨rfl, List.mem_append_right _ List.mem_cons_self⟩
    · rw [if_neg (Nat.not_lt.mpr last), if_pos alone]
      exact endSweep_ends _ _
  case loaded =>
    intro asked
    exact ⟨_, congrArg Host.Outcome.next (if_pos asked), rfl⟩

end Sys2Proof.Machine
